-- ==== Sys2Proof/Word.lean ====
section
/-! DEFINITION. The word types of the block and the plainest arithmetic on them. All registers and all fields of
descriptors, packets and flits are little-endian bit fields (R26, R189, R214, R241). -/

namespace Sys2Proof

/-- One byte of memory. -/
abbrev Byte := BitVec 8

/-- A 32-bit register, record word or FP32 value. -/
abbrev W32 := BitVec 32

/-- A 64-bit register, address word or TIME_NOW value. -/
abbrev W64 := BitVec 64

/-- The value of bits [hi:lo] of a number. -/
def bitsOf (v hi lo : Nat) : Nat := (v >>> lo) % 2 ^ (hi + 1 - lo)

/-- `v` with bits [hi:lo] replaced by the low bits of `x`. -/
def putBits (v hi lo x : Nat) : Nat :=
  let w := hi + 1 - lo
  (v - bitsOf v hi lo * 2 ^ lo) + (x % 2 ^ w) * 2 ^ lo

/-- ⌈a / b⌉ for b > 0. -/
def ceilDiv (a b : Nat) : Nat := (a + b - 1) / b

/-- Round `a` up to the next multiple of `b`. -/
def roundUp (a b : Nat) : Nat := ceilDiv a b * b

/-- ⌊log2 n⌋ for n > 0 (0 for 0). -/
def log2 (n : Nat) : Nat := Nat.log2 n

/-- Saturating addition at a maximum. -/
def satAdd (mx a b : Nat) : Nat := min mx (a + b)

end Sys2Proof
end

