-- ==== Sys2Proof/Syntax.lean ====
section
/-! DEFINITION. The commands the block takes: one constructor per row of spec/opcode_table.json, with the row's operands.
`p` is the partition whose host function sends an access (0 = the physical function, R267); `page` is a page number of the
register window (R26); `q` is a queue pair; `slot` a submission slot; `n` a link number (R237). -/

namespace Sys2Proof

/-- A packet between modules (R250). `len` and `fmt` are the LENGTH and format code that a SEND_REQ carries (R251), whose
place in the packet the spec does not give (DESIGN CHOICE log 10). -/
structure Packet where
  destMod : Nat
  srcMod : Nat
  destPart : Nat
  /-- PKIND of R250. -/
  kind : Nat
  jobTag : Nat
  key : W64
  pos : W64
  verdict : W32
  aux : W32
  len : Nat
  fmt : Nat
  data : List Byte
  deriving DecidableEq, Repr

/-- A 256-byte flit (R241). `fecOk` is false when its codeword was uncorrectable (R242); `symbols` are the FEC symbols
corrected on each lane while it arrived (R263). -/
structure Flit where
  ftype : Nat
  vc : Nat
  sop : Bool
  eop : Bool
  len : Nat
  seq : Nat
  ack : Nat
  ackValid : Bool
  nak : Bool
  credit : BitVec 48
  payload : List Byte
  crc : W32
  fecOk : Bool
  symbols : List Nat
  deriving DecidableEq, Repr

/-- One reading of all sensors (R411): `temps` pairs a THERM_SEL index (R426) with 1/16 °C; inlet and outlet in 1/16 °C;
flow in mL/min; means of the input over 1 ms in mW, mV and mA. -/
structure Sensors where
  temps : List (Nat × Int)
  inlet : Int
  outlet : Int
  flow : Nat
  mw : Nat
  mv : Nat
  ma : Nat
  deriving DecidableEq, Repr

/-- What the physical world contributes to the end of a boot phase (R356, R358, R363). -/
inductive BootOutcome where
  /-- the phase's work succeeded -/
  | done
  /-- a package-manager core, die manager or die-to-die port failed; its page -/
  | infraFail (page : Nat)
  /-- an HBM stack failed to train; its page -/
  | hbmTrain (page : Nat)
  /-- the fettling pass: for each cluster, the good physical cores out of 65 (a cluster not listed has all 65), and the
  clusters whose control core failed -/
  | fettled (good : List (Nat × List Nat)) (dead : List Nat)
  deriving DecidableEq, Repr

/-- Kinds of error on the host link (R311, R312). -/
inductive HostLinkError where
  | protocol      -- CXL.cache or CXL.mem protocol error
  | correctable   -- link-layer error signalled as correctable
  | uncorrectable -- link-layer error signalled as uncorrectable
  | recovery      -- entry to link Recovery
  | badTlp        -- TLP outside every BAR, or to a nonexistent VF
  deriving DecidableEq, Repr

/-- The commands of the block. -/
inductive Instr where
  -- doorbells and admission
  | sqTail (p q : Nat) (v : W32)
  | cqHead (p q : Nat) (v : W32)
  | restart (p q : Nat) (v : W32)
  | skip (p q : Nat) (v : W32)
  | abort (p q : Nat) (v : W32)
  | admissionTurn
  -- admitted commands start
  | gemm (q slot : Nat)
  | gemmPattern (q slot : Nat)
  | vector (q slot : Nat)
  | copy (q slot : Nat)
  | gather (q slot : Nat)
  | scatter (q slot : Nat)
  | scatterAdd (q slot : Nat)
  | checkScan (q slot : Nat)
  | collective (q slot : Nat)
  | update (q slot : Nat)
  | barrier (q slot : Nat)
  | localStage (q slot : Nat)
  | direct (q slot : Nat)
  | restore (q slot : Nat)
  | pair (q slot : Nat)
  | fetch (q slot : Nat)
  | statsRead (q slot : Nat)
  | eventSignal (q slot : Nat)
  | eventWait (q slot : Nat)
  | stepBoundary (q slot : Nat)
  | traceMark (q slot : Nat)
  | linkSend (q slot : Nat)
  | linkRecv (q slot : Nat)
  | commandComplete (q slot : Nat)
  -- array and drain
  | arrayPassStart (page need tileAt sprueMin actEnd : Nat)
  | arrayPassEnd (page : Nat)
  | tileRelease (page : Nat)
  | rerun (part : Nat)
  -- assays, memory errors, timers
  | assay (page : Nat) (ok : Bool)
  | assayDue (page : Nat)
  | hbmEccError (page : Nat) (key : W32) (addr : Nat) (uc : Bool) (reader : Option (Nat × Nat))
  | sramEccError (page word off : Nat) (uc held : Bool) (reader : Option (Nat × Nat))
  | barrierTimeout (part id : Nat)
  | stall (q : Nat)
  | deadline (q slot : Nat)
  | eventTimeout (q slot : Nat)
  -- job runner
  | jobStep (part : Nat)
  | start (p : Nat)
  | stop (p : Nat)
  -- staging
  | idleStageApply (part : Nat)
  | zeroingDone (part : Nat)
  | stagedWrite (p page off size : Nat) (v : W64)
  | discardStep (p page : Nat)
  | discardLayer (p page : Nat)
  | discardPass (p page : Nat)
  -- register accesses
  | registerWrite (p page off size : Nat) (v : W64)
  | lowHalfRead (p page off : Nat)
  | progressRead (p page : Nat)
  | sprueStatusRead (p page : Nat)
  | hold (p page : Nat)
  | holdDrained (page : Nat)
  | meterSel (p : Nat) (v : W32)
  | traceRdSel (p : Nat) (v : W64)
  | meltSel (p die win : Nat) (v : W32)
  | traceBaseWrite (p off : Nat) (v : W64)
  | itraceEnable (p page : Nat) (v : W32)
  | routerIdWrite (p die : Nat) (v : W32)
  | routeDataWrite (p die : Nat) (v : W32)
  | create (p : Nat)
  | delete (p : Nat)
  | abortAll (p : Nat)
  | unfreeze (p : Nat) (v : W32)
  | pfRelease (p : Nat) (v : W32)
  | errAck (p page : Nat) (v : W32)
  | errAckThrough (p page : Nat) (v : W32)
  | retrain (p n : Nat)
  | linkCtrlProbe (p n : Nat)
  | remeasure (p : Nat)
  | ckptRelease (p : Nat)
  | ckptNow (p : Nat)
  -- firmware
  | fwUpdate (p : Nat)
  | cancel (p : Nat)
  | fwCheckDone
  | fwFlashWriteDone (writeOk : Bool)
  | fwPartitionMove (part : Nat)
  -- power states
  | park (p : Nat)
  | unpark (p : Nat)
  | aux (p : Nat)
  | parkEntry
  | autoPark
  | hbmSelfRefreshReturn
  | linkLowPowerReturn
  | capWWrite (p : Nat) (v : W32)
  -- halting
  | halt (p page : Nat)
  | haltDrained (page : Nat)
  | resume (p page : Nat)
  | step (p page : Nat)
  | islHalt (p page : Nat) (v : W64)
  | haltNoticeSend
  -- resets and boot
  | perstAssert
  | perstRelease
  | bootPhaseEnd (r : BootOutcome)
  | hotReset
  | flr (fn : Nat)
  | pfFlr
  -- host link
  | cxlLinkTraining (cxl : Bool) (speed width retimers : Nat) (sris : Bool)
  | h2dSnoop (addr : Nat)
  | ringPoll (part ring : Nat)
  | cxlMemRead (hpa len : Nat)
  | cxlMemWrite (hpa : Nat) (data : List Byte)
  | atsTranslationResponse (q slot vpage : Nat) (ok : Bool)
  | priResponse (q slot : Nat) (success : Bool)
  | atsInvalidation (part vpage : Nat)
  -- data object exchange
  | doeDiscovery (index : Nat)
  | cdatTableAccess (handle : Nat)
  | imagePush (off : W32) (data : List Byte)
  -- SPDM
  | getVersion
  | getCapabilities
  | negotiateAlgorithms
  | getDigests
  | getCertificate (slot off len : Nat)
  | challenge (slot : Nat) (nonce : List Byte)
  | getMeasurements (index : Nat) (signed : Bool) (nonce : List Byte)
  -- sideband
  | entdaa (addr : Nat)
  | rstdaa
  | setEndpointId (eid : Nat)
  | alertResponseAddress
  | queryDeviceIdentifiers
  | getFirmwareParameters
  | requestUpdate
  | passComponentTable (component : Nat)
  | updateComponent (component size : Nat)
  | requestFirmwareData (off : Nat) (data : List Byte)
  | transferComplete
  | verifyComplete
  | applyComplete
  | activateFirmware
  | getStatus
  | cancelUpdateComponent
  | cancelUpdate
  | getPdrRepositoryInfo
  | getPdr (handle : Nat)
  | getSensorReading (id : Nat)
  | getStateSensorReadings (id : Nat)
  | setStateEffecterStates (id st : Nat)
  | setNumericEffecterValue (id value : Nat)
  | getNumericEffecterValue (id : Nat)
  | setEventReceiver (eid : Nat)
  | platformEventAccepted
  -- links
  | partnerDetect (n : Nat)
  | trainConverge (n lanes : Nat) (lowLoss : Bool)
  | alignLock (n : Nat)
  | trainingTimeout (n : Nat)
  | flitReceived (n : Nat) (f : Flit)
  | laneSignalLoss (n lane : Nat)
  | linkWindowEval (page : Nat)
  | ident (n peer peerLink variant lanes : Nat)
  | probe (n num : Nat) (t1 : W64)
  | probeResp (n num : Nat) (t1 t2 t3 : W64)
  | probeTick (n : Nat)
  | timeTree (n root hops : Nat) (off : W64)
  | driftProbe
  | narrow (n : Nat) (upper : Bool)
  | haltNotice (n module part : Nat) (infra : Bool) (seq ttl : Nat)
  | packetForward (die : Nat) (pk : Packet)
  | routeStuck (die : Nat)
  -- packets for this module
  | sendReq (die : Nat) (pk : Packet)
  | sendClear (die : Nat) (pk : Packet)
  | sendData (die : Nat) (pk : Packet)
  | sendCancel (die : Nat) (pk : Packet)
  | sendReject (die : Nat) (pk : Packet)
  | sendBusy (die : Nat) (pk : Packet)
  | sendRetry (part : Nat)
  | recvTimeout (q slot : Nat)
  | collReady (die : Nat) (pk : Packet)
  | collData (die : Nat) (pk : Packet)
  | collAck (die : Nat) (pk : Packet)
  | collSeal (die : Nat) (pk : Packet)
  | collCancel (die : Nat) (pk : Packet)
  | collectiveTimeout (q slot : Nat)
  -- snapshots and periodic work
  | snapStreamDone (part : Nat)
  | ckptPushDone (part : Nat)
  | budgetWindow
  | energyAttribution (mj : Nat)
  | bandwidthInterval
  | capControlTick (mean100us mean1ms : Nat)
  | inputTrip
  | sensorSample (r : Sensors)
  | thermalRelease
  | flowThrottleEnd
  | inputRise
  | inputRange
  | undervoltage
  | overvoltage
  | inputOff
  | leak
  | feedChanged (pins : Nat)
  | refLost
  | refReturn
  | readyReturnDone
  | d2dFail (page : Nat)
  | leakClear
  | hostLinkError (k : HostLinkError)
  | hdmDecoderCommit (dec base size skip ways gran : Nat) (lock : Bool)
  | unknownDoeProtocol (vendor ptype : Nat)
  deriving DecidableEq, Repr

end Sys2Proof
end

