-- ==== Sys2Proof/Machine/Flags.lean ====
section
/-! DEFINITION. Number formats, rounding, conversions and their flags (R55 to R83): exact values, the rounding modes, decoding and
encoding of every element format, block scales, the random draws, CRC-64, and the flag computations of DOT_FLAGS and
VEC_FLAGS. -/

namespace Sys2Proof.Machine

/-! ### Exact values -/

/-- An exact rational: ± num / den × 2^exp, den > 0. Zero keeps its sign. -/
structure Q where
  neg : Bool
  num : Nat
  den : Nat
  exp : Int
  deriving DecidableEq, Repr

/-- A decoded number: the canonical NaN, an infinity, or a finite value. -/
inductive Val where
  | nan
  | inf (neg : Bool)
  | fin (q : Q)
  deriving DecidableEq, Repr

def Q.dyadic (neg : Bool) (num : Nat) (exp : Int) : Q := { neg := neg, num := num, den := 1, exp := exp }
def Q.zero (neg : Bool) : Q := Q.dyadic neg 0 0
def Q.one : Q := Q.dyadic false 1 0
def Q.ofNat (n : Nat) : Q := Q.dyadic false n 0
def Q.ofInt (i : Int) : Q := Q.dyadic (decide (i < 0)) i.natAbs 0
def Q.isZero (a : Q) : Bool := a.num = 0
def Q.abs (a : Q) : Q := { a with neg := false }
def Q.negate (a : Q) : Q := { a with neg := !a.neg }

def Q.mul (a b : Q) : Q := { neg := xor a.neg b.neg, num := a.num * b.num, den := a.den * b.den, exp := a.exp + b.exp }

/-- Exact division by a non-zero value. -/
def Q.div (a b : Q) : Q := { neg := xor a.neg b.neg, num := a.num * b.den, den := a.den * b.num, exp := a.exp - b.exp }

/-- The numerators of two values over one denominator and exponent. -/
def Q.align (a b : Q) : Int × Int × Nat × Int :=
  let e := min a.exp b.exp
  let x : Int := (a.num * b.den * 2 ^ (a.exp - e).toNat : Nat)
  let y : Int := (b.num * a.den * 2 ^ (b.exp - e).toNat : Nat)
  (if a.neg then -x else x, if b.neg then -y else y, a.den * b.den, e)

/-- Exact sum. A zero sum is −0 only if both are negative zeros. -/
def Q.add (a b : Q) : Q :=
  let (x, y, d, e) := a.align b
  let z := x + y
  if z = 0 then Q.zero (a.neg && b.neg && a.num = 0 && b.num = 0)
  else { neg := decide (z < 0), num := z.natAbs, den := d, exp := e }

def Q.sub (a b : Q) : Q := a.add b.negate

def Q.lt (a b : Q) : Bool := let (x, y, _, _) := a.align b; decide (x < y)
def Q.le (a b : Q) : Bool := let (x, y, _, _) := a.align b; decide (x ≤ y)
def Q.eq (a b : Q) : Bool := let (x, y, _, _) := a.align b; decide (x = y)

/-- ⌊log2⌋ of a non-zero magnitude. -/
def Q.log2 (a : Q) : Int :=
  let e0 : Int := (Nat.log2 a.num : Int) - Nat.log2 a.den
  let ok := if 0 ≤ e0 then decide (a.den * 2 ^ e0.toNat ≤ a.num) else decide (a.den ≤ a.num * 2 ^ (-e0).toNat)
  (if ok then e0 else e0 - 1) + a.exp

/-! ### Rounding (R72, R73) -/

/-- Rounding modes: ties to even, ties away, toward +∞, toward −∞, toward zero, and stochastic with n bits of draw r. -/
inductive Rnd where
  | rne | rna | rup | rdown | rzero
  | sr (n r : Nat)
  deriving DecidableEq, Repr

/-- Round a magnitude num / den to an integer. -/
def roundNat (m : Rnd) (neg : Bool) (num den : Nat) : Nat :=
  let lo := num / den
  let rem := num % den
  if rem = 0 then lo
  else match m with
    | .rne => if den < 2 * rem || (2 * rem = den && lo % 2 = 1) then lo + 1 else lo
    | .rna => if den ≤ 2 * rem then lo + 1 else lo
    | .rup => if neg then lo else lo + 1
    | .rdown => if neg then lo + 1 else lo
    | .rzero => lo
    | .sr n r => if 2 ^ n ≤ (2 * rem * 2 ^ n + den) / (2 * den) + r then lo + 1 else lo

/-- Whether num / den is an integer. -/
def exactNat (num den : Nat) : Bool := num % den = 0

/-- A magnitude in units of 2^u, as a fraction. -/
def Q.inUnits (a : Q) (u : Int) : Nat × Nat :=
  let e := a.exp - u
  if 0 ≤ e then (a.num * 2 ^ e.toNat, a.den) else (a.num, a.den * 2 ^ (-e).toNat)

/-- A value rounded to a floating-point grid: ± sig × 2^unit, and whether it is inexact. -/
structure Rounded where
  neg : Bool
  sig : Nat
  unit : Int
  inexact : Bool
  deriving DecidableEq, Repr

/-- Round to `p` significant bits; with `sub`, no finer than the subnormal grid of smallest normal exponent `emin`. -/
def Q.round (a : Q) (p : Nat) (emin : Int) (sub : Bool) (m : Rnd) : Rounded :=
  if a.num = 0 then { neg := a.neg, sig := 0, unit := 0, inexact := false }
  else
    let e := a.log2
    let e := if sub && decide (e < emin) then emin else e
    let u := e - ((p : Int) - 1)
    let f := a.inUnits u
    { neg := a.neg, sig := roundNat m a.neg f.1 f.2, unit := u, inexact := !exactNat f.1 f.2 }

def Rounded.q (r : Rounded) : Q := Q.dyadic r.neg r.sig r.unit

/-! ### Element formats (R55, R57) -/

/-- A floating-point element format: exponent and significand bits, bias, whether it has infinities. -/
structure FFmt where
  eb : Nat
  mb : Nat
  bias : Nat
  hasInf : Bool
  deriving DecidableEq, Repr

def fFP64 : FFmt := ⟨11, 52, 1023, true⟩
def fFP32 : FFmt := ⟨8, 23, 127, true⟩
def fFP16 : FFmt := ⟨5, 10, 15, true⟩
def fBF16 : FFmt := ⟨8, 7, 127, true⟩
def fE4M3 : FFmt := ⟨4, 3, 7, false⟩
def fE5M2 : FFmt := ⟨5, 2, 15, true⟩
def fE2M1 : FFmt := ⟨2, 1, 1, false⟩

def FFmt.bits (f : FFmt) : Nat := 1 + f.eb + f.mb
def FFmt.emin (f : FFmt) : Int := 1 - f.bias
def FFmt.prec (f : FFmt) : Nat := f.mb + 1

/-- Whether every code of the format is finite: E2M1 has no NaN and no infinity. -/
def FFmt.allFinite (f : FFmt) : Bool := f = fE2M1

/-- Largest finite magnitude (EMAX). -/
def FFmt.emax (f : FFmt) : Q :=
  if f = fE2M1 then Q.ofNat 6
  else if f = fE4M3 then Q.ofNat 448
  else Q.dyadic false (2 ^ (f.mb + 1) - 1) ((2 ^ f.eb - 2 : Nat) - (f.bias : Int) - f.mb)

/-- The canonical NaN (R70): only the top significand bit set, or every bit for E4M3; 0x7E for E5M2. -/
def FFmt.nan (f : FFmt) : Nat :=
  if f = fE4M3 then 0x7F else (2 ^ f.eb - 1) * 2 ^ f.mb + 2 ^ (f.mb - 1)

def FFmt.infBits (f : FFmt) (neg : Bool) : Nat := (2 ^ f.eb - 1) * 2 ^ f.mb + (if neg then 2 ^ (f.eb + f.mb) else 0)

/-- Whether a code is subnormal. -/
def FFmt.isSub (f : FFmt) (b : Nat) : Bool := bitsOf b (f.mb + f.eb - 1) f.mb = 0 && b % 2 ^ f.mb ≠ 0

/-- The value of a code, subnormals included. -/
def FFmt.decode (f : FFmt) (b : Nat) : Val :=
  let neg := b.testBit (f.eb + f.mb)
  let e := bitsOf b (f.mb + f.eb - 1) f.mb
  let m := b % 2 ^ f.mb
  if e = 2 ^ f.eb - 1 && f.hasInf then (if m = 0 then .inf neg else .nan)
  else if e = 2 ^ f.eb - 1 && m = 2 ^ f.mb - 1 && f = fE4M3 then .nan
  else if e = 0 then .fin (Q.dyadic neg m (f.emin - f.mb))
  else .fin (Q.dyadic neg (2 ^ f.mb + m) ((e : Int) - f.bias - f.mb))

/-- The code of a rounded value that the format holds. -/
def FFmt.pack (f : FFmt) (r : Rounded) : Nat :=
  let sgn := if r.neg then 2 ^ (f.eb + f.mb) else 0
  if r.sig = 0 then sgn
  else
    let l := Nat.log2 r.sig
    let e : Int := l + r.unit
    if e < f.emin then sgn + r.sig * 2 ^ (r.unit - (f.emin - f.mb)).toNat
    else sgn + (e + f.bias).toNat * 2 ^ f.mb +
      (if l ≤ f.mb then r.sig * 2 ^ (f.mb - l) else r.sig / 2 ^ (l - f.mb)) % 2 ^ f.mb

/-- The code of ±EMAX. -/
def FFmt.maxBits (f : FFmt) (neg : Bool) : Nat :=
  let m := if f = fE4M3 then 0x7E else if f = fE2M1 then 0x7 else (2 ^ f.eb - 2) * 2 ^ f.mb + (2 ^ f.mb - 1)
  m + (if neg then 2 ^ (f.eb + f.mb) else 0)

/-- What a conversion counts: inputs flushed, outputs flushed, saturations, NaNs written from non-NaN inputs. -/
structure Cvt where
  flushIn : Nat := 0
  flushOut : Nat := 0
  sat : Nat := 0
  nanw : Nat := 0
  deriving DecidableEq, Repr

def Cvt.add (a b : Cvt) : Cvt :=
  { flushIn := a.flushIn + b.flushIn, flushOut := a.flushOut + b.flushOut, sat := a.sat + b.sat, nanw := a.nanw + b.nanw }

/-- Narrow a value into a floating-point element (R68, R71): tiny results become zero of their sign. -/
def FFmt.narrow (f : FFmt) (m : Rnd) : Val → Nat × Cvt
  | .nan => (f.nan, {})
  | .inf neg => if f.hasInf then (f.infBits neg, {}) else (f.nan, { nanw := 1 })
  | .fin q =>
    let r := q.round f.prec f.emin false m
    if r.sig = 0 then (f.pack r, {})
    else if f.emax.lt r.q.abs then (f.maxBits q.neg, { sat := 1 })
    else if r.q.abs.lt (Q.dyadic false 1 f.emin) then (f.pack { r with sig := 0 }, { flushOut := 1 })
    else (f.pack r, {})

/-- Narrow to an element grid with subnormals and saturation, for elements inside block formats (R65 step 4). -/
def FFmt.narrowSub (f : FFmt) (m : Rnd) (q : Q) : Nat × Bool :=
  let r := q.round f.prec f.emin true m
  if f.emax.lt r.q.abs then (f.maxBits q.neg, true) else (f.pack r, false)

/-- Read an element, flushing a subnormal to zero of its sign (R68). -/
def FFmt.read (f : FFmt) (b : Nat) : Val × Nat :=
  if f.isSub b then (.fin (Q.zero (b.testBit (f.eb + f.mb))), 1) else (f.decode b, 0)

/-- Two's complement integer of `n` bits. -/
def intOf (n b : Nat) : Int := if 2 ^ (n - 1) ≤ b % 2 ^ n then (b % 2 ^ n : Int) - 2 ^ n else (b % 2 ^ n : Int)
def intBits (n : Nat) (i : Int) : Nat := (i % (2 ^ n : Nat)).toNat

/-- Narrow a value to an integer grid of `n` bits with limit `2^(n-1) - 1` (R56, R71). -/
def narrowInt (n : Nat) (m : Rnd) : Val → Nat × Cvt
  | .nan => (0, {})
  | .inf neg => (intBits n (if neg then -(2 ^ (n - 1) - 1 : Nat) else (2 ^ (n - 1) - 1 : Nat)), { sat := 1 })
  | .fin q =>
    let f := q.inUnits 0
    let k := roundNat m q.neg f.1 f.2
    let mx := 2 ^ (n - 1) - 1
    if mx < k then (intBits n (if q.neg then -(mx : Int) else mx), { sat := 1 })
    else (intBits n (if q.neg then -(k : Int) else k), {})

/-! ### Format codes (R57) -/

def fmtFP32 : Nat := 0x01
def fmtFP16 : Nat := 0x02
def fmtBF16 : Nat := 0x03
def fmtFB8E4 : Nat := 0x04
def fmtFB8E5 : Nat := 0x05
def fmtFB4 : Nat := 0x06
def fmtIB4 : Nat := 0x07
def fmtIB2 : Nat := 0x08
def fmtIB1 : Nat := 0x09
def fmtINT8 : Nat := 0x0A
def fmtFP64 : Nat := 0x10
def fmtFP8E4 : Nat := 0x11
def fmtFP8E5 : Nat := 0x12
def fmtINT4 : Nat := 0x13
def fmtG16 : Nat := 0x14

def fmtValid (c : Nat) : Bool := decide (1 ≤ c ∧ c ≤ 0x0A) || decide (0x10 ≤ c ∧ c ≤ 0x14)

/-- Element bits of a format code. -/
def fmtBits (c : Nat) : Nat :=
  if c = fmtFP32 then 32 else if c = fmtFP64 then 64
  else if c = fmtFP16 || c = fmtBF16 || c = fmtG16 then 16
  else if c = fmtFB4 || c = fmtIB4 || c = fmtINT4 then 4
  else if c = fmtIB2 then 2 else if c = fmtIB1 then 1 else 8

/-- Block-scaled formats FB8, FB4, IB4, IB2, IB1: block of 16 with a UE5M3 scale (R59). -/
def fmtBlock (c : Nat) : Bool := decide (fmtFB8E4 ≤ c ∧ c ≤ fmtIB1)

/-- Formats with a scale plane, and elements per scale byte. -/
def fmtPlane (c : Nat) : Bool := fmtBlock c || c = fmtG16
def fmtBlockLen (c : Nat) : Nat := if c = fmtG16 then 256 else 16

/-- Formats with a tensor scale. -/
def fmtScaled (c : Nat) : Bool := fmtBlock c || c = fmtINT8 || c = fmtINT4

/-- The floating-point element format inside a format code, where it has one. -/
def fmtFloat (c : Nat) : Option FFmt :=
  if c = fmtFP32 then some fFP32 else if c = fmtFP16 || c = fmtG16 then some fFP16
  else if c = fmtBF16 then some fBF16 else if c = fmtFB8E4 || c = fmtFP8E4 then some fE4M3
  else if c = fmtFB8E5 || c = fmtFP8E5 then some fE5M2 else if c = fmtFB4 then some fE2M1
  else if c = fmtFP64 then some fFP64 else none

/-- EMAX of a block format's elements (R65): IB4 elements are INT4's, IB2 and IB1 use 1. -/
def fmtEmax (c : Nat) : Q :=
  match fmtFloat c with
  | some f => f.emax
  | none => if c = fmtIB4 || c = fmtINT4 then Q.ofNat 7 else if c = fmtINT8 then Q.ofNat 127 else Q.one

/-- The value of a UE5M3 scale code; none for the non-finite code (R62). -/
def ue5m3 (b : Nat) : Option Q :=
  let e := bitsOf b 7 3
  let m := b % 8
  if b % 256 = 0xFF then none
  else if e = 0 then some (Q.dyadic false m (-17)) else some (Q.dyadic false (8 + m) ((e : Int) - 18))

/-- The value of one element's code, before scales; the second part is 1 when it was flushed (R61, R68). -/
def elemVal (c b : Nat) : Val × Nat :=
  if c = fmtINT8 then (.fin (Q.ofInt (intOf 8 b)), 0)
  else if c = fmtINT4 || c = fmtIB4 then (.fin (Q.ofInt (intOf 4 b)), 0)
  else if c = fmtIB2 then
    if b % 4 = 1 then (.fin Q.one, 0) else if b % 4 = 3 then (.fin Q.one.negate, 0)
    else (.fin (Q.zero false), if b % 4 = 2 then 1 else 0)
  else if c = fmtIB1 then (.fin { Q.one with neg := b % 2 = 1 }, 0)
  else match fmtFloat c with
    | some f => if fmtBlock c then (f.decode b, 0) else f.read b
    | none => (.nan, 0)

/-- The code of a block's signed exponent in G16: −100 to +100, else non-finite (R66). -/
def g16Code (b : Nat) : Option Int :=
  let s := intOf 8 b
  if -100 ≤ s ∧ s ≤ 100 then some s else none

/-- The value of an element with its block scale byte, without the tensor scale (R58, R64, R66). -/
def scaledVal (c b sc : Nat) : Val × Nat :=
  if fmtBlock c then
    if sc % 256 = 0 then (.fin (Q.zero false), 0)
    else match ue5m3 sc with
      | none => (.nan, 0)
      | some k => match elemVal c b with
        | (.fin q, n) => (.fin (q.mul k), n)
        | r => r
  else if c = fmtG16 then
    match g16Code sc with
    | none => (.nan, 0)
    | some s => match elemVal c b with
      | (.fin q, n) => (.fin (q.mul (Q.dyadic false 1 s)), n)
      | r => r
  else elemVal c b

def Val.mulQ (v : Val) (t : Q) : Val :=
  match v with
  | .fin q => .fin (q.mul t)
  | w => w

def Val.isNan : Val → Bool
  | .nan => true
  | _ => false
def Val.isFin : Val → Bool
  | .fin _ => true
  | _ => false
def Val.q : Val → Q
  | .fin q => q
  | _ => Q.zero false
def Val.negB : Val → Bool
  | .nan => false
  | .inf n => n
  | .fin q => q.neg

/-- FP32 codes to values and back, without flushing. -/
def f32 (b : Nat) : Val := fFP32.decode b
def f32Q (b : Nat) : Q := (f32 b).q
def w32 (w : W32) : Val := fFP32.decode w.toNat

/-! ### Encoding blocks (R65, R67) -/

/-- What encoding a block gives: the element codes, the scale byte, the kind of block, and its conversion counts. -/
inductive BlkKind where
  | normal | zero | saturated | flushed | nonfinite
  deriving DecidableEq, Repr

structure Blk where
  codes : List Nat
  scale : Nat
  kind : BlkKind
  cvt : Cvt
  deriving DecidableEq, Repr

/-- The largest magnitude of finite values. -/
def maxAbs (l : List Q) : Q := l.foldl (fun a q => if a.lt q.abs then q.abs else a) (Q.zero false)

/-- The smallest finite scale code that holds max-abs `a` (R65 step 3); none when no code does. -/
def scaleFor (c : Nat) (t a : Q) : Option Nat :=
  ((List.range 254).map (· + 1)).find? (fun k => match ue5m3 k with
    | some d => a.le ((d.mul t).mul (fmtEmax c))
    | none => false)

/-- One element of a block format on its grid (R65 step 4): code, and whether it saturated. -/
def blkElem (c : Nat) (m : Rnd) (q : Q) : Nat × Bool :=
  if c = fmtIB1 then ((if q.neg then 1 else 0), decide (Q.one.lt q.abs))
  else if c = fmtIB2 then
    let f := q.inUnits 0
    let k := roundNat m q.neg f.1 f.2
    (if k = 0 then 0 else if q.neg then 3 else 1, decide (1 < k))
  else if c = fmtIB4 then
    let r := narrowInt 4 m (.fin q)
    (r.1, decide (0 < r.2.sat))
  else match fmtFloat c with
    | some f => f.narrowSub m q
    | none => (0, false)

/-- Whether an element code is a zero: an IB1 element never is. -/
def blkZero (c b : Nat) : Bool :=
  if c = fmtIB1 then false else if c = fmtFB8E4 || c = fmtFB8E5 then b % 128 = 0 else if c = fmtFB4 then b % 8 = 0
  else b = 0

/-- Encode a block into a block-scaled format with tensor scale t (R65); `m i` is the rounding of element i. An element that
becomes zero is written +0 (as in the example of R137; DEDUCED log 23). -/
def encodeBlock (c : Nat) (t : Q) (m : Nat → Rnd) (vals : List Val) : Blk :=
  if vals.any (fun v => !v.isFin) then
    { codes := vals.map (fun _ => 0), scale := 0xFF, kind := .nonfinite,
      cvt := { nanw := if vals.any Val.isNan then 0 else 1 } }
  else
    let qs := vals.map Val.q
    let a := maxAbs qs
    if a.num = 0 then { codes := vals.map (fun _ => 0), scale := 0, kind := .zero, cvt := {} }
    else
      let sc := (scaleFor c t a).getD 0xFE
      let sat := (scaleFor c t a).isNone
      let d := ((ue5m3 sc).getD Q.one).mul t
      let es := qs.zipIdx.map (fun (q, i) => blkElem c (m i) (q.div d))
      let codes := es.map (fun e => if blkZero c e.1 then 0 else e.1)
      let nsat := (es.filter (fun e => e.2)).length
      if es.all (fun e => blkZero c e.1) then
        { codes := codes, scale := 0, kind := .flushed, cvt := {} }
      else { codes := codes, scale := sc, kind := if sat then .saturated else .normal, cvt := { sat := nsat } }

/-- Encode a G16 block with code s (R67); the flag says it is an overflow block. -/
def encodeG16 (s : Int) (m : Nat → Rnd) (vals : List Val) : Blk × Bool :=
  if vals.any (fun v => !v.isFin) then
    ({ codes := vals.map (fun _ => 0x7E00), scale := 0x80, kind := .nonfinite,
       cvt := { nanw := if vals.any Val.isNan then 0 else 1 } }, false)
  else
    let es := vals.zipIdx.map (fun (v, i) => fFP16.narrow (m i) (.fin (v.q.mul (Q.dyadic false 1 (-s)))))
    let cv := es.foldl (fun a e => a.add e.2) {}
    ({ codes := es.map (·.1), scale := intBits 8 s,
       kind := if vals.all (fun v => v.q.num = 0) then .zero else if 0 < cv.sat then .saturated else .normal,
       cvt := cv }, decide (0 < cv.sat))

/-- Narrow one value into a format without blocks (R71); `t` is the tensor scale of INT8 and INT4 (R56). -/
def narrowElem (c : Nat) (t : Q) (m : Rnd) (v : Val) : Nat × Cvt :=
  if c = fmtINT8 then narrowInt 8 m (match v with | .fin q => .fin (q.div t) | w => w)
  else if c = fmtINT4 then narrowInt 4 m (match v with | .fin q => .fin (q.div t) | w => w)
  else match fmtFloat c with
    | some f => f.narrow m v
    | none => (0, {})

/-! ### Dot products (R80 to R83) -/

/-- Bits of DOT_FLAGS (R83). -/
def dfNAN_IN : Nat := 1
def dfINVALID : Nat := 2
def dfPROD_OVF : Nat := 4
def dfSUM_OVF : Nat := 8
def dfUFL_FLUSH : Nat := 16
def dfCVT_SAT : Nat := 32
def dfCVT_NAN : Nat := 64

/-- A product of two values: infinity times zero is invalid (R81 rule 2). -/
inductive Prod where
  | nan
  | invalid
  | inf (neg : Bool) (ovf : Bool)
  | fin (q : Q)
  deriving DecidableEq, Repr

def product (a b : Val) : Prod :=
  match a, b with
  | .nan, _ => .nan
  | _, .nan => .nan
  | .inf n, .inf m => .inf (xor n m) false
  | .inf n, .fin q => if q.num = 0 then .invalid else .inf (xor n q.neg) false
  | .fin q, .inf n => if q.num = 0 then .invalid else .inf (xor n q.neg) false
  | .fin p, .fin q => let r := p.mul q
    if fFP32.emax.lt r.abs then .inf r.neg true else .fin r

/-- Round a finite sum to FP32 in RNE or the given mode (R81 rule 6): code and flags. -/
def roundF32 (m : Rnd) (q : Q) : Nat × Nat :=
  let r := q.round 24 (-126) false m
  if r.sig = 0 then (fFP32.pack r, 0)
  else if fFP32.emax.lt r.q.abs then (fFP32.infBits q.neg, dfSUM_OVF)
  else if r.q.abs.lt (Q.dyadic false 1 (-126)) then (fFP32.pack { r with sig := 0 }, dfUFL_FLUSH)
  else (fFP32.pack r, 0)

/-- The exponent E of the leading bit of the largest non-zero product (R89). -/
def leadExp (qs : List Q) : Int :=
  match qs.filter (fun q => !q.isZero) with
  | [] => 0
  | q :: r => r.foldl (fun e x => max e x.log2) q.log2

/-- A product in units of 2^u towards zero, and whether bits were lost. -/
def Q.window (q : Q) (u : Int) : Int × Bool :=
  let f := q.inUnits u
  let m : Int := Int.ofNat (f.1 / f.2)
  (if q.neg then -m else m, !exactNat f.1 f.2)

/-- The finite sum of a column in its 64-bit alignment window (R89): bits below 2^(E-56) only break a tie away from zero. A sum
that is zero in the window is +0; a column of zero products is -0 only if every product is -0. -/
def windowSum (l : List Prod) : Q :=
  let qs := l.filterMap (fun p => match p with | .fin q => some q | _ => none)
  if qs.all Q.isZero then Q.zero (!qs.isEmpty && qs.all (fun q => q.neg))
  else
    let u := leadExp qs - 56
    let w := qs.map (fun q => q.window u)
    let t : Int := (w.map (·.1)).foldl (· + ·) 0
    if t = 0 then Q.zero false
    else Q.dyadic (decide (t < 0)) (t.natAbs * 2 ^ 64 + (if w.any (·.2) then 1 else 0)) (u - 64)

/-- The column sum of a list of products (R81, R89): FP32 code and flags. -/
def columnSum (l : List Prod) : Nat × Nat :=
  let anyNan := l.any (fun p => p = .nan)
  let anyInv := l.any (fun p => p = .invalid)
  let ovf := l.any (fun p => match p with | .inf _ o => o | _ => false)
  let pos := l.any (fun p => match p with | .inf n _ => !n | _ => false)
  let neg := l.any (fun p => match p with | .inf n _ => n | _ => false)
  let fl := (if anyNan then dfNAN_IN else 0) + (if anyInv || (pos && neg) then dfINVALID else 0) +
    (if ovf then dfPROD_OVF else 0)
  if anyNan || anyInv || (pos && neg) then (fFP32.nan, fl)
  else if pos then (fFP32.infBits false, fl)
  else if neg then (fFP32.infBits true, fl)
  else
    let r := roundF32 .rne (windowSum l)
    (r.1, fl ||| r.2)

/-- The scale T = RNE(ta × tw) (R82). -/
def scaleT (ta tw : Q) : Nat × Nat := roundF32 .rne (ta.mul tw)

/-- A column sum times T (R82). -/
def scaleSum (v t : Nat) : Nat × Nat :=
  match f32 v, f32 t with
  | .nan, _ => (fFP32.nan, 0)
  | _, .nan => (fFP32.nan, 0)
  | .inf n, .inf m => (fFP32.infBits (xor n m), 0)
  | .inf n, .fin q => if q.num = 0 then (fFP32.nan, dfINVALID) else (fFP32.infBits (xor n q.neg), 0)
  | .fin q, .inf n => if q.num = 0 then (fFP32.nan, dfINVALID) else (fFP32.infBits (xor n q.neg), 0)
  | .fin p, .fin q => roundF32 .rne (p.mul q)

/-- One K-chunk addition into the output tile (R80 step 4, R82). -/
def addF32 (m : Rnd) (a b : Nat) : Nat × Nat :=
  match f32 a, f32 b with
  | .nan, _ => (fFP32.nan, 0)
  | _, .nan => (fFP32.nan, 0)
  | .inf n, .inf k => if n = k then (fFP32.infBits n, 0) else (fFP32.nan, dfINVALID)
  | .inf n, .fin _ => (fFP32.infBits n, 0)
  | .fin _, .inf n => (fFP32.infBits n, 0)
  | .fin p, .fin q => roundF32 m (p.add q)

/-! ### Random draws (R75) -/

def mul32 (a b : Nat) : Nat × Nat := ((a * b) / 2 ^ 32 % 2 ^ 32, (a * b) % 2 ^ 32)

/-- One Philox-4x32 round on four counter words with two key words. -/
def philoxRound (c : Nat × Nat × Nat × Nat) (k : Nat × Nat) : Nat × Nat × Nat × Nat :=
  let p0 := mul32 0xD2511F53 c.1
  let p1 := mul32 0xCD9E8D57 c.2.2.1
  (p1.1 ^^^ c.2.1 ^^^ k.1, p1.2, p0.1 ^^^ c.2.2.2 ^^^ k.2, p0.2)

def philox (c : Nat × Nat × Nat × Nat) (k : Nat × Nat) : Nat → Nat × Nat × Nat × Nat
  | 0 => c
  | n + 1 => philox (philoxRound c k) ((k.1 + 0x9E3779B9) % 2 ^ 32, (k.2 + 0xBB67AE85) % 2 ^ 32) n

/-- An n-bit draw (R75). -/
def draw (seed stream step lane purpose ordinal n : Nat) : Nat :=
  let key := ((seed % 2 ^ 32) ^^^ stream, seed / 2 ^ 32 % 2 ^ 32)
  let pos := purpose * 2 ^ 60 + ordinal / 4
  let o := philox (pos % 2 ^ 32, pos / 2 ^ 32, lane, step) key 10
  let w := if ordinal % 4 = 0 then o.1 else if ordinal % 4 = 1 then o.2.1 else if ordinal % 4 = 2 then o.2.2.1 else o.2.2.2
  w % 2 ^ n

/-! ### CRC-64 of the XZ format (R331) -/

def crcBits : Nat → Nat → Nat
  | 0, c => c
  | n + 1, c => crcBits n (if c % 2 = 1 then (c / 2) ^^^ 0xC96C5795D7870F42 else c / 2)

def crc64 (l : List Byte) : Nat :=
  (l.foldl (fun c b => crcBits 8 (c ^^^ b.toNat)) 0xFFFFFFFFFFFFFFFF) ^^^ 0xFFFFFFFFFFFFFFFF

end Sys2Proof.Machine
end

