-- ==== Sys2Proof/Config.lean ====
section
/-! DEFINITION. The free values: what the spec leaves open has no body here, so that no proof can see a value of it
(logs 2, 7, 8, 9). The assembly variant, serial number and fuses are data of `State`, not of this file. -/

namespace Sys2Proof

/-- A value the spec calls unpredictable or does not state. It is applied to the counter `State.fresh`, which each use
advances, so that two uses are never known to agree (DESIGN CHOICE log 2). -/
opaque Config.free : Nat → W64

/-- How far the vector unit's exp, log, tanh and reciprocal square root (operation 0 to 3) of an operand lie from the
correctly rounded result, 0 to 4 standing for -2 to +2 units in the last place (R78; DEDUCED log 7). -/
opaque Config.ulpOff : Nat → W64 → Fin 5

/-- SHA-512 (R354): an outside standard that the spec names and does not restate (DESIGN CHOICE log 8). -/
opaque Config.sha512 : List Byte → BitVec 512

/-- RSASSA-PSS verification under (modulus, exponent) of a digest and a signature (R354; DESIGN CHOICE log 8). -/
opaque Config.pssVerify : BitVec 4096 → W32 → BitVec 512 → BitVec 4096 → Bool

/-- RSASSA-PSS signing with the identity key that the helper data gives (R365, R367; DESIGN CHOICE log 8). -/
opaque Config.pssSign : List Byte → BitVec 512 → BitVec 4096

/-- The boot ROM's four SHA-512 hashes of image-signing keys (R355; DESIGN CHOICE log 8). -/
opaque Config.romKeyHash : Nat → BitVec 512

/-- SHA-512 of the identity public key that the helper data gives (R362, R365; DESIGN CHOICE log 8). -/
opaque Config.identityFingerprint : List Byte → BitVec 512

/-- Whether the key regenerates from the helper data (R365; DESIGN CHOICE log 8). -/
opaque Config.keyOk : List Byte → Bool

/-- R362's judgement of a configuration record against a fingerprint: 0 valid, 1 CONFIG_INVALID, 2 CONFIG_BINDING. Its layout is not
given (DESIGN CHOICE log 72). -/
opaque Config.recordCheck : List Byte → BitVec 512 → Fin 3

/-- Fields of a configuration record: 0 serial number, 1 replacement class, 2 snapshot format versions (R362; DESIGN CHOICE log 72). -/
opaque Config.recordField : Nat → List Byte → Nat

/-- Whether a certificate chain meets R366 for a fingerprint (DESIGN CHOICE log 8). -/
opaque Config.certOk : List Byte → BitVec 512 → Bool

/-- Length of the certificate chain in its flash region (R353, R366; DESIGN CHOICE log 8). -/
opaque Config.chainLen : List Byte → Nat

/-- The digest that an SPDM signature is over: SPDM 1.2's transcript of the messages, from the data they carry (R367; DESIGN CHOICE log 8). -/
opaque Config.spdmDigest : List (List Byte) → BitVec 512

/-- The key revocations that a signed image carries, at a place that R355 does not give (DESIGN CHOICE log 72). -/
opaque Config.imageRevokes : List Byte → BitVec 4

/-- What a page shows, at a time, in a register that only the timing inside an engine decides: gated and frozen cycles, fill levels, counts
of corrections that no command reports (DESIGN CHOICE log 95): by page, offset and TIME_NOW. -/
opaque Config.transient : Nat → Nat → Nat → Nat

/-- Digest of the boot ROM, fixed per stepping (R368 index 1; DESIGN CHOICE log 8). -/
opaque Config.bootRomDigest : BitVec 512

/-- Where a ladle command divided over several clusters is cut along its outermost dimension or list: of `n` shares over an
extent, the k-th boundary. R219 states that it is cut, not where (DESIGN CHOICE log 24). -/
opaque Config.shareBound : Nat → Nat → Nat → Nat

/-- Which of a cluster's two ladles takes a movement command that R219 and R227 do not place (DESIGN CHOICE log 24): by cluster and
submission slot. -/
opaque Config.ladleOf : Nat → Nat → Nat

/-- The order in which a row of `n` elements is added up (ROW_SUM, R194): each choice picks one of the terms left (DESIGN CHOICE log 37). -/
opaque Config.sumPick : Nat → Nat → Nat

/-- Row operations whose arithmetic the spec does not state step by step (SOFTMAX_ROW, NORM_ROW, XENT_ROW of R194): by VOP, FP64 or
FP32, the row's codes, the second operand and the element's place (DESIGN CHOICE log 37). -/
opaque Config.rowFn : Nat → Bool → List Nat → Nat → Nat → W64

/-- The 64-byte pairing block of R339, whose layout the spec does not give, from its fields in the order listed there (DESIGN CHOICE log 55). -/
opaque Config.pairBlock : List Nat → List Byte

/-- Field i of a received pairing block, in the same order (DESIGN CHOICE log 55). -/
opaque Config.pairField : Nat → List Byte → Nat

/-- A trailer's payload from block count, step index and CRC-64 of the header CRCs; R335 gives the contents, not the layout (DESIGN CHOICE log 63). -/
opaque Config.trailer : Nat → Nat → Nat → List Byte

end Sys2Proof
end

