-- ==== Sys2Proof/Machine/Fields.lean ====
section
/-! DEFINITION. Names of the registers and fields that the meanings use, from the spec's register tables: `R.<page>_<register>` is
an offset, `F.<page>_<register>_<field>` a field at its offset. -/

namespace Sys2Proof.Machine

/-- A field: the offset of its register and its bits [hi:lo]. -/
structure Fld where
  off : Nat
  hi : Nat
  lo : Nat
  deriving DecidableEq, Repr

def F.COLLECTIVE_COLL_STATE_STATE : Fld := ⟨0x10C, 2, 0⟩
def F.CORE_ARRAY_CFG_CVT_SR : Fld := ⟨0x100, 10, 10⟩
def F.CORE_ARRAY_CFG_DRAIN_FMT : Fld := ⟨0x100, 8, 4⟩
def F.CORE_ARRAY_CFG_EPOCH : Fld := ⟨0x100, 3, 2⟩
def F.CORE_ARRAY_CFG_REF : Fld := ⟨0x100, 11, 11⟩
def F.CORE_ARRAY_STATE_HOLD_CAUSE : Fld := ⟨0x104, 7, 4⟩
def F.CORE_ARRAY_STATE_STATE : Fld := ⟨0x104, 2, 0⟩
def F.CORE_ARRAY_STATE_VEC_REMAIN : Fld := ⟨0x104, 31, 16⟩
def F.CORE_DRAIN_PASS_CYCLES_ONE : Fld := ⟨0x410, 15, 0⟩
def F.CORE_DRAIN_PASS_CYCLES_TWO : Fld := ⟨0x410, 31, 16⟩
def F.CORE_DRAIN_STATE_ENTRY : Fld := ⟨0x400, 19, 4⟩
def F.CORE_DRAIN_STATE_HALF : Fld := ⟨0x400, 2, 2⟩
def F.CORE_DRAIN_STATE_TRIG : Fld := ⟨0x400, 23, 20⟩
def F.CORE_PASS_CFG_FEED : Fld := ⟨0x108, 0, 0⟩
def F.CORE_PASS_CFG_REUSE : Fld := ⟨0x108, 3, 3⟩
def F.CORE_PASS_CFG_VECTORS : Fld := ⟨0x108, 15, 4⟩
def F.CORE_PAT_CFG_MODE : Fld := ⟨0x300, 1, 0⟩
def F.CORE_PAT_CFG_ROWS : Fld := ⟨0x300, 18, 8⟩
def F.CORE_PAT_STATE_STATE : Fld := ⟨0x304, 1, 0⟩
def F.CORE_SHADOW_SRC_OFFSET : Fld := ⟨0x10C, 16, 0⟩
def F.CORE_SHADOW_STRIDE_STRIDE : Fld := ⟨0x110, 16, 0⟩
def F.CORE_SPRUE_STATUS_MIN_LEVEL : Fld := ⟨0x114, 4, 0⟩
def F.CXL_CXL_CFG_MODE : Fld := ⟨0x100, 1, 0⟩
def F.DBG_DBG_STATUS_BP : Fld := ⟨0x204, 7, 5⟩
def F.DBG_DBG_STATUS_CAUSE : Fld := ⟨0x204, 4, 2⟩
def F.DBG_DBG_STATUS_ISL : Fld := ⟨0x204, 8, 8⟩
def F.DBG_DBG_STATUS_STATE : Fld := ⟨0x204, 1, 0⟩
def F.ENT_DEAD_CFG_DEAD_STEPS : Fld := ⟨0x068, 12, 0⟩
def F.ENT_ENT_CTRL_ACC_MODE : Fld := ⟨0x000, 9, 8⟩
def F.ENT_ENT_CTRL_COMPARE : Fld := ⟨0x000, 10, 10⟩
def F.ENT_ENT_CTRL_NEXT_OVR : Fld := ⟨0x000, 20, 17⟩
def F.ENT_ENT_CTRL_PIN_FMT : Fld := ⟨0x000, 7, 4⟩
def F.ENT_ENT_CTRL_ROLE : Fld := ⟨0x000, 3, 0⟩
def F.ENT_ENT_RULES_FLUSH_SHIFT : Fld := ⟨0x004, 3, 0⟩
def F.ENT_ENT_RULES_HOLD_STEPS : Fld := ⟨0x004, 31, 16⟩
def F.ENT_ENT_RULES_NARROW_V : Fld := ⟨0x004, 15, 8⟩
def F.ENT_ENT_RULES_RISER_Q : Fld := ⟨0x004, 7, 4⟩
def F.ENT_FMT_STATE_DOT_FLAGS : Fld := ⟨0x010, 30, 24⟩
def F.ENT_FMT_STATE_FMT : Fld := ⟨0x010, 7, 0⟩
def F.ENT_FMT_STATE_NEXT_FMT : Fld := ⟨0x010, 15, 8⟩
def F.ENT_FMT_STATE_STEP_FMT : Fld := ⟨0x010, 23, 16⟩
def F.ENT_HYST_CLEAN : Fld := ⟨0x060, 15, 0⟩
def F.ENT_HYST_HOLD : Fld := ⟨0x060, 31, 16⟩
def F.ENT_RERUN_STEP : Fld := ⟨0x05C, 7, 0⟩
def F.ENT_RERUN_TOTAL : Fld := ⟨0x05C, 31, 16⟩
def F.ENT_WIDEN_AT_CAUSE : Fld := ⟨0x014, 29, 26⟩
def F.ENT_WIDEN_AT_COUNT : Fld := ⟨0x014, 25, 24⟩
def F.ENT_WIDEN_AT_RISER_OFF : Fld := ⟨0x014, 30, 30⟩
def F.ERR_ERR_STATE_DF : Fld := ⟨0x110, 10, 10⟩
def F.GRP_HOST_CFG_ERR_VECTOR : Fld := ⟨0x280, 10, 0⟩
def F.HBM_CTRL_HBM_STATE_STATE : Fld := ⟨0x100, 1, 0⟩
def F.HDR_PAGE_CTRL_HOLD : Fld := ⟨0x008, 0, 0⟩
def F.HDR_PAGE_CTRL_INT_EN : Fld := ⟨0x008, 1, 1⟩
def F.HDR_PAGE_CTRL_TRACE_EN : Fld := ⟨0x008, 2, 2⟩
def F.HDR_PAGE_STATUS_HELD : Fld := ⟨0x00C, 1, 1⟩
def F.HDR_STAGE_EPOCH_APPLIED : Fld := ⟨0x01C, 15, 0⟩
def F.JOB_RUNNER_JR_FLAGS_COLLECTIVE_HOLD : Fld := ⟨0x118, 1, 1⟩
def F.JOB_RUNNER_JR_FLAGS_CO_FED : Fld := ⟨0x118, 0, 0⟩
def F.JOB_RUNNER_JR_STATUS_CAUSE : Fld := ⟨0x104, 5, 3⟩
def F.JOB_RUNNER_JR_STATUS_LATE : Fld := ⟨0x104, 7, 7⟩
def F.JOB_RUNNER_JR_STATUS_NUMERIC : Fld := ⟨0x104, 6, 6⟩
def F.JOB_RUNNER_JR_STATUS_STATE : Fld := ⟨0x104, 2, 0⟩
def F.JOB_RUNNER_SNAP_INTERVAL_SNAP_INTERVAL : Fld := ⟨0x110, 15, 0⟩
def F.LADLE_LADLE_ALLOC_KIB : Fld := ⟨0x104, 12, 0⟩
def F.LADLE_LADLE_STATE_ATC_USED : Fld := ⟨0x100, 30, 16⟩
def F.LADLE_LADLE_STATE_OPCODE : Fld := ⟨0x100, 15, 8⟩
def F.LADLE_LADLE_STATE_STATE : Fld := ⟨0x100, 2, 0⟩
def F.LINK_LINK_CFG_ENABLE : Fld := ⟨0x100, 0, 0⟩
def F.LINK_LINK_CFG_REACH : Fld := ⟨0x100, 2, 1⟩
def F.LINK_LINK_STAT_DOWN_CAUSE : Fld := ⟨0x108, 15, 12⟩
def F.LINK_LINK_STAT_FAILS : Fld := ⟨0x108, 17, 16⟩
def F.LINK_LINK_STAT_LANES : Fld := ⟨0x108, 8, 5⟩
def F.LINK_LINK_STAT_NARROWED : Fld := ⟨0x108, 11, 11⟩
def F.LINK_LINK_STAT_REACH_USED : Fld := ⟨0x108, 10, 9⟩
def F.LINK_LINK_STAT_STATE : Fld := ⟨0x108, 2, 0⟩
def F.LINK_LINK_STAT_WIDTH : Fld := ⟨0x108, 4, 3⟩
def F.LINK_PEER_ID_VALID : Fld := ⟨0x10C, 31, 31⟩
def F.PARTITION_BW_CFG_LINK_MIN : Fld := ⟨0x140, 31, 16⟩
def F.PARTITION_MELT_RANGE_BASE : Fld := ⟨0x13C, 9, 0⟩
def F.PARTITION_MELT_RANGE_COUNT : Fld := ⟨0x13C, 20, 10⟩
def F.PARTITION_POOL_CFG_POOL_CAP : Fld := ⟨0x144, 15, 8⟩
def F.PARTITION_POOL_CFG_POOL_QFIRST : Fld := ⟨0x144, 31, 16⟩
def F.PARTITION_POOL_CFG_POOL_WEIGHT : Fld := ⟨0x144, 7, 0⟩
def F.PARTITION_QUEUE_RANGE_BASE : Fld := ⟨0x138, 9, 0⟩
def F.PARTITION_QUEUE_RANGE_COUNT : Fld := ⟨0x138, 20, 10⟩
def F.PKG_MGR_FW_STATUS_ERR : Fld := ⟨0x110, 15, 8⟩
def F.PKG_MGR_FW_STATUS_FLASH_VALID : Fld := ⟨0x110, 16, 16⟩
def F.PKG_MGR_FW_STATUS_STATE : Fld := ⟨0x110, 2, 0⟩
def F.POWER_POWER_CFG_AUTO_PARK : Fld := ⟨0x108, 0, 0⟩
def F.POWER_POWER_CFG_LEAK_SHUTDOWN : Fld := ⟨0x108, 1, 1⟩
def F.POWER_POWER_STATUS_CAP_FLOOR : Fld := ⟨0x104, 7, 7⟩
def F.POWER_POWER_STATUS_FLOW_THROTTLE : Fld := ⟨0x104, 5, 5⟩
def F.POWER_POWER_STATUS_INPUT_RANGE : Fld := ⟨0x104, 9, 9⟩
def F.POWER_POWER_STATUS_LINKS_LP : Fld := ⟨0x104, 4, 4⟩
def F.POWER_POWER_STATUS_PARK_WAIT : Fld := ⟨0x104, 3, 3⟩
def F.POWER_POWER_STATUS_STATE : Fld := ⟨0x104, 2, 0⟩
def F.POWER_POWER_STATUS_THERMAL_CAP : Fld := ⟨0x104, 6, 6⟩
def F.ROOT_OF_TRUST_BOOT_ERR_CODE : Fld := ⟨0x104, 7, 0⟩
def F.ROOT_OF_TRUST_BOOT_STATE_DEGRADED : Fld := ⟨0x100, 10, 10⟩
def F.ROOT_OF_TRUST_BOOT_STATE_PCT : Fld := ⟨0x100, 9, 3⟩
def F.ROOT_OF_TRUST_BOOT_STATE_STATE : Fld := ⟨0x100, 2, 0⟩
def F.ROUTER_AUTH_TAG_JOB_TAG : Fld := ⟨0x114, 15, 0⟩
def F.ROUTER_ROUTER_ID_MODULE_ID : Fld := ⟨0x100, 13, 0⟩
def F.SNAPSHOT_CKPT_STATUS_ERR : Fld := ⟨0x184, 7, 4⟩
def F.SNAPSHOT_CKPT_STATUS_INDEP : Fld := ⟨0x184, 3, 3⟩
def F.SNAPSHOT_CKPT_STATUS_READY : Fld := ⟨0x184, 2, 2⟩
def F.SNAPSHOT_CKPT_STATUS_RESTARTS : Fld := ⟨0x184, 15, 8⟩
def F.SNAPSHOT_CKPT_STATUS_STATE : Fld := ⟨0x184, 1, 0⟩
def F.SNAPSHOT_PAIR_STATE_FEED : Fld := ⟨0x148, 27, 22⟩
def F.SNAPSHOT_PAIR_STATE_INDEP : Fld := ⟨0x148, 28, 28⟩
def F.SNAPSHOT_PAIR_STATE_MODULE : Fld := ⟨0x148, 13, 0⟩
def F.SNAPSHOT_PAIR_STATE_PART : Fld := ⟨0x148, 21, 14⟩
def F.SNAPSHOT_PAIR_STATE_VALID : Fld := ⟨0x148, 29, 29⟩
def F.SNAPSHOT_RECV_STATUS_NEWER : Fld := ⟨0x158, 6, 6⟩
def F.SNAPSHOT_SNAP_LAST_ERR_CODE : Fld := ⟨0x13C, 7, 0⟩
def F.SNAPSHOT_SNAP_SET_COUNT_SNAP_SET_COUNT : Fld := ⟨0x108, 8, 0⟩
def F.SNAPSHOT_SNAP_STATUS_STATE : Fld := ⟨0x138, 2, 0⟩
def F.SNAPSHOT_SNAP_STATUS_STREAM_OK : Fld := ⟨0x138, 3, 3⟩
def F.SNAPSHOT_WGUARD_COUNT_WGUARD_COUNT : Fld := ⟨0x198, 6, 0⟩
def F.TEMPER_OPT_CFG_CVT_SR : Fld := ⟨0x100, 2, 2⟩
def F.TEMPER_OPT_CFG_KIND : Fld := ⟨0x100, 1, 0⟩
def F.TIME_TIME_ROOT_MODULE_ID : Fld := ⟨0x118, 13, 0⟩
def F.TIME_TIME_STATUS_DRIFT : Fld := ⟨0x110, 1, 1⟩
def F.TIME_TIME_STATUS_EPOCH : Fld := ⟨0x110, 31, 24⟩
def F.TIME_TIME_STATUS_PARENT : Fld := ⟨0x110, 22, 16⟩
def F.TIME_TIME_STATUS_ROOT : Fld := ⟨0x110, 2, 2⟩
def F.TIME_TIME_STATUS_TIME_HOPS : Fld := ⟨0x110, 15, 8⟩
def F.TIME_TIME_STATUS_VALID : Fld := ⟨0x110, 0, 0⟩
def R.ADMISSION_ADM_DELAYED : Nat := 0x0A0
def R.ADMISSION_ADM_QUOTA_LAST : Nat := 0x108
def R.ADMISSION_ADM_REFUSED : Nat := 0x0A8
def R.ADMISSION_ADM_SERVED : Nat := 0x098
def R.ADMISSION_ADM_VIEW : Nat := 0x100
def R.ADMISSION_ADM_WAITING : Nat := 0x104
def R.ADMISSION_CURSORS : Nat := 0x180
def R.ADMISSION_DEFICIT_0 : Nat := 0x160
def R.ADMISSION_DEFICIT_3 : Nat := 0x178
def R.ADMISSION_POOL_GRANTS : Nat := 0x0B0
def R.ADMISSION_POOL_PREEMPTS : Nat := 0x0B8
def R.ADMISSION_QUOTA_CASES : Nat := 0x188
def R.ADMISSION_REFUSE_1 : Nat := 0x110
def R.ADMISSION_SCRUBS : Nat := 0x0C0
def R.BARRIER_BAR_LAST_NS : Nat := 0x108
def R.BARRIER_BAR_RELEASES : Nat := 0x098
def R.BARRIER_BAR_STATE : Nat := 0x104
def R.BARRIER_BAR_TIMEOUT : Nat := 0x100
def R.BARRIER_BAR_TIMEOUTS : Nat := 0x0A0
def R.CHECK_CHECK_BYTES : Nat := 0x098
def R.CHECK_CHECK_LAST_CRC : Nat := 0x108
def R.CHECK_CHECK_MISMATCHES : Nat := 0x0A8
def R.CHECK_CHECK_SCANS : Nat := 0x0A0
def R.CHECK_CHECK_STATE : Nat := 0x100
def R.CLUSTER_SRAM_CORE_SRAM_CE : Nat := 0x0A8
def R.CLUSTER_SRAM_LINES_LASTING : Nat := 0x0B0
def R.CLUSTER_SRAM_SRAM_CE : Nat := 0x098
def R.CLUSTER_SRAM_SRAM_LAST : Nat := 0x100
def R.CLUSTER_SRAM_SRAM_UC : Nat := 0x0A0
def R.COLLECTIVE_COLL_DONE : Nat := 0x098
def R.COLLECTIVE_COLL_ELEMS : Nat := 0x0A8
def R.COLLECTIVE_COLL_LAST_ERR : Nat := 0x110
def R.COLLECTIVE_COLL_STATE : Nat := 0x10C
def R.COLLECTIVE_COLL_TIMEOUTS : Nat := 0x0A0
def R.COLLECTIVE_COLL_TIMEOUT_US : Nat := 0x108
def R.COLLECTIVE_COLL_VIEW : Nat := 0x114
def R.COLLECTIVE_CVT_NAN : Nat := 0x0C8
def R.COLLECTIVE_CVT_SAT : Nat := 0x0C0
def R.COLLECTIVE_FLUSH_IN : Nat := 0x0B0
def R.COLLECTIVE_FLUSH_OUT : Nat := 0x0B8
def R.COLLECTIVE_GROUP_BASE : Nat := 0x100
def R.CORE_ARRAY_CFG : Nat := 0x100
def R.CORE_ARRAY_STATE : Nat := 0x104
def R.CORE_CELL_ACTIVE : Nat := 0x0D8
def R.CORE_CVT_NAN : Nat := 0x0D0
def R.CORE_CVT_SAT : Nat := 0x0C8
def R.CORE_DOT_FLAGS : Nat := 0x118
def R.CORE_DRAIN_FLUSH_BLK : Nat := 0x430
def R.CORE_DRAIN_NONFIN_BLK : Nat := 0x440
def R.CORE_DRAIN_RISER : Nat := 0x448
def R.CORE_DRAIN_SAT_BLK : Nat := 0x438
def R.CORE_DRAIN_THRESH : Nat := 0x40C
def R.CORE_DRAIN_TILES : Nat := 0x420
def R.CORE_DRAIN_TILE_AMAX : Nat := 0x404
def R.CORE_DRAIN_TILE_BODY : Nat := 0x408
def R.CORE_DRAIN_TRIGGERS : Nat := 0x450
def R.CORE_DRAIN_ZERO_BLK : Nat := 0x428
def R.CORE_FLUSH_IN : Nat := 0x0B8
def R.CORE_FLUSH_OUT : Nat := 0x0C0
def R.CORE_FREEZE_DRAIN : Nat := 0x0A8
def R.CORE_FREEZE_FEED : Nat := 0x098
def R.CORE_FREEZE_SPRUE : Nat := 0x0A0
def R.CORE_FREEZE_SWAP : Nat := 0x0B0
def R.CORE_PASSES : Nat := 0x0E0
def R.CORE_PASS_CFG : Nat := 0x108
def R.CORE_PAT_CFG : Nat := 0x300
def R.CORE_PAT_LOOKUPS : Nat := 0x0F0
def R.CORE_PAT_PASS_CYCLES : Nat := 0x308
def R.CORE_PAT_STALL : Nat := 0x0F8
def R.CORE_PAT_STATE : Nat := 0x304
def R.CORE_RESHAPES : Nat := 0x0E8
def R.CORE_SHADOW_STRIDE : Nat := 0x110
def R.CORE_SPRUE_STATUS : Nat := 0x114
def R.CORE_SWAP_FREEZE_LAST : Nat := 0x120
def R.CORE_VEC_FLAGS : Nat := 0x11C
def R.CXL_AER_MSGS : Nat := 0x0F8
def R.CXL_ATS_INVAL : Nat := 0x0D8
def R.CXL_ATS_REQ : Nat := 0x0D0
def R.CXL_CACHE_HITS : Nat := 0x0A8
def R.CXL_CACHE_SNOOPS : Nat := 0x0B0
def R.CXL_CACHE_STATE : Nat := 0x108
def R.CXL_CXL_RX_BYTES : Nat := 0x098
def R.CXL_CXL_TX_BYTES : Nat := 0x0A0
def R.CXL_FLR_COUNT : Nat := 0x0E8
def R.CXL_LINK_RECOVERY : Nat := 0x0F0
def R.CXL_LINK_STATUS : Nat := 0x104
def R.CXL_MEM_POISON : Nat := 0x0C8
def R.CXL_MEM_RD_BYTES : Nat := 0x0B8
def R.CXL_MEM_WR_BYTES : Nat := 0x0C0
def R.CXL_PRI_REQ : Nat := 0x0E0
def R.D2D_D2D_FLITS : Nat := 0x098
def R.D2D_D2D_RETRY : Nat := 0x0A0
def R.D2D_D2D_STATE : Nat := 0x100
def R.DBG_BP_CFG_0 : Nat := 0x220
def R.DBG_BP_HITS : Nat := 0x0B8
def R.DBG_BP_VAL_0 : Nat := 0x240
def R.DBG_CC_VERSION : Nat := 0x100
def R.DBG_DBG_CTRL : Nat := 0x200
def R.DBG_DBG_NOTICE_TTL : Nat := 0x21C
def R.DBG_DBG_PC : Nat := 0x208
def R.DBG_DBG_STATUS : Nat := 0x204
def R.DBG_HALTS : Nat := 0x0B0
def R.DBG_HALT_BEGIN : Nat := 0x210
def R.DBG_ISL_HALT : Nat := 0x110
def R.DBG_ITRACE_CTRL : Nat := 0x218
def R.DBG_ITRACE_FRAMES : Nat := 0x0A8
def R.DBG_TRACE_DROPPED : Nat := 0x0A0
def R.DBG_TRACE_FIFO : Nat := 0x104
def R.DBG_TRACE_RECORDS : Nat := 0x098
def R.ENT_AMAX_CUR : Nat := 0x028
def R.ENT_BODY_CUR : Nat := 0x02C
def R.ENT_CEIL : Nat := 0x00C
def R.ENT_CLAMPED : Nat := 0x058
def R.ENT_CMP_MAXDIFF : Nat := 0x078
def R.ENT_CMP_NDIFF : Nat := 0x07C
def R.ENT_CMP_PAGE : Nat := 0x06C
def R.ENT_DEAD_CFG : Nat := 0x068
def R.ENT_ENT_CTRL : Nat := 0x000
def R.ENT_ENT_RULES : Nat := 0x004
def R.ENT_FLUSH_BLK : Nat := 0x048
def R.ENT_FMT_STATE : Nat := 0x010
def R.ENT_G16_SUM : Nat := 0x070
def R.ENT_HIST_0 : Nat := 0x030
def R.ENT_NONFIN_BLK : Nat := 0x050
def R.ENT_NONZERO_BLK : Nat := 0x040
def R.ENT_RISER_BASE : Nat := 0x018
def R.ENT_RISER_CAP : Nat := 0x020
def R.ENT_RISER_OVF : Nat := 0x054
def R.ENT_RISER_PEAK : Nat := 0x024
def R.ENT_SAT_BLK : Nat := 0x04C
def R.ENT_SILENT : Nat := 0x064
def R.ENT_TSCALE : Nat := 0x008
def R.ENT_WIDEN_AT : Nat := 0x014
def R.ENT_ZERO_BLK : Nat := 0x044
def R.ERR_ACK_REJECTS : Nat := 0x0C0
def R.ERR_ASSAY_FAILS : Nat := 0x15C
def R.ERR_ASSAY_WINDOW_S : Nat := 0x154
def R.ERR_ERR_ACK : Nat := 0x108
def R.ERR_ERR_ACK_THROUGH : Nat := 0x10C
def R.ERR_ERR_NEXT_SEQ : Nat := 0x100
def R.ERR_ERR_SEL : Nat := 0x104
def R.ERR_ERR_STATE : Nat := 0x110
def R.ERR_ERR_WINDOW_S : Nat := 0x150
def R.ERR_ESCALATIONS : Nat := 0x0B8
def R.ERR_HBM_ROW_CE : Nat := 0x158
def R.ERR_LINK_RETRY_PPT : Nat := 0x168
def R.ERR_LOST_CE : Nat := 0x098
def R.ERR_PF_RELEASE : Nat := 0x140
def R.ERR_SRAM_CORE_CE : Nat := 0x160
def R.ERR_SRAM_LINE_CE : Nat := 0x164
def R.GRP_APT_SEL_0 : Nat := 0x200
def R.GRP_GRP_CELLS : Nat := 0x108
def R.GRP_GRP_CLUSTERS : Nat := 0x104
def R.GRP_GRP_CORES : Nat := 0x100
def R.GRP_GRP_HBM : Nat := 0x118
def R.GRP_GRP_LINKS : Nat := 0x120
def R.GRP_GRP_MELT : Nat := 0x128
def R.GRP_GRP_QUEUES : Nat := 0x124
def R.GRP_GRP_SRAM : Nat := 0x110
def R.GRP_HOST_CFG : Nat := 0x280
def R.GRP_HOST_PASID : Nat := 0x284
def R.GRP_ITRACE_BASE : Nat := 0x310
def R.GRP_ITRACE_FIRST : Nat := 0x338
def R.GRP_ITRACE_LOG2 : Nat := 0x318
def R.GRP_ITRACE_NEXT : Nat := 0x330
def R.GRP_TRACE_BASE : Nat := 0x300
def R.GRP_TRACE_FIRST : Nat := 0x328
def R.GRP_TRACE_LOG2 : Nat := 0x308
def R.GRP_TRACE_NEXT : Nat := 0x320
def R.GRP_TRACE_RD_FIRST : Nat := 0x350
def R.GRP_TRACE_RD_NEXT : Nat := 0x348
def R.GRP_TRACE_RD_SEL : Nat := 0x340
def R.HBM_CTRL_HBM_CE : Nat := 0x098
def R.HBM_CTRL_HBM_STACK_CORR : Nat := 0x0B8
def R.HBM_CTRL_HBM_STATE : Nat := 0x100
def R.HBM_CTRL_HBM_UC : Nat := 0x0A0
def R.HBM_CTRL_RETIRE_FAILS : Nat := 0x0B0
def R.HBM_CTRL_RETIRE_LAST : Nat := 0x108
def R.HBM_CTRL_ROWS_RETIRED : Nat := 0x0A8
def R.HDR_CNT_BUSY : Nat := 0x040
def R.HDR_CNT_BUSY_WRITE : Nat := 0x090
def R.HDR_CNT_CMD : Nat := 0x068
def R.HDR_CNT_ERR_CE : Nat := 0x070
def R.HDR_CNT_ERR_DF : Nat := 0x088
def R.HDR_CNT_FREEZE : Nat := 0x048
def R.HDR_CNT_GATED : Nat := 0x050
def R.HDR_CNT_HALTED : Nat := 0x060
def R.HDR_CNT_STRETCHED : Nat := 0x058
def R.HDR_PAGE_CAP : Nat := 0x004
def R.HDR_PAGE_CTRL : Nat := 0x008
def R.HDR_PAGE_ERR : Nat := 0x010
def R.HDR_PAGE_ERR_MASK : Nat := 0x014
def R.HDR_PAGE_ID : Nat := 0x000
def R.HDR_PAGE_OWNER : Nat := 0x030
def R.HDR_PAGE_STATUS : Nat := 0x00C
def R.HDR_PROGRESS : Nat := 0x020
def R.HDR_PROGRESS_POS : Nat := 0x028
def R.HDR_STAGE_CTRL : Nat := 0x018
def R.HDR_STAGE_EPOCH : Nat := 0x01C
def R.IDENTITY_ID_CLASS : Nat := 0x108
def R.IDENTITY_ID_SERIAL : Nat := 0x100
def R.IDENTITY_ID_SNAPFMT : Nat := 0x10C
def R.IDENTITY_ID_STATUS : Nat := 0x110
def R.JOB_RUNNER_ABORTED_STEPS : Nat := 0x138
def R.JOB_RUNNER_APPLIED_STEPS : Nat := 0x120
def R.JOB_RUNNER_CKPT_INTERVAL : Nat := 0x114
def R.JOB_RUNNER_DATA_WAIT_NS : Nat := 0x148
def R.JOB_RUNNER_JR_CTRL : Nat := 0x100
def R.JOB_RUNNER_JR_FLAGS : Nat := 0x118
def R.JOB_RUNNER_JR_STATUS : Nat := 0x104
def R.JOB_RUNNER_JR_VIEW : Nat := 0x12C
def R.JOB_RUNNER_LAST_VERDICT : Nat := 0x124
def R.JOB_RUNNER_NUMERIC_EVENTS : Nat := 0x140
def R.JOB_RUNNER_PLAN_BASE : Nat := 0x108
def R.JOB_RUNNER_SKIPPED_STEPS : Nat := 0x130
def R.JOB_RUNNER_SNAP_INTERVAL : Nat := 0x110
def R.JOB_RUNNER_STEP_INDEX : Nat := 0x11C
def R.JOB_RUNNER_VERDICT_ACC : Nat := 0x128
def R.JOB_RUNNER_VERDICT_WAIT_NS : Nat := 0x150
def R.LADLE_CVT_NAN : Nat := 0x0F0
def R.LADLE_CVT_SAT : Nat := 0x0E8
def R.LADLE_FLUSH_IN : Nat := 0x0D8
def R.LADLE_FLUSH_OUT : Nat := 0x0E0
def R.LADLE_LADLE_ALLOC : Nat := 0x104
def R.LADLE_LADLE_CACHE_HITS : Nat := 0x0C0
def R.LADLE_LADLE_CLAMPED : Nat := 0x0B0
def R.LADLE_LADLE_DUPS : Nat := 0x0B8
def R.LADLE_LADLE_HOST_BYTES : Nat := 0x0A8
def R.LADLE_LADLE_INVAL : Nat := 0x0D0
def R.LADLE_LADLE_INVAL_LAST : Nat := 0x110
def R.LADLE_LADLE_PRI : Nat := 0x0C8
def R.LADLE_LADLE_PRI_LAST : Nat := 0x108
def R.LADLE_LADLE_RD_BYTES : Nat := 0x098
def R.LADLE_LADLE_WR_BYTES : Nat := 0x0A0
def R.LINK_LANE_SYM_0 : Nat := 0x128
def R.LINK_LINK_CFG : Nat := 0x100
def R.LINK_LINK_CRC_ERR : Nat := 0x0B0
def R.LINK_LINK_CTRL : Nat := 0x104
def R.LINK_LINK_DOWN_EVENTS : Nat := 0x0E0
def R.LINK_LINK_FEC_CORR : Nat := 0x0B8
def R.LINK_LINK_FEC_UNCORR : Nat := 0x0C0
def R.LINK_LINK_LAST_ERR : Nat := 0x120
def R.LINK_LINK_NARROW_EVENTS : Nat := 0x0D8
def R.LINK_LINK_OFFSET : Nat := 0x118
def R.LINK_LINK_RETRY : Nat := 0x0A8
def R.LINK_LINK_RTT_NS : Nat := 0x110
def R.LINK_LINK_RX_BYTES : Nat := 0x0D0
def R.LINK_LINK_RX_FLITS : Nat := 0x0A0
def R.LINK_LINK_TX_BYTES : Nat := 0x0C8
def R.LINK_LINK_TX_FLITS : Nat := 0x098
def R.LINK_PEER_ID : Nat := 0x10C
def R.MELT_SHARD_GOV_LAST_NS : Nat := 0x124
def R.MELT_SHARD_MELT_SEL_0 : Nat := 0x100
def R.MELT_SHARD_SHARD_NARROWS : Nat := 0x0A8
def R.MELT_SHARD_SHARD_RERUNS : Nat := 0x098
def R.MELT_SHARD_SHARD_STATE : Nat := 0x120
def R.MELT_SHARD_SHARD_STAT_MSGS : Nat := 0x0B0
def R.MELT_SHARD_SHARD_WIDENS : Nat := 0x0A0
def R.METER_CELL_ACTIVE : Nat := 0x118
def R.METER_CORE_BUSY_NS : Nat := 0x110
def R.METER_DELAYED_NS : Nat := 0x138
def R.METER_ENERGY_MJ : Nat := 0x148
def R.METER_ENERGY_TOTAL_MJ : Nat := 0x0A0
def R.METER_HBM_BYTES : Nat := 0x120
def R.METER_HOST_BYTES : Nat := 0x130
def R.METER_LINK_BYTES : Nat := 0x128
def R.METER_METER_LATCHES : Nat := 0x098
def R.METER_METER_SEL : Nat := 0x100
def R.METER_METER_TIME : Nat := 0x108
def R.METER_POOL_NS : Nat := 0x150
def R.METER_PREEMPTED : Nat := 0x160
def R.METER_REFUSALS : Nat := 0x140
def R.METER_TASKS : Nat := 0x158
def R.METER_VIOLATIONS : Nat := 0x168
def R.PARTITION_BUDGET_WINDOW_S : Nat := 0x188
def R.PARTITION_BW_CFG : Nat := 0x140
def R.PARTITION_BYTES_ZEROED : Nat := 0x0A0
def R.PARTITION_CLUSTER_MASK_0 : Nat := 0x110
def R.PARTITION_CLUSTER_MASK_1 : Nat := 0x114
def R.PARTITION_CLUSTER_MASK_2 : Nat := 0x118
def R.PARTITION_CLUSTER_MASK_3 : Nat := 0x11C
def R.PARTITION_CLUSTER_MASK_4 : Nat := 0x120
def R.PARTITION_CONTRACTS_APPLIED : Nat := 0x098
def R.PARTITION_FREEZES : Nat := 0x0A8
def R.PARTITION_FROZEN_MASTERS : Nat := 0x15C
def R.PARTITION_HBM_SEG_0 : Nat := 0x128
def R.PARTITION_HBM_SEG_1 : Nat := 0x12C
def R.PARTITION_HBM_SEG_2 : Nat := 0x130
def R.PARTITION_HBM_SEG_3 : Nat := 0x134
def R.PARTITION_MELT_RANGE : Nat := 0x13C
def R.PARTITION_PART_CTRL : Nat := 0x104
def R.PARTITION_PART_SEL : Nat := 0x100
def R.PARTITION_PART_STATUS : Nat := 0x108
def R.PARTITION_POOL_BUDGET_MS : Nat := 0x148
def R.PARTITION_POOL_CFG : Nat := 0x144
def R.PARTITION_POOL_STATE : Nat := 0x180
def R.PARTITION_POOL_USED_MS : Nat := 0x14C
def R.PARTITION_QUANTUM_NS : Nat := 0x184
def R.PARTITION_QUEUE_RANGE : Nat := 0x138
def R.PARTITION_T_AVG_NS : Nat := 0x18C
def R.PARTITION_UNFREEZE : Nat := 0x158
def R.PARTITION_VIOL_LAST : Nat := 0x150
def R.PKG_MGR_FW_CTRL : Nat := 0x10C
def R.PKG_MGR_FW_FLASH : Nat := 0x118
def R.PKG_MGR_FW_LEN : Nat := 0x108
def R.PKG_MGR_FW_PART_SEL : Nat := 0x120
def R.PKG_MGR_FW_PART_STATE : Nat := 0x128
def R.PKG_MGR_FW_PART_VERSION : Nat := 0x124
def R.PKG_MGR_FW_PENDING : Nat := 0x11C
def R.PKG_MGR_FW_RELOADS : Nat := 0x0A0
def R.PKG_MGR_FW_RUNNING_PKG : Nat := 0x114
def R.PKG_MGR_FW_SRC : Nat := 0x100
def R.PKG_MGR_FW_UPDATES : Nat := 0x098
def R.POWER_AUTO_PARK_MS : Nat := 0x110
def R.POWER_CAP_NS : Nat := 0x0A8
def R.POWER_CAP_STATE : Nat := 0x120
def R.POWER_CAP_W : Nat := 0x10C
def R.POWER_COOL_STATE : Nat := 0x124
def R.POWER_DUTY_NS : Nat := 0x0B0
def R.POWER_FLOW : Nat := 0x128
def R.POWER_FLOW_THROTTLE_NS : Nat := 0x0B8
def R.POWER_INPUT_MA : Nat := 0x11C
def R.POWER_INPUT_MV : Nat := 0x118
def R.POWER_INPUT_MW : Nat := 0x114
def R.POWER_PARK_ENTRIES : Nat := 0x098
def R.POWER_POWER_CTRL : Nat := 0x100
def R.POWER_POWER_STATUS : Nat := 0x104
def R.POWER_TEMP_HOT : Nat := 0x12C
def R.POWER_THERMAL_CAP_NS : Nat := 0x0C0
def R.POWER_THERM_DATA : Nat := 0x134
def R.POWER_THERM_SEL : Nat := 0x130
def R.POWER_WAKES : Nat := 0x0A0
def R.QCTX_ADM_BASE : Nat := 0x010
def R.QCTX_ALIVE_NEXT : Nat := 0x028
def R.QCTX_CQ_BASE : Nat := 0x008
def R.QCTX_QCFG : Nat := 0x018
def R.QCTX_QLIMITS : Nat := 0x01C
def R.QCTX_QPTR : Nat := 0x020
def R.QCTX_QSTATUS : Nat := 0x024
def R.QCTX_SQ_BASE : Nat := 0x000
def R.QCTX_TASK_START : Nat := 0x02C
def R.QUEUE_CTX_ABORTED_TASKS : Nat := 0x0A8
def R.QUEUE_CTX_ADMITTED : Nat := 0x098
def R.QUEUE_CTX_REFUSED : Nat := 0x0A0
def R.ROOT_OF_TRUST_BOOTS : Nat := 0x098
def R.ROOT_OF_TRUST_BOOT_ERR : Nat := 0x104
def R.ROOT_OF_TRUST_BOOT_LAST_NS : Nat := 0x110
def R.ROOT_OF_TRUST_FETTLE_CLUSTER : Nat := 0x11C
def R.ROOT_OF_TRUST_FETTLE_SEL : Nat := 0x118
def R.ROOT_OF_TRUST_FETTLE_SUMMARY : Nat := 0x10C
def R.ROOT_OF_TRUST_FUSE_STATE : Nat := 0x108
def R.ROOT_OF_TRUST_IMAGE_FAILS : Nat := 0x0A0
def R.ROOT_OF_TRUST_RECOVERY_PUSHES : Nat := 0x0B0
def R.ROOT_OF_TRUST_SPDM_MSGS : Nat := 0x0A8
def R.ROUTER_AUTH_RANGE_0 : Nat := 0x120
def R.ROUTER_AUTH_SEL : Nat := 0x110
def R.ROUTER_AUTH_TAG : Nat := 0x114
def R.ROUTER_ROUTER_ID : Nat := 0x100
def R.ROUTER_ROUTE_DATA : Nat := 0x108
def R.ROUTER_ROUTE_DROPS : Nat := 0x0A8
def R.ROUTER_ROUTE_FWD_FLITS : Nat := 0x098
def R.ROUTER_ROUTE_LOCAL_FLITS : Nat := 0x0A0
def R.ROUTER_ROUTE_SEL : Nat := 0x104
def R.ROUTER_ROUTE_STUCK : Nat := 0x0B8
def R.ROUTER_ROUTE_STUCK_US : Nat := 0x10C
def R.ROUTER_TAG_REJECTS : Nat := 0x0B0
def R.SIDEBAND_ALERTS : Nat := 0x0B0
def R.SIDEBAND_FEED_ID : Nat := 0x104
def R.SIDEBAND_MCTP_RX : Nat := 0x098
def R.SIDEBAND_MCTP_STATE : Nat := 0x108
def R.SIDEBAND_MCTP_TX : Nat := 0x0A0
def R.SIDEBAND_PLDM_EVENTS : Nat := 0x0A8
def R.SIDEBAND_SB_PINS : Nat := 0x100
def R.SNAPSHOT_CHECKPOINTS : Nat := 0x0A8
def R.SNAPSHOT_CKPT_BUF_BASE : Nat := 0x168
def R.SNAPSHOT_CKPT_BUF_BYTES : Nat := 0x170
def R.SNAPSHOT_CKPT_CFG : Nat := 0x160
def R.SNAPSHOT_CKPT_CTRL : Nat := 0x180
def R.SNAPSHOT_CKPT_DEFERRED : Nat := 0x0B0
def R.SNAPSHOT_CKPT_DONE_ADDR : Nat := 0x178
def R.SNAPSHOT_CKPT_LAST_STEP : Nat := 0x188
def R.SNAPSHOT_CKPT_STATUS : Nat := 0x184
def R.SNAPSHOT_PAIR_STATE : Nat := 0x148
def R.SNAPSHOT_PAUSE_NS : Nat := 0x0B8
def R.SNAPSHOT_RECV_STATUS : Nat := 0x158
def R.SNAPSHOT_RECV_STEP_0 : Nat := 0x150
def R.SNAPSHOT_SNAPSHOTS : Nat := 0x098
def R.SNAPSHOT_SNAP_BW : Nat := 0x10C
def R.SNAPSHOT_SNAP_HANDLE : Nat := 0x130
def R.SNAPSHOT_SNAP_LAST_PAUSE_US : Nat := 0x144
def R.SNAPSHOT_SNAP_LAST_STEP : Nat := 0x140
def R.SNAPSHOT_SNAP_RECV_BASE : Nat := 0x120
def R.SNAPSHOT_SNAP_RECV_BYTES : Nat := 0x128
def R.SNAPSHOT_SNAP_SET_BASE : Nat := 0x100
def R.SNAPSHOT_SNAP_SKIPPED : Nat := 0x0A0
def R.SNAPSHOT_SNAP_STAGE_BASE : Nat := 0x110
def R.SNAPSHOT_SNAP_STAGE_BYTES : Nat := 0x118
def R.SNAPSHOT_SNAP_STATUS : Nat := 0x138
def R.SNAPSHOT_SNAP_VIEW : Nat := 0x19C
def R.SNAPSHOT_WGUARD_BASE : Nat := 0x190
def R.TEMPER_B1POW : Nat := 0x120
def R.TEMPER_B2POW : Nat := 0x124
def R.TEMPER_BETA1 : Nat := 0x108
def R.TEMPER_BETA2 : Nat := 0x10C
def R.TEMPER_EPS : Nat := 0x110
def R.TEMPER_GRAD_SCALE : Nat := 0x11C
def R.TEMPER_LR : Nat := 0x104
def R.TEMPER_OPT_CFG : Nat := 0x100
def R.TEMPER_TEMPER_ELEMS : Nat := 0x098
def R.TEMPER_TEMPER_HOLD : Nat := 0x0A0
def R.TEMPER_TEMPER_STATE : Nat := 0x128
def R.TEMPER_TRUST_MAX : Nat := 0x118
def R.TEMPER_WDECAY : Nat := 0x114
def R.TIME_TIME_CTRL : Nat := 0x114
def R.TIME_TIME_DRIFT_PPB : Nat := 0x11C
def R.TIME_TIME_NOW : Nat := 0x100
def R.TIME_TIME_OFFSET : Nat := 0x108
def R.TIME_TIME_ROOT : Nat := 0x118
def R.TIME_TIME_STATUS : Nat := 0x110

end Sys2Proof.Machine
end

