-- ==== Sys2Proof/Machine/State.lean ====
section
/-! DEFINITION. The state of the block, as plain data. Registers of the pages live in `regs` (applied values) and
`shadows` (staged values, listed while pending, R41); everything the spec gives the block that is no register of a page
has a field of its own. A table (`Store`) is a list of pairs with strictly rising keys. -/

namespace Sys2Proof.Machine

/-- A sparse table: key and value, keys strictly rising. -/
abbrev Store (α : Type) := List (Nat × α)

/-- Nothing the spec describes stops the block: every command has an effect, so no meaning raises a fault. -/
inductive Fault where
  deriving DecidableEq, Repr

/-- Why a command has no meaning. -/
inductive Refusal where
  /-- The model gives the command no meaning yet; raised by its arm of the dispatch only; safe. -/
  | notModelled (mnemonic : String)
  deriving DecidableEq, Repr

/-- What the block sends outwards (DESIGN CHOICE log 3). -/
inductive OutKind where
  | readData        -- value of a register read (R29): requester, value
  | memData         -- CXL.mem read data (R304): address, poison flag; bytes
  | memDone         -- CXL.mem write done (R305)
  | msix            -- MSI-X message (R298): function, vector
  | aer             -- AER message (R311): 0 correctable, 1 uncorrectable
  | hostSignal      -- device-fatal signalled to the host (R311)
  | atsRequest      -- translation request (R230): partition, virtual page
  | priRequest      -- page request (R231): partition, virtual page
  | invalAck        -- invalidation acknowledged (R232)
  | snoopResponse   -- response to H2D snoop (R300)
  | linkMsg         -- link control message (R243, R260-R262, R393): link, type, fields
  | nak             -- NAK or ACK carried in a control flit (R242): link, sequence
  | partnerPulse    -- partner detection and training signals (R240)
  | doe             -- DOE response (R306)
  | spdm            -- SPDM response (R367): code, fields
  | pldm            -- PLDM response (R361, R417)
  | mctp            -- MCTP control response (R416)
  | i3c             -- I3C bus response (R416)
  | snapFetch       -- request for a partner's newest slot (R346): module, partition
  | traceData       -- trace port data
  | urResponse      -- Unsupported Request completion (R312)
  deriving DecidableEq, Repr

/-- One output, newest first in `State.out`. -/
inductive Output where
  | msg (kind : OutKind) (args : List Nat) (data : List Byte)
  | packet (die : Nat) (pk : Packet)
  | flit (n : Nat) (f : Flit)
  deriving DecidableEq, Repr

/-- An error record (R314) with the model's open flag (R317). -/
structure ErrRec where
  seq : Nat
  sev : Nat
  esc : Bool
  notice : Bool
  cause : Nat
  part : Nat
  infra : Bool
  page : Nat
  count : Nat
  key : Nat
  time : Nat
  detail : Nat
  opened : Bool
  deriving DecidableEq, Repr

/-- An error ring (R315): records by slot. -/
structure Ring where
  next : Nat
  slots : Store ErrRec
  deriving DecidableEq, Repr

/-- A declared range (R193): first and last byte address, in host memory or in the partition's HBM. -/
structure Range where
  lo : Nat
  hi : Nat
  host : Bool
  deriving DecidableEq, Repr

/-- An admitted command (R189, R193, R203, R206). `done` is set when its engine has finished and its outputs are
visible; `recorded` when its completion record is written. `code` and `cause` are those of the record. -/
structure Cmd where
  slot : Nat
  task : Nat
  part : Nat
  desc : BitVec 1024
  td0 : BitVec 1024
  td1 : BitVec 1024
  td2 : BitVec 1024
  admitT : Nat
  startT : Option Nat
  done : Bool
  recorded : Bool
  code : Nat
  cause : Nat
  count : Nat
  runs : Nat
  pos : Nat
  /-- pages of the engines that run it, fixed at admission (R431) -/
  members : List Nat
  /-- clusters its TARGET names or its shares lie on (R270) -/
  clusters : List Nat
  /-- halted time of each engine's island or its issuing control core since the start (R381) -/
  haltNs : List Nat
  /-- the partition's held timer time when it started (R392) -/
  held0 : Nat
  ins : List Range
  outs : List Range
  inpl : List Range
  fmt : Nat
  fmtIn0 : Nat
  fmtIn1 : Nat
  wrote : Bool
  /-- the host pages of the present pre-touch window not yet translated (R230) -/
  waitPages : List Nat
  /-- every host page of the command's range still to be moved, translated or not -/
  hostPages : List Nat
  /-- the ALIVE value did not match (R198) -/
  aliveBad : Bool
  /-- phase of a SNAPSHOT, COLLECTIVE, LINK_SEND or LINK_RECV; 0 before it starts -/
  phase : Nat
  deriving DecidableEq, Repr

/-- A task of a queue (R199). `first` is its first slot; `served` once it may start (R197). -/
structure Task where
  id : Nat
  first : Nat
  cls : Nat
  pool : Bool
  served : Bool
  delayed : Bool
  refused : Bool
  aborted : Bool
  closed : Bool
  inPlace : Bool
  cluster : Option Nat
  startT : Nat
  admitT : Nat
  lastProg : Nat
  poolMark : Nat
  deriving DecidableEq, Repr

/-- What the module holds of a queue pair beside its context registers (R185, R186, R196, R206, R212). The passes count
how often the admission array and the completion ring have wrapped. -/
structure QueueX where
  tail : Nat
  cqHead : Nat
  rd : Nat
  sqHead : Nat
  cqTail : Nat
  admPass : Nat
  cqPass : Nat
  state : Nat
  frozen : Bool
  pfFrozen : Bool
  lastReason : Nat
  aliveUsed : Bool
  ringFault : Bool
  restarts : Nat
  /-- read position to return to when a restarted task has been read again (R210) -/
  rdSaved : Option Nat
  tasks : List Task
  cmds : List Cmd
  deriving DecidableEq, Repr

/-- A barrier's arrivals since its previous release (R199): queue, count, layer flag, aborted flag, step flag. -/
structure Arrival where
  q : Nat
  slot : Nat
  count : Nat
  layer : Bool
  aborted : Bool
  step : Bool
  deriving DecidableEq, Repr

structure Bar where
  part : Nat
  id : Nat
  first : Nat
  last : Nat
  arrivals : List Arrival
  /-- arrivals from a queue already counted: they wait for the next release -/
  later : List Arrival
  deriving DecidableEq, Repr

/-- A K-loop's output tile (R87, R120, R431). `vals` are its FP32 values, element v × N + n at that index (R125); `left` counts
the passes of its K-loop that have not ended, of `passes` in all; `half` is its half of the output tile buffer. -/
structure Tile where
  q : Nat
  slot : Nat
  page : Nat
  index : Nat
  t : Nat
  epoch : Nat
  m0 : Nat
  n0 : Nat
  mLen : Nat
  nLen : Nat
  batch : List Nat
  vals : List W32
  left : Nat
  passes : Nat
  half : Nat
  deriving DecidableEq, Repr

/-- What a core holds beside its page (R95-R98, R321, R327-R329). -/
structure CoreX where
  /-- shape and epoch of the active weights -/
  wShape : Nat
  wEpoch : Nat
  /-- array cycles (R96): row 0 of the latest weights written, latest swap wave entered row 0, next pass's first vector; 0 before the
  first pass of a run -/
  loadAt : Nat
  swapAt : Nat
  nextAt : Nat
  fenced : Bool
  absent : Bool
  assayT : Nat
  assayDue : Bool
  /-- the core is assayed before it takes or goes on with work (R391) -/
  assayFirst : Bool
  usedBy : List Nat
  tileSeq : Nat
  deriving DecidableEq, Repr

/-- What a cluster holds beside its pages (R277, R279, R329, R363). `spare`: 0 none, 1 available, 2 in use, 3 fenced. -/
structure ClusterX where
  good : Nat
  spare : Nat
  dead : Bool
  prevPart : Option Nat
  /-- queue and task that hold the pool cluster -/
  runQ : Option Nat
  marked : Bool
  wanted : Option Nat
  /-- the owner's step index at the last step boundary that the cluster's pages passed (R41) -/
  stepAt : Nat
  deriving DecidableEq, Repr

/-- A segment that the job runner has submitted (R179): its place in the slot list (none for prologue and epilogue), its data ring, its
queue and the submission slots it took. -/
structure JrUse where
  item : Option Nat
  ring : Option Nat
  q : Nat
  slots : List Nat
  deriving DecidableEq, Repr

/-- Job runner of a partition (R178-R180). `phase`: 0 between steps, 1 prologue, 2 schedule, 3 epilogue, 4 waits for the step's end,
5 waits for a snapshot, 6 STEP_BOUNDARY submitted. -/
structure JrX where
  /-- the plan header's 128 bytes and its address -/
  plan : List Byte
  base : Nat
  seed : Nat
  startStep : Nat
  stepsRun : Nat
  stopReq : Bool
  phase : Nat
  /-- places of the slot list that have started in this step -/
  started : List Nat
  uses : List JrUse
  /-- descriptors waiting for a place in the submission ring of their queue -/
  todo : List (Nat × BitVec 1024)
  /-- entries issued by ring -/
  rings : Store Nat
  /-- start of the present wait for a ring entry -/
  waitT : Option Nat
  /-- the guard table holds CRCs of this run (R333) -/
  guard : Bool
  failed : Bool
  /-- LR_MULT of the running step as FP32 (R179) -/
  lrMult : Nat
  ckptT : Nat
  ckptNow : Bool
  /-- TASK_ID and first queue of the step's closing task -/
  endTask : Nat
  deriving DecidableEq, Repr

/-- Snapshot engine of a partition (R335-R346). -/
structure SnapX where
  /-- the stage area holds an intact image of `stageLen` bytes, with this STEP -/
  stageOk : Bool
  stageLen : Nat
  stageStep : Nat
  stageCkpt : Bool
  pushing : Bool
  held : Bool
  /-- a FETCH in progress: queue, slot, module, partition -/
  fetch : Option (Nat × Nat × Nat × Nat)
  /-- a PAIR in progress: queue and slot; and the partner's block: module, bytes -/
  pairCmd : Option (Nat × Nat)
  peerBlock : Option (Nat × List Byte)
  deriving DecidableEq, Repr

/-- A stream claim (R77): the stream ID, the claiming command and its engine. -/
structure Claim where
  stream : Nat
  q : Nat
  slot : Nat
  engine : Nat
  deriving DecidableEq, Repr

/-- A partition beside its register banks (R267-R273, R283-R285). -/
structure PartX where
  state : Nat
  waitRes : Bool
  stageCreate : Bool
  /-- HBM byte ranges being zeroed: first address, length -/
  zeroing : Store Nat
  hostFrozen : Bool
  pfFrozen : Bool
  jrStopped : Bool
  claims : List Claim
  /-- deficit per priority class (R278) -/
  deficit : List Int
  /-- held nanoseconds of pool tasks in the present budget window (R281) -/
  usedNs : Nat
  /-- pause of a SNAPSHOT or RESTORE: new tasks do not start -/
  paused : Bool
  /-- the step is abandoned (R205) -/
  abandoned : Bool
  /-- outcome of the step's seal: 0 none, 1 clean, 2 skip, 3 aborted -/
  sealOut : Nat
  sealVerdict : Nat
  closingSeen : Bool
  updateSeen : Bool
  closing : Option (Nat × Nat)
  /-- re-run of the layer: signalled causes as entry indices, rungs already taken, runs -/
  rerunWanted : List Nat
  rerunTaken : List Nat
  rerunCmds : List (Nat × Nat)
  collSeq : Store Nat
  fwVersion : Nat
  fwPending : Bool
  /-- energy carried to the next attribution in nanojoules, and the meters at the last one: pool time, link bytes, activity (R288) -/
  energyRem : Nat
  poolNsMark : Nat
  linkMark : Nat
  actMark : Nat
  /-- nanoseconds during which halts held the partition's timers (R392) -/
  heldNs : Nat
  jr : JrX
  snap : SnapX
  deriving DecidableEq, Repr

/-- A waiting pool or admission state (R278, R280). -/
structure AdmX where
  /-- doorbells waiting for the admission controller, head first: queue -/
  fifo : List Nat
  cursors : List Nat
  held : List Nat
  nextTask : Nat
  /-- number of the budget window that has begun last (R281) -/
  window : Nat
  /-- time of the latest energy attribution, and millijoules measured since that a halt has delayed (R288, R390) -/
  energyT : Nat
  energyOwed : Nat
  deriving DecidableEq, Repr

/-- A flit in the replay buffer, and the LINK_SEND whose data it carries (R242, R251). -/
structure TxFlit where
  flit : Flit
  owner : Option (Nat × Nat)
  deriving DecidableEq, Repr

/-- A Cridra link beside its page (R240-R245, R260-R262). -/
structure LinkX where
  /-- start of the present training state -/
  phaseT : Nat
  txSeq : Nat
  /-- SEQ expected next -/
  rxSeq : Nat
  unacked : List TxFlit
  /-- consecutive replays that brought no acknowledgement -/
  sameSeq : Nat
  aliveTx : Nat
  aliveRx : Nat
  /-- per VC: buffers the peer has freed, flits sent, buffers freed here -/
  credit : List Nat
  sent : List Nat
  freed : List Nat
  rxBuf : List Byte
  /-- link control messages waiting for the replay buffer: type and fields -/
  ctrl : List (List Nat)
  winT : Nat
  winFlits : Nat
  winRetries : Nat
  identDone : Bool
  /-- probes: number sent in the present run, time of the last, unanswered ones with t1, answers, best round trip and offset -/
  probeNum : Nat
  probeT : Nat
  probes : List (Nat × Nat)
  answers : Nat
  bestRtt : Nat
  bestOff : Int
  /-- what the run is for: 0 none, 1 drift, 2 re-measurement -/
  probeFor : Nat
  /-- latest TIME_TREE received: root, hop count, offset -/
  tree : Option (Nat × Nat × Int)
  usedT : Nat
  deriving DecidableEq, Repr

/-- A HALT_NOTICE held (R258, R393). -/
structure Notice where
  module : Nat
  seq : Nat
  part : Nat
  infra : Bool
  time : Nat
  deriving DecidableEq, Repr

/-- The time unit's view of its parent link (R262): offset at alignment, offset and time of the latest drift probe. -/
structure TimeX where
  alignOff : Int
  lastOff : Int
  lastT : Nat
  /-- when the reference was lost, and when a relock after its return ends (R21) -/
  lostT : Nat
  relockT : Nat
  deriving DecidableEq, Repr

/-- A packet exchange under a handle (R251): a LINK_SEND, a LINK_RECV's window, or a stream or window of the snapshot engine (`snap`, R339).
`phase`: a sender's 1 waits for SEND_CLEAR, 2 sends, 3 waits to repeat its request; a window's 1 is open, 2 matched. -/
structure XferX where
  part : Nat
  q : Nat
  slot : Nat
  snap : Bool
  send : Bool
  handle : Nat
  mod : Nat
  peerPart : Nat
  len : Nat
  got : Nat
  fmt : Nat
  phase : Nat
  startT : Nat
  retryT : Nat
  /-- for a snapshot stream: its bytes; for a window of the engine: where they land -/
  src : List Byte
  base : Nat
  deriving DecidableEq, Repr

/-- A packet that waits (R251, R255, R257): a SEND_REQ without a window, or an early packet of a collective. -/
structure ReqX where
  part : Nat
  die : Nat
  pk : Packet
  deriving DecidableEq, Repr

/-- An acknowledgement held from a child: rank, remaining microseconds, arrival time (R259). -/
structure AckX where
  rank : Nat
  left : Nat
  time : Nat
  deriving DecidableEq, Repr

/-- A collective in progress (R253-R259). `phase` is COLL_STATE.STATE. -/
structure CollX where
  part : Nat
  q : Nat
  slot : Nat
  group : Nat
  seq : Nat
  kind : Nat
  tree : Bool
  wire : Nat
  closing : Bool
  members : List Nat
  me : Nat
  len : Nat
  timeout : Nat
  /-- ranks that have sent COLL_READY, and ranks whose READY must be sent again with the time -/
  ready : List Nat
  retryT : Nat
  retry : List Nat
  /-- packets waiting for their receiver's READY: rank and packet -/
  outq : List (Nat × Packet)
  /-- times each chunk has arrived; chunk values of children, key 2 × chunk + child -/
  counts : Store Nat
  parts : Store (List Nat)
  /-- chunks whose final image is here -/
  finals : List Nat
  sent : Nat
  verdict : Nat
  acks : List AckX
  acked : Bool
  startT : Nat
  /-- nanoseconds held by notices, and the time up to which they cover (R258) -/
  heldNs : Nat
  heldTo : Nat
  phase : Nat
  deriving DecidableEq, Repr

/-- A packet that a router holds for an output port (R247). -/
structure RouteHold where
  die : Nat
  port : Nat
  vc : Nat
  pk : Packet
  since : Nat
  stuck : Bool
  owner : Option (Nat × Nat)
  deriving DecidableEq, Repr

/-- Control core, trace and halt state by control core page (R386-R396). -/
structure DbgX where
  pc : Nat
  halted : Bool
  frozen : Bool
  wantHalt : Bool
  stepping : Bool
  itraceSeq : Nat
  since : Nat
  /-- the command whose dispatch hit a breakpoint passes after RESUME (R389, R394) -/
  pass : Bool
  /-- the breakpoint that last hit was a PC breakpoint (R389) -/
  pcHit : Bool
  deriving DecidableEq, Repr

/-- Boot and root of trust (R354-R373). `phase` is the boot phase, 0 before one has begun. -/
structure BootX where
  phase : Nat
  /-- 0 Off or Aux, 1 booting, 2 Ready, 3 recovery, 4 halted -/
  state : Nat
  /-- time at Ready: the fettling pass tested every core, so an assay older than this counts from it (R327, R363) -/
  readyT : Nat
  /-- fuses (R355) -/
  minSvn : Nat
  revoked : Nat
  /-- next offset of a transfer in RECOVERY, once one has begun (R359, R360) -/
  pushAt : Option Nat
  /-- serial number of the configuration record, class and snapshot format versions (R362) -/
  cfgSerial : Nat
  cfgClass : Nat
  cfgSnap : Nat
  /-- measurements 3 and 4 (R368): digests of the image in flash as last checked, and of the sections that run -/
  measImage : Nat
  measRun : Nat
  /-- FETTLE_CLUSTER by global cluster (R364) -/
  goodInfo : Store Nat
  deriving DecidableEq, Repr

/-- Firmware update and PLDM update state (R361, R369-R371). `second` is set while the region is written once more (R370).
`pldmState` counts as DSP0267 does: 0 idle, 1 learn components, 2 ready to transfer, 3 download, 4 verify, 5 apply, 6 activate. -/
structure FwX where
  second : Bool
  byPldm : Bool
  pldmState : Nat
  pldmSize : Nat
  pldmComp : Nat
  pldmGot : Nat
  pldmData : List Byte
  deriving DecidableEq, Repr

/-- Power, cooling and their loops (R400-R415). -/
structure PowerX where
  inputOn : Bool
  perst : Bool
  /-- the present assertion of PERST# found main conversion on (R415) -/
  fromMain : Bool
  /-- PERST# has been released and the boot has not begun yet (R399, R403) -/
  bootWait : Bool
  /-- 0 off, 1 Aux, 2 booting, 3 Ready, 4 Parked, 5 returning to Ready, 6 parking -/
  state : Nat
  /-- start of the present parking or return -/
  since : Nat
  /-- a PARK waits for its conditions (R404) -/
  parkWait : Bool
  /-- start of the time since which the conditions of R404 have held without a break -/
  idleSince : Nat
  /-- shutdown cause (R417), 0 none -/
  cause : Nat
  leak : Bool
  /-- parked, but HBM is out of self-refresh or the links are out of low power, since the last use (R405) -/
  hbmUsed : Option Nat
  linksUsed : Option Nat
  /-- time of the latest return to Ready (R406) -/
  returnT : Nat
  /-- thermal responses to junctions and to HBM stacks: in effect, limit of the effective cap in W, time since which the condition has been
  absent (R412); the HBM response doubles the refresh rate -/
  hotJ : Bool
  capJ : Nat
  coolJ : Nat
  hotH : Bool
  capH : Nat
  coolH : Nat
  /-- starts of spans: flow below 3.0 L/min, flow below 5.0 L/min, flow and rise in order (R412, R413) -/
  flow3 : Option Nat
  flow5 : Option Nat
  flowOk : Option Nat
  throttle : Bool
  /-- the flow throttle applies for a leak (R414) -/
  leakThrottle : Bool
  flowNoted : Bool
  inletBad : Bool
  /-- the loop's stage 1 level, 0 to 64 (its limit), its duty in 64ths, and the time since which the 1 ms mean has been below the cap minus 2 % (R407, R408) -/
  stage1 : Nat
  duty : Nat
  below : Option Nat
  /-- readings by THERM_SEL index (R426) -/
  temps : Store Int
  deriving DecidableEq, Repr

/-- Management sideband (R416-R421). -/
structure SbX where
  dynAddr : Nat
  eid : Nat
  i3c : Bool
  receiver : Nat
  /-- events that the receiver has not accepted, oldest first: sensor and new state (R417, R418) -/
  events : List (Nat × Nat)
  feedPins : Nat
  /-- state of each sensor as last reported: 0 normal, 1 warning, 2 critical, or a state sensor's state -/
  shown : Store Nat
  deriving DecidableEq, Repr

/-- CXL interface (R294-R310). -/
structure CxlX where
  linkUp : Bool
  cxlMode : Bool
  /-- committed HDM decoders: base, size, skip, ways, granularity, lock; and decoders with Commit Error set (R303) -/
  decoders : Store (List Nat)
  commitErr : List Nat
  /-- CXL RAS Uncorrectable Error Status (R311) -/
  rasError : Bool
  cache : List Nat
  vfEnable : Bool
  ats : List Nat
  /-- ring pages whose translation is awaited: queue, host page, 0 requested, 1 page request open, 2 refused (R302) -/
  ringWait : List (Nat × Nat × Nat)
  deriving DecidableEq, Repr

/-- The state of the block. -/
structure State where
  /-- assembly variant: true for the CX-1260-N8 (R2) -/
  n8 : Bool
  timeNow : Nat
  refPresent : Bool
  /-- nanoseconds by which the holdover count runs ahead of or behind the reference (R21) -/
  holdover : Int
  regs : Store W64
  shadows : Store W64
  /-- latched high halves and PROGRESS_POS values by requester and register (R29, R39) -/
  latches : Store W64
  hbm : List Host.Cell
  /-- 64-byte blocks of HBM holding an uncorrectable error: by block number, the error's page × 2^32 + KEY (R322) -/
  hbmBad : Store Nat
  flash : List Host.Cell
  /-- host memory as the module reaches it: key is the host virtual address with the partition above (DESIGN CHOICE log 4) -/
  host : List Host.Cell
  /-- queue pairs by global number; one that nothing has used yet is not listed (R184) -/
  queues : Store QueueX
  parts : Store PartX
  cores : Store CoreX
  clusters : Store ClusterX
  adm : AdmX
  bars : List Bar
  tiles : List Tile
  rings : Store Ring
  /-- event times counted towards the lasting-fault thresholds, by page and key (R321) -/
  faultTimes : Store (List Nat)
  retireFailed : List Nat
  links : Store LinkX
  xfers : List XferX
  reqs : List ReqX
  colls : List CollX
  earlyReady : List ReqX
  routed : List RouteHold
  notices : List Notice
  noticeSeq : Nat
  /-- when the module last sent a notice of its own (R393) -/
  noticeT : Nat
  timeX : TimeX
  dbg : Store DbgX
  boot : BootX
  fw : FwX
  power : PowerX
  sb : SbX
  cxl : CxlX
  out : List Output
  fresh : Nat
  pending : List Instr
  deriving DecidableEq, Repr

/-! ### Initial values -/

def JrX.init : JrX :=
  { plan := [], base := 0, seed := 0, startStep := 0, stepsRun := 0, stopReq := false, phase := 0, started := [], uses := [], todo := [],
    rings := [], waitT := none, guard := false, failed := false, lrMult := 0x3F800000, ckptT := 0, ckptNow := false, endTask := 0 }

def SnapX.init : SnapX :=
  { stageOk := false, stageLen := 0, stageStep := 0, stageCkpt := false, pushing := false, held := false, fetch := none, pairCmd := none,
    peerBlock := none }

def PartX.init : PartX :=
  { state := 0, waitRes := false, stageCreate := false, zeroing := [], hostFrozen := false, pfFrozen := false,
    jrStopped := false, claims := [], deficit := [0, 0, 0, 0], usedNs := 0, paused := false, abandoned := false,
    sealOut := 0, sealVerdict := 0, closingSeen := false, updateSeen := false, closing := none, rerunWanted := [],
    rerunTaken := [], rerunCmds := [], collSeq := [], fwVersion := 0, fwPending := false,
    energyRem := 0, poolNsMark := 0, linkMark := 0, actMark := 0, heldNs := 0, jr := JrX.init, snap := SnapX.init }

def QueueX.init : QueueX :=
  { tail := 0, cqHead := 0, rd := 0, sqHead := 0, cqTail := 0, admPass := 0, cqPass := 0, state := 0, frozen := false,
    pfFrozen := false, lastReason := 0, aliveUsed := false, ringFault := false, restarts := 0, rdSaved := none, tasks := [], cmds := [] }

def CoreX.init : CoreX :=
  { wShape := 0, wEpoch := 0, loadAt := 0, swapAt := 0, nextAt := 0, fenced := false, absent := false, assayT := 0,
    assayDue := false, assayFirst := false, usedBy := [], tileSeq := 0 }

def ClusterX.init : ClusterX :=
  { good := 64, spare := 1, dead := false, prevPart := none, runQ := none, marked := false, wanted := none, stepAt := 0 }

def LinkX.init : LinkX :=
  { phaseT := 0, txSeq := 0, rxSeq := 0, unacked := [], sameSeq := 0, aliveTx := 0, aliveRx := 0, credit := [0, 0, 0, 0],
    sent := [0, 0, 0, 0], freed := [0, 0, 0, 0], rxBuf := [], ctrl := [], winT := 0, winFlits := 0, winRetries := 0,
    identDone := false, probeNum := 0, probeT := 0, probes := [], answers := 0, bestRtt := 0, bestOff := 0, probeFor := 0,
    tree := none, usedT := 0 }

def DbgX.init : DbgX :=
  { pc := 0, halted := false, frozen := false, wantHalt := false, stepping := false, itraceSeq := 0, since := 0,
    pass := false, pcHit := false }


def BootX.init : BootX :=
  { phase := 0, state := 0, readyT := 0, minSvn := 0, revoked := 0, pushAt := none, cfgSerial := 0, cfgClass := 0, cfgSnap := 0,
    measImage := 0, measRun := 0, goodInfo := [] }

def FwX.init : FwX :=
  { second := false, byPldm := false, pldmState := 0, pldmSize := 0, pldmComp := 0, pldmGot := 0, pldmData := [] }

def PowerX.init : PowerX :=
  { inputOn := true, perst := true, fromMain := false, bootWait := false, state := 1, since := 0, parkWait := false, idleSince := 0, cause := 0, leak := false,
    hbmUsed := none, linksUsed := none, returnT := 0, hotJ := false, capJ := 4000, coolJ := 0, hotH := false, capH := 4000,
    coolH := 0, flow3 := none, flow5 := none, flowOk := none, throttle := false, leakThrottle := false, flowNoted := false,
    inletBad := false, stage1 := 0, duty := 64, below := none, temps := [] }

def SbX.init : SbX :=
  { dynAddr := 0, eid := 0, i3c := false, receiver := 0, events := [], feedPins := 63, shown := [] }

def CxlX.init : CxlX :=
  { linkUp := false, cxlMode := false, decoders := [], commitErr := [], rasError := false, cache := [], vfEnable := false, ats := [], ringWait := [] }

/-- The block right after reset: input voltage present, PERST# asserted, so in Aux (R402, R403); every register at its reset value;
nothing listed in any memory (DESIGN CHOICE log 5, DESIGN CHOICE log 12). The variant is the CX-1260-M12 (DESIGN CHOICE log 11). -/
def State.reset : State :=
  { n8 := false, timeNow := 0, refPresent := true, holdover := 0, regs := [], shadows := [], latches := [], hbm := [],
    hbmBad := [], flash := [], host := [], queues := [], parts := [], cores := [], clusters := [],
    adm := { fifo := [], cursors := [0, 0, 0, 0], held := [], nextTask := 1, window := 0, energyT := 0, energyOwed := 0 }, bars := [], tiles := [], rings := [],
    faultTimes := [], retireFailed := [], links := [], xfers := [], reqs := [], colls := [], earlyReady := [],
    routed := [], notices := [], noticeSeq := 0, noticeT := 0, timeX := { alignOff := 0, lastOff := 0, lastT := 0, lostT := 0, relockT := 0 }, dbg := [], boot := BootX.init, fw := FwX.init, power := PowerX.init, sb := SbX.init,
    cxl := CxlX.init, out := [], fresh := 0, pending := [] }

end Sys2Proof.Machine
end

