-- ==== Sys2Proof/Machine/RegMap.lean ====
section
/-! DEFINITION. The register map of the pages (R26 to R54 and the "Registers" section of each chapter): per page type the
registers with their offset, width and fields, and per field its bits, access code (R9) and reset value. Generated
from the spec's own register tables. -/

namespace Sys2Proof.Machine

/-- The boundary kind of a staged field (R42). -/
inductive Kind where
  | step | layer | pass
  deriving DecidableEq, Repr

/-- Access codes of R9. -/
inductive Acc where
  | ro | rw | rwl | rw1c | wo
  | rws (k : Kind)
  deriving DecidableEq, Repr

structure FieldDesc where
  hi : Nat
  lo : Nat
  acc : Acc
  reset : Nat
  deriving DecidableEq, Repr

structure RegDesc where
  off : Nat
  width : Nat
  fields : List FieldDesc
  deriving DecidableEq, Repr

/-- Page types of R54, with the model's kinds for melt sheet entries behind the MELT_SEL windows (R153). -/
inductive PageType where
  | absent | core | ladle | temper | clusterCtrl | barrier | clusterSram | clusterGroup
  | dieMgr | hbmCtrl | meltShard | check | dieErr | d2d | dieGroup
  | link | collective | router | time | ioCtrl | cxl | rootOfTrust | pkgMgr | sideband
  | pkgErr | partition | admission | meter | jobRunner | queueCtx | power | identity | snapshot
  | packageGroup | entry
  deriving DecidableEq, Repr

/-- PAGE_ID.TYPE of each page type (R54). -/
def PageType.code : PageType → Nat
  | .absent => 0x00 | .core => 0x01 | .ladle => 0x02 | .temper => 0x03 | .clusterCtrl => 0x04 | .barrier => 0x05
  | .clusterSram => 0x06 | .clusterGroup => 0x07 | .dieMgr => 0x10 | .hbmCtrl => 0x11 | .meltShard => 0x12
  | .check => 0x13 | .dieErr => 0x14 | .d2d => 0x15 | .dieGroup => 0x17 | .link => 0x20 | .collective => 0x21
  | .router => 0x22 | .time => 0x23 | .ioCtrl => 0x24 | .cxl => 0x25 | .rootOfTrust => 0x26 | .pkgMgr => 0x27
  | .sideband => 0x28 | .pkgErr => 0x30 | .partition => 0x31 | .admission => 0x32 | .meter => 0x33
  | .jobRunner => 0x34 | .queueCtx => 0x35 | .power => 0x36 | .identity => 0x37 | .snapshot => 0x38
  | .packageGroup => 0x3F | .entry => 0x00

def headerRegs0 : List RegDesc := [
  ⟨0x000, 32, [⟨31, 24, .ro, 0⟩, ⟨23, 20, .ro, 0⟩, ⟨19, 14, .ro, 0⟩, ⟨13, 7, .ro, 0⟩, ⟨6, 3, .ro, 0⟩, ⟨2, 0, .ro, 1⟩]⟩ /- PAGE_ID -/,
  ⟨0x004, 32, [⟨31, 16, .ro, 0⟩, ⟨15, 0, .ro, 0⟩]⟩ /- PAGE_CAP -/,
  ⟨0x008, 32, [⟨0, 0, .rwl, 0⟩, ⟨1, 1, .rwl, 0⟩, ⟨2, 2, .rwl, 1⟩]⟩ /- PAGE_CTRL -/,
  ⟨0x00C, 32, [⟨0, 0, .ro, 0⟩, ⟨1, 1, .ro, 0⟩, ⟨2, 2, .ro, 0⟩, ⟨3, 3, .ro, 0⟩, ⟨4, 4, .ro, 0⟩, ⟨5, 5, .ro, 0⟩, ⟨6, 6, .ro, 0⟩, ⟨7, 7, .ro, 0⟩]⟩ /- PAGE_STATUS -/,
  ⟨0x010, 32, [⟨0, 0, .rw1c, 0⟩, ⟨1, 1, .rw1c, 0⟩, ⟨2, 2, .rw1c, 0⟩, ⟨3, 3, .rw1c, 0⟩, ⟨4, 4, .rw1c, 0⟩, ⟨5, 5, .rw1c, 0⟩, ⟨15, 8, .rw1c, 0⟩]⟩ /- PAGE_ERR -/,
  ⟨0x014, 32, [⟨0, 0, .rwl, 0⟩, ⟨1, 1, .rwl, 0⟩, ⟨2, 2, .rwl, 0⟩, ⟨3, 3, .rwl, 0⟩, ⟨4, 4, .rwl, 0⟩, ⟨5, 5, .rwl, 0⟩, ⟨15, 8, .rwl, 0⟩]⟩ /- PAGE_ERR_MASK -/,
  ⟨0x018, 32, [⟨0, 0, .wo, 0⟩, ⟨1, 1, .wo, 0⟩, ⟨2, 2, .wo, 0⟩, ⟨8, 8, .ro, 0⟩, ⟨9, 9, .ro, 0⟩, ⟨10, 10, .ro, 0⟩, ⟨16, 16, .rwl, 0⟩]⟩ /- STAGE_CTRL -/,
  ⟨0x01C, 32, [⟨31, 16, .ro, 0⟩, ⟨15, 0, .ro, 0⟩]⟩ /- STAGE_EPOCH -/,
  ⟨0x020, 32, [⟨31, 0, .ro, 0⟩]⟩ /- PROGRESS -/,
  ⟨0x028, 64, [⟨63, 0, .ro, 0⟩]⟩ /- PROGRESS_POS -/,
  ⟨0x030, 32, [⟨7, 0, .ro, 0⟩, ⟨8, 8, .ro, 0⟩, ⟨9, 9, .ro, 0⟩, ⟨10, 10, .ro, 0⟩]⟩ /- PAGE_OWNER -/,
  ⟨0x040, 64, [⟨63, 0, .ro, 0⟩]⟩ /- CNT_BUSY -/,
  ⟨0x048, 64, [⟨63, 0, .ro, 0⟩]⟩ /- CNT_FREEZE -/,
  ⟨0x050, 64, [⟨63, 0, .ro, 0⟩]⟩ /- CNT_GATED -/,
  ⟨0x058, 64, [⟨63, 0, .ro, 0⟩]⟩ /- CNT_STRETCHED -/,
  ⟨0x060, 64, [⟨63, 0, .ro, 0⟩]⟩ /- CNT_HALTED -/]

def headerRegs1 : List RegDesc := [
  ⟨0x068, 64, [⟨63, 0, .ro, 0⟩]⟩ /- CNT_CMD -/,
  ⟨0x070, 64, [⟨63, 0, .ro, 0⟩]⟩ /- CNT_ERR_CE -/,
  ⟨0x078, 64, [⟨63, 0, .ro, 0⟩]⟩ /- CNT_ERR_UCC -/,
  ⟨0x080, 64, [⟨63, 0, .ro, 0⟩]⟩ /- CNT_ERR_PF -/,
  ⟨0x088, 64, [⟨63, 0, .ro, 0⟩]⟩ /- CNT_ERR_DF -/,
  ⟨0x090, 64, [⟨63, 0, .ro, 0⟩]⟩ /- CNT_BUSY_WRITE -/]

/-- R32, R38 -/
def headerRegs : List RegDesc := headerRegs0 ++ headerRegs1

def groupRegs0 : List RegDesc := [
  ⟨0x100, 32, [⟨31, 0, .ro, 0⟩]⟩ /- GRP_CORES -/,
  ⟨0x104, 32, [⟨31, 0, .ro, 0⟩]⟩ /- GRP_CLUSTERS -/,
  ⟨0x108, 64, [⟨63, 0, .ro, 0⟩]⟩ /- GRP_CELLS -/,
  ⟨0x110, 64, [⟨63, 0, .ro, 0⟩]⟩ /- GRP_SRAM -/,
  ⟨0x118, 64, [⟨63, 0, .ro, 0⟩]⟩ /- GRP_HBM -/,
  ⟨0x120, 32, [⟨31, 0, .ro, 0⟩]⟩ /- GRP_LINKS -/,
  ⟨0x124, 32, [⟨31, 0, .ro, 0⟩]⟩ /- GRP_QUEUES -/,
  ⟨0x128, 32, [⟨31, 0, .ro, 0⟩]⟩ /- GRP_MELT -/,
  ⟨0x200, 32, [⟨16, 0, .rwl, 131071⟩]⟩ /- APT_SEL_0 -/,
  ⟨0x204, 32, [⟨16, 0, .rwl, 131071⟩]⟩ /- APT_SEL_1 -/,
  ⟨0x208, 32, [⟨16, 0, .rwl, 131071⟩]⟩ /- APT_SEL_2 -/,
  ⟨0x20C, 32, [⟨16, 0, .rwl, 131071⟩]⟩ /- APT_SEL_3 -/,
  ⟨0x210, 32, [⟨16, 0, .rwl, 131071⟩]⟩ /- APT_SEL_4 -/,
  ⟨0x214, 32, [⟨16, 0, .rwl, 131071⟩]⟩ /- APT_SEL_5 -/,
  ⟨0x218, 32, [⟨16, 0, .rwl, 131071⟩]⟩ /- APT_SEL_6 -/,
  ⟨0x21C, 32, [⟨16, 0, .rwl, 131071⟩]⟩ /- APT_SEL_7 -/]

def groupRegs1 : List RegDesc := [
  ⟨0x220, 32, [⟨16, 0, .rwl, 131071⟩]⟩ /- APT_SEL_8 -/,
  ⟨0x224, 32, [⟨16, 0, .rwl, 131071⟩]⟩ /- APT_SEL_9 -/,
  ⟨0x228, 32, [⟨16, 0, .rwl, 131071⟩]⟩ /- APT_SEL_10 -/,
  ⟨0x22C, 32, [⟨16, 0, .rwl, 131071⟩]⟩ /- APT_SEL_11 -/,
  ⟨0x230, 32, [⟨16, 0, .rwl, 131071⟩]⟩ /- APT_SEL_12 -/,
  ⟨0x234, 32, [⟨16, 0, .rwl, 131071⟩]⟩ /- APT_SEL_13 -/,
  ⟨0x238, 32, [⟨16, 0, .rwl, 131071⟩]⟩ /- APT_SEL_14 -/,
  ⟨0x23C, 32, [⟨16, 0, .rwl, 131071⟩]⟩ /- APT_SEL_15 -/,
  ⟨0x240, 32, [⟨16, 0, .rwl, 131071⟩]⟩ /- APT_SEL_16 -/,
  ⟨0x244, 32, [⟨16, 0, .rwl, 131071⟩]⟩ /- APT_SEL_17 -/,
  ⟨0x248, 32, [⟨16, 0, .rwl, 131071⟩]⟩ /- APT_SEL_18 -/,
  ⟨0x24C, 32, [⟨16, 0, .rwl, 131071⟩]⟩ /- APT_SEL_19 -/,
  ⟨0x250, 32, [⟨16, 0, .rwl, 131071⟩]⟩ /- APT_SEL_20 -/,
  ⟨0x254, 32, [⟨16, 0, .rwl, 131071⟩]⟩ /- APT_SEL_21 -/,
  ⟨0x258, 32, [⟨16, 0, .rwl, 131071⟩]⟩ /- APT_SEL_22 -/,
  ⟨0x25C, 32, [⟨16, 0, .rwl, 131071⟩]⟩ /- APT_SEL_23 -/]

def groupRegs2 : List RegDesc := [
  ⟨0x260, 32, [⟨16, 0, .rwl, 131071⟩]⟩ /- APT_SEL_24 -/,
  ⟨0x264, 32, [⟨16, 0, .rwl, 131071⟩]⟩ /- APT_SEL_25 -/,
  ⟨0x268, 32, [⟨16, 0, .rwl, 131071⟩]⟩ /- APT_SEL_26 -/,
  ⟨0x26C, 32, [⟨16, 0, .rwl, 131071⟩]⟩ /- APT_SEL_27 -/,
  ⟨0x270, 32, [⟨16, 0, .rwl, 131071⟩]⟩ /- APT_SEL_28 -/,
  ⟨0x274, 32, [⟨16, 0, .rwl, 131071⟩]⟩ /- APT_SEL_29 -/,
  ⟨0x278, 32, [⟨16, 0, .rwl, 131071⟩]⟩ /- APT_SEL_30 -/,
  ⟨0x27C, 32, [⟨16, 0, .rwl, 131071⟩]⟩ /- APT_SEL_31 -/,
  ⟨0x280, 32, [⟨10, 0, .rwl, 0⟩]⟩ /- HOST_CFG -/,
  ⟨0x284, 32, [⟨19, 0, .rwl, 0⟩]⟩ /- HOST_PASID -/,
  ⟨0x300, 64, [⟨63, 0, .rwl, 0⟩]⟩ /- TRACE_BASE -/,
  ⟨0x308, 32, [⟨5, 0, .rwl, 0⟩]⟩ /- TRACE_LOG2 -/,
  ⟨0x310, 64, [⟨63, 0, .rwl, 0⟩]⟩ /- ITRACE_BASE -/,
  ⟨0x318, 32, [⟨5, 0, .rwl, 0⟩]⟩ /- ITRACE_LOG2 -/,
  ⟨0x320, 64, [⟨63, 0, .ro, 0⟩]⟩ /- TRACE_NEXT -/,
  ⟨0x328, 64, [⟨63, 0, .ro, 0⟩]⟩ /- TRACE_FIRST -/]

def groupRegs3 : List RegDesc := [
  ⟨0x330, 64, [⟨63, 0, .ro, 0⟩]⟩ /- ITRACE_NEXT -/,
  ⟨0x338, 64, [⟨63, 0, .ro, 0⟩]⟩ /- ITRACE_FIRST -/,
  ⟨0x340, 64, [⟨7, 0, .rwl, 0⟩, ⟨8, 8, .rwl, 0⟩, ⟨63, 9, .rwl, 0⟩]⟩ /- TRACE_RD_SEL -/,
  ⟨0x348, 64, [⟨63, 0, .ro, 0⟩]⟩ /- TRACE_RD_NEXT -/,
  ⟨0x350, 64, [⟨63, 0, .ro, 0⟩]⟩ /- TRACE_RD_FIRST -/]

/-- R51, R53, R297, R397 -/
def groupRegs : List RegDesc := groupRegs0 ++ groupRegs1 ++ groupRegs2 ++ groupRegs3

def coreRegs0 : List RegDesc := [
  ⟨0x098, 64, [⟨63, 0, .ro, 0⟩]⟩ /- FREEZE_FEED -/,
  ⟨0x0A0, 64, [⟨63, 0, .ro, 0⟩]⟩ /- FREEZE_SPRUE -/,
  ⟨0x0A8, 64, [⟨63, 0, .ro, 0⟩]⟩ /- FREEZE_DRAIN -/,
  ⟨0x0B0, 64, [⟨63, 0, .ro, 0⟩]⟩ /- FREEZE_SWAP -/,
  ⟨0x0B8, 64, [⟨63, 0, .ro, 0⟩]⟩ /- FLUSH_IN -/,
  ⟨0x0C0, 64, [⟨63, 0, .ro, 0⟩]⟩ /- FLUSH_OUT -/,
  ⟨0x0C8, 64, [⟨63, 0, .ro, 0⟩]⟩ /- CVT_SAT -/,
  ⟨0x0D0, 64, [⟨63, 0, .ro, 0⟩]⟩ /- CVT_NAN -/,
  ⟨0x0D8, 64, [⟨63, 0, .ro, 0⟩]⟩ /- CELL_ACTIVE -/,
  ⟨0x0E0, 64, [⟨63, 0, .ro, 0⟩]⟩ /- PASSES -/,
  ⟨0x0E8, 64, [⟨63, 0, .ro, 0⟩]⟩ /- RESHAPES -/,
  ⟨0x0F0, 64, [⟨63, 0, .ro, 0⟩]⟩ /- PAT_LOOKUPS -/,
  ⟨0x0F8, 64, [⟨63, 0, .ro, 0⟩]⟩ /- PAT_STALL -/,
  ⟨0x100, 32, [⟨1, 0, (.rws .layer), 0⟩, ⟨3, 2, .ro, 0⟩, ⟨8, 4, (.rws .layer), 1⟩, ⟨9, 9, (.rws .layer), 0⟩, ⟨10, 10, (.rws .layer), 0⟩, ⟨11, 11, (.rws .layer), 0⟩]⟩ /- ARRAY_CFG -/,
  ⟨0x104, 32, [⟨2, 0, .ro, 0⟩, ⟨7, 4, .ro, 0⟩, ⟨13, 8, .ro, 0⟩, ⟨31, 16, .ro, 0⟩]⟩ /- ARRAY_STATE -/,
  ⟨0x108, 32, [⟨0, 0, (.rws .pass), 0⟩, ⟨1, 1, (.rws .pass), 0⟩, ⟨2, 2, (.rws .pass), 0⟩, ⟨3, 3, (.rws .pass), 0⟩, ⟨15, 4, (.rws .pass), 0⟩]⟩ /- PASS_CFG -/]

def coreRegs1 : List RegDesc := [
  ⟨0x10C, 32, [⟨16, 0, (.rws .pass), 0⟩]⟩ /- SHADOW_SRC -/,
  ⟨0x110, 32, [⟨16, 0, (.rws .pass), 0⟩]⟩ /- SHADOW_STRIDE -/,
  ⟨0x114, 32, [⟨4, 0, .ro, 16⟩, ⟨13, 8, .ro, 0⟩]⟩ /- SPRUE_STATUS -/,
  ⟨0x118, 32, [⟨0, 0, .rw1c, 0⟩, ⟨1, 1, .rw1c, 0⟩, ⟨2, 2, .rw1c, 0⟩, ⟨3, 3, .rw1c, 0⟩, ⟨4, 4, .rw1c, 0⟩, ⟨5, 5, .rw1c, 0⟩, ⟨6, 6, .rw1c, 0⟩]⟩ /- DOT_FLAGS -/,
  ⟨0x11C, 32, [⟨0, 0, .rw1c, 0⟩, ⟨1, 1, .rw1c, 0⟩, ⟨2, 2, .rw1c, 0⟩, ⟨3, 3, .rw1c, 0⟩, ⟨4, 4, .rw1c, 0⟩]⟩ /- VEC_FLAGS -/,
  ⟨0x120, 32, [⟨15, 0, .ro, 0⟩]⟩ /- SWAP_FREEZE_LAST -/,
  ⟨0x300, 32, [⟨1, 0, (.rws .layer), 0⟩, ⟨3, 2, (.rws .layer), 0⟩, ⟨5, 4, (.rws .layer), 0⟩, ⟨18, 8, (.rws .layer), 0⟩]⟩ /- PAT_CFG -/,
  ⟨0x304, 32, [⟨1, 0, .ro, 0⟩, ⟨2, 2, .ro, 0⟩, ⟨6, 4, .ro, 0⟩, ⟨14, 8, .ro, 0⟩, ⟨26, 16, .ro, 0⟩]⟩ /- PAT_STATE -/,
  ⟨0x308, 32, [⟨23, 0, .ro, 0⟩]⟩ /- PAT_PASS_CYCLES -/,
  ⟨0x400, 32, [⟨1, 0, .ro, 0⟩, ⟨2, 2, .ro, 0⟩, ⟨19, 4, .ro, 0⟩, ⟨23, 20, .ro, 0⟩]⟩ /- DRAIN_STATE -/,
  ⟨0x404, 32, [⟨31, 0, .ro, 0⟩]⟩ /- DRAIN_TILE_AMAX -/,
  ⟨0x408, 32, [⟨31, 0, .ro, 0⟩]⟩ /- DRAIN_TILE_BODY -/,
  ⟨0x40C, 32, [⟨31, 0, .ro, 0⟩]⟩ /- DRAIN_THRESH -/,
  ⟨0x410, 32, [⟨15, 0, .ro, 0⟩, ⟨31, 16, .ro, 0⟩]⟩ /- DRAIN_PASS_CYCLES -/,
  ⟨0x420, 64, [⟨63, 0, .ro, 0⟩]⟩ /- DRAIN_TILES -/,
  ⟨0x428, 64, [⟨63, 0, .ro, 0⟩]⟩ /- DRAIN_ZERO_BLK -/]

def coreRegs2 : List RegDesc := [
  ⟨0x430, 64, [⟨63, 0, .ro, 0⟩]⟩ /- DRAIN_FLUSH_BLK -/,
  ⟨0x438, 64, [⟨63, 0, .ro, 0⟩]⟩ /- DRAIN_SAT_BLK -/,
  ⟨0x440, 64, [⟨63, 0, .ro, 0⟩]⟩ /- DRAIN_NONFIN_BLK -/,
  ⟨0x448, 64, [⟨63, 0, .ro, 0⟩]⟩ /- DRAIN_RISER -/,
  ⟨0x450, 64, [⟨63, 0, .ro, 0⟩]⟩ /- DRAIN_TRIGGERS -/]

/-- R100, R101, R117, R118, R151 -/
def coreRegs : List RegDesc := coreRegs0 ++ coreRegs1 ++ coreRegs2

def entryRegs0 : List RegDesc := [
  ⟨0x000, 32, [⟨3, 0, (.rws .step), 0⟩, ⟨7, 4, (.rws .step), 0⟩, ⟨9, 8, (.rws .step), 0⟩, ⟨10, 10, (.rws .step), 0⟩, ⟨11, 11, (.rws .step), 0⟩, ⟨12, 12, (.rws .step), 0⟩, ⟨14, 13, (.rws .step), 0⟩, ⟨16, 15, (.rws .step), 3⟩, ⟨20, 17, (.rws .step), 0⟩]⟩ /- ENT_CTRL -/,
  ⟨0x004, 32, [⟨3, 0, (.rws .step), 6⟩, ⟨7, 4, (.rws .step), 4⟩, ⟨15, 8, (.rws .step), 16⟩, ⟨31, 16, (.rws .step), 1024⟩]⟩ /- ENT_RULES -/,
  ⟨0x008, 32, [⟨31, 0, (.rws .step), 1065353216⟩]⟩ /- TSCALE -/,
  ⟨0x00C, 32, [⟨31, 0, (.rws .step), 1090519040⟩]⟩ /- CEIL -/,
  ⟨0x010, 32, [⟨7, 0, .ro, 1⟩, ⟨15, 8, .ro, 1⟩, ⟨23, 16, .ro, 1⟩, ⟨30, 24, .ro, 0⟩]⟩ /- FMT_STATE -/,
  ⟨0x014, 32, [⟨7, 0, .ro, 0⟩, ⟨15, 8, .ro, 0⟩, ⟨23, 16, .ro, 0⟩, ⟨25, 24, .ro, 0⟩, ⟨29, 26, .ro, 0⟩, ⟨30, 30, .ro, 0⟩]⟩ /- WIDEN_AT -/,
  ⟨0x018, 64, [⟨63, 0, (.rws .step), 0⟩]⟩ /- RISER_BASE -/,
  ⟨0x020, 32, [⟨31, 0, (.rws .step), 0⟩]⟩ /- RISER_CAP -/,
  ⟨0x024, 32, [⟨31, 0, .ro, 0⟩]⟩ /- RISER_PEAK -/,
  ⟨0x028, 32, [⟨31, 0, .ro, 0⟩]⟩ /- AMAX_CUR -/,
  ⟨0x02C, 32, [⟨31, 0, .ro, 0⟩]⟩ /- BODY_CUR -/,
  ⟨0x030, 16, [⟨15, 0, .ro, 0⟩]⟩ /- HIST_0 -/,
  ⟨0x032, 16, [⟨15, 0, .ro, 0⟩]⟩ /- HIST_1 -/,
  ⟨0x034, 16, [⟨15, 0, .ro, 0⟩]⟩ /- HIST_2 -/,
  ⟨0x036, 16, [⟨15, 0, .ro, 0⟩]⟩ /- HIST_3 -/,
  ⟨0x038, 16, [⟨15, 0, .ro, 0⟩]⟩ /- HIST_4 -/]

def entryRegs1 : List RegDesc := [
  ⟨0x03A, 16, [⟨15, 0, .ro, 0⟩]⟩ /- HIST_5 -/,
  ⟨0x03C, 16, [⟨15, 0, .ro, 0⟩]⟩ /- HIST_6 -/,
  ⟨0x03E, 16, [⟨15, 0, .ro, 0⟩]⟩ /- HIST_7 -/,
  ⟨0x040, 32, [⟨31, 0, .ro, 0⟩]⟩ /- NONZERO_BLK -/,
  ⟨0x044, 32, [⟨31, 0, .ro, 0⟩]⟩ /- ZERO_BLK -/,
  ⟨0x048, 32, [⟨31, 0, .ro, 0⟩]⟩ /- FLUSH_BLK -/,
  ⟨0x04C, 32, [⟨31, 0, .ro, 0⟩]⟩ /- SAT_BLK -/,
  ⟨0x050, 32, [⟨31, 0, .ro, 0⟩]⟩ /- NONFIN_BLK -/,
  ⟨0x054, 32, [⟨31, 0, .ro, 0⟩]⟩ /- RISER_OVF -/,
  ⟨0x058, 32, [⟨31, 0, .ro, 0⟩]⟩ /- CLAMPED -/,
  ⟨0x05C, 32, [⟨7, 0, .ro, 0⟩, ⟨31, 16, .ro, 0⟩]⟩ /- RERUN -/,
  ⟨0x060, 32, [⟨15, 0, .ro, 0⟩, ⟨31, 16, .ro, 0⟩]⟩ /- HYST -/,
  ⟨0x064, 32, [⟨15, 0, .ro, 0⟩, ⟨31, 16, .ro, 0⟩]⟩ /- SILENT -/,
  ⟨0x068, 32, [⟨12, 0, (.rws .step), 64⟩]⟩ /- DEAD_CFG -/,
  ⟨0x06C, 32, [⟨31, 0, (.rws .step), 0⟩]⟩ /- CMP_PAGE -/,
  ⟨0x070, 64, [⟨7, 0, .ro, 0⟩, ⟨15, 8, .ro, 0⟩, ⟨31, 16, .ro, 0⟩, ⟨47, 32, .ro, 0⟩, ⟨63, 48, .ro, 0⟩]⟩ /- G16_SUM -/]

def entryRegs2 : List RegDesc := [
  ⟨0x078, 32, [⟨31, 0, .ro, 0⟩]⟩ /- CMP_MAXDIFF -/,
  ⟨0x07C, 32, [⟨31, 0, .ro, 0⟩]⟩ /- CMP_NDIFF -/]

/-- R129 -/
def entryRegs : List RegDesc := entryRegs0 ++ entryRegs1 ++ entryRegs2

/-- R153 -/
def meltShardRegs : List RegDesc := [
  ⟨0x098, 64, [⟨63, 0, .ro, 0⟩]⟩ /- SHARD_RERUNS -/,
  ⟨0x0A0, 64, [⟨63, 0, .ro, 0⟩]⟩ /- SHARD_WIDENS -/,
  ⟨0x0A8, 64, [⟨63, 0, .ro, 0⟩]⟩ /- SHARD_NARROWS -/,
  ⟨0x0B0, 64, [⟨63, 0, .ro, 0⟩]⟩ /- SHARD_STAT_MSGS -/,
  ⟨0x100, 32, [⟨15, 0, .rwl, 0⟩, ⟨16, 16, .rwl, 0⟩]⟩ /- MELT_SEL_0 -/,
  ⟨0x104, 32, [⟨15, 0, .rwl, 0⟩, ⟨16, 16, .rwl, 0⟩]⟩ /- MELT_SEL_1 -/,
  ⟨0x108, 32, [⟨15, 0, .rwl, 0⟩, ⟨16, 16, .rwl, 0⟩]⟩ /- MELT_SEL_2 -/,
  ⟨0x10C, 32, [⟨15, 0, .rwl, 0⟩, ⟨16, 16, .rwl, 0⟩]⟩ /- MELT_SEL_3 -/,
  ⟨0x110, 32, [⟨15, 0, .rwl, 0⟩, ⟨16, 16, .rwl, 0⟩]⟩ /- MELT_SEL_4 -/,
  ⟨0x114, 32, [⟨15, 0, .rwl, 0⟩, ⟨16, 16, .rwl, 0⟩]⟩ /- MELT_SEL_5 -/,
  ⟨0x118, 32, [⟨15, 0, .rwl, 0⟩, ⟨16, 16, .rwl, 0⟩]⟩ /- MELT_SEL_6 -/,
  ⟨0x11C, 32, [⟨15, 0, .rwl, 0⟩, ⟨16, 16, .rwl, 0⟩]⟩ /- MELT_SEL_7 -/,
  ⟨0x120, 32, [⟨14, 0, .ro, 0⟩, ⟨15, 15, .ro, 0⟩]⟩ /- SHARD_STATE -/,
  ⟨0x124, 32, [⟨31, 0, .ro, 0⟩]⟩ /- GOV_LAST_NS -/]

/-- R157 -/
def gradEntryRegs : List RegDesc := [
  ⟨0x008, 64, [⟨63, 0, (.rws .step), 0⟩]⟩ /- GSCALE_BASE -/,
  ⟨0x010, 32, [⟨7, 0, .ro, 1⟩, ⟨15, 8, .ro, 1⟩, ⟨23, 16, .ro, 1⟩, ⟨30, 24, .ro, 0⟩]⟩ /- FMT_STATE -/,
  ⟨0x014, 32, [⟨5, 0, (.rws .step), 32⟩]⟩ /- G_CFG -/,
  ⟨0x018, 64, [⟨63, 0, (.rws .step), 0⟩]⟩ /- GSTATE_BASE -/,
  ⟨0x028, 32, [⟨31, 0, .ro, 0⟩]⟩ /- AMAX_CUR -/,
  ⟨0x02C, 32, [⟨31, 0, .ro, 0⟩]⟩ /- BODY_CUR -/,
  ⟨0x030, 16, [⟨15, 0, .ro, 0⟩]⟩ /- HIST_0 -/,
  ⟨0x032, 16, [⟨15, 0, .ro, 0⟩]⟩ /- HIST_1 -/,
  ⟨0x034, 16, [⟨15, 0, .ro, 0⟩]⟩ /- HIST_2 -/,
  ⟨0x036, 16, [⟨15, 0, .ro, 0⟩]⟩ /- HIST_3 -/,
  ⟨0x038, 16, [⟨15, 0, .ro, 0⟩]⟩ /- HIST_4 -/,
  ⟨0x03A, 16, [⟨15, 0, .ro, 0⟩]⟩ /- HIST_5 -/,
  ⟨0x03C, 16, [⟨15, 0, .ro, 0⟩]⟩ /- HIST_6 -/,
  ⟨0x03E, 16, [⟨15, 0, .ro, 0⟩]⟩ /- HIST_7 -/,
  ⟨0x070, 64, [⟨7, 0, .ro, 0⟩, ⟨15, 8, .ro, 0⟩, ⟨31, 16, .ro, 0⟩, ⟨47, 32, .ro, 0⟩, ⟨63, 48, .ro, 0⟩]⟩ /- G16_SUM -/]

/-- R181 -/
def temperRegs : List RegDesc := [
  ⟨0x098, 64, [⟨63, 0, .ro, 0⟩]⟩ /- TEMPER_ELEMS -/,
  ⟨0x0A0, 64, [⟨63, 0, .ro, 0⟩]⟩ /- TEMPER_HOLD -/,
  ⟨0x100, 32, [⟨1, 0, (.rws .step), 1⟩, ⟨2, 2, (.rws .step), 0⟩, ⟨3, 3, (.rws .step), 0⟩]⟩ /- OPT_CFG -/,
  ⟨0x104, 32, [⟨31, 0, (.rws .step), 0⟩]⟩ /- LR -/,
  ⟨0x108, 32, [⟨31, 0, (.rws .step), 1063675494⟩]⟩ /- BETA1 -/,
  ⟨0x10C, 32, [⟨31, 0, (.rws .step), 1065336439⟩]⟩ /- BETA2 -/,
  ⟨0x110, 32, [⟨31, 0, (.rws .step), 841731191⟩]⟩ /- EPS -/,
  ⟨0x114, 32, [⟨31, 0, (.rws .step), 0⟩]⟩ /- WDECAY -/,
  ⟨0x118, 32, [⟨31, 0, (.rws .step), 1092616192⟩]⟩ /- TRUST_MAX -/,
  ⟨0x11C, 32, [⟨31, 0, (.rws .step), 1065353216⟩]⟩ /- GRAD_SCALE -/,
  ⟨0x120, 32, [⟨31, 0, .ro, 1065353216⟩]⟩ /- B1POW -/,
  ⟨0x124, 32, [⟨31, 0, .ro, 1065353216⟩]⟩ /- B2POW -/,
  ⟨0x128, 32, [⟨1, 0, .ro, 0⟩, ⟨2, 2, .ro, 0⟩]⟩ /- TEMPER_STATE -/]

/-- R183 -/
def jobRunnerRegs : List RegDesc := [
  ⟨0x100, 32, [⟨0, 0, .rwl, 0⟩, ⟨1, 1, .rwl, 0⟩]⟩ /- JR_CTRL -/,
  ⟨0x104, 32, [⟨2, 0, .ro, 0⟩, ⟨5, 3, .ro, 0⟩, ⟨6, 6, .ro, 0⟩, ⟨7, 7, .ro, 0⟩]⟩ /- JR_STATUS -/,
  ⟨0x108, 64, [⟨63, 0, (.rws .step), 0⟩]⟩ /- PLAN_BASE -/,
  ⟨0x110, 32, [⟨15, 0, (.rws .step), 200⟩]⟩ /- SNAP_INTERVAL -/,
  ⟨0x114, 32, [⟨31, 0, (.rws .step), 3600⟩]⟩ /- CKPT_INTERVAL -/,
  ⟨0x118, 32, [⟨0, 0, (.rws .step), 0⟩, ⟨1, 1, (.rws .step), 0⟩]⟩ /- JR_FLAGS -/,
  ⟨0x11C, 32, [⟨31, 0, .ro, 0⟩]⟩ /- STEP_INDEX -/,
  ⟨0x120, 32, [⟨31, 0, .ro, 0⟩]⟩ /- APPLIED_STEPS -/,
  ⟨0x124, 32, [⟨31, 0, .ro, 0⟩]⟩ /- LAST_VERDICT -/,
  ⟨0x128, 32, [⟨31, 0, .ro, 0⟩]⟩ /- VERDICT_ACC -/,
  ⟨0x12C, 32, [⟨7, 0, .rwl, 0⟩]⟩ /- JR_VIEW -/,
  ⟨0x130, 64, [⟨63, 0, .ro, 0⟩]⟩ /- SKIPPED_STEPS -/,
  ⟨0x138, 64, [⟨63, 0, .ro, 0⟩]⟩ /- ABORTED_STEPS -/,
  ⟨0x140, 64, [⟨63, 0, .ro, 0⟩]⟩ /- NUMERIC_EVENTS -/,
  ⟨0x148, 64, [⟨63, 0, .ro, 0⟩]⟩ /- DATA_WAIT_NS -/,
  ⟨0x150, 64, [⟨63, 0, .ro, 0⟩]⟩ /- VERDICT_WAIT_NS -/]

/-- R212 -/
def queueContextRegs : List RegDesc := [
  ⟨0x000, 64, [⟨63, 0, .rw, 0⟩]⟩ /- SQ_BASE -/,
  ⟨0x008, 64, [⟨63, 0, .rw, 0⟩]⟩ /- CQ_BASE -/,
  ⟨0x010, 64, [⟨63, 0, .rw, 0⟩]⟩ /- ADM_BASE -/,
  ⟨0x018, 32, [⟨0, 0, .rw, 0⟩, ⟨8, 4, .rw, 4⟩, ⟨10, 9, .rw, 0⟩, ⟨21, 11, .rw, 0⟩, ⟨22, 22, .rw, 0⟩, ⟨23, 23, .rw, 0⟩]⟩ /- QCFG -/,
  ⟨0x01C, 32, [⟨15, 0, .rw, 1000⟩]⟩ /- QLIMITS -/,
  ⟨0x020, 32, [⟨15, 0, .ro, 0⟩, ⟨31, 16, .ro, 0⟩]⟩ /- QPTR -/,
  ⟨0x024, 32, [⟨1, 0, .ro, 0⟩, ⟨2, 2, .ro, 0⟩, ⟨3, 3, .ro, 0⟩, ⟨7, 4, .ro, 0⟩, ⟨15, 8, .ro, 0⟩, ⟨24, 16, .ro, 0⟩]⟩ /- QSTATUS -/,
  ⟨0x028, 32, [⟨15, 0, .rw, 0⟩]⟩ /- ALIVE_NEXT -/,
  ⟨0x02C, 32, [⟨15, 0, .ro, 0⟩]⟩ /- TASK_START -/]

/-- R213 -/
def barrierRegs : List RegDesc := [
  ⟨0x098, 64, [⟨63, 0, .ro, 0⟩]⟩ /- BAR_RELEASES -/,
  ⟨0x0A0, 64, [⟨63, 0, .ro, 0⟩]⟩ /- BAR_TIMEOUTS -/,
  ⟨0x100, 32, [⟨31, 0, (.rws .layer), 1000000⟩]⟩ /- BAR_TIMEOUT -/,
  ⟨0x104, 32, [⟨15, 0, .ro, 0⟩, ⟨31, 16, .ro, 0⟩]⟩ /- BAR_STATE -/,
  ⟨0x108, 32, [⟨31, 0, .ro, 0⟩]⟩ /- BAR_LAST_NS -/]

/-- R235 -/
def ladleRegs : List RegDesc := [
  ⟨0x098, 64, [⟨63, 0, .ro, 0⟩]⟩ /- LADLE_RD_BYTES -/,
  ⟨0x0A0, 64, [⟨63, 0, .ro, 0⟩]⟩ /- LADLE_WR_BYTES -/,
  ⟨0x0A8, 64, [⟨63, 0, .ro, 0⟩]⟩ /- LADLE_HOST_BYTES -/,
  ⟨0x0B0, 64, [⟨63, 0, .ro, 0⟩]⟩ /- LADLE_CLAMPED -/,
  ⟨0x0B8, 64, [⟨63, 0, .ro, 0⟩]⟩ /- LADLE_DUPS -/,
  ⟨0x0C0, 64, [⟨63, 0, .ro, 0⟩]⟩ /- LADLE_CACHE_HITS -/,
  ⟨0x0C8, 64, [⟨63, 0, .ro, 0⟩]⟩ /- LADLE_PRI -/,
  ⟨0x0D0, 64, [⟨63, 0, .ro, 0⟩]⟩ /- LADLE_INVAL -/,
  ⟨0x0D8, 64, [⟨63, 0, .ro, 0⟩]⟩ /- FLUSH_IN -/,
  ⟨0x0E0, 64, [⟨63, 0, .ro, 0⟩]⟩ /- FLUSH_OUT -/,
  ⟨0x0E8, 64, [⟨63, 0, .ro, 0⟩]⟩ /- CVT_SAT -/,
  ⟨0x0F0, 64, [⟨63, 0, .ro, 0⟩]⟩ /- CVT_NAN -/,
  ⟨0x100, 32, [⟨2, 0, .ro, 0⟩, ⟨15, 8, .ro, 0⟩, ⟨30, 16, .ro, 0⟩]⟩ /- LADLE_STATE -/,
  ⟨0x104, 32, [⟨12, 0, .ro, 0⟩]⟩ /- LADLE_ALLOC -/,
  ⟨0x108, 64, [⟨63, 0, .ro, 0⟩]⟩ /- LADLE_PRI_LAST -/,
  ⟨0x110, 64, [⟨63, 0, .ro, 0⟩]⟩ /- LADLE_INVAL_LAST -/]

def linkRegs0 : List RegDesc := [
  ⟨0x098, 64, [⟨63, 0, .ro, 0⟩]⟩ /- LINK_TX_FLITS -/,
  ⟨0x0A0, 64, [⟨63, 0, .ro, 0⟩]⟩ /- LINK_RX_FLITS -/,
  ⟨0x0A8, 64, [⟨63, 0, .ro, 0⟩]⟩ /- LINK_RETRY -/,
  ⟨0x0B0, 64, [⟨63, 0, .ro, 0⟩]⟩ /- LINK_CRC_ERR -/,
  ⟨0x0B8, 64, [⟨63, 0, .ro, 0⟩]⟩ /- LINK_FEC_CORR -/,
  ⟨0x0C0, 64, [⟨63, 0, .ro, 0⟩]⟩ /- LINK_FEC_UNCORR -/,
  ⟨0x0C8, 64, [⟨63, 0, .ro, 0⟩]⟩ /- LINK_TX_BYTES -/,
  ⟨0x0D0, 64, [⟨63, 0, .ro, 0⟩]⟩ /- LINK_RX_BYTES -/,
  ⟨0x0D8, 64, [⟨63, 0, .ro, 0⟩]⟩ /- LINK_NARROW_EVENTS -/,
  ⟨0x0E0, 64, [⟨63, 0, .ro, 0⟩]⟩ /- LINK_DOWN_EVENTS -/,
  ⟨0x100, 32, [⟨0, 0, .rw, 0⟩, ⟨2, 1, .rw, 0⟩]⟩ /- LINK_CFG -/,
  ⟨0x104, 32, [⟨0, 0, .wo, 0⟩, ⟨1, 1, .wo, 0⟩]⟩ /- LINK_CTRL -/,
  ⟨0x108, 32, [⟨2, 0, .ro, 0⟩, ⟨4, 3, .ro, 0⟩, ⟨8, 5, .ro, 0⟩, ⟨10, 9, .ro, 0⟩, ⟨11, 11, .ro, 0⟩, ⟨15, 12, .ro, 0⟩, ⟨17, 16, .ro, 0⟩]⟩ /- LINK_STAT -/,
  ⟨0x10C, 32, [⟨13, 0, .ro, 0⟩, ⟨20, 14, .ro, 0⟩, ⟨31, 31, .ro, 0⟩]⟩ /- PEER_ID -/,
  ⟨0x110, 32, [⟨31, 0, .ro, 0⟩]⟩ /- LINK_RTT_NS -/,
  ⟨0x118, 64, [⟨63, 0, .ro, 0⟩]⟩ /- LINK_OFFSET -/]

def linkRegs1 : List RegDesc := [
  ⟨0x120, 32, [⟨7, 0, .ro, 0⟩, ⟨15, 8, .ro, 0⟩]⟩ /- LINK_LAST_ERR -/,
  ⟨0x128, 32, [⟨31, 0, .ro, 0⟩]⟩ /- LANE_SYM_0 -/,
  ⟨0x12C, 32, [⟨31, 0, .ro, 0⟩]⟩ /- LANE_SYM_1 -/,
  ⟨0x130, 32, [⟨31, 0, .ro, 0⟩]⟩ /- LANE_SYM_2 -/,
  ⟨0x134, 32, [⟨31, 0, .ro, 0⟩]⟩ /- LANE_SYM_3 -/]

/-- R263 -/
def linkRegs : List RegDesc := linkRegs0 ++ linkRegs1

def routerRegs0 : List RegDesc := [
  ⟨0x098, 64, [⟨63, 0, .ro, 0⟩]⟩ /- ROUTE_FWD_FLITS -/,
  ⟨0x0A0, 64, [⟨63, 0, .ro, 0⟩]⟩ /- ROUTE_LOCAL_FLITS -/,
  ⟨0x0A8, 64, [⟨63, 0, .ro, 0⟩]⟩ /- ROUTE_DROPS -/,
  ⟨0x0B0, 64, [⟨63, 0, .ro, 0⟩]⟩ /- TAG_REJECTS -/,
  ⟨0x0B8, 64, [⟨63, 0, .ro, 0⟩]⟩ /- ROUTE_STUCK -/,
  ⟨0x100, 32, [⟨13, 0, .rw, 0⟩]⟩ /- ROUTER_ID -/,
  ⟨0x104, 32, [⟨13, 0, .rwl, 0⟩]⟩ /- ROUTE_SEL -/,
  ⟨0x108, 32, [⟨3, 0, .rwl, 0⟩, ⟨5, 4, .rwl, 0⟩, ⟨6, 6, .rwl, 0⟩, ⟨7, 7, .rwl, 0⟩, ⟨11, 8, .rwl, 0⟩, ⟨13, 12, .rwl, 0⟩]⟩ /- ROUTE_DATA -/,
  ⟨0x10C, 32, [⟨31, 0, .rwl, 10000⟩]⟩ /- ROUTE_STUCK_US -/,
  ⟨0x110, 32, [⟨7, 0, .rwl, 0⟩]⟩ /- AUTH_SEL -/,
  ⟨0x114, 32, [⟨15, 0, .rwl, 0⟩]⟩ /- AUTH_TAG -/,
  ⟨0x120, 32, [⟨13, 0, .rwl, 0⟩, ⟨29, 16, .rwl, 0⟩, ⟨31, 31, .rwl, 0⟩]⟩ /- AUTH_RANGE_0 -/,
  ⟨0x124, 32, [⟨13, 0, .rwl, 0⟩, ⟨29, 16, .rwl, 0⟩, ⟨31, 31, .rwl, 0⟩]⟩ /- AUTH_RANGE_1 -/,
  ⟨0x128, 32, [⟨13, 0, .rwl, 0⟩, ⟨29, 16, .rwl, 0⟩, ⟨31, 31, .rwl, 0⟩]⟩ /- AUTH_RANGE_2 -/,
  ⟨0x12C, 32, [⟨13, 0, .rwl, 0⟩, ⟨29, 16, .rwl, 0⟩, ⟨31, 31, .rwl, 0⟩]⟩ /- AUTH_RANGE_3 -/,
  ⟨0x130, 32, [⟨13, 0, .rwl, 0⟩, ⟨29, 16, .rwl, 0⟩, ⟨31, 31, .rwl, 0⟩]⟩ /- AUTH_RANGE_4 -/]

def routerRegs1 : List RegDesc := [
  ⟨0x134, 32, [⟨13, 0, .rwl, 0⟩, ⟨29, 16, .rwl, 0⟩, ⟨31, 31, .rwl, 0⟩]⟩ /- AUTH_RANGE_5 -/,
  ⟨0x138, 32, [⟨13, 0, .rwl, 0⟩, ⟨29, 16, .rwl, 0⟩, ⟨31, 31, .rwl, 0⟩]⟩ /- AUTH_RANGE_6 -/,
  ⟨0x13C, 32, [⟨13, 0, .rwl, 0⟩, ⟨29, 16, .rwl, 0⟩, ⟨31, 31, .rwl, 0⟩]⟩ /- AUTH_RANGE_7 -/]

/-- R264 -/
def routerRegs : List RegDesc := routerRegs0 ++ routerRegs1

/-- R265 -/
def collectiveRegs : List RegDesc := [
  ⟨0x098, 64, [⟨63, 0, .ro, 0⟩]⟩ /- COLL_DONE -/,
  ⟨0x0A0, 64, [⟨63, 0, .ro, 0⟩]⟩ /- COLL_TIMEOUTS -/,
  ⟨0x0A8, 64, [⟨63, 0, .ro, 0⟩]⟩ /- COLL_ELEMS -/,
  ⟨0x0B0, 64, [⟨63, 0, .ro, 0⟩]⟩ /- FLUSH_IN -/,
  ⟨0x0B8, 64, [⟨63, 0, .ro, 0⟩]⟩ /- FLUSH_OUT -/,
  ⟨0x0C0, 64, [⟨63, 0, .ro, 0⟩]⟩ /- CVT_SAT -/,
  ⟨0x0C8, 64, [⟨63, 0, .ro, 0⟩]⟩ /- CVT_NAN -/,
  ⟨0x100, 64, [⟨63, 0, .rwl, 0⟩]⟩ /- GROUP_BASE -/,
  ⟨0x108, 32, [⟨31, 0, .rwl, 2000000⟩]⟩ /- COLL_TIMEOUT_US -/,
  ⟨0x10C, 32, [⟨2, 0, .ro, 0⟩, ⟨3, 3, .ro, 0⟩, ⟨31, 16, .ro, 0⟩]⟩ /- COLL_STATE -/,
  ⟨0x110, 32, [⟨7, 0, .ro, 0⟩, ⟨31, 8, .ro, 0⟩]⟩ /- COLL_LAST_ERR -/,
  ⟨0x114, 32, [⟨7, 0, .rwl, 0⟩]⟩ /- COLL_VIEW -/]

/-- R266 -/
def timeRegs : List RegDesc := [
  ⟨0x100, 64, [⟨63, 0, .ro, 0⟩]⟩ /- TIME_NOW -/,
  ⟨0x108, 64, [⟨63, 0, .ro, 0⟩]⟩ /- TIME_OFFSET -/,
  ⟨0x110, 32, [⟨0, 0, .ro, 0⟩, ⟨1, 1, .ro, 0⟩, ⟨2, 2, .ro, 0⟩, ⟨15, 8, .ro, 0⟩, ⟨22, 16, .ro, 0⟩, ⟨31, 24, .ro, 0⟩]⟩ /- TIME_STATUS -/,
  ⟨0x114, 32, [⟨0, 0, .wo, 0⟩]⟩ /- TIME_CTRL -/,
  ⟨0x118, 32, [⟨13, 0, .rw, 0⟩]⟩ /- TIME_ROOT -/,
  ⟨0x11C, 32, [⟨31, 0, .ro, 0⟩]⟩ /- TIME_DRIFT_PPB -/]

/-- R287, R292 -/
def meterRegs : List RegDesc := [
  ⟨0x098, 64, [⟨63, 0, .ro, 0⟩]⟩ /- METER_LATCHES -/,
  ⟨0x0A0, 64, [⟨63, 0, .ro, 0⟩]⟩ /- ENERGY_TOTAL_MJ -/,
  ⟨0x100, 32, [⟨7, 0, .rwl, 0⟩]⟩ /- METER_SEL -/,
  ⟨0x108, 64, [⟨63, 0, .ro, 0⟩]⟩ /- METER_TIME -/,
  ⟨0x110, 64, [⟨63, 0, .ro, 0⟩]⟩ /- CORE_BUSY_NS -/,
  ⟨0x118, 64, [⟨63, 0, .ro, 0⟩]⟩ /- CELL_ACTIVE -/,
  ⟨0x120, 64, [⟨63, 0, .ro, 0⟩]⟩ /- HBM_BYTES -/,
  ⟨0x128, 64, [⟨63, 0, .ro, 0⟩]⟩ /- LINK_BYTES -/,
  ⟨0x130, 64, [⟨63, 0, .ro, 0⟩]⟩ /- HOST_BYTES -/,
  ⟨0x138, 64, [⟨63, 0, .ro, 0⟩]⟩ /- DELAYED_NS -/,
  ⟨0x140, 64, [⟨63, 0, .ro, 0⟩]⟩ /- REFUSALS -/,
  ⟨0x148, 64, [⟨63, 0, .ro, 0⟩]⟩ /- ENERGY_MJ -/,
  ⟨0x150, 64, [⟨63, 0, .ro, 0⟩]⟩ /- POOL_NS -/,
  ⟨0x158, 64, [⟨63, 0, .ro, 0⟩]⟩ /- TASKS -/,
  ⟨0x160, 64, [⟨63, 0, .ro, 0⟩]⟩ /- PREEMPTED -/,
  ⟨0x168, 64, [⟨63, 0, .ro, 0⟩]⟩ /- VIOLATIONS -/]

def partitionRegs0 : List RegDesc := [
  ⟨0x098, 64, [⟨63, 0, .ro, 0⟩]⟩ /- CONTRACTS_APPLIED -/,
  ⟨0x0A0, 64, [⟨63, 0, .ro, 0⟩]⟩ /- BYTES_ZEROED -/,
  ⟨0x0A8, 64, [⟨63, 0, .ro, 0⟩]⟩ /- FREEZES -/,
  ⟨0x100, 32, [⟨7, 0, .rwl, 0⟩]⟩ /- PART_SEL -/,
  ⟨0x104, 32, [⟨0, 0, .wo, 0⟩, ⟨1, 1, .wo, 0⟩, ⟨2, 2, .wo, 0⟩]⟩ /- PART_CTRL -/,
  ⟨0x108, 32, [⟨1, 0, .ro, 0⟩, ⟨2, 2, .ro, 1⟩, ⟨3, 3, .ro, 0⟩, ⟨4, 4, .ro, 0⟩, ⟨15, 8, .ro, 0⟩, ⟨23, 16, .ro, 0⟩]⟩ /- PART_STATUS -/,
  ⟨0x110, 32, [⟨31, 0, (.rws .step), 0⟩]⟩ /- CLUSTER_MASK_0 -/,
  ⟨0x114, 32, [⟨31, 0, (.rws .step), 0⟩]⟩ /- CLUSTER_MASK_1 -/,
  ⟨0x118, 32, [⟨31, 0, (.rws .step), 0⟩]⟩ /- CLUSTER_MASK_2 -/,
  ⟨0x11C, 32, [⟨31, 0, (.rws .step), 0⟩]⟩ /- CLUSTER_MASK_3 -/,
  ⟨0x120, 32, [⟨31, 0, (.rws .step), 0⟩]⟩ /- CLUSTER_MASK_4 -/,
  ⟨0x128, 32, [⟨15, 0, (.rws .step), 0⟩, ⟨31, 16, (.rws .step), 0⟩]⟩ /- HBM_SEG_0 -/,
  ⟨0x12C, 32, [⟨15, 0, (.rws .step), 0⟩, ⟨31, 16, (.rws .step), 0⟩]⟩ /- HBM_SEG_1 -/,
  ⟨0x130, 32, [⟨15, 0, (.rws .step), 0⟩, ⟨31, 16, (.rws .step), 0⟩]⟩ /- HBM_SEG_2 -/,
  ⟨0x134, 32, [⟨15, 0, (.rws .step), 0⟩, ⟨31, 16, (.rws .step), 0⟩]⟩ /- HBM_SEG_3 -/,
  ⟨0x138, 32, [⟨9, 0, (.rws .step), 0⟩, ⟨20, 10, (.rws .step), 0⟩]⟩ /- QUEUE_RANGE -/]

def partitionRegs1 : List RegDesc := [
  ⟨0x13C, 32, [⟨9, 0, (.rws .step), 0⟩, ⟨20, 10, (.rws .step), 0⟩]⟩ /- MELT_RANGE -/,
  ⟨0x140, 32, [⟨7, 0, (.rws .step), 1⟩, ⟨15, 8, (.rws .step), 1⟩, ⟨31, 16, (.rws .step), 0⟩]⟩ /- BW_CFG -/,
  ⟨0x144, 32, [⟨7, 0, (.rws .step), 0⟩, ⟨15, 8, (.rws .step), 0⟩, ⟨31, 16, (.rws .step), 65535⟩]⟩ /- POOL_CFG -/,
  ⟨0x148, 32, [⟨31, 0, (.rws .step), 0⟩]⟩ /- POOL_BUDGET_MS -/,
  ⟨0x14C, 32, [⟨31, 0, .ro, 0⟩]⟩ /- POOL_USED_MS -/,
  ⟨0x150, 64, [⟨3, 0, .ro, 0⟩, ⟨5, 4, .ro, 0⟩, ⟨21, 6, .ro, 0⟩, ⟨63, 32, .ro, 0⟩]⟩ /- VIOL_LAST -/,
  ⟨0x158, 32, [⟨15, 0, .wo, 0⟩, ⟨17, 16, .wo, 0⟩]⟩ /- UNFREEZE -/,
  ⟨0x15C, 32, [⟨15, 0, .ro, 0⟩]⟩ /- FROZEN_MASTERS -/,
  ⟨0x180, 32, [⟨7, 0, .ro, 0⟩, ⟨15, 8, .ro, 0⟩, ⟨23, 16, .ro, 0⟩]⟩ /- POOL_STATE -/,
  ⟨0x184, 32, [⟨31, 0, .rwl, 100000⟩]⟩ /- QUANTUM_NS -/,
  ⟨0x188, 32, [⟨31, 0, .rw, 3600⟩]⟩ /- BUDGET_WINDOW_S -/,
  ⟨0x18C, 32, [⟨31, 0, .ro, 1000000⟩]⟩ /- T_AVG_NS -/]

/-- R290 -/
def partitionRegs : List RegDesc := partitionRegs0 ++ partitionRegs1

def admissionRegs0 : List RegDesc := [
  ⟨0x098, 64, [⟨63, 0, .ro, 0⟩]⟩ /- ADM_SERVED -/,
  ⟨0x0A0, 64, [⟨63, 0, .ro, 0⟩]⟩ /- ADM_DELAYED -/,
  ⟨0x0A8, 64, [⟨63, 0, .ro, 0⟩]⟩ /- ADM_REFUSED -/,
  ⟨0x0B0, 64, [⟨63, 0, .ro, 0⟩]⟩ /- POOL_GRANTS -/,
  ⟨0x0B8, 64, [⟨63, 0, .ro, 0⟩]⟩ /- POOL_PREEMPTS -/,
  ⟨0x0C0, 64, [⟨63, 0, .ro, 0⟩]⟩ /- SCRUBS -/,
  ⟨0x100, 32, [⟨7, 0, .rwl, 0⟩]⟩ /- ADM_VIEW -/,
  ⟨0x104, 32, [⟨10, 0, .ro, 0⟩]⟩ /- ADM_WAITING -/,
  ⟨0x108, 32, [⟨1, 0, .ro, 0⟩]⟩ /- ADM_QUOTA_LAST -/,
  ⟨0x110, 64, [⟨63, 0, .ro, 0⟩]⟩ /- REFUSE_1 -/,
  ⟨0x118, 64, [⟨63, 0, .ro, 0⟩]⟩ /- REFUSE_2 -/,
  ⟨0x120, 64, [⟨63, 0, .ro, 0⟩]⟩ /- REFUSE_3 -/,
  ⟨0x128, 64, [⟨63, 0, .ro, 0⟩]⟩ /- REFUSE_4 -/,
  ⟨0x130, 64, [⟨63, 0, .ro, 0⟩]⟩ /- REFUSE_5 -/,
  ⟨0x138, 64, [⟨63, 0, .ro, 0⟩]⟩ /- REFUSE_6 -/,
  ⟨0x140, 64, [⟨63, 0, .ro, 0⟩]⟩ /- REFUSE_7 -/]

def admissionRegs1 : List RegDesc := [
  ⟨0x148, 64, [⟨63, 0, .ro, 0⟩]⟩ /- REFUSE_8 -/,
  ⟨0x150, 64, [⟨63, 0, .ro, 0⟩]⟩ /- REFUSE_9 -/,
  ⟨0x158, 64, [⟨63, 0, .ro, 0⟩]⟩ /- REFUSE_10 -/,
  ⟨0x160, 64, [⟨63, 0, .ro, 0⟩]⟩ /- DEFICIT_0 -/,
  ⟨0x168, 64, [⟨63, 0, .ro, 0⟩]⟩ /- DEFICIT_1 -/,
  ⟨0x170, 64, [⟨63, 0, .ro, 0⟩]⟩ /- DEFICIT_2 -/,
  ⟨0x178, 64, [⟨63, 0, .ro, 0⟩]⟩ /- DEFICIT_3 -/,
  ⟨0x180, 32, [⟨31, 0, .ro, 0⟩]⟩ /- CURSORS -/,
  ⟨0x188, 64, [⟨63, 0, .ro, 0⟩]⟩ /- QUOTA_CASES -/]

/-- R291 -/
def admissionRegs : List RegDesc := admissionRegs0 ++ admissionRegs1

/-- R312 -/
def cxlRegs : List RegDesc := [
  ⟨0x098, 64, [⟨63, 0, .ro, 0⟩]⟩ /- CXL_RX_BYTES -/,
  ⟨0x0A0, 64, [⟨63, 0, .ro, 0⟩]⟩ /- CXL_TX_BYTES -/,
  ⟨0x0A8, 64, [⟨63, 0, .ro, 0⟩]⟩ /- CACHE_HITS -/,
  ⟨0x0B0, 64, [⟨63, 0, .ro, 0⟩]⟩ /- CACHE_SNOOPS -/,
  ⟨0x0B8, 64, [⟨63, 0, .ro, 0⟩]⟩ /- MEM_RD_BYTES -/,
  ⟨0x0C0, 64, [⟨63, 0, .ro, 0⟩]⟩ /- MEM_WR_BYTES -/,
  ⟨0x0C8, 64, [⟨63, 0, .ro, 0⟩]⟩ /- MEM_POISON -/,
  ⟨0x0D0, 64, [⟨63, 0, .ro, 0⟩]⟩ /- ATS_REQ -/,
  ⟨0x0D8, 64, [⟨63, 0, .ro, 0⟩]⟩ /- ATS_INVAL -/,
  ⟨0x0E0, 64, [⟨63, 0, .ro, 0⟩]⟩ /- PRI_REQ -/,
  ⟨0x0E8, 64, [⟨63, 0, .ro, 0⟩]⟩ /- FLR_COUNT -/,
  ⟨0x0F0, 64, [⟨63, 0, .ro, 0⟩]⟩ /- LINK_RECOVERY -/,
  ⟨0x0F8, 64, [⟨63, 0, .ro, 0⟩]⟩ /- AER_MSGS -/,
  ⟨0x100, 32, [⟨1, 0, .rw, 0⟩]⟩ /- CXL_CFG -/,
  ⟨0x104, 32, [⟨2, 0, .ro, 0⟩, ⟨7, 3, .ro, 0⟩, ⟨8, 8, .ro, 0⟩, ⟨9, 9, .ro, 0⟩, ⟨10, 10, .ro, 0⟩, ⟨12, 11, .ro, 0⟩, ⟨13, 13, .ro, 0⟩, ⟨14, 14, .ro, 0⟩]⟩ /- LINK_STATUS -/,
  ⟨0x108, 32, [⟨15, 0, .ro, 0⟩]⟩ /- CACHE_STATE -/]

def errRingRegs0 : List RegDesc := [
  ⟨0x098, 64, [⟨63, 0, .ro, 0⟩]⟩ /- LOST_CE -/,
  ⟨0x0A0, 64, [⟨63, 0, .ro, 0⟩]⟩ /- LOST_UCC -/,
  ⟨0x0A8, 64, [⟨63, 0, .ro, 0⟩]⟩ /- LOST_PF -/,
  ⟨0x0B0, 64, [⟨63, 0, .ro, 0⟩]⟩ /- LOST_DF -/,
  ⟨0x0B8, 64, [⟨63, 0, .ro, 0⟩]⟩ /- ESCALATIONS -/,
  ⟨0x0C0, 64, [⟨63, 0, .ro, 0⟩]⟩ /- ACK_REJECTS -/,
  ⟨0x100, 32, [⟨31, 0, .ro, 0⟩]⟩ /- ERR_NEXT_SEQ -/,
  ⟨0x104, 32, [⟨31, 0, .rwl, 0⟩]⟩ /- ERR_SEL -/,
  ⟨0x108, 32, [⟨31, 0, .wo, 0⟩]⟩ /- ERR_ACK -/,
  ⟨0x10C, 32, [⟨31, 0, .wo, 0⟩]⟩ /- ERR_ACK_THROUGH -/,
  ⟨0x110, 32, [⟨9, 0, .ro, 0⟩, ⟨10, 10, .ro, 0⟩]⟩ /- ERR_STATE -/,
  ⟨0x140, 32, [⟨7, 0, .wo, 0⟩]⟩ /- PF_RELEASE -/,
  ⟨0x150, 32, [⟨31, 0, .rw, 10⟩]⟩ /- ERR_WINDOW_S -/,
  ⟨0x154, 32, [⟨31, 0, .rw, 60⟩]⟩ /- ASSAY_WINDOW_S -/,
  ⟨0x158, 32, [⟨31, 0, .rw, 4⟩]⟩ /- HBM_ROW_CE -/,
  ⟨0x15C, 32, [⟨31, 0, .rw, 2⟩]⟩ /- ASSAY_FAILS -/]

def errRingRegs1 : List RegDesc := [
  ⟨0x160, 32, [⟨31, 0, .rw, 8⟩]⟩ /- SRAM_CORE_CE -/,
  ⟨0x164, 32, [⟨31, 0, .rw, 4⟩]⟩ /- SRAM_LINE_CE -/,
  ⟨0x168, 32, [⟨31, 0, .rw, 1000⟩]⟩ /- LINK_RETRY_PPT -/]

/-- R347 -/
def errRingRegs : List RegDesc := errRingRegs0 ++ errRingRegs1

/-- R348 -/
def hbmCtrlRegs : List RegDesc := [
  ⟨0x098, 64, [⟨63, 0, .ro, 0⟩]⟩ /- HBM_CE -/,
  ⟨0x0A0, 64, [⟨63, 0, .ro, 0⟩]⟩ /- HBM_UC -/,
  ⟨0x0A8, 64, [⟨63, 0, .ro, 0⟩]⟩ /- ROWS_RETIRED -/,
  ⟨0x0B0, 64, [⟨63, 0, .ro, 0⟩]⟩ /- RETIRE_FAILS -/,
  ⟨0x0B8, 64, [⟨63, 0, .ro, 0⟩]⟩ /- HBM_STACK_CORR -/,
  ⟨0x100, 32, [⟨1, 0, .ro, 0⟩, ⟨8, 2, .ro, 0⟩]⟩ /- HBM_STATE -/,
  ⟨0x108, 64, [⟨63, 0, .ro, 0⟩]⟩ /- RETIRE_LAST -/]

def snapshotRegs0 : List RegDesc := [
  ⟨0x098, 64, [⟨63, 0, .ro, 0⟩]⟩ /- SNAPSHOTS -/,
  ⟨0x0A0, 64, [⟨63, 0, .ro, 0⟩]⟩ /- SNAP_SKIPPED -/,
  ⟨0x0A8, 64, [⟨63, 0, .ro, 0⟩]⟩ /- CHECKPOINTS -/,
  ⟨0x0B0, 64, [⟨63, 0, .ro, 0⟩]⟩ /- CKPT_DEFERRED -/,
  ⟨0x0B8, 64, [⟨63, 0, .ro, 0⟩]⟩ /- PAUSE_NS -/,
  ⟨0x100, 64, [⟨63, 0, (.rws .step), 0⟩]⟩ /- SNAP_SET_BASE -/,
  ⟨0x108, 32, [⟨8, 0, (.rws .step), 0⟩]⟩ /- SNAP_SET_COUNT -/,
  ⟨0x10C, 32, [⟨31, 0, (.rws .step), 0⟩]⟩ /- SNAP_BW -/,
  ⟨0x110, 64, [⟨63, 0, (.rws .step), 0⟩]⟩ /- SNAP_STAGE_BASE -/,
  ⟨0x118, 64, [⟨63, 0, (.rws .step), 0⟩]⟩ /- SNAP_STAGE_BYTES -/,
  ⟨0x120, 64, [⟨63, 0, (.rws .step), 0⟩]⟩ /- SNAP_RECV_BASE -/,
  ⟨0x128, 64, [⟨63, 0, (.rws .step), 0⟩]⟩ /- SNAP_RECV_BYTES -/,
  ⟨0x130, 64, [⟨63, 0, (.rws .step), 0⟩]⟩ /- SNAP_HANDLE -/,
  ⟨0x138, 32, [⟨2, 0, .ro, 0⟩, ⟨3, 3, .ro, 0⟩]⟩ /- SNAP_STATUS -/,
  ⟨0x13C, 32, [⟨7, 0, .ro, 0⟩]⟩ /- SNAP_LAST_ERR -/,
  ⟨0x140, 32, [⟨31, 0, .ro, 0⟩]⟩ /- SNAP_LAST_STEP -/]

def snapshotRegs1 : List RegDesc := [
  ⟨0x144, 32, [⟨31, 0, .ro, 0⟩]⟩ /- SNAP_LAST_PAUSE_US -/,
  ⟨0x148, 32, [⟨13, 0, .ro, 0⟩, ⟨21, 14, .ro, 0⟩, ⟨27, 22, .ro, 0⟩, ⟨28, 28, .ro, 0⟩, ⟨29, 29, .ro, 0⟩]⟩ /- PAIR_STATE -/,
  ⟨0x150, 32, [⟨31, 0, .ro, 0⟩]⟩ /- RECV_STEP_0 -/,
  ⟨0x154, 32, [⟨31, 0, .ro, 0⟩]⟩ /- RECV_STEP_1 -/,
  ⟨0x158, 32, [⟨0, 0, .ro, 0⟩, ⟨1, 1, .ro, 0⟩, ⟨2, 2, .ro, 0⟩, ⟨3, 3, .ro, 0⟩, ⟨4, 4, .ro, 0⟩, ⟨5, 5, .ro, 0⟩, ⟨6, 6, .ro, 0⟩, ⟨21, 8, .ro, 0⟩]⟩ /- RECV_STATUS -/,
  ⟨0x160, 32, [⟨0, 0, (.rws .step), 0⟩]⟩ /- CKPT_CFG -/,
  ⟨0x168, 64, [⟨63, 0, (.rws .step), 0⟩]⟩ /- CKPT_BUF_BASE -/,
  ⟨0x170, 64, [⟨63, 0, (.rws .step), 0⟩]⟩ /- CKPT_BUF_BYTES -/,
  ⟨0x178, 64, [⟨63, 0, (.rws .step), 0⟩]⟩ /- CKPT_DONE_ADDR -/,
  ⟨0x180, 32, [⟨0, 0, .wo, 0⟩, ⟨1, 1, .wo, 0⟩]⟩ /- CKPT_CTRL -/,
  ⟨0x184, 32, [⟨1, 0, .ro, 0⟩, ⟨2, 2, .ro, 0⟩, ⟨3, 3, .ro, 0⟩, ⟨7, 4, .ro, 0⟩, ⟨15, 8, .ro, 0⟩]⟩ /- CKPT_STATUS -/,
  ⟨0x188, 32, [⟨31, 0, .ro, 0⟩]⟩ /- CKPT_LAST_STEP -/,
  ⟨0x190, 64, [⟨63, 0, (.rws .step), 0⟩]⟩ /- WGUARD_BASE -/,
  ⟨0x198, 32, [⟨6, 0, (.rws .step), 0⟩]⟩ /- WGUARD_COUNT -/,
  ⟨0x19C, 32, [⟨7, 0, .rwl, 0⟩]⟩ /- SNAP_VIEW -/]

/-- R351 -/
def snapshotRegs : List RegDesc := snapshotRegs0 ++ snapshotRegs1

/-- R374 -/
def rootOfTrustRegs : List RegDesc := [
  ⟨0x098, 64, [⟨63, 0, .ro, 0⟩]⟩ /- BOOTS -/,
  ⟨0x0A0, 64, [⟨63, 0, .ro, 0⟩]⟩ /- IMAGE_FAILS -/,
  ⟨0x0A8, 64, [⟨63, 0, .ro, 0⟩]⟩ /- SPDM_MSGS -/,
  ⟨0x0B0, 64, [⟨63, 0, .ro, 0⟩]⟩ /- RECOVERY_PUSHES -/,
  ⟨0x100, 32, [⟨2, 0, .ro, 0⟩, ⟨9, 3, .ro, 0⟩, ⟨10, 10, .ro, 0⟩]⟩ /- BOOT_STATE -/,
  ⟨0x104, 32, [⟨7, 0, .ro, 0⟩, ⟨15, 8, .ro, 0⟩, ⟨31, 16, .ro, 0⟩]⟩ /- BOOT_ERR -/,
  ⟨0x108, 32, [⟨5, 0, .ro, 0⟩, ⟨9, 6, .ro, 0⟩]⟩ /- FUSE_STATE -/,
  ⟨0x10C, 32, [⟨13, 0, .ro, 0⟩, ⟨21, 14, .ro, 0⟩, ⟨29, 22, .ro, 0⟩]⟩ /- FETTLE_SUMMARY -/,
  ⟨0x110, 64, [⟨63, 0, .ro, 0⟩]⟩ /- BOOT_LAST_NS -/,
  ⟨0x118, 32, [⟨7, 0, .rwl, 0⟩]⟩ /- FETTLE_SEL -/,
  ⟨0x11C, 32, [⟨6, 0, .ro, 0⟩, ⟨7, 7, .ro, 0⟩, ⟨8, 8, .ro, 0⟩]⟩ /- FETTLE_CLUSTER -/]

/-- R375 -/
def pkgMgrRegs : List RegDesc := [
  ⟨0x098, 64, [⟨63, 0, .ro, 0⟩]⟩ /- FW_UPDATES -/,
  ⟨0x0A0, 64, [⟨63, 0, .ro, 0⟩]⟩ /- FW_RELOADS -/,
  ⟨0x100, 64, [⟨63, 0, .rw, 0⟩]⟩ /- FW_SRC -/,
  ⟨0x108, 32, [⟨31, 0, .rw, 0⟩]⟩ /- FW_LEN -/,
  ⟨0x10C, 32, [⟨0, 0, .wo, 0⟩, ⟨1, 1, .wo, 0⟩]⟩ /- FW_CTRL -/,
  ⟨0x110, 32, [⟨2, 0, .ro, 0⟩, ⟨15, 8, .ro, 0⟩, ⟨16, 16, .ro, 1⟩]⟩ /- FW_STATUS -/,
  ⟨0x114, 32, [⟨31, 0, .ro, 0⟩]⟩ /- FW_RUNNING_PKG -/,
  ⟨0x118, 32, [⟨31, 0, .ro, 0⟩]⟩ /- FW_FLASH -/,
  ⟨0x11C, 32, [⟨31, 0, .ro, 0⟩]⟩ /- FW_PENDING -/,
  ⟨0x120, 32, [⟨7, 0, .rwl, 0⟩]⟩ /- FW_PART_SEL -/,
  ⟨0x124, 32, [⟨31, 0, .ro, 0⟩]⟩ /- FW_PART_VERSION -/,
  ⟨0x128, 32, [⟨0, 0, .ro, 0⟩, ⟨1, 1, .ro, 0⟩]⟩ /- FW_PART_STATE -/]

/-- R376 -/
def identityRegs : List RegDesc := [
  ⟨0x100, 64, [⟨63, 0, .ro, 0⟩]⟩ /- ID_SERIAL -/,
  ⟨0x108, 32, [⟨15, 0, .ro, 0⟩, ⟨23, 16, .ro, 176⟩]⟩ /- ID_CLASS -/,
  ⟨0x10C, 32, [⟨15, 0, .ro, 1⟩, ⟨31, 16, .ro, 1⟩]⟩ /- ID_SNAPFMT -/,
  ⟨0x110, 32, [⟨0, 0, .ro, 0⟩, ⟨1, 1, .ro, 0⟩, ⟨2, 2, .ro, 0⟩]⟩ /- ID_STATUS -/]

def ctrlCoreRegs0 : List RegDesc := [
  ⟨0x098, 64, [⟨63, 0, .ro, 0⟩]⟩ /- TRACE_RECORDS -/,
  ⟨0x0A0, 64, [⟨63, 0, .ro, 0⟩]⟩ /- TRACE_DROPPED -/,
  ⟨0x0A8, 64, [⟨63, 0, .ro, 0⟩]⟩ /- ITRACE_FRAMES -/,
  ⟨0x0B0, 64, [⟨63, 0, .ro, 0⟩]⟩ /- HALTS -/,
  ⟨0x0B8, 64, [⟨63, 0, .ro, 0⟩]⟩ /- BP_HITS -/,
  ⟨0x100, 32, [⟨31, 0, .ro, 0⟩]⟩ /- CC_VERSION -/,
  ⟨0x104, 32, [⟨8, 0, .ro, 0⟩]⟩ /- TRACE_FIFO -/,
  ⟨0x110, 64, [⟨63, 0, .rwl, 0⟩]⟩ /- ISL_HALT -/,
  ⟨0x200, 32, [⟨0, 0, .wo, 0⟩, ⟨1, 1, .wo, 0⟩, ⟨2, 2, .wo, 0⟩]⟩ /- DBG_CTRL -/,
  ⟨0x204, 32, [⟨1, 0, .ro, 0⟩, ⟨4, 2, .ro, 0⟩, ⟨7, 5, .ro, 0⟩, ⟨8, 8, .ro, 0⟩]⟩ /- DBG_STATUS -/,
  ⟨0x208, 64, [⟨63, 0, .ro, 0⟩]⟩ /- DBG_PC -/,
  ⟨0x210, 64, [⟨63, 0, .ro, 0⟩]⟩ /- HALT_BEGIN -/,
  ⟨0x218, 32, [⟨0, 0, .rwl, 0⟩]⟩ /- ITRACE_CTRL -/,
  ⟨0x21C, 32, [⟨5, 0, .rwl, 16⟩]⟩ /- DBG_NOTICE_TTL -/,
  ⟨0x220, 32, [⟨1, 0, .rwl, 0⟩, ⟨9, 2, .rwl, 0⟩, ⟨10, 10, .rwl, 0⟩, ⟨11, 11, .rwl, 0⟩]⟩ /- BP_CFG_0 -/,
  ⟨0x224, 32, [⟨1, 0, .rwl, 0⟩, ⟨9, 2, .rwl, 0⟩, ⟨10, 10, .rwl, 0⟩, ⟨11, 11, .rwl, 0⟩]⟩ /- BP_CFG_1 -/]

def ctrlCoreRegs1 : List RegDesc := [
  ⟨0x228, 32, [⟨1, 0, .rwl, 0⟩, ⟨9, 2, .rwl, 0⟩, ⟨10, 10, .rwl, 0⟩, ⟨11, 11, .rwl, 0⟩]⟩ /- BP_CFG_2 -/,
  ⟨0x22C, 32, [⟨1, 0, .rwl, 0⟩, ⟨9, 2, .rwl, 0⟩, ⟨10, 10, .rwl, 0⟩, ⟨11, 11, .rwl, 0⟩]⟩ /- BP_CFG_3 -/,
  ⟨0x230, 32, [⟨1, 0, .rwl, 0⟩, ⟨9, 2, .rwl, 0⟩, ⟨10, 10, .rwl, 0⟩, ⟨11, 11, .rwl, 0⟩]⟩ /- BP_CFG_4 -/,
  ⟨0x234, 32, [⟨1, 0, .rwl, 0⟩, ⟨9, 2, .rwl, 0⟩, ⟨10, 10, .rwl, 0⟩, ⟨11, 11, .rwl, 0⟩]⟩ /- BP_CFG_5 -/,
  ⟨0x238, 32, [⟨1, 0, .rwl, 0⟩, ⟨9, 2, .rwl, 0⟩, ⟨10, 10, .rwl, 0⟩, ⟨11, 11, .rwl, 0⟩]⟩ /- BP_CFG_6 -/,
  ⟨0x23C, 32, [⟨1, 0, .rwl, 0⟩, ⟨9, 2, .rwl, 0⟩, ⟨10, 10, .rwl, 0⟩, ⟨11, 11, .rwl, 0⟩]⟩ /- BP_CFG_7 -/,
  ⟨0x240, 64, [⟨63, 0, .rwl, 0⟩]⟩ /- BP_VAL_0 -/,
  ⟨0x248, 64, [⟨63, 0, .rwl, 0⟩]⟩ /- BP_VAL_1 -/,
  ⟨0x250, 64, [⟨63, 0, .rwl, 0⟩]⟩ /- BP_VAL_2 -/,
  ⟨0x258, 64, [⟨63, 0, .rwl, 0⟩]⟩ /- BP_VAL_3 -/,
  ⟨0x260, 64, [⟨63, 0, .rwl, 0⟩]⟩ /- BP_VAL_4 -/,
  ⟨0x268, 64, [⟨63, 0, .rwl, 0⟩]⟩ /- BP_VAL_5 -/,
  ⟨0x270, 64, [⟨63, 0, .rwl, 0⟩]⟩ /- BP_VAL_6 -/,
  ⟨0x278, 64, [⟨63, 0, .rwl, 0⟩]⟩ /- BP_VAL_7 -/]

/-- R396 -/
def ctrlCoreRegs : List RegDesc := ctrlCoreRegs0 ++ ctrlCoreRegs1

def powerRegs0 : List RegDesc := [
  ⟨0x098, 64, [⟨63, 0, .ro, 0⟩]⟩ /- PARK_ENTRIES -/,
  ⟨0x0A0, 64, [⟨63, 0, .ro, 0⟩]⟩ /- WAKES -/,
  ⟨0x0A8, 64, [⟨63, 0, .ro, 0⟩]⟩ /- CAP_NS -/,
  ⟨0x0B0, 64, [⟨63, 0, .ro, 0⟩]⟩ /- DUTY_NS -/,
  ⟨0x0B8, 64, [⟨63, 0, .ro, 0⟩]⟩ /- FLOW_THROTTLE_NS -/,
  ⟨0x0C0, 64, [⟨63, 0, .ro, 0⟩]⟩ /- THERMAL_CAP_NS -/,
  ⟨0x100, 32, [⟨0, 0, .wo, 0⟩, ⟨1, 1, .wo, 0⟩, ⟨2, 2, .wo, 0⟩]⟩ /- POWER_CTRL -/,
  ⟨0x104, 32, [⟨2, 0, .ro, 1⟩, ⟨3, 3, .ro, 0⟩, ⟨4, 4, .ro, 0⟩, ⟨5, 5, .ro, 0⟩, ⟨6, 6, .ro, 0⟩, ⟨7, 7, .ro, 0⟩, ⟨8, 8, .ro, 0⟩, ⟨9, 9, .ro, 0⟩]⟩ /- POWER_STATUS -/,
  ⟨0x108, 32, [⟨0, 0, .rw, 0⟩, ⟨1, 1, .rw, 1⟩]⟩ /- POWER_CFG -/,
  ⟨0x10C, 32, [⟨12, 0, .rwl, 4000⟩]⟩ /- CAP_W -/,
  ⟨0x110, 32, [⟨31, 0, .rw, 60000⟩]⟩ /- AUTO_PARK_MS -/,
  ⟨0x114, 32, [⟨31, 0, .ro, 0⟩]⟩ /- INPUT_MW -/,
  ⟨0x118, 32, [⟨31, 0, .ro, 0⟩]⟩ /- INPUT_MV -/,
  ⟨0x11C, 32, [⟨31, 0, .ro, 0⟩]⟩ /- INPUT_MA -/,
  ⟨0x120, 32, [⟨0, 0, .ro, 0⟩, ⟨1, 1, .ro, 0⟩, ⟨8, 2, .ro, 64⟩, ⟨31, 16, .ro, 4000⟩]⟩ /- CAP_STATE -/,
  ⟨0x124, 32, [⟨15, 0, .ro, 0⟩, ⟨31, 16, .ro, 0⟩]⟩ /- COOL_STATE -/]

def powerRegs1 : List RegDesc := [
  ⟨0x128, 32, [⟨15, 0, .ro, 0⟩]⟩ /- FLOW -/,
  ⟨0x12C, 32, [⟨15, 0, .ro, 0⟩, ⟨31, 16, .ro, 0⟩]⟩ /- TEMP_HOT -/,
  ⟨0x130, 32, [⟨8, 0, .rwl, 0⟩]⟩ /- THERM_SEL -/,
  ⟨0x134, 32, [⟨15, 0, .ro, 0⟩, ⟨16, 16, .ro, 0⟩]⟩ /- THERM_DATA -/]

/-- R426 -/
def powerRegs : List RegDesc := powerRegs0 ++ powerRegs1

/-- R427 -/
def sidebandRegs : List RegDesc := [
  ⟨0x098, 64, [⟨63, 0, .ro, 0⟩]⟩ /- MCTP_RX -/,
  ⟨0x0A0, 64, [⟨63, 0, .ro, 0⟩]⟩ /- MCTP_TX -/,
  ⟨0x0A8, 64, [⟨63, 0, .ro, 0⟩]⟩ /- PLDM_EVENTS -/,
  ⟨0x0B0, 64, [⟨63, 0, .ro, 0⟩]⟩ /- ALERTS -/,
  ⟨0x100, 32, [⟨0, 0, .ro, 0⟩, ⟨1, 1, .ro, 1⟩, ⟨2, 2, .ro, 1⟩, ⟨3, 3, .ro, 0⟩, ⟨9, 4, .ro, 63⟩, ⟨10, 10, .ro, 0⟩]⟩ /- SB_PINS -/,
  ⟨0x104, 32, [⟨5, 0, .ro, 0⟩]⟩ /- FEED_ID -/,
  ⟨0x108, 32, [⟨7, 0, .ro, 0⟩, ⟨8, 8, .ro, 0⟩, ⟨15, 9, .ro, 0⟩]⟩ /- MCTP_STATE -/]

/-- R212 -/
def queuePageRegs : List RegDesc := [
  ⟨0x098, 64, [⟨63, 0, .ro, 0⟩]⟩ /- ADMITTED -/,
  ⟨0x0A0, 64, [⟨63, 0, .ro, 0⟩]⟩ /- REFUSED -/,
  ⟨0x0A8, 64, [⟨63, 0, .ro, 0⟩]⟩ /- ABORTED_TASKS -/]

/-- R349 -/
def clusterSramRegs : List RegDesc := [
  ⟨0x098, 64, [⟨63, 0, .ro, 0⟩]⟩ /- SRAM_CE -/,
  ⟨0x0A0, 64, [⟨63, 0, .ro, 0⟩]⟩ /- SRAM_UC -/,
  ⟨0x0A8, 64, [⟨63, 0, .ro, 0⟩]⟩ /- CORE_SRAM_CE -/,
  ⟨0x0B0, 64, [⟨63, 0, .ro, 0⟩]⟩ /- LINES_LASTING -/,
  ⟨0x100, 64, [⟨63, 0, .ro, 0⟩]⟩ /- SRAM_LAST -/]

/-- R349 -/
def d2dRegs : List RegDesc := [
  ⟨0x098, 64, [⟨63, 0, .ro, 0⟩]⟩ /- D2D_FLITS -/,
  ⟨0x0A0, 64, [⟨63, 0, .ro, 0⟩]⟩ /- D2D_RETRY -/,
  ⟨0x100, 32, [⟨1, 0, .ro, 0⟩]⟩ /- D2D_STATE -/]

/-- R350 -/
def checkRegs : List RegDesc := [
  ⟨0x098, 64, [⟨63, 0, .ro, 0⟩]⟩ /- CHECK_BYTES -/,
  ⟨0x0A0, 64, [⟨63, 0, .ro, 0⟩]⟩ /- CHECK_SCANS -/,
  ⟨0x0A8, 64, [⟨63, 0, .ro, 0⟩]⟩ /- CHECK_MISMATCHES -/,
  ⟨0x100, 32, [⟨1, 0, .ro, 0⟩]⟩ /- CHECK_STATE -/,
  ⟨0x108, 64, [⟨63, 0, .ro, 0⟩]⟩ /- CHECK_LAST_CRC -/]

/-- The block-specific registers of a page type, from offset 0x098 on. -/
def pageRegs : PageType → List RegDesc
  | .absent => [] | .core => coreRegs | .ladle => ladleRegs | .temper => temperRegs
  | .clusterCtrl => ctrlCoreRegs | .barrier => barrierRegs | .clusterSram => clusterSramRegs
  | .clusterGroup => groupRegs | .dieMgr => ctrlCoreRegs | .hbmCtrl => hbmCtrlRegs | .meltShard => meltShardRegs
  | .check => checkRegs | .dieErr => errRingRegs | .d2d => d2dRegs | .dieGroup => groupRegs | .link => linkRegs
  | .collective => collectiveRegs | .router => routerRegs | .time => timeRegs | .ioCtrl => ctrlCoreRegs
  | .cxl => cxlRegs | .rootOfTrust => rootOfTrustRegs | .pkgMgr => pkgMgrRegs ++ ctrlCoreRegs.filter (fun r => 0x200 ≤ r.off) | .sideband => sidebandRegs
  | .pkgErr => errRingRegs | .partition => partitionRegs | .admission => admissionRegs | .meter => meterRegs
  | .jobRunner => jobRunnerRegs | .queueCtx => queuePageRegs | .power => powerRegs | .identity => identityRegs
  | .snapshot => snapshotRegs | .packageGroup => groupRegs | .entry => entryRegs

/-- The register at an offset of a page type: the header's, the queue contexts' (R212) or the page's own. -/
def regDesc? (t : PageType) (off : Nat) : Option RegDesc :=
  if t = .absent then none
  else if t = .entry then entryRegs.find? (fun r => r.off = off)
  else if off < 0x098 then headerRegs.find? (fun r => r.off = off)
  else if t = .queueCtx ∧ 0x100 ≤ off ∧ off < 0xD00 then
    queueContextRegs.find? (fun r => r.off = (off - 0x100) % 0x30)
  else (pageRegs t).find? (fun r => r.off = off)

/-- The reset value of a register, from its fields' reset values. -/
def RegDesc.resetVal (r : RegDesc) : Nat :=
  r.fields.foldl (fun v f => v + (f.reset % 2 ^ (f.hi + 1 - f.lo)) * 2 ^ f.lo) 0

/-- The mask of a register's bits that a predicate on the access code selects. -/
def RegDesc.mask (r : RegDesc) (sel : Acc → Bool) : Nat :=
  r.fields.foldl (fun v f => if sel f.acc then v ||| ((2 ^ (f.hi + 1 - f.lo) - 1) * 2 ^ f.lo) else v) 0

end Sys2Proof.Machine
end

