-- ==== Sys2Proof/Machine/Ops.lean ====
section
/-! DEFINITION. The shared operations over tables, memories, registers, pages, ownership and outputs. -/

namespace Sys2Proof.Machine

abbrev Result := Host.Outcome State Fault Refusal

/-! ### Tables -/

/-- The value at a key. -/
def sget {α : Type} : Store α → Nat → Option α
  | [], _ => none
  | (a, v) :: r, k => if a = k then some v else sget r k

/-- Set a key. -/
def sset {α : Type} : Store α → Nat → α → Store α
  | [], k, v => [(k, v)]
  | (a, w) :: r, k, v =>
    if k < a then (k, v) :: (a, w) :: r else if k = a then (k, v) :: r else (a, w) :: sset r k v

/-- Remove a key. -/
def sdel {α : Type} : Store α → Nat → Store α
  | [], _ => []
  | (a, w) :: r, k => if a = k then r else (a, w) :: sdel r k

/-- The keys rise strictly. -/
def rising {α : Type} : Store α → Bool
  | [] => true
  | [_] => true
  | (a, _) :: (b, w) :: r => decide (a < b) && rising ((b, w) :: r)

/-- Insert into a list sorted on a number. -/
def insertOn {α : Type} (f : α → Nat) (x : α) : List α → List α
  | [] => [x]
  | y :: r => if f x < f y then x :: y :: r else y :: insertOn f x r

/-- Sort a list on a number; equal numbers keep their order. -/
def sortOn {α : Type} (f : α → Nat) (l : List α) : List α := l.foldl (fun r x => insertOn f x r) []

/-- Values of a table, in key order. -/
def svals {α : Type} (m : Store α) : List α := m.map (·.2)

/-! ### Memories: tables of bytes in which no entry equals what an unlisted address reads as -/

/-- Reading one byte; `d` is what an unlisted address reads as. -/
def mget (d : Byte) (m : List Host.Cell) (a : Nat) : Byte := (sget m a).getD d

/-- Writing one byte. -/
def mset (d : Byte) (m : List Host.Cell) (a : Nat) (b : Byte) : List Host.Cell :=
  if b = d then sdel m a else sset m a b

/-- The canonical form of a memory. -/
def Memory.wf (d : Byte) (m : List Host.Cell) : Bool := rising m && m.all (fun c => c.2 != d)

/-- Writing bytes at rising addresses. -/
def msetBytes (d : Byte) : List Host.Cell → Nat → List Byte → List Host.Cell
  | m, _, [] => m
  | m, a, b :: r => msetBytes d (mset d m a b) (a + 1) r

/-- Reading `n` bytes. -/
def mgetBytes (d : Byte) (m : List Host.Cell) (a : Nat) : Nat → List Byte
  | 0 => []
  | n + 1 => mget d m a :: mgetBytes d m (a + 1) n

/-- The bytes of a number, least significant first. -/
def leBytes (v : Nat) : Nat → List Byte
  | 0 => []
  | n + 1 => BitVec.ofNat 8 v :: leBytes (v / 256) n

/-- The number that bytes spell, least significant first. -/
def leNat : List Byte → Nat
  | [] => 0
  | b :: r => b.toNat + 256 * leNat r

/-! ### Pages (R26 to R28) -/

/-- A page number from die, cluster and unit. -/
def pageNum (die cluster unit : Nat) : Nat := die * 8192 + cluster * 128 + unit

def pageDie (page : Nat) : Nat := page / 8192
def pageCluster (page : Nat) : Nat := page / 128 % 64
def pageUnit (page : Nat) : Nat := page % 128

/-- A block of global cluster g (R267). -/
def clusterPage (g unit : Nat) : Nat := pageNum (g / 40) (g % 40) unit

/-- Global cluster index of a page of a compute die's cluster. -/
def globalCluster (page : Nat) : Nat := 40 * pageDie page + pageCluster page

/-- A die-level block. -/
def diePage (die unit : Nat) : Nat := pageNum die 63 unit

def pgPkgErr : Nat := pageNum 15 63 0
def pgPartition : Nat := pageNum 15 63 1
def pgAdmission : Nat := pageNum 15 63 2
def pgMeter : Nat := pageNum 15 63 3
def pgJobRunner : Nat := pageNum 15 63 4
def pgPower : Nat := pageNum 15 63 6
def pgIdentity : Nat := pageNum 15 63 7
def pgSnapshot : Nat := pageNum 15 63 8
def pgPackage : Nat := pageNum 15 63 127
def pgCxl : Nat := pageNum 8 63 32
def pgRot : Nat := pageNum 8 63 33
def pgPkgMgr : Nat := pageNum 8 63 34
def pgSideband : Nat := pageNum 8 63 36
/-- The model's page for melt sheet entries: entry x is bank x. -/
def pgEntry : Nat := 0x20000

def uLadle0 : Nat := 64
def uTemper : Nat := 66
def uCtrl : Nat := 67
def uBarrier : Nat := 68
def uSram : Nat := 69
def uGroup : Nat := 127

/-- Number of I/O dies, HBM slots per compute die, and bytes of HBM, by variant (R2, R13). -/
def ioDies (n8 : Bool) : Nat := if n8 then 6 else 4
def hbmSlots (n8 : Bool) : Nat := if n8 then 2 else 3
def gib : Nat := 1073741824
def hbmBytes (n8 : Bool) : Nat := (if n8 then 576 else 864) * gib

/-- Queue context page of a queue pair, and the offset of its context (R28, R212). -/
def queuePage (q : Nat) : Nat := pageNum 15 (q / 8192) (q / 64 % 128)
def queueOff (q : Nat) : Nat := 0x100 + 0x30 * (q % 64)

/-- The first global queue pair of a QUEUE_CTX page. -/
def firstQueue (page : Nat) : Nat := pageCluster page * 8192 + pageUnit page * 64

/-- What R28 assigns to a page number, populated or not. -/
def assignedType (page : Nat) : PageType :=
  let d := pageDie page
  let c := pageCluster page
  let u := pageUnit page
  if page = pgEntry then .entry
  else if d < 4 ∧ c < 40 then
    if u < 64 then .core
    else if u = 64 ∨ u = 65 then .ladle
    else if u = 66 then .temper else if u = 67 then .clusterCtrl else if u = 68 then .barrier
    else if u = 69 then .clusterSram else if u = 127 then .clusterGroup else .absent
  else if d < 4 ∧ c = 63 then
    if u < 4 then .dieMgr else if 8 ≤ u ∧ u ≤ 10 then .hbmCtrl else if u = 16 then .meltShard
    else if 20 ≤ u ∧ u ≤ 23 then .check else if u = 24 then .dieErr
    else if 28 ≤ u ∧ u ≤ 32 then .d2d else if u = 127 then .dieGroup else .absent
  else if 8 ≤ d ∧ d ≤ 13 then
    if c = 0 ∧ u < 16 then .link
    else if c = 63 then
      if u = 0 then .collective else if u = 1 then .router else if u = 2 then .time
      else if u = 3 ∧ d ≠ 8 then .ioCtrl
      else if u = 24 then .dieErr else if u = 28 ∨ u = 29 then .d2d
      else if u = 32 ∧ d = 8 then .cxl else if u = 33 ∧ d = 8 then .rootOfTrust
      else if (u = 34 ∨ u = 35) ∧ d = 8 then .pkgMgr else if u = 36 ∧ d = 8 then .sideband
      else if u = 127 then .dieGroup else .absent
    else .absent
  else if d = 15 then
    if c < 8 then .queueCtx
    else if c = 63 then
      if u = 0 then .pkgErr else if u = 1 then .partition else if u = 2 then .admission
      else if u = 3 then .meter else if u = 4 then .jobRunner else if u = 6 then .power
      else if u = 7 then .identity else if u = 8 then .snapshot else if u = 127 then .packageGroup
      else .absent
    else .absent
  else .absent

/-! ### Registers -/

/-- The key of a register: page, bank and offset. A bank is the partition, melt sheet entry or reader that a banked
register belongs to (R42, R290), and 0 elsewhere. -/
def rkey (page bank off : Nat) : Nat := (page * 131072 + bank) * 4096 + off

/-- A select register of which every requester has its own, and which picks the partition that a page shows (R183, R264, R289 to R292,
R351). -/
def isViewSel (t : PageType) (off : Nat) : Bool :=
  match t with
  | .partition => off = R.PARTITION_PART_SEL
  | .admission => off = R.ADMISSION_ADM_VIEW
  | .meter => off = R.METER_METER_SEL
  | .jobRunner => off = R.JOB_RUNNER_JR_VIEW
  | .collective => off = R.COLLECTIVE_COLL_VIEW
  | .snapshot => off = R.SNAPSHOT_SNAP_VIEW
  | _ => false

/-- Counters that count what only an engine's timing decides, beside what the model counts: gated and frozen cycles (R92, R378), stalls of
the pattern unit (R117), corrections inside the stacks (R348), and the flits of die-to-die ports (R349). -/
def timedCounter (page off : Nat) : Bool :=
  off = R.HDR_CNT_GATED || off = R.HDR_CNT_FREEZE ||
    match assignedType page with
    | .core => off = R.CORE_FREEZE_FEED || off = R.CORE_FREEZE_SPRUE || off = R.CORE_FREEZE_DRAIN || off = R.CORE_PAT_STALL
    | .hbmCtrl => off = R.HBM_CTRL_HBM_STACK_CORR
    | .d2d => off = R.D2D_D2D_FLITS || off = R.D2D_D2D_RETRY
    | _ => false

/-- The value of a register that nothing has written: its reset value. A view select's is the requester's own partition (DEDUCED log 87). -/
def regReset (page bank off : Nat) : Nat :=
  if isViewSel (assignedType page) off then bank % 256
  else if page = pgPartition ∧ bank = 0 ∧ off = R.PARTITION_POOL_CFG then 0xFFFFA001
  else match regDesc? (assignedType page) off with
    | some r => r.resetVal
    | none => 0

/-- The applied value of a register. -/
def State.reg (s : State) (page bank off : Nat) : Nat :=
  match sget s.regs (rkey page bank off) with
  | some v => v.toNat
  | none => regReset page bank off

/-- Set the applied value of a register. -/
def State.setReg (s : State) (page bank off v : Nat) : State :=
  { s with regs := sset s.regs (rkey page bank off) (BitVec.ofNat 64 v) }

/-- A field of a register. -/
def State.fld (s : State) (page bank : Nat) (f : Fld) : Nat := bitsOf (s.reg page bank f.off) f.hi f.lo

/-- Set a field of a register. -/
def State.setFld (s : State) (page bank : Nat) (f : Fld) (v : Nat) : State :=
  s.setReg page bank f.off (putBits (s.reg page bank f.off) f.hi f.lo v)

/-- Add to a counter or register, modulo its 64 bits. -/
def State.bump (s : State) (page bank off n : Nat) : State :=
  s.setReg page bank off (s.reg page bank off + n)

/-- The staged value of a register, where one is pending (R41). -/
def State.shadow? (s : State) (page bank off : Nat) : Option Nat :=
  (sget s.shadows (rkey page bank off)).map (·.toNat)

/-- Set PROGRESS and PROGRESS_POS of a page's bank (R39): phase, basis points, position. -/
def State.progress (s : State) (page bank phase bp pos : Nat) : State :=
  (s.setReg page bank R.HDR_PROGRESS (phase + 65536 * bp)).setReg page bank R.HDR_PROGRESS_POS pos

/-! ### Outputs and free values -/

/-- A counter of a page: what the model has counted, and an open amount where timing counts too (DESIGN CHOICE log 95). -/
def State.counterAt (s : State) (page off : Nat) : Nat :=
  s.reg page 0 off + (if timedCounter page off then Config.transient page off s.timeNow else 0)

/-- Send something outwards (DESIGN CHOICE log 3). -/
def State.emit (s : State) (k : OutKind) (args : List Nat) (data : List Byte := []) : State :=
  { s with out := .msg k args data :: s.out }

def State.emitPacket (s : State) (die : Nat) (pk : Packet) : State :=
  { s with out := .packet die pk :: s.out }

/-- The next free value (DESIGN CHOICE log 2). -/
def State.freeVal (s : State) : W64 := Config.free s.fresh

def State.freshen (s : State) : State := { s with fresh := s.fresh + 1 }

/-- `n` free bytes starting from counter `k`. -/
def freeBytes (k : Nat) : Nat → List Byte
  | 0 => []
  | n + 1 => (Config.free k).truncate 8 :: freeBytes (k + 1) n

/-! ### Partitions, clusters and queues: lookups -/

def State.part (s : State) (p : Nat) : PartX := (sget s.parts p).getD PartX.init
def State.setPart (s : State) (p : Nat) (x : PartX) : State := { s with parts := sset s.parts p x }
def State.updPart (s : State) (p : Nat) (f : PartX → PartX) : State := s.setPart p (f (s.part p))

def State.core (s : State) (page : Nat) : CoreX := (sget s.cores page).getD CoreX.init
def State.setCore (s : State) (page : Nat) (x : CoreX) : State := { s with cores := sset s.cores page x }
def State.updCore (s : State) (page : Nat) (f : CoreX → CoreX) : State := s.setCore page (f (s.core page))

def State.cluster (s : State) (g : Nat) : ClusterX := (sget s.clusters g).getD ClusterX.init
def State.setCluster (s : State) (g : Nat) (x : ClusterX) : State := { s with clusters := sset s.clusters g x }
def State.updCluster (s : State) (g : Nat) (f : ClusterX → ClusterX) : State := s.setCluster g (f (s.cluster g))

def State.link (s : State) (n : Nat) : LinkX := (sget s.links n).getD LinkX.init
def State.setLink (s : State) (n : Nat) (x : LinkX) : State := { s with links := sset s.links n x }
def State.updLink (s : State) (n : Nat) (f : LinkX → LinkX) : State := s.setLink n (f (s.link n))

def State.dbgOf (s : State) (page : Nat) : DbgX := (sget s.dbg page).getD DbgX.init
def State.setDbg (s : State) (page : Nat) (x : DbgX) : State := { s with dbg := sset s.dbg page x }
def State.updDbg (s : State) (page : Nat) (f : DbgX → DbgX) : State := s.setDbg page (f (s.dbgOf page))

/-- Every existing partition number. -/
def State.partNums (s : State) : List Nat := (s.parts.filter (fun x => x.2.state != 0)).map (·.1)

/-- True in Ready and Parked: the whole register window is present (R309). -/
def State.ready (s : State) : Bool := decide (s.boot.state = 2)

/-- Whether a cluster is present: it has a working control core and at least one good core (R27, R363). -/
def State.clusterPresent (s : State) (g : Nat) : Bool :=
  decide (g < 160) && !(s.cluster g).dead && decide (0 < (s.cluster g).good)

/-- Whether a page is present (R27, R309), and its type. -/
def State.pageType (s : State) (page : Nat) : PageType :=
  let t := assignedType page
  if !s.ready && page ≠ pgPackage && page ≠ pgCxl && page ≠ pgRot then .absent
  else match t with
    | .core => if (s.core page).absent || (s.cluster (globalCluster page)).dead then .absent else t
    | .hbmCtrl => if s.n8 && pageUnit page = 10 then .absent else t
    | .d2d => if !s.n8 && pageDie page < 4 && pageUnit page = 32 then .absent
              else if ioDies s.n8 + 8 ≤ pageDie page then .absent else t
    | _ => if 8 ≤ pageDie page ∧ pageDie page < 15 ∧ ioDies s.n8 + 8 ≤ pageDie page then .absent else t

/-- The clusters a partition owns, in ascending order: bits of its CLUSTER_MASK (R267). -/
def State.clustersOf (s : State) (p : Nat) : List Nat :=
  (List.range 160).filter (fun g =>
    (s.reg pgPartition p (R.PARTITION_CLUSTER_MASK_0 + 4 * (g / 32))).testBit (g % 32))

/-- The partition that owns a cluster; none for a pool cluster. -/
def State.clusterOwner (s : State) (g : Nat) : Option Nat :=
  s.partNums.find? (fun p => (s.reg pgPartition p (R.PARTITION_CLUSTER_MASK_0 + 4 * (g / 32))).testBit (g % 32))

/-- The clusters of the shared pool: present and owned by nobody. -/
def State.poolClusters (s : State) : List Nat :=
  (List.range 160).filter (fun g => s.clusterPresent g && (s.clusterOwner g).isNone)

/-- The queue range of a tenant: first queue and count (R290). -/
def State.queueRange (s : State) (p : Nat) : Nat × Nat :=
  (64 * s.fld pgPartition p F.PARTITION_QUEUE_RANGE_BASE, 64 * s.fld pgPartition p F.PARTITION_QUEUE_RANGE_COUNT)

/-- The partition that holds a queue pair (R267). -/
def State.queueOwner (s : State) (q : Nat) : Nat :=
  (s.partNums.find? (fun p => p ≠ 0 ∧ (s.queueRange p).1 ≤ q ∧ q < (s.queueRange p).1 + (s.queueRange p).2)).getD 0

/-- A device-fatal error lasts until PERST# (R313). -/
def State.dfOn (s : State) : Bool := s.fld pgPkgErr 0 F.ERR_ERR_STATE_DF = 1

/-- A queue that nothing has used yet: it is frozen when every queue of its partition, or of the module, is (R313). -/
def State.freshQueue (s : State) (q : Nat) : QueueX :=
  let pf := (s.part (s.queueOwner q)).pfFrozen
  { QueueX.init with frozen := pf || s.dfOn, pfFrozen := pf }

def State.queue (s : State) (q : Nat) : QueueX := (sget s.queues q).getD (s.freshQueue q)
def State.setQueue (s : State) (q : Nat) (x : QueueX) : State := { s with queues := sset s.queues q x }
def State.updQueue (s : State) (q : Nat) (f : QueueX → QueueX) : State := s.setQueue q (f (s.queue q))

/-- The global number of a partition-relative queue; none outside the partition's holding (R184, R267). -/
def State.globalQueue (s : State) (p q : Nat) : Option Nat :=
  if p = 0 then (if q < 65536 ∧ s.queueOwner q = 0 then some q else none)
  else if q < (s.queueRange p).2 then some ((s.queueRange p).1 + q) else none

def State.meltRange (s : State) (p : Nat) : Nat × Nat :=
  (64 * s.fld pgPartition p F.PARTITION_MELT_RANGE_BASE, 64 * s.fld pgPartition p F.PARTITION_MELT_RANGE_COUNT)

/-- The partition that holds a melt sheet entry (R267). -/
def State.meltOwner (s : State) (x : Nat) : Nat :=
  (s.partNums.find? (fun p => p ≠ 0 ∧ (s.meltRange p).1 ≤ x ∧ x < (s.meltRange p).1 + (s.meltRange p).2)).getD 0

/-- The global melt sheet entry of an index; none outside the partition's holding. -/
def State.globalMelt (s : State) (p i : Nat) : Option Nat :=
  if p = 0 then (if i < 65536 ∧ s.meltOwner i = 0 then some i else none)
  else if i < (s.meltRange p).2 then some ((s.meltRange p).1 + i) else none

/-- Page of the shard that keeps a melt sheet entry: 16,384 entries to a compute die (R10). -/
def shardPage (x : Nat) : Nat := diePage (x / 16384) 16

/-! ### HBM addresses (R189, R267) -/

def seg256M : Nat := 268435456

/-- A tenant's segments: physical base and size in bytes, in order. -/
def State.segments (s : State) (p : Nat) : List (Nat × Nat) :=
  (List.range 4).map (fun n =>
    let v := s.reg pgPartition p (R.PARTITION_HBM_SEG_0 + 4 * n)
    (bitsOf v 15 0 * seg256M, bitsOf v 31 16 * seg256M))

/-- Whether some tenant reserves a physical byte, bytes being zeroed for a tenant included (R271). -/
def State.reservedBy (s : State) (a : Nat) : Option Nat :=
  s.partNums.find? (fun p => p ≠ 0 ∧ ((s.segments p).any (fun g => g.1 ≤ a ∧ a < g.1 + g.2) ∨
    ((s.part p).zeroing.any (fun g => g.1 ≤ a ∧ a < g.1 + g.2))))

/-- Walk the segments with a partition address. -/
def segWalk : List (Nat × Nat) → Nat → Option Nat
  | [], _ => none
  | (b, n) :: r, a => if a < n then some (b + a) else segWalk r (a - n)

/-- The physical HBM offset of a partition's address; none outside its reservation (R267, R268). -/
def State.hbmPhys (s : State) (p a : Nat) : Option Nat :=
  if p = 0 then (if a < hbmBytes s.n8 ∧ (s.reservedBy a).isNone then some a else none)
  else segWalk (s.segments p) a

/-- Bytes of a partition's reservation. -/
def State.hbmSize (s : State) (p : Nat) : Nat :=
  if p = 0 then hbmBytes s.n8 else ((s.segments p).map (·.2)).sum

/-- Whether an address word names host memory, and the address in it (R189). -/
def isHost (a : Nat) : Bool := decide (2 ^ 63 ≤ a)
def hostKey (p a : Nat) : Nat := p * 2 ^ 64 + a % 2 ^ 63

/-- One byte of HBM. -/
def State.hbmByte (s : State) (a : Nat) : Byte := mget 0 s.hbm a

/-- The byte at an address word of a partition (R189). An address outside the reservation reads zero; the violation is
raised where the access is made. -/
def State.rd1 (s : State) (p a : Nat) : Byte :=
  if isHost a then mget 0 s.host (hostKey p a)
  else match s.hbmPhys p a with
    | some x => s.hbmByte x
    | none => 0

def State.rdBytes (s : State) (p a : Nat) : Nat → List Byte
  | 0 => []
  | n + 1 => s.rd1 p a :: s.rdBytes p (a + 1) n

/-- A little-endian number of `n` bytes. -/
def State.rdLE (s : State) (p a n : Nat) : Nat := leNat (s.rdBytes p a n)

/-- Store one byte at a physical offset. -/
def State.hbmSet (s : State) (a : Nat) (b : Byte) : State := { s with hbm := mset 0 s.hbm a b }

/-- Store bytes at a physical offset. A write of all 64 bytes of a block clears its uncorrectable error (R322). -/
def State.hbmSetBytes (s : State) (a : Nat) (l : List Byte) : State :=
  { s with hbm := msetBytes 0 s.hbm a l,
           hbmBad := s.hbmBad.filter (fun b => !(decide (a ≤ 64 * b.1) && decide (64 * b.1 + 64 ≤ a + l.length))) }

def State.wr1 (s : State) (p a : Nat) (b : Byte) : State :=
  if isHost a then { s with host := mset 0 s.host (hostKey p a) b }
  else match s.hbmPhys p a with
    | some x => { s with hbm := mset 0 s.hbm x b }
    | none => s

/-- Write bytes at rising addresses of a partition. -/
def State.wrBytesRaw (s : State) (p a : Nat) : List Byte → State
  | [] => s
  | b :: r => (s.wr1 p a b).wrBytesRaw p (a + 1) r

/-- Blocks of 64 bytes that a partition's write of `n` bytes covers whole. -/
def State.coveredBlocks (s : State) (p a n : Nat) : List Nat :=
  if isHost a then []
  else (s.hbmBad.map (·.1)).filter (fun b => (List.range 64).all (fun i =>
    (List.range n).any (fun j => s.hbmPhys p (a + j) = some (64 * b + i))))

/-- Write bytes; blocks written whole lose their uncorrectable error (R322). -/
def State.wrBytes (s : State) (p a : Nat) (l : List Byte) : State :=
  let done := s.coveredBlocks p a l.length
  { s.wrBytesRaw p a l with hbmBad := s.hbmBad.filter (fun b => !done.contains b.1) }

/-- The first block with an uncorrectable error that a partition's HBM bytes lo to hi touch (R322). -/
def State.badBlock (s : State) (p lo hi : Nat) : Option (Nat × Nat) :=
  s.hbmBad.find? (fun b =>
    if p = 0 then decide (lo < 64 * b.1 + 64) && decide (64 * b.1 ≤ hi)
    else (s.segments p).zipIdx.any (fun g =>
      let base := (((s.segments p).take g.2).map (·.2)).sum
      decide (g.1.1 ≤ 64 * b.1) && decide (64 * b.1 < g.1.1 + g.1.2) &&
        decide (lo < base + (64 * b.1 - g.1.1) + 64) && decide (base + (64 * b.1 - g.1.1) ≤ hi)))

def State.wrLE (s : State) (p a n v : Nat) : State := s.wrBytes p a (leBytes v n)

/-- Whether every byte of an HBM range lies in the partition's reservation. -/
def State.inReservation (s : State) (p lo hi : Nat) : Bool :=
  if p = 0 then decide (hi < hbmBytes s.n8) &&
      s.partNums.all (fun t => t = 0 || ((s.segments t).all (fun g => decide (hi < g.1) || decide (g.1 + g.2 ≤ lo) || decide (g.2 = 0)) &&
        (s.part t).zeroing.all (fun g => decide (hi < g.1) || decide (g.1 + g.2 ≤ lo))))
  else decide (hi < s.hbmSize p)

/-- Add to a meter of a partition (R287). -/
def State.meter (s : State) (p off n : Nat) : State := s.bump pgMeter p off n

/-! ### Host link -/

/-- Send an MSI-X message of a function (R298); the physical function is function 0. -/
def State.msix (s : State) (fn vec : Nat) : State := s.emit .msix [fn, vec]

/-- The group page whose HOST_CFG and HOST_PASID serve a partition: bank p of the package group page (R297). -/
def State.errVector (s : State) (p : Nat) : Nat := s.fld pgPackage p F.GRP_HOST_CFG_ERR_VECTOR

end Sys2Proof.Machine
end

