-- ==== Sys2Proof/Machine/Operands.lean ====
section
/-! DEFINITION. Operand forms of the commands: the fields of the command descriptor (R189 to R194) and of the tensor descriptor (R214 to R218),
and the addresses a tensor descriptor reaches. -/

namespace Sys2Proof.Machine

/-- A field of a 128-byte descriptor: byte offset and width in bits. -/
def dField (d : BitVec 1024) (off width : Nat) : Nat := bitsOf d.toNat (8 * off + width - 1) (8 * off)

def dOpcode (d : BitVec 1024) : Nat := dField d 0x00 8
def dPrecision (d : BitVec 1024) : Nat := dField d 0x01 8
def dFlags (d : BitVec 1024) : Nat := dField d 0x02 16
def dTaskId (d : BitVec 1024) : Nat := dField d 0x04 32
/-- ADDR_n, TDESC_n -/
def dAddr (d : BitVec 1024) (n : Nat) : Nat := dField d (0x08 + 8 * n) 64
def dTdesc (d : BitVec 1024) (n : Nat) : Nat := dField d (0x20 + 8 * n) 64
def dMeltOut (d : BitVec 1024) : Nat := dField d 0x38 16
def dMeltIn0 (d : BitVec 1024) : Nat := dField d 0x3A 16
def dMeltIn1 (d : BitVec 1024) : Nat := dField d 0x3C 16
def dMb (d : BitVec 1024) : Nat := dField d 0x3E 8
def dStream0 (d : BitVec 1024) : Nat := dField d 0x40 20
def dStream1 (d : BitVec 1024) : Nat := bitsOf (dField d 0x40 40) 39 20
def dAlive (d : BitVec 1024) : Nat := dField d 0x46 16
def dDeadline (d : BitVec 1024) : Nat := dField d 0x48 64
def dTarget (d : BitVec 1024) : Nat := dField d 0x50 32

/-- A flag of R190. -/
def dFlag (d : BitVec 1024) (i : Nat) : Bool := (dFlags d).testBit i
def flNOTIFY : Nat := 0
def flFENCE : Nat := 1
def flSTRICT : Nat := 2
def flSHARED : Nat := 3
def flALIVE_EN : Nat := 4
def flACCUM : Nat := 5
def flVERDICT : Nat := 6
def flCLOSING : Nat := 7
def flLAYER : Nat := 8
def flCVT_SR : Nat := 9
def flABORT_ON_MISMATCH : Nat := 10

/-- Opcodes of R194. -/
def opGEMM : Nat := 0x01
def opGEMM_PATTERN : Nat := 0x02
def opVECTOR : Nat := 0x03
def opCOPY : Nat := 0x04
def opGATHER : Nat := 0x05
def opSCATTER : Nat := 0x06
def opSCATTER_ADD : Nat := 0x07
def opCHECK_SCAN : Nat := 0x08
def opCOLLECTIVE : Nat := 0x09
def opUPDATE : Nat := 0x0A
def opBARRIER : Nat := 0x0B
def opSNAPSHOT : Nat := 0x0C
def opSTATS_READ : Nat := 0x0D
def opEVENT_SIGNAL : Nat := 0x0E
def opEVENT_WAIT : Nat := 0x0F
def opSTEP_BOUNDARY : Nat := 0x10
def opTRACE_MARK : Nat := 0x11
def opLINK_SEND : Nat := 0x12
def opLINK_RECV : Nat := 0x13

/-- Opcodes that close a task (R199). -/
def closesTask (op : Nat) : Bool := op = opBARRIER || op = opSTEP_BOUNDARY

/-- The flags an opcode uses (R190), as a mask. -/
def flagsOf (op : Nat) : Nat :=
  0x0013 +
  (if op = opGATHER || op = opSCATTER || op = opSCATTER_ADD then 2 ^ flSTRICT else 0) +
  (if op = opGEMM || op = opGEMM_PATTERN || op = opVECTOR || op = opCOPY || op = opUPDATE then 2 ^ flSHARED else 0) +
  (if op = opGEMM || op = opGEMM_PATTERN || op = opVECTOR then 2 ^ flACCUM else 0) +
  (if op = opCHECK_SCAN then 2 ^ flVERDICT + 2 ^ flABORT_ON_MISMATCH else 0) +
  (if op = opCOLLECTIVE then 2 ^ flCLOSING else 0) +
  (if op = opBARRIER then 2 ^ flLAYER else 0) +
  (if op = opGEMM || op = opGEMM_PATTERN || op = opVECTOR || op = opCOPY then 2 ^ flCVT_SR else 0)

/-! ### Tensor descriptors (R214 to R218) -/

/-- A tensor descriptor with the base address of its slot. -/
structure TD where
  fmt : Nat
  ndim : Nat
  flags : Nat
  base : Nat
  scale : Nat
  ext : List Nat
  /-- byte distance per dimension; that of dimension 0 is unused -/
  stride : List Int
  deriving DecidableEq, Repr

/-- A signed 64-bit field. -/
def sField64 (d : BitVec 1024) (off : Nat) : Int := intOf 64 (dField d off 64)

def tdOf (d : BitVec 1024) (base : Nat) : TD :=
  { fmt := dField d 0x00 8
    ndim := dField d 0x01 8
    flags := dField d 0x02 16
    base := base
    scale := dField d 0x08 64
    ext := (List.range 6).map (fun i => dField d (0x10 + 4 * i) 32)
    stride := 0 :: (List.range 5).map (fun i => sField64 d (0x30 + 8 * i)) }

def TD.e (t : TD) (i : Nat) : Nat := t.ext.getD i 1
def TD.st (t : TD) (i : Nat) : Int := t.stride.getD i 0

/-- Row bytes: ⌈EXTENT_0 × element bits / 8⌉ (R214). -/
def TD.rowBytes (t : TD) : Nat := ceilDiv (t.e 0 * fmtBits t.fmt) 8

/-- Number of innermost rows, and of elements. -/
def TD.rows (t : TD) : Nat := t.e 1 * t.e 2 * t.e 3 * t.e 4 * t.e 5
def TD.elems (t : TD) : Nat := t.e 0 * t.rows

/-- Span of dimensions 0 to d (R216). -/
def TD.span (t : TD) : Nat → Nat
  | 0 => t.rowBytes
  | d + 1 => (t.st (d + 1)).natAbs * (t.e (d + 1) - 1) + t.span d

/-- Bytes by which the lowest and the highest byte lie from the base (R217). -/
def TD.lowOff (t : TD) : Int :=
  (List.range 5).foldl (fun a i => a + min 0 (t.st (i + 1) * ((t.e (i + 1) : Int) - 1))) 0
def TD.highOff (t : TD) : Int :=
  (List.range 5).foldl (fun a i => a + max 0 (t.st (i + 1) * ((t.e (i + 1) : Int) - 1))) ((t.rowBytes : Int) - 1)

/-- Bytes of a padded scale row, and of the whole scale plane (R218). -/
def TD.scaleRow (t : TD) : Nat := roundUp (ceilDiv (t.e 0) (fmtBlockLen t.fmt)) 64
def TD.scaleBytes (t : TD) : Nat := if fmtPlane t.fmt then t.scaleRow * t.rows else 0

/-- Element bytes of the tensor, without scales. -/
def TD.elemBytes (t : TD) : Nat := t.rowBytes * t.rows

/-- An address of the slot's memory with host bit taken off (R189). -/
def rangeOf (base : Nat) (lo hi : Int) : Range :=
  let b : Int := Int.ofNat (base % 2 ^ 63)
  { lo := (b + lo).toNat, hi := (b + hi).toNat, host := isHost base }

/-- Declared ranges of a described slot: elements and scale plane (R217, R218). -/
def TD.ranges (t : TD) : List Range :=
  rangeOf t.base t.lowOff t.highOff ::
    (if fmtPlane t.fmt then [rangeOf t.scale 0 ((t.scaleBytes : Int) - 1)] else [])

/-- Reserved fields and flags of a descriptor are zero, NDIM and extents in range (R214, R216). -/
def tdFields (d : BitVec 1024) : Bool :=
  let t := tdOf d 0
  decide (1 ≤ t.ndim ∧ t.ndim ≤ 6) && decide (t.flags < 2) && dField d 0x04 32 = 0 && dField d 0x28 64 = 0 &&
  dField d 0x58 320 = 0 &&
  (List.range 6).all (fun i => if i < t.ndim then decide (1 ≤ t.e i) else t.e i = 1) &&
  (List.range 6).all (fun i => i = 0 || i < t.ndim || t.st i = 0)

/-- Innermost alignment (R215). -/
def TD.aligned (t : TD) : Bool :=
  t.base % 64 = 0 && t.rowBytes % 64 = 0 && (List.range 6).all (fun i => i = 0 || t.ndim ≤ i || t.st i % 64 = 0)

/-- No two elements of an output share a byte (R216). -/
def TD.disjoint (t : TD) : Bool :=
  (List.range 5).all (fun i => t.ndim ≤ i + 1 || decide (t.span i ≤ (t.st (i + 1)).natAbs))

/-- The multi-index of element number e, dimension 0 fastest. -/
def unravel : List Nat → Nat → List Nat
  | [], _ => []
  | x :: r, e => e % x :: unravel r (e / x)

/-- The number of a multi-index. -/
def ravel : List Nat → List Nat → Nat
  | x :: r, i :: j => i + x * ravel r j
  | _, _ => 0

/-- The address of an innermost row, by its indices along dimensions 1 to 5. -/
def TD.rowAddr (t : TD) (idx : List Nat) : Nat :=
  let off := (List.range 5).foldl (fun a i => a + t.st (i + 1) * (idx.getD (i + 1) 0 : Int)) (0 : Int)
  ((t.base : Int) + off).toNat

/-- The number of an innermost row, dimension 1 fastest. -/
def TD.rowNum (t : TD) (idx : List Nat) : Nat := ravel (t.ext.drop 1) (idx.drop 1)

/-- The address of an element's scale byte. -/
def TD.scaleAddr (t : TD) (idx : List Nat) : Nat :=
  t.scale + t.rowNum idx * t.scaleRow + idx.headD 0 / fmtBlockLen t.fmt

/-- The code of one element. -/
def State.elemCode (s : State) (p : Nat) (t : TD) (idx : List Nat) : Nat :=
  let b := fmtBits t.fmt
  let i := idx.headD 0
  if 8 ≤ b then s.rdLE p (t.rowAddr idx + i * (b / 8)) (b / 8)
  else bitsOf (s.rd1 p (t.rowAddr idx + i * b / 8)).toNat (i * b % 8 + b - 1) (i * b % 8)

/-- The scale byte of an element; 0x78 (1.0) where its format has no plane. -/
def State.elemScale (s : State) (p : Nat) (t : TD) (idx : List Nat) : Nat :=
  if fmtPlane t.fmt then (s.rd1 p (t.scaleAddr idx)).toNat else 0x78

/-- The value of an element with its block scale, and whether it was flushed. -/
def State.elem (s : State) (p : Nat) (t : TD) (idx : List Nat) : Val × Nat :=
  scaledVal t.fmt (s.elemCode p t idx) (s.elemScale p t idx)

/-- Pack codes of `b` bits into bytes, the first at bit 0 (R59). -/
def packCodes (b : Nat) (codes : List Nat) : List Byte :=
  if 8 ≤ b then codes.flatMap (fun c => leBytes c (b / 8))
  else
    let n := codes.zipIdx.foldl (fun a (c, i) => a + (c % 2 ^ b) * 2 ^ (i * b)) 0
    leBytes n (ceilDiv (codes.length * b) 8)

/-- All row indices of a tensor: lists of six with dimension 0 at 0. -/
def TD.rowIdx (t : TD) : List (List Nat) := (List.range t.rows).map (fun r => 0 :: unravel (t.ext.drop 1) r)

/-- Write one innermost row of codes. -/
def State.putRow (s : State) (p : Nat) (t : TD) (idx : List Nat) (codes : List Nat) : State :=
  s.wrBytes p (t.rowAddr idx) (packCodes (fmtBits t.fmt) codes)

/-- Write one scale row, padded with zero bytes (R60). -/
def State.putScaleRow (s : State) (p : Nat) (t : TD) (idx : List Nat) (codes : List Nat) : State :=
  s.wrBytes p (t.scale + t.rowNum idx * t.scaleRow)
    ((codes ++ List.replicate (t.scaleRow - codes.length) 0).map (BitVec.ofNat 8))

/-- Write one element's code in place; sub-byte elements keep their neighbours. -/
def State.putElem (s : State) (p : Nat) (t : TD) (idx : List Nat) (code : Nat) : State :=
  let b := fmtBits t.fmt
  let i := idx.headD 0
  if 8 ≤ b then s.wrLE p (t.rowAddr idx + i * (b / 8)) (b / 8) code
  else
    let a := t.rowAddr idx + i * b / 8
    s.wrLE p a 1 (putBits (s.rd1 p a).toNat (i * b % 8 + b - 1) (i * b % 8) code)

end Sys2Proof.Machine
end

