-- ==== Sys2Proof/Machine/Errors.lean ====
section
/-! DEFINITION. Error records and rings (R313 to R320): what the ring does with one occurrence. The effects on tasks and
partitions are in `Abort.lean`. -/

namespace Sys2Proof.Machine

/-- Cause codes of R316 and R428. -/
def caACCESS : Nat := 0x01
def caBUSY_WRITE : Nat := 0x02
def caABSENT_WRITE : Nat := 0x03
def caBAD_TSCALE : Nat := 0x04
def caBAD_CEIL : Nat := 0x05
def caBAD_DEAD_CFG : Nat := 0x06
def caBAD_HYPER : Nat := 0x07
def caBAD_TIMEOUT : Nat := 0x08
def caBAD_CONTRACT : Nat := 0x09
def caBAD_DOORBELL : Nat := 0x0A
def caDEAD_LAYER : Nat := 0x0B
def caFLUSHED_LAYER : Nat := 0x0C
def caVIOLATION : Nat := 0x0D
def caPASS_INVALID : Nat := 0x0E
def caTILE_BLOCKS : Nat := 0x0F
def caUPD_INVALID : Nat := 0x10
def caRING_FAULT : Nat := 0x11
def caTAG_REJECT : Nat := 0x12
def caNO_ROUTE : Nat := 0x13
def caROUTE_STUCK : Nat := 0x14
def caID_CONFLICT : Nat := 0x15
def caTIME_DRIFT : Nat := 0x16
def caPAIR_REFUSED : Nat := 0x17
def caCRC_MISMATCH : Nat := 0x18
def caSNAP_BLOCK : Nat := 0x19
def caROW_RETIRED : Nat := 0x1A
def caRETIRE_FAIL : Nat := 0x1B
def caCORE_FENCED : Nat := 0x1C
def caCORE_REPLACED : Nat := 0x1D
def caNO_SPARE : Nat := 0x1E
def caSRAM_LASTING : Nat := 0x1F
def caHBM_CE : Nat := 0x20
def caHBM_UC : Nat := 0x21
def caSRAM_CE : Nat := 0x22
def caSRAM_UC : Nat := 0x23
def caSTATE_UC : Nat := 0x24
def caASSAY_FAIL : Nat := 0x25
def caEPOCH_MISMATCH : Nat := 0x26
def caMEM_POISON : Nat := 0x27
def caREF_LOST : Nat := 0x28
def caLINK_ALIVE : Nat := 0x29
def caLINK_NARROW : Nat := 0x2A
def caLINK_DOWN : Nat := 0x2B
def caD2D_LASTING : Nat := 0x2C
def caD2D_FAIL : Nat := 0x2D

/-- Severities of R313. -/
def sevCE : Nat := 0
def sevUCC : Nat := 1
def sevPF : Nat := 2
def sevDF : Nat := 3

def caINPUT_RANGE : Nat := 0x30
def caCAP_FLOOR : Nat := 0x31
def caTHERMAL_CAP : Nat := 0x32
def caHBM_HOT : Nat := 0x33
def caINLET_RANGE : Nat := 0x34
def caFLOW_LOW : Nat := 0x35
def caFLOW_LOST : Nat := 0x36
def caFEED_CHANGED : Nat := 0x37
def caUPDATE_FAILED : Nat := 0x38

/-- Causes up to 0x1F and from 0x30 on are notices (R316, R428). -/
def isNotice (cause : Nat) : Bool := decide (cause ≤ 0x1F) || decide (0x30 ≤ cause)

/-- Base severity of a cause (R316). -/
def baseSev (cause : Nat) : Nat :=
  if cause = caD2D_FAIL then sevDF
  else if cause = caSTATE_UC then sevPF
  else if cause = caVIOLATION || cause = caPASS_INVALID || cause = caTILE_BLOCKS || cause = caUPD_INVALID ||
      cause = caHBM_UC || cause = caSRAM_UC || cause = caEPOCH_MISMATCH || cause = caMEM_POISON then sevUCC
  else sevCE

/-- Highest severity that escalation reaches (R316). -/
def capSev (cause : Nat) : Nat :=
  if cause = caD2D_FAIL then sevDF else if 0x20 ≤ cause && cause ≤ 0x27 then sevPF else sevUCC

/-- Counted causes (R316). -/
def isCounted (cause : Nat) : Bool := cause = caHBM_CE || cause = caSRAM_CE || cause = caASSAY_FAIL

/-- The ring page of a source page: its die's DIE_ERR page, or the package's (R315). -/
def ringPageOf (page : Nat) (pkg : Bool) : Nat :=
  let d := pageDie page
  if pkg || !(d < 4 || (8 ≤ d && d ≤ 13)) then pgPkgErr else diePage d 24

/-- Number of records of a ring (R315). -/
def ringSize (rp : Nat) : Nat := if rp = pgPkgErr then 256 else 512

def State.ring (s : State) (rp : Nat) : Ring := (sget s.rings rp).getD { next := 0, slots := [] }
def State.setRing (s : State) (rp : Nat) (r : Ring) : State := { s with rings := sset s.rings rp r }

/-- The open records of one source in a ring: one page with one KEY (R314, R320). -/
def Ring.openOf (r : Ring) (page key : Nat) : List ErrRec :=
  (svals r.slots).filter (fun e => e.opened && e.page = page && e.key = key)

/-- The newest of a list of records: the one with the highest SEQ. -/
def newestRec : List ErrRec → Option ErrRec
  | [] => none
  | e :: r => match newestRec r with
    | none => some e
    | some f => if f.seq < e.seq then some e else some f

/-- The oldest of a list of records. -/
def oldestRec : List ErrRec → Option ErrRec
  | [] => none
  | e :: r => match oldestRec r with
    | none => some e
    | some f => if e.seq < f.seq then some e else some f

/-- The open counted record that an occurrence repeats (R320 item 1). -/
def Ring.repeatOf (r : Ring) (page key cause : Nat) : Option ErrRec :=
  if isCounted cause then newestRec ((r.openOf page key).filter (fun e => e.cause = cause)) else none

/-- Whether an open record of the same source raises the severity (R320 item 2). -/
def Ring.escalates (r : Ring) (page key cause : Nat) : Bool :=
  !isNotice cause && !(r.openOf page key).isEmpty && decide (baseSev cause < capSev cause)

/-- The final severity of an occurrence that is no repeat: escalated, and a PF of an infrastructure source written as
DF (R316, R320). -/
def Ring.finalSev (r : Ring) (page key cause : Nat) (infra : Bool) : Nat :=
  let v := if r.escalates page key cause then baseSev cause + 1 else baseSev cause
  if v = sevPF && infra then sevDF else v

/-- The source of an occurrence: its page and KEY, the partition holding it, whether it is infrastructure, and whether the
record goes to the package ring whatever the page (R313 to R315). -/
structure ErrSrc where
  page : Nat
  key : Nat
  part : Nat
  infra : Bool
  pkg : Bool
  deriving DecidableEq, Repr

def ErrSrc.ring (e : ErrSrc) : Nat := ringPageOf e.page e.pkg

/-- Write the record of an occurrence that is no repeat: SEQ is consumed; the record is lost when its slot holds an open
one (R318). -/
def State.putErr (s : State) (e : ErrSrc) (cause detail : Nat) : State :=
  let rp := e.ring
  let r := s.ring rp
  let sev := r.finalSev e.page e.key cause e.infra
  let esc := r.escalates e.page e.key cause
  let slot := r.next % ringSize rp
  let nr : ErrRec :=
    { seq := r.next, sev := sev, esc := esc, notice := isNotice cause, cause := cause, part := e.part,
      infra := e.infra, page := e.page, count := 1, key := e.key, time := s.timeNow, detail := detail,
      opened := !isNotice cause }
  let lost := match sget r.slots slot with
    | some o => o.opened
    | none => false
  let s := s.setRing rp { next := r.next + 1, slots := if lost then r.slots else sset r.slots slot nr }
  let s := if lost then s.bump rp 0 (R.ERR_LOST_CE + 8 * sev) 1 else s
  let s := if esc then s.bump rp 0 R.ERR_ESCALATIONS 1 else s
  let s := if sev = sevDF then s.setFld pgPkgErr 0 F.ERR_ERR_STATE_DF 1 else s
  s.bump e.page 0 (R.HDR_CNT_ERR_CE + 8 * sev) 1

/-- Virtual functions that exist for the host (R296): VF Enable set; the count is TotalVFs. -/
def State.enabledVfs (s : State) : List Nat := if s.cxl.vfEnable then (List.range 255).map (· + 1) else []

/-- The bank of a page's PAGE_CTRL, PAGE_ERR and PAGE_ERR_MASK: the partition's for the group page that each partition sees as its own
(R52), else 0. -/
def hdrBank (page part : Nat) : Nat := if page = pgPackage then part else 0

/-- How a record reaches the host (R311). -/
def State.signalErr (s : State) (e : ErrSrc) (sev : Nat) : State :=
  if sev = sevDF then
    (0 :: s.enabledVfs).foldl (fun s n => s.msix n (s.errVector n))
      ((s.emit .aer [1]).bump pgCxl 0 R.CXL_AER_MSGS 1)
  else if s.fld e.page (hdrBank e.page e.part) F.HDR_PAGE_CTRL_INT_EN = 1 || sev = sevPF then
    let s := s.msix e.part (s.errVector e.part)
    if e.part ≠ 0 then s.msix 0 (s.errVector 0) else s
  else s

/-- One occurrence at the ring: a repeat counts on its open record, any other occurrence writes a record and reaches the
host (R320, R311). -/
def State.logErr (s : State) (e : ErrSrc) (cause detail : Nat) : State :=
  let rp := e.ring
  let r := s.ring rp
  match r.repeatOf e.page e.key cause with
  | some o =>
    let o' := { o with count := min 32767 (o.count + 1) }
    (s.setRing rp { r with slots := sset r.slots (o.seq % ringSize rp) o' }).bump e.page 0
      (R.HDR_CNT_ERR_CE + 8 * o.sev) 1
  | none => (s.putErr e cause detail).signalErr e (r.finalSev e.page e.key cause e.infra)

/-- Severity with which an occurrence acts: none for a repeat, which writes no record. -/
def State.errActs (s : State) (e : ErrSrc) (cause : Nat) : Option Nat :=
  let r := s.ring e.ring
  match r.repeatOf e.page e.key cause with
  | some _ => none
  | none => some (r.finalSev e.page e.key cause e.infra)

/-! ### Owners of pages (R37) -/

/-- Whether a page is shared infrastructure (R37): every page but clusters', queue contexts' and the package group page. -/
def isInfra (t : PageType) : Bool :=
  match t with
  | .core | .ladle | .temper | .clusterCtrl | .barrier | .clusterSram | .clusterGroup | .queueCtx | .packageGroup
  | .absent | .entry => false
  | _ => true

/-- Whether a page belongs to a compute die's cluster. -/
def isClusterPage (page : Nat) : Bool := decide (pageDie page < 4) && decide (pageCluster page < 40)

/-- Whether a page is in the shared pool. -/
def State.isPool (s : State) (page : Nat) : Bool :=
  isClusterPage page && (s.clusterOwner (globalCluster page)).isNone

/-- The partition whose task runs on a pool cluster. -/
def State.poolRunner (s : State) (g : Nat) : Option Nat := (s.cluster g).runQ.map s.queueOwner

/-- PAGE_OWNER.PARTITION (R37). -/
def State.pagePart (s : State) (page : Nat) : Nat :=
  if isClusterPage page then
    match s.clusterOwner (globalCluster page) with
    | some p => p
    | none => (s.poolRunner (globalCluster page)).getD 0
  else if assignedType page = .queueCtx then s.queueOwner (firstQueue page)
  else 0

/-- The error source that a page itself is (R313). -/
def State.srcOf (s : State) (page key : Nat) : ErrSrc :=
  { page := page, key := key, part := s.pagePart page, infra := isInfra (assignedType page), pkg := false }

/-- The source of an error in HBM: the partition whose reservation holds the address (R313). -/
def State.hbmSrc (s : State) (page key a : Nat) : ErrSrc :=
  { page := page, key := key, part := (s.reservedBy a).getD 0, infra := false, pkg := false }

/-- The source of an error in a melt sheet entry: the partition that holds the entry (R313). -/
def State.entSrc (s : State) (x key : Nat) : ErrSrc :=
  { page := shardPage x, key := key, part := s.meltOwner x, infra := false, pkg := false }

/-- A notice of a page. -/
def State.notice (s : State) (page cause detail : Nat) : State := s.logErr (s.srcOf page 0) cause detail

/-- A notice that goes to the package ring. -/
def State.pkgNotice (s : State) (page cause detail : Nat) : State :=
  s.logErr { s.srcOf page 0 with pkg := true } cause detail

/-- Set a PAGE_ERR bit of a partition's bank of a page; an unmasked bit interrupts the partition when INT_EN is set (R35, R36). -/
def State.raiseBank (s : State) (page bank part bit : Nat) : State :=
  let s := s.setReg page bank R.HDR_PAGE_ERR (s.reg page bank R.HDR_PAGE_ERR ||| 2 ^ bit)
  if s.fld page bank F.HDR_PAGE_CTRL_INT_EN = 1 && !(s.reg page bank R.HDR_PAGE_ERR_MASK).testBit bit then
    s.msix part (s.errVector part)
  else s

/-- Set a PAGE_ERR bit of a page. -/
def State.raisePage (s : State) (page bit : Nat) : State := s.raiseBank page 0 (s.pagePart page) bit

end Sys2Proof.Machine
end

