-- ==== Sys2Proof/Machine/Trace.lean ====
section
/-! DEFINITION. Trace records and trace buffers (R380 to R386). A partition's trace registers are bank p of the package
group page (R397). How long a record stays on its engine's trace path is timing (DESIGN CHOICE log 20). -/

namespace Sys2Proof.Machine

/-- Bytes of a command trace record and of an instruction trace frame. -/
def traceUnit (itrace : Bool) : Nat := if itrace then 64 else 32

def regTraceBase (it : Bool) : Nat := if it then R.GRP_ITRACE_BASE else R.GRP_TRACE_BASE
def regTraceLog2 (it : Bool) : Nat := if it then R.GRP_ITRACE_LOG2 else R.GRP_TRACE_LOG2
def regTraceNext (it : Bool) : Nat := if it then R.GRP_ITRACE_NEXT else R.GRP_TRACE_NEXT
def regTraceFirst (it : Bool) : Nat := if it then R.GRP_ITRACE_FIRST else R.GRP_TRACE_FIRST

/-- Records that a partition's buffer holds; 0 where it has none (R385). -/
def State.traceCap (s : State) (p : Nat) (it : Bool) : Nat :=
  let l := s.reg pgPackage p (regTraceLog2 it)
  if l = 0 then 0 else 2 ^ l / traceUnit it

/-- Address of record `i` of a buffer (R386). -/
def State.traceAddr (s : State) (p : Nat) (it : Bool) (i : Nat) : Nat :=
  s.reg pgPackage p (regTraceBase it) +
    traceUnit it * ((i - s.reg pgPackage p (regTraceFirst it)) % s.traceCap p it)

/-- Append a record to a partition's buffer; it counts in the partition's HBM_BYTES (R385). -/
def State.tracePut (s : State) (p : Nat) (it : Bool) (rec : List Byte) : State :=
  if s.traceCap p it = 0 then s
  else
    let i := s.reg pgPackage p (regTraceNext it)
    ((s.wrBytes p (s.traceAddr p it i) rec).setReg pgPackage p (regTraceNext it) (i + 1)).meter p
      R.METER_HBM_BYTES (traceUnit it)

/-- HALT_M and HALT_E of a halted time in nanoseconds (R381): the least exponent, found by trying 0 to 15. -/
def haltCode (ns : Nat) : Nat × Nat :=
  let us := ceilDiv ns 1000
  match (List.range 16).find? (fun e => us ≤ 255 * 2 ^ e) with
  | some e => (ceilDiv us (2 ^ e), e)
  | none => (255, 15)

/-- The 32 bytes of a command trace record (R380). -/
def traceBytes (begin_ end_ task engine op status queue pcLow stretch haltNs : Nat) : List Byte :=
  let h := haltCode haltNs
  leBytes begin_ 8 ++ leBytes end_ 8 ++ leBytes task 4 ++
  leBytes (engine % 2 ^ 17 + 2 ^ 17 * (op % 256) + 2 ^ 25 * (status % 32) + (if op < 0xF0 && stretch ≠ 0 then 2 ^ 30 else 0) +
    (if haltNs = 0 then 0 else 2 ^ 31)) 4 ++
  leBytes (queue % 2 ^ 16 + 2 ^ 16 * (pcLow % 4096)) 4 ++
  leBytes (stretch % 2 ^ 20 + 2 ^ 20 * h.1 + 2 ^ 28 * h.2) 4

/-- The control core that issues commands to an engine's page (R380): the cluster's, the die manager, the router control
core of an I/O die, or a package-manager core. -/
def issuingCore (page : Nat) : Nat :=
  let d := pageDie page
  if isClusterPage page then pageNum d (pageCluster page) uCtrl
  else if d < 4 then diePage d 0
  else if 9 ≤ d ∧ d ≤ 13 then diePage d 3
  else pgPkgMgr

/-- Whether a control core's island is stopped (R390). -/
def State.coreHalted (s : State) (page : Nat) : Bool := (s.dbgOf page).halted || (s.dbgOf page).wantHalt

/-- Whether a core's arithmetic island is halted: its bit of ISL_HALT (R391). -/
def State.islHalted (s : State) (page : Nat) : Bool :=
  assignedType page = .core && (s.reg (issuingCore page) 0 R.DBG_ISL_HALT).testBit (pageUnit page)

/-- When a core was last assayed; the fettling pass counts as one (R327, R363). -/
def State.assayTime (s : State) (page : Nat) : Nat := max (s.core page).assayT s.boot.readyT

/-- A core that is assayed before it takes or goes on with work: overdue at a return to Ready or at its island's resume (R391, R406). -/
def State.assayFirst (s : State) (page : Nat) : Bool :=
  assignedType page = .core && ((s.core page).assayFirst || decide (s.assayTime page + 9000000000 < s.power.returnT))

/-- A halted die manager core stops the governor and the melt sheet of its die (R390). -/
def State.dieStopped (s : State) (d : Nat) : Bool := (List.range 4).any (fun i => s.coreHalted (diePage d i))

/-- A halted package-manager core stops contracts and firmware activation (R390). -/
def State.pkgStopped (s : State) : Bool := s.coreHalted pgPkgMgr || s.coreHalted (pgPkgMgr + 1)

/-- Nominal clock of a page's island in MHz (R16, R378). -/
def clockMHz (page : Nat) : Nat :=
  match assignedType page with
  | .core => 2700
  | .clusterCtrl | .dieMgr | .ioCtrl | .pkgMgr => 1500
  | .hbmCtrl | .time => 1000
  | _ => 1800

/-- Trace paths: bank by engine; 0 the start of a span of 10 µs, 8 and 16 the records begun in it and in the span before. -/
def pgFlight : Nat := 0x20005

/-- The span that now runs on an engine's trace path, and the records begun in it and in the one before: those are all that can still be in
flight, a record being written within 10 µs (R380, R385). -/
def State.flight (s : State) (engine : Nat) : Nat × Nat × Nat :=
  let t := s.reg pgFlight engine 0
  let n := s.reg pgFlight engine 8
  if s.timeNow < t + 10000 then (t, n, s.reg pgFlight engine 16)
  else if s.timeNow < t + 20000 then (s.timeNow, 0, n)
  else (s.timeNow, 0, 0)

/-- A record goes onto an engine's path. -/
def State.fly (s : State) (engine : Nat) : State :=
  let f := s.flight engine
  ((s.setReg pgFlight engine 0 f.1).setReg pgFlight engine 8 (f.2.1 + 1)).setReg pgFlight engine 16 f.2.2

/-- Stretched cycles of an engine's island over a span: what droop and the cap loop stretched is free within one in eight (R18, R407;
DESIGN CHOICE log 20). -/
def State.stretched (s : State) (page ns : Nat) : Nat := s.freeVal.toNat % (ns * clockMHz page / 8000 + 1)

/-- A command trace record of one engine (R380), and CNT_CMD and CNT_STRETCHED of its page (R378). TRACE_EN = 0 writes none, and a path with 256 records
in flight drops it (R385): whether that many still are is free where so many were begun. The issuing
core's program counter at the dispatch is free: what its firmware executes is not given (DESIGN CHOICE log 6). -/
def State.traceCmd (s : State) (p engine begin_ : Nat) (desc : BitVec 1024) (q code haltNs : Nat) : State :=
  let cc := issuingCore engine
  let n := s.stretched engine (s.timeNow - begin_)
  let pcLow := (Config.free (s.fresh + 1)).toNat % 4096
  let full := decide (256 ≤ (s.flight engine).2.1 + (s.flight engine).2.2) && (Config.free (s.fresh + 2)).getLsbD 0
  let s := ((s.bump engine 0 R.HDR_CNT_CMD 1).bump engine 0 R.HDR_CNT_STRETCHED n).freshen.freshen.freshen
  if s.fld engine 0 F.HDR_PAGE_CTRL_TRACE_EN = 0 || s.traceCap p false = 0 then s
  else if full then (s.bump cc 0 R.DBG_TRACE_DROPPED 1).raisePage cc 8
  else
    let s := s.fly engine
    let endv := if dOpcode desc = opTRACE_MARK then dField desc 0x58 64 else s.timeNow
    (s.tracePut p false (traceBytes begin_ endv (dTaskId desc) engine (dOpcode desc) code q
      pcLow (min 0xFFFFF n) haltNs)).bump cc 0 R.DBG_TRACE_RECORDS 1

/-- A GRANT record (R384): to the granted partition's buffer and partition 0's. -/
def State.traceGrant (s : State) (p q task cls g : Nat) (deficit : Int) (scrub kept : Bool) : State :=
  let b := traceBytes s.timeNow (BitVec.ofInt 64 deficit).toNat task pgAdmission 0xF0 cls q p
    (g % 256 + (if scrub then 256 else 0) + (if kept then 512 else 0)) 0
  let s := s.tracePut p false b
  if p = 0 then s else s.tracePut 0 false b

/-- A HALT record, written at the resume (R384). -/
def State.traceHalt (s : State) (p page begin_ pc cause bp : Nat) : State :=
  s.tracePut p false (traceBytes begin_ s.timeNow 0 page 0xF1 0 0 (bitsOf pc 13 2) (cause % 8 + 8 * (bp % 8)) 0)

/-- A TIME record in every partition's buffer (R384), of the time unit of IO0. -/
def State.traceTime (s : State) : State :=
  let pt := diePage 8 2
  let st := s.reg pt 0 R.TIME_TIME_STATUS
  let b := traceBytes s.timeNow (s.reg pt 0 R.TIME_TIME_OFFSET) 0 0 0xF2 0 0 0
    (bitsOf st 31 24 + 256 * bitsOf st 0 0 + 512 * bitsOf st 15 8) 0
  s.partNums.foldl (fun s p => s.tracePut p false b) s

end Sys2Proof.Machine
end

