-- ==== Sys2Proof/Machine/Router.lean ====
section
/-! DEFINITION. What sending needs of the links (R237, R241 to R250): flits and the replay buffer, control messages, output ports, routing and
injection of packets, and the cancelling of exchanges with other modules. Link n is LINK_k of die 8 + d with n = 16 × d + k. -/

namespace Sys2Proof.Machine

def pgColl (die : Nat) : Nat := diePage die 0
def pgRouter (die : Nat) : Nat := diePage die 1
def pgTime (die : Nat) : Nat := diePage die 2

def State.moduleId (s : State) : Nat := s.fld (pgRouter 8) 0 F.ROUTER_ROUTER_ID_MODULE_ID

/-! ### Link pages -/

def linkPage (n : Nat) : Nat := pageNum (8 + n / 16) 0 (n % 16)
def State.linkCount (s : State) : Nat := 16 * ioDies s.n8
def State.linkSt (s : State) (n : Nat) : Nat := s.fld (linkPage n) 0 F.LINK_LINK_STAT_STATE
def State.linkUp (s : State) (n : Nat) : Bool := decide (n < s.linkCount) && s.linkSt n = 5
def State.upLinks (s : State) : List Nat := (List.range s.linkCount).filter s.linkUp
def State.setLinkSt (s : State) (n v : Nat) : State :=
  ((s.setFld (linkPage n) 0 F.LINK_LINK_STAT_STATE v).progress (linkPage n) 0 1 0 v).updLink n (fun l => { l with phaseT := s.timeNow })

/-! ### CRC-32C (R241) -/

def crc32Bits : Nat → Nat → Nat
  | 0, c => c
  | k + 1, c => crc32Bits k (if c % 2 = 1 then c / 2 ^^^ 0x82F63B78 else c / 2)

def crc32c (l : List Byte) : Nat := (l.foldl (fun c b => crc32Bits 8 (c ^^^ b.toNat)) 0xFFFFFFFF) ^^^ 0xFFFFFFFF

/-! ### Flits (R241) -/

def flitBytes (f : Flit) : List Byte :=
  leBytes (f.ftype % 16 + 16 * (f.vc % 4) + (if f.sop then 64 else 0) + (if f.eop then 128 else 0)) 1 ++ leBytes f.len 1 ++
  leBytes (f.seq % 4096) 2 ++ leBytes (f.ack % 4096 + (if f.ackValid then 2 ^ 12 else 0) + (if f.nak then 2 ^ 13 else 0)) 2 ++
  leBytes f.credit.toNat 6 ++ (f.payload ++ List.replicate (240 - f.payload.length) 0).take 240

/-- Bytes of a packet: header and data (R250). -/
def packetBytes (pk : Packet) : List Byte :=
  leBytes (pk.destMod % 2 ^ 14) 2 ++ leBytes (pk.srcMod % 2 ^ 14) 2 ++ leBytes pk.destPart 1 ++ leBytes pk.kind 1 ++ leBytes pk.jobTag 2 ++
  leBytes pk.key.toNat 8 ++ leBytes pk.pos.toNat 8 ++ leBytes pk.verdict.toNat 4 ++ leBytes pk.aux.toNat 4 ++ pk.data

/-- Flits of a packet (R250). -/
def packetFlits (pk : Packet) : Nat := max 1 (ceilDiv (32 + pk.data.length) 240)

/-- Cumulative credits that a link's flits carry. -/
def LinkX.creditWord (l : LinkX) : BitVec 48 :=
  BitVec.ofNat 48 ((List.range 4).foldl (fun a i => a + l.freed.getD i 0 % 4096 * 2 ^ (12 * i)) 0)

/-- A flit with its acknowledgement fields and CRC. -/
def LinkX.mkFlit (l : LinkX) (ftype vc seq : Nat) (sop eop nak : Bool) (payload : List Byte) : Flit :=
  let f : Flit := { ftype := ftype, vc := vc, sop := sop, eop := eop, len := payload.length, seq := seq, ack := (l.rxSeq + 4095) % 4096,
                    ackValid := true, nak := nak, credit := l.creditWord, payload := payload, crc := 0, fecOk := true, symbols := [] }
  { f with crc := BitVec.ofNat 32 (crc32c (flitBytes f)) }

/-- A NULL flit that carries acknowledgement and credit (R241). -/
def State.sendNull (s : State) (n : Nat) (nak : Bool) : State :=
  { s with out := .flit n ((s.link n).mkFlit 0 0 0 false false nak []) :: s.out }

/-- Send one sequenced flit and keep it in the replay buffer (R242, R263). -/
def State.sendFlit (s : State) (n ftype vc : Nat) (sop eop : Bool) (payload : List Byte) (owner : Option (Nat × Nat)) : State :=
  let l := s.link n
  let f := l.mkFlit ftype vc l.txSeq sop eop false payload
  let s := s.setLink n { l with
    txSeq := (l.txSeq + 1) % 4096
    unacked := l.unacked ++ [{ flit := f, owner := owner }]
    sent := l.sent.set vc (l.sent.getD vc 0 + 1)
    winFlits := l.winFlits + 1
    usedT := s.timeNow }
  let s := { s with out := .flit n f :: s.out }
  let s := s.bump (linkPage n) 0 R.LINK_LINK_TX_FLITS 1
  if ftype = 1 then s.bump (linkPage n) 0 R.LINK_LINK_TX_BYTES payload.length else s

/-- Free credits of a VC: the peer has 64 buffers per VC (R241). -/
def LinkX.credits (l : LinkX) (vc : Nat) : Nat := 64 - (l.sent.getD vc 0 - l.credit.getD vc 0)

/-! ### Control messages (R243) -/

def mIDENT : Nat := 1
def mPROBE : Nat := 2
def mPROBE_RESP : Nat := 3
def mTIME_TREE : Nat := 4
def mNARROW : Nat := 5
def mHALT_NOTICE : Nat := 6

/-- The 32 bytes of a message. Only HALT_NOTICE's layout is given (R393); the others' fields lie at open places (DESIGN CHOICE log 50). -/
def msgBytes (k : Nat) (m : List Nat) : List Byte :=
  match m with
  | [6, mod, part, infra, seq, ttl] =>
    leBytes 6 1 ++ leBytes 0 1 ++ leBytes (mod % 2 ^ 14) 2 ++ leBytes part 1 ++ leBytes infra 1 ++ leBytes seq 2 ++ leBytes ttl 1 ++
      List.replicate 23 0
  | t :: _ => leBytes t 1 ++ freeBytes k 31
  | [] => []

/-- Send one waiting message in a CONTROL flit. Such flits wait for no credit and go on VC 3 (DESIGN CHOICE log 50). -/
def State.sendMsg (s : State) (n : Nat) (m : List Nat) : State :=
  let l := s.link n
  let body := msgBytes s.fresh m
  let s := { (s.setLink n { l with aliveTx := l.aliveTx + 1 }) with fresh := s.fresh + 31 }
  (s.sendFlit n 2 3 true true (leBytes (l.aliveTx % 65536) 2 ++ leBytes 1 1 ++ List.replicate 13 0 ++ body) none).emit .linkMsg (n :: m)

/-! ### Output ports -/

/-- Cut bytes into flit payloads. -/
def cut240 : Nat → List Byte → List (List Byte)
  | 0, _ => []
  | k + 1, l => if l.isEmpty then [] else l.take 240 :: cut240 k (l.drop 240)

/-- Send a packet's flits on a link. -/
def State.sendPacketOn (s : State) (n vc : Nat) (pk : Packet) (owner : Option (Nat × Nat)) : State :=
  let parts := cut240 32 (packetBytes pk)
  parts.zipIdx.foldl (fun s c => s.sendFlit n 1 vc (c.2 = 0) (c.2 + 1 = parts.length) c.1 owner) s

/-- Whether a port can take a packet now: credit for all its flits, and room in the replay buffer (DEDUCED log 53). -/
def State.portTakes (s : State) (n vc : Nat) (pk : Packet) : Bool :=
  let l := s.link n
  s.linkUp n && decide (packetFlits pk ≤ l.credits vc) && decide (l.unacked.length + packetFlits pk ≤ 1024)

/-- Send what waits for a link: control messages first, then held packets in order; `fuel` bounds them. -/
def State.pumpLink (s : State) (n : Nat) : Nat → State
  | 0 => s
  | fuel + 1 =>
    let l := s.link n
    if s.linkSt n ≠ 4 && s.linkSt n ≠ 5 then s
    else match l.ctrl with
      | m :: r => if l.unacked.length < 1024 then ((s.setLink n { l with ctrl := r }).sendMsg n m).pumpLink n fuel else s
      | [] =>
        match s.routed.find? (fun h => 16 * (h.die - 8) + h.port = n && s.portTakes n h.vc h.pk) with
        | none => s
        | some h => (({ s with routed := s.routed.erase h }).sendPacketOn n h.vc h.pk h.owner).pumpLink n fuel

def State.pump (s : State) (n : Nat) : State := s.pumpLink n ((s.link n).ctrl.length + s.routed.length + 1)

/-- Queue a link control message. -/
def State.ctrlMsg (s : State) (n : Nat) (m : List Nat) : State :=
  (s.updLink n (fun l => { l with ctrl := l.ctrl ++ [m] })).pump n

/-! ### Routing (R247, R248) -/

/-- A die's route entry: entry m is bank m of ROUTE_DATA. -/
def State.route (s : State) (die m : Nat) : Nat := s.reg (pgRouter die) m R.ROUTER_ROUTE_DATA
def routeValid (e : Nat) : Bool := e.testBit 6

/-- The port and VC that an entry gives a packet now. -/
def State.routePort (s : State) (die e : Nat) : Option (Nat × Nat) :=
  let a := bitsOf e 3 0
  let b := bitsOf e 11 8
  if !routeValid e then none
  else if s.linkUp (16 * (die - 8) + a) then some (a, bitsOf e 5 4)
  else if e.testBit 7 && s.linkUp (16 * (die - 8) + b) then some (b, bitsOf e 13 12)
  else none

/-- End-to-end control packets travel on VC 3 (R250). -/
def onVc3 (kind : Nat) : Bool := !(kind = 0x03 || kind = 0x11)

/-- Route a packet at a die: queued for its port and sent as credit allows, or dropped with NO_ROUTE (R247). -/
def State.routeAt (s : State) (die : Nat) (pk : Packet) (owner : Option (Nat × Nat)) : State :=
  match s.routePort die (s.route die pk.destMod) with
  | none => (s.bump (pgRouter die) 0 R.ROUTER_ROUTE_DROPS 1).notice (pgRouter die) caNO_ROUTE pk.destMod
  | some (k, vc) =>
    let h : RouteHold := { die := die, port := k, vc := if onVc3 pk.kind then 3 else vc, pk := pk, since := s.timeNow, stuck := false, owner := owner }
    ({ s with routed := s.routed ++ [h] }).pump (16 * (die - 8) + k)

/-- The I/O dies with a VALID entry for a module (R248). -/
def State.diesTo (s : State) (m : Nat) : List Nat :=
  ((List.range (ioDies s.n8)).map (· + 8)).filter (fun d => routeValid (s.route d m))

/-- Whether the module can be reached: it is this one, or some die routes to it. -/
def State.reaches (s : State) (m : Nat) : Bool := m = s.moduleId || !(s.diesTo m).isEmpty

/-- Send a packet that this module originates, number i of its command (R248): to itself it is delivered by its router (DEDUCED log 54). With no VALID entry
it is dropped at the first die. -/
def State.inject (s : State) (i : Nat) (pk : Packet) (owner : Option (Nat × Nat)) : State :=
  if s.dfOn then s
  else if pk.destMod = s.moduleId then s.emitPacket 8 pk
  else
    let ds := s.diesTo pk.destMod
    let d := ds.getD (i % max 1 ds.length) 8
    (s.emitPacket d pk).routeAt d pk owner

/-! ### Packets that this module originates (R249, R250) -/

def pkSEND_REQ : Nat := 0x01
def pkSEND_CLEAR : Nat := 0x02
def pkSEND_DATA : Nat := 0x03
def pkSEND_CANCEL : Nat := 0x04
def pkSEND_REJECT : Nat := 0x05
def pkSEND_BUSY : Nat := 0x06
def pkCOLL_READY : Nat := 0x10
def pkCOLL_DATA : Nat := 0x11
def pkCOLL_ACK : Nat := 0x12
def pkCOLL_SEAL : Nat := 0x13
def pkCOLL_CANCEL : Nat := 0x14

/-- A partition's JOB_TAG (R249; bank p of IO0's ROUTER page, DEDUCED log 30). -/
def State.jobTag (s : State) (p : Nat) : Nat := s.fld (pgRouter 8) p F.ROUTER_AUTH_TAG_JOB_TAG

/-- A packet without data from partition p. -/
def State.mkPacket (s : State) (p kind mod part key : Nat) : Packet :=
  { destMod := mod, srcMod := s.moduleId, destPart := part, kind := kind, jobTag := s.jobTag p, key := BitVec.ofNat 64 key, pos := 0, verdict := 0,
    aux := 0, len := 0, fmt := 0, data := [] }

/-- Originate packet number i of a command: LINK_BYTES counts its payload (R287). -/
def State.sendPk (s : State) (p i : Nat) (pk : Packet) (owner : Option (Nat × Nat)) : State :=
  (s.inject i pk owner).bump pgMeter p R.METER_LINK_BYTES (32 + pk.data.length)

/-! ### Neighbours in a collective (R257, R258) -/

def memMod (w : Nat) : Nat := bitsOf w 13 0
def memPart (w : Nat) : Nat := bitsOf w 23 16

/-- Distinct elements, in order of first appearance. -/
def dedup {α : Type} [DecidableEq α] : List α → List α
  | [] => []
  | x :: r => x :: (dedup r).filter (fun y => y ≠ x)

def treeParent (r : Nat) : Option Nat := if r = 0 then none else some ((r - 1) / 2)
def treeChildren (n r : Nat) : List Nat := [2 * r + 1, 2 * r + 2].filter (fun c => decide (c < n))

/-- Tree parent, tree children, ring predecessor and successor. -/
def CollX.neighbours (c : CollX) : List Nat :=
  let n := c.members.length
  (dedup ((treeParent c.me).toList ++ treeChildren n c.me ++ [(c.me + n - 1) % n, (c.me + 1) % n])).filter (· ≠ c.me)

def CollX.key (c : CollX) : Nat := c.group + 2 ^ 16 * (c.seq % 2 ^ 32)

/-- Send a packet of a collective to a member by rank. -/
def State.collTo (s : State) (c : CollX) (i rank : Nat) (f : Packet → Packet) (kind : Nat) : State :=
  let w := c.members.getD rank 0
  s.sendPk c.part i (f (s.mkPacket c.part kind (memMod w) (memPart w) c.key)) none

def State.collCancelAll (s : State) (c : CollX) : State :=
  c.neighbours.foldl (fun s r => s.collTo c 0 r id pkCOLL_CANCEL) s

/-- A command ends with an abort: its peers are told (R252, R258). -/
def State.cancelPeers (s : State) (q slot code : Nat) : State :=
  if code < 0x10 || code = 0x13 then s
  else
    let s := (s.xfers.filter (fun x => x.q = q && x.slot = slot && x.phase = 2)).foldl (fun s x =>
      s.sendPk x.part 0 (s.mkPacket x.part pkSEND_CANCEL x.mod x.peerPart x.handle) none) s
    (s.colls.filter (fun c => c.q = q && c.slot = slot && !c.closing)).foldl (fun s c => s.collCancelAll c) s

end Sys2Proof.Machine
end

