-- ==== Sys2Proof/Machine/QueueOps.lean ====
section
/-! DEFINITION. What queues, tasks and the pool share: admission and completion records (R196, R206), pool arbitration
(R277 to R281), the abort of a task (R208, R209), freezing (R283, R284, R286), the effects of errors (R313) and the release of
barriers (R199). -/

namespace Sys2Proof.Machine

/-! ### Queue registers -/

/-- A register of a queue's context (R212). -/
def State.qreg (s : State) (q off : Nat) : Nat := s.reg (queuePage q) 0 (queueOff q + off)
def State.setQreg (s : State) (q off v : Nat) : State := s.setReg (queuePage q) 0 (queueOff q + off) v

def State.qcfg (s : State) (q : Nat) : Nat := s.qreg q R.QCTX_QCFG
def State.qEnabled (s : State) (q : Nat) : Bool := (s.qcfg q).testBit 0
def State.qSize (s : State) (q : Nat) : Nat := 2 ^ bitsOf (s.qcfg q) 8 4
def State.qPrio (s : State) (q : Nat) : Nat := bitsOf (s.qcfg q) 10 9

/-- Raise a queue's MSI-X vector when QCFG.INT_EN is set (R212). -/
def State.qIrq (s : State) (q : Nat) : State :=
  if (s.qcfg q).testBit 22 then s.msix (s.queueOwner q) (bitsOf (s.qcfg q) 21 11) else s

/-- Count bytes moved for a partition: HBM_BYTES or HOST_BYTES (R287), by where the address lies. -/
def State.countBytes (s : State) (p addr n : Nat) : State :=
  s.meter p (if isHost addr then R.METER_HOST_BYTES else R.METER_HBM_BYTES) n

/-- Write a record of a queue's area and count its bytes. -/
def State.putRecord (s : State) (p addr : Nat) (l : List Byte) : State :=
  (s.wrBytes p addr l).countBytes p addr l.length

/-- An admission record (R196) of a submission slot. PHASE is 1 in the first pass over the array. -/
def State.admRecord (s : State) (q slot outcome reason detail pos time : Nat) : State :=
  let x := s.queue q
  let phase := if x.admPass % 2 = 0 then 1 else 0
  s.putRecord (s.queueOwner q) (s.qreg q R.QCTX_ADM_BASE + 16 * slot)
    (leBytes (phase + 2 * outcome + 256 * reason + 65536 * detail) 4 ++ leBytes pos 4 ++ leBytes time 8)

/-! ### Completion -/

/-- The 32 bytes of a completion record (R206). -/
def completionBytes (c : Cmd) (inPlace : Bool) (phase now : Nat) : List Byte :=
  let wait := match c.startT with
    | some t => t - c.admitT
    | none => now - c.admitT
  leBytes (c.code + 256 * c.cause + 65536 * dOpcode c.desc + (if inPlace then 2 ^ 24 else 0) +
    (if 1 < c.runs then 2 ^ 25 else 0) + 2 ^ 31 * phase) 4 ++
  leBytes (dTaskId c.desc) 4 ++ leBytes c.slot 2 ++ leBytes (min 65535 c.count) 2 ++
  leBytes (min 255 c.runs) 1 ++ leBytes 0 3 ++
  leBytes (if c.startT.isSome then c.pos else 0) 8 ++ leBytes wait 8

def findCmd (l : List Cmd) (slot : Nat) : Option Cmd := l.find? (fun c => c.slot = slot && !c.recorded)

/-- Replace the unrecorded command of a slot. -/
def setCmd (l : List Cmd) (c : Cmd) : List Cmd :=
  l.map (fun d => if d.slot = c.slot && !d.recorded then c else d)

def State.cmd? (s : State) (q slot : Nat) : Option Cmd := findCmd (s.queue q).cmds slot
def State.putCmd (s : State) (q : Nat) (c : Cmd) : State := s.updQueue q (fun x => { x with cmds := setCmd x.cmds c })

def findTask (l : List Task) (id : Nat) : Option Task := l.find? (fun t => t.id = id)
def setTask (l : List Task) (t : Task) : List Task := l.map (fun u => if u.id = t.id then t else u)
def State.putTask (s : State) (q : Nat) (t : Task) : State := s.updQueue q (fun x => { x with tasks := setTask x.tasks t })

/-- The trace records of a command that has just been given its completion record: one per engine, or one of its
QUEUE_CTX page where it never started (R380). -/
def State.traceDone (s : State) (q : Nat) (c : Cmd) : State :=
  match c.startT with
  | none => s.traceCmd c.part (queuePage q) s.timeNow c.desc q c.code 0
  | some t => (c.members.zip c.haltNs).foldl (fun s m => s.traceCmd c.part m.1 t c.desc q c.code m.2) s

/-- An engine that leaves its command is idle: a ladle holds no cluster SRAM (R181, R235, R350). -/
def State.idleEngine (s : State) (page : Nat) : State :=
  match assignedType page with
  | .ladle =>
    ((s.setFld page 0 F.LADLE_LADLE_STATE_STATE 0).setFld page 0 F.LADLE_LADLE_STATE_ATC_USED 0).setReg page 0 R.LADLE_LADLE_ALLOC 0
  | .temper => s.setReg page 0 R.TEMPER_TEMPER_STATE 0
  | .check => s.setReg page 0 R.CHECK_CHECK_STATE 0
  | _ => s

/-- A SNAPSHOT ends (R338, R343): its pause ends and counts; an aborted LOCAL_STAGE leaves the stage without an intact image. -/
def State.snapEnds (s : State) (c : Cmd) (code : Nat) : State :=
  let x := s.part c.part
  let ns := s.timeNow - c.startT.getD s.timeNow
  let s := s.updPart c.part (fun x => { x with
    paused := false
    snap := { x.snap with
      stageOk := x.snap.stageOk && !(decide (0x10 ≤ code) && dField c.desc 0x54 8 = 1)
      fetch := if dField c.desc 0x54 8 = 5 then none else x.snap.fetch
      pairCmd := if dField c.desc 0x54 8 = 4 then none else x.snap.pairCmd } })
  if x.paused then
    (s.bump pgSnapshot 0 R.SNAPSHOT_PAUSE_NS ns).setReg pgSnapshot c.part R.SNAPSHOT_SNAP_LAST_PAUSE_US (ns / 1000 % 2 ^ 32)
  else s

/-- Give a command its completion record with a status code and cause (R206, R207): the record is written, stream
claims are released (R77), its tiles, transfers and collectives end, NOTIFY interrupts, and it is traced. -/
def State.complete (s : State) (q slot code cause : Nat) : State :=
  match s.cmd? q slot with
  | none => s
  | some c0 =>
    let c := { c0 with code := code, cause := cause, recorded := true }
    let x := s.queue q
    let inPlace := match findTask x.tasks c.task with
      | some t => t.inPlace
      | none => false
    let phase := if x.cqPass % 2 = 0 then 1 else 0
    let s := s.putRecord c.part (s.qreg q R.QCTX_CQ_BASE + 32 * x.cqTail) (completionBytes c inPlace phase s.timeNow)
    let wrap := x.cqTail + 1 = s.qSize q
    let s := s.setQueue q { x with
      cmds := x.cmds.map (fun d => if d.slot = slot && !d.recorded then c else d)
      cqTail := if wrap then 0 else x.cqTail + 1
      cqPass := if wrap then x.cqPass + 1 else x.cqPass }
    let s := s.updPart c.part (fun p => { p with claims := p.claims.filter (fun k => !(k.q = q && k.slot = slot)) })
    let s := s.cancelPeers q slot code
    let s := { s with
      tiles := s.tiles.filter (fun t => !(t.q = q && t.slot = slot))
      xfers := s.xfers.filter (fun t => !(t.q = q && t.slot = slot))
      colls := s.colls.filter (fun t => !(t.q = q && t.slot = slot)) }
    let s := if dFlag c.desc flNOTIFY then s.qIrq q else s
    let s := if dOpcode c.desc = opSNAPSHOT && c.startT.isSome then s.snapEnds c code else s
    let idle := if c.startT.isSome then c.members
      else c.members.filter (fun m => assignedType m = .ladle && s.fld m 0 F.LADLE_LADLE_STATE_STATE = 7)
    let s := idle.foldl (fun s m => s.idleEngine m) s
    s.traceDone q c

/-! ### Unpredictable contents (R209) -/

/-- Fill a declared range with free bytes. -/
def State.havoc (s : State) (p : Nat) (r : Range) : State :=
  let n := r.hi + 1 - r.lo
  let a := if r.host then 2 ^ 63 + r.lo else r.lo
  { s.wrBytes p a (freeBytes s.fresh n) with fresh := s.fresh + n }

def State.havocAll (s : State) (p : Nat) : List Range → State
  | [] => s
  | r :: l => (s.havoc p r).havocAll p l

/-- The model's page for pending statistics records of melt sheet entries (R127): entry x is bank x. -/
def pgPending : Nat := 0x20001

/-- Discard an entry's pending statistics record, but for its DOT_FLAGS (R139, R209). -/
def State.dropPending (s : State) (x : Nat) : State :=
  let keep := rkey pgPending x R.ENT_FMT_STATE
  { s with regs := s.regs.filter (fun e =>
      !(rkey pgPending x 0 ≤ e.1 && e.1 < rkey pgPending x 4096 && e.1 ≠ keep)) }

/-! ### Pool arbitration (R277 to R281) -/

/-- All tasks of a partition's queues waiting for a pool cluster in a class, as (task ID, queue), oldest first. -/
def State.waitingIn (s : State) (p cls : Nat) : List (Nat × Nat) :=
  let all := s.queues.flatMap (fun e =>
    if s.queueOwner e.1 = p && !e.2.frozen then
      match e.2.tasks with
      | t :: _ => if t.pool && !t.served && !t.refused && !t.aborted && t.cls = cls then [(t.id, e.1)] else []
      | [] => []
    else [])
  sortOn (·.1) all

def State.poolHeld (s : State) (p : Nat) : Nat :=
  (s.poolClusters.filter (fun g => s.poolRunner g = some p)).length

def State.poolWeight (s : State) (p : Nat) : Nat := s.fld pgPartition p F.PARTITION_POOL_CFG_POOL_WEIGHT

/-- Over budget: POOL_USED_MS has reached a non-zero POOL_BUDGET_MS (R281). -/
def State.overBudget (s : State) (p : Nat) : Bool :=
  let b := s.reg pgPartition p R.PARTITION_POOL_BUDGET_MS
  b ≠ 0 && decide (b ≤ (s.part p).usedNs / 1000000)

/-- Eligible in class c (R278). A paused partition's tasks do not start (R338). -/
def State.eligible (s : State) (cls p : Nat) : Bool :=
  !(s.waitingIn p cls).isEmpty && s.poolWeight p ≠ 0 &&
    decide (s.poolHeld p < s.fld pgPartition p F.PARTITION_POOL_CFG_POOL_CAP) &&
    !s.overBudget p && !(s.part p).paused

def State.deficitOf (s : State) (p cls : Nat) : Int := (s.part p).deficit.getD cls 0
def State.setDeficit (s : State) (p cls : Nat) (v : Int) : State :=
  s.updPart p (fun x => { x with deficit := x.deficit.set cls v })

/-- Start a waiting task on a pool cluster: scrubbed where another partition's task ran there (R277, R384). -/
def State.poolStart (s : State) (p q tid g : Nat) (kept : Bool) : State :=
  let x := s.queue q
  match findTask x.tasks tid with
  | none => s
  | some t =>
    let scrub := (s.cluster g).prevPart ≠ some p
    let s := s.putTask q { t with served := true, cluster := some g, startT := s.timeNow, poolMark := s.timeNow }
    let s := s.updCluster g (fun c => { c with runQ := some q, prevPart := some p, marked := false })
    let s := if t.delayed then s.meter p R.METER_DELAYED_NS (s.timeNow - t.admitT) else s
    let s := if scrub then s.bump pgAdmission 0 R.ADMISSION_SCRUBS 1 else s
    let s := s.bump pgAdmission 0 R.ADMISSION_POOL_GRANTS 1
    let s := s.progress pgAdmission 0 1 10000 (s.reg pgAdmission 0 R.ADMISSION_POOL_GRANTS)
    let tid := match x.cmds.find? (fun c => c.task = t.id) with
      | some c => dTaskId c.desc
      | none => 0
    s.traceGrant p q tid t.cls g (s.deficitOf p t.cls) scrub kept

/-- Free pool clusters, lowest first. -/
def State.freePool (s : State) : List Nat :=
  s.poolClusters.filter (fun g => (s.cluster g).runQ.isNone && (s.cluster g).good ≠ 0 &&
    !(s.dbgOf (clusterPage g uCtrl)).frozen)

/-- The free cluster a partition's task starts on: the lowest whose previous task was the partition's, else the lowest
(R277). -/
def State.pickFree (s : State) (p : Nat) : Option Nat :=
  match s.freePool.find? (fun g => (s.cluster g).prevPart = some p) with
  | some g => some g
  | none => s.freePool.head?

/-- Next eligible partition from a cursor, ascending and wrapping over 256. -/
def State.ringNext (s : State) (cls cur : Nat) : Option Nat :=
  ((List.range 256).map (fun i => (cur + i) % 256)).find? (fun p => s.eligible cls p)

/-- Visits of one class until a deficit is positive (R278); each visit adds at least QUANTUM_NS, so `fuel` bounds them. -/
def State.poolVisit (s : State) (cls g : Nat) : Nat → State
  | 0 => s
  | fuel + 1 =>
    match s.ringNext cls (s.adm.cursors.getD cls 0) with
    | none => s
    | some p =>
      let s := { s with adm := { s.adm with cursors := s.adm.cursors.set cls ((p + 1) % 256) } }
      let d : Int := s.deficitOf p cls + Int.ofNat (s.reg pgPartition 0 R.PARTITION_QUANTUM_NS * s.poolWeight p)
      let s := s.setDeficit p cls d
      if 0 < d then
        match s.waitingIn p cls with
        | (tid, q) :: _ => s.poolStart p q tid ((s.pickFree p).getD g) false
        | [] => s
      else s.poolVisit cls g fuel

/-- Visits enough for the deepest debt: each round of 256 adds a quantum to every eligible partition. -/
def State.poolFuel (s : State) : Nat :=
  let low := s.parts.foldl (fun m e => e.2.deficit.foldl (fun m d => max m (0 - d).toNat) m) 0
  256 * (low / max 1 (s.reg pgPartition 0 R.PARTITION_QUANTUM_NS) + 2)

/-- Give a free cluster to the highest class with an eligible partition (R278). -/
def State.poolGrant (s : State) (g : Nat) : State :=
  match [3, 2, 1, 0].find? (fun c => (List.range 256).any (fun p => s.eligible c p)) with
  | some c => s.poolVisit c g s.poolFuel
  | none => s

/-- Charge a task's held time up to now: deficit, POOL_USED_MS and POOL_NS (R278, R281, R286). The part of the time before the
present budget window was charged when the window began. -/
def State.poolCharge (s : State) (p : Nat) (t : Task) : State :=
  let held := s.timeNow - t.startT
  let s := s.setDeficit p t.cls (s.deficitOf p t.cls - (held : Int))
  let s := s.updPart p (fun x => { x with usedNs := x.usedNs + (s.timeNow - t.poolMark) })
  let s := s.setReg pgPartition p R.PARTITION_POOL_USED_MS ((s.part p).usedNs / 1000000)
  let s := s.meter p R.METER_POOL_NS held
  let h := (held :: s.adm.held).take 256
  let s := { s with adm := { s.adm with held := h } }
  s.setReg pgPartition 0 R.PARTITION_T_AVG_NS (if h.length < 256 then 1000000 else h.sum / h.length)

/-- `pool_decide` after a task released cluster g (R278): its partition keeps the cluster while its deficit is positive,
unless the cluster was marked; else the cluster is granted by visits. -/
def State.poolEnded (s : State) (p : Nat) (t : Task) (g : Nat) (keepAllowed : Bool) : State :=
  let marked := (s.cluster g).marked
  let s := s.poolCharge p t
  let s := s.updCluster g (fun c => { c with runQ := none, marked := false })
  let d := s.deficitOf p t.cls
  match s.waitingIn p t.cls with
  | (tid, q) :: _ =>
    if 0 < d && !marked && keepAllowed && s.eligible t.cls p then s.poolStart p q tid g true else s.poolGrant g
  | [] => (if 0 < d then s.setDeficit p t.cls 0 else s).poolGrant g

/-- A pool task has started waiting: grant while a cluster is free (R277). -/
def State.poolArrived (s : State) (p : Nat) : State :=
  match s.pickFree p with
  | some g => s.poolGrant g
  | none => s

/-- Mark one busy pool cluster for a waiting class-3 task (R279): the one running the lowest class, among equals the one
whose task started last; never one running class 3, nor more clusters than class-3 tasks wait. -/
def State.poolMark (s : State) : State :=
  let waiting := (s.waitingIn 0 3).length
  let busy := s.poolClusters.filterMap (fun g => match (s.cluster g).runQ with
    | some q => ((s.queue q).tasks.find? (fun t => t.cluster = some g)).map (fun t => (g, t))
    | none => none)
  let marked := (busy.filter (fun b => (s.cluster b.1).marked)).length
  let cands := busy.filter (fun b => b.2.cls < 3 && !(s.cluster b.1).marked)
  let best := cands.foldl (fun (o : Option (Nat × Task)) b => match o with
    | none => some b
    | some a => if b.2.cls < a.2.cls || (b.2.cls = a.2.cls && a.2.startT < b.2.startT) then some b else some a) none
  if s.freePool.isEmpty && s.eligible 3 0 && decide (marked < waiting) then
    match best with
    | some (g, _) => s.updCluster g (fun c => { c with marked := true })
    | none => s
  else s

/-- Release the pool cluster that a task holds, if any. -/
def State.releaseCluster (s : State) (q : Nat) (t : Task) (keep : Bool) : State :=
  match t.cluster with
  | some g => (s.putTask q { t with cluster := none }).poolEnded (s.queueOwner q) t g keep
  | none => s

/-! ### Aborting a task (R208, R209) -/

/-- The command that carries a cause belonging to the task (R208): the oldest started one without a record, else the
oldest admitted one. -/
def faultSlot (cmds : List Cmd) (tid : Nat) : Option Nat :=
  match cmds.find? (fun c => c.task = tid && !c.recorded && c.startT.isSome) with
  | some c => some c.slot
  | none => (cmds.find? (fun c => c.task = tid && !c.recorded)).map (·.slot)

/-- The ranges that an abort leaves unpredictable (R209): outputs of every command that had started and written. -/
def spoiled (cmds : List Cmd) (tid : Nat) : List Range :=
  (cmds.filter (fun c => c.task = tid && c.startT.isSome && c.wrote)).flatMap (fun c => c.outs ++ c.inpl)

/-- Global melt sheet entries whose pending records a task's commands feed. -/
def State.taskEntries (s : State) (cmds : List Cmd) (tid : Nat) : List Nat :=
  (cmds.filter (fun c => c.task = tid && c.startT.isSome)).filterMap (fun c => s.globalMelt c.part (dMeltOut c.desc))

def State.completeAll (s : State) (q code cause : Nat) : List Nat → State
  | [] => s
  | n :: r => (s.complete q n code cause).completeAll q code cause r

/-- Take back the arrivals of some slots of a queue: an aborted task's closing barrier has not arrived (R208). -/
def State.withdraw (s : State) (q : Nat) (slots : List Nat) : State :=
  let keep := fun (a : Arrival) => !(a.q = q && !a.aborted && slots.contains a.slot)
  let bars := s.bars.map (fun b => { b with arrivals := b.arrivals.filter keep, later := b.later.filter keep })
  { s with bars := bars.filter (fun b => !(b.arrivals.isEmpty && b.later.isEmpty)) }

/-- End every unrecorded command of a task: the faulting one with its code, the others with `other` (R208). -/
def State.endTaskCmds (s : State) (q tid : Nat) (fault : Option Nat) (code cause other : Nat) : State :=
  let cmds := (s.queue q).cmds
  let spoil := spoiled cmds tid
  let ents := s.taskEntries cmds tid
  let rest := (cmds.filter (fun c => c.task = tid && !c.recorded && some c.slot ≠ fault)).map (·.slot)
  let part := s.queueOwner q
  let s := s.withdraw q ((cmds.filter (fun c => c.task = tid && closesTask (dOpcode c.desc))).map (·.slot))
  let s := match fault with
    | some n => s.complete q n code cause
    | none => s
  let s := s.completeAll q other 0 rest
  let s := ents.foldl (fun s x => s.dropPending x) s
  s.havocAll part spoil

/-- Abort a task (R208): its commands end, and its queue pauses. -/
def State.abortTask (s : State) (q tid : Nat) (fault : Option Nat) (code cause : Nat) : State :=
  match findTask (s.queue q).tasks tid with
  | none => s
  | some t =>
    if t.aborted || t.refused then s
    else
      let s := s.endTaskCmds q tid fault code cause 0x12
      let s := s.putTask q { t with aborted := true, lastProg := s.timeNow }
      let s := s.updQueue q (fun x => { x with state := 3 })
      let s := s.bump (queuePage q) 0 R.QUEUE_CTX_ABORTED_TASKS 1
      s.qIrq q

/-- Abort a task for a cause of the whole task (R208). -/
def State.abortWhole (s : State) (q tid cause : Nat) : State :=
  s.abortTask q tid (faultSlot (s.queue q).cmds tid) 0x10 cause

/-- Abort the task of one faulting command (R208). -/
def State.abortCmd (s : State) (q slot code cause : Nat) : State :=
  match s.cmd? q slot with
  | some c => s.abortTask q c.task (some slot) code cause
  | none => s

/-! ### Freezing (R283 to R286) -/

/-- Freeze a queue: every unrecorded command ends with ABORT_FROZEN, its pool cluster is released, and QSTATUS.FROZEN reads
1 (R284, R286). -/
def State.freezeQueue (s : State) (q : Nat) (byPf : Bool) : State :=
  let x := s.queue q
  if x.frozen then s
  else
    let s := x.tasks.foldl (fun s t => s.endTaskCmds q t.id none 0x11 0 0x11) s
    let s := s.updQueue q (fun x => { x with
      frozen := true
      pfFrozen := byPf
      tasks := x.tasks.map (fun t => { t with aborted := t.aborted || x.cmds.any (fun c => c.task = t.id && c.code = 0x11) }) })
    let s := (s.queue q).tasks.foldl (fun s t => s.releaseCluster q t false) s
    let s := s.bump pgPartition 0 R.PARTITION_FREEZES 1
    s.raisePage (queuePage q) 5

/-- Master kinds of R290: queue, host function, control core. -/
inductive Master where
  | queue (q : Nat)
  | host (fn : Nat)
  | core (page : Nat)
  deriving DecidableEq, Repr

/-- Number of a control core in MASTER (R290): cluster control cores by global cluster index, then the others by die. The
spec gives no numbering (DEDUCED log 21). -/
def coreIndex (page : Nat) : Nat :=
  if isClusterPage page then globalCluster page else 160 + 8 * pageDie page + pageUnit page % 8

def Master.kind : Master → Nat
  | .queue _ => 0 | .host _ => 1 | .core _ => 2

def Master.num : Master → Nat
  | .queue q => q | .host f => f | .core p => coreIndex p

/-- The page of a frozen master, where PAGE_ERR.FREEZE is set (R283): a host function's is its partition's group page. -/
def Master.page : Master → Nat
  | .queue q => queuePage q | .host _ => pgPackage | .core p => p

/-- Freeze a control core: the commands it was distributing end with ABORT_FROZEN (R284). -/
def State.freezeCore (s : State) (page : Nat) : State :=
  if (s.dbgOf page).frozen then s
  else
    let hit := s.queues.flatMap (fun e =>
      (e.2.cmds.filter (fun c => !c.recorded && c.startT.isSome && c.members.any (fun m => issuingCore m = page))).map
        (fun c => (e.1, c.slot)))
    let s := hit.foldl (fun s h => s.complete h.1 h.2 0x11 0) s
    let s := s.updDbg page (fun d => { d with frozen := true })
    let s := s.setFld page 0 F.DBG_DBG_STATUS_STATE 3
    (s.bump pgPartition 0 R.PARTITION_FREEZES 1).raisePage page 5

/-- Freeze a master (R284). -/
def State.freeze (s : State) (m : Master) : State :=
  match m with
  | .queue q => s.freezeQueue q false
  | .host f =>
    if (s.part f).hostFrozen then s
    else ((s.updPart f (fun x => { x with hostFrozen := true })).bump pgPartition 0 R.PARTITION_FREEZES 1).raiseBank
      pgPackage f f 5
  | .core p => s.freezeCore p

/-- A violation (R283): the record goes to the package ring, VIOL_LAST and the VIOLATIONS meter of the partition are
updated, and the master is frozen. `where_` is the value of VIOL_LAST.WHERE. -/
def State.violation (s : State) (p kind : Nat) (m : Master) (where_ : Nat) : State :=
  let src : ErrSrc := { page := m.page, key := 0, part := p, infra := false, pkg := true }
  let s := s.logErr src caVIOLATION (kind + 16 * m.kind + 64 * m.num + 2 ^ 32 * where_)
  let s := s.setReg pgPartition p R.PARTITION_VIOL_LAST (kind + 16 * m.kind + 64 * m.num + 2 ^ 32 * where_)
  let s := s.meter p R.METER_VIOLATIONS 1
  s.freeze m

/-- A command's access at run time to HBM outside its partition's reservation (R283 kind 2). -/
def State.outside (s : State) (q p a : Nat) : State := s.violation p 2 (.queue q) (a / seg256M)

/-! ### Effects of errors (R313) -/

/-- Every queue of a partition that has any state. -/
def State.queuesOf (s : State) (p : Nat) : List Nat := (s.queues.map (·.1)).filter (fun q => s.queueOwner q = p)

/-- Queue pairs that a partition holds (R267). -/
def State.queuesHeld (s : State) (p : Nat) : Nat :=
  if p = 0 then 65536 - ((s.partNums.filter (· ≠ 0)).map (fun t => (s.queueRange t).2)).sum else (s.queueRange p).2

/-- Queue pairs of a partition that nothing has used yet: they freeze with the others (R313). -/
def State.otherQueues (s : State) (p : Nat) : Nat := s.queuesHeld p - (s.queuesOf p).length

/-- FREEZES counts the queues that nothing has used yet. -/
def State.countFreezes (s : State) (ps : List Nat) : State :=
  s.bump pgPartition 0 R.PARTITION_FREEZES ((ps.filter (fun p => !(s.part p).pfFrozen)).map s.otherQueues).sum

/-- A partition-fatal error: its queues freeze and its job runner stops with CAUSE = 3 (R313). -/
def State.pfFreeze (s : State) (p : Nat) : State :=
  let s := if s.dfOn then s else s.countFreezes [p]
  let s := (s.queuesOf p).foldl (fun s q => s.freezeQueue q true) s
  let s := s.updPart p (fun x => { x with pfFrozen := true, jr := { x.jr with phase := 0, todo := [] } })
  let st := s.fld pgJobRunner p F.JOB_RUNNER_JR_STATUS_STATE
  if st = 0 then s
  else (s.setFld pgJobRunner p F.JOB_RUNNER_JR_STATUS_STATE 4).setFld pgJobRunner p F.JOB_RUNNER_JR_STATUS_CAUSE 3

/-- A device-fatal error: every queue of every partition is frozen (R313). -/
def State.dfFreeze (s : State) : State := (s.queues.map (·.1)).foldl (fun s q => s.freezeQueue q false) s

/-- One error with its effects (R313): at UC-C the affected task aborts with the cause given; at PF the partition freezes; at DF
everything does. A repeat has no effect beyond its count. -/
def State.raiseErr (s : State) (e : ErrSrc) (cause detail : Nat) (hit : Option (Nat × Nat)) (abortCause : Nat) : State :=
  match s.errActs e cause with
  | none => s.logErr e cause detail
  | some sev =>
    let s := if sev = sevDF && !s.dfOn then s.countFreezes s.partNums else s
    let s := s.logErr e cause detail
    if sev = sevDF then s.dfFreeze
    else if sev = sevPF then s.pfFreeze e.part
    else if sev = sevUCC then
      match hit with
      | some (q, slot) => s.abortCmd q slot 0x10 abortCause
      | none => s
    else s

/-! ### Tasks end; barriers release (R199) -/

/-- The task at the head of a queue is complete: SQ_HEAD advances past its slots and TASKS counts it (R186, R287). -/
def State.taskDone (s : State) (q tid next : Nat) : State :=
  let p := s.queueOwner q
  let s := s.updQueue q (fun x =>
    let ts := x.tasks.filter (fun t => t.id ≠ tid)
    { x with
      tasks := ts
      cmds := x.cmds.filter (fun c => c.task ≠ tid)
      sqHead := next
      restarts := 0
      state := if x.state = 3 then 3 else if ts.isEmpty then 1 else 2 })
  s.meter p R.METER_TASKS 1

/-- Arrivals needed for a release: the count of the first arrival that is not aborted, else of the first (R199). -/
def Bar.needed (b : Bar) : Nat :=
  match b.arrivals.find? (fun a => !a.aborted) with
  | some a => a.count
  | none => match b.arrivals with
    | a :: _ => a.count
    | [] => 1

def State.bar? (s : State) (p id : Nat) : Option Bar := s.bars.find? (fun b => b.part = p && b.id = id)

def State.setBar (s : State) (b : Bar) : State :=
  { s with bars := (s.bars.filter (fun c => !(c.part = b.part && c.id = b.id))) ++ (if b.arrivals.isEmpty then [] else [b]) }

/-- The BARRIER page of a partition's queues: its lowest owned cluster's; the pool cluster's for a pool task (R213 names
no other rule; DEDUCED log 22). -/
def State.barrierPage (s : State) (p : Nat) (t : Option Task) : Nat :=
  match t.bind (·.cluster) with
  | some g => clusterPage g uBarrier
  | none => clusterPage ((s.clustersOf p).headD 0) uBarrier

/-- Add an arrival to a barrier (R199): a second arrival of one queue waits for the next release. -/
def State.arrive (s : State) (p id : Nat) (a : Arrival) (page : Nat) : State :=
  let b : Bar := (s.bar? p id).getD { part := p, id := id, first := s.timeNow, last := s.timeNow, arrivals := [], later := [] }
  let b := if b.arrivals.any (fun c => c.q = a.q) then { b with later := b.later ++ [a] }
    else { b with arrivals := b.arrivals ++ [a], last := s.timeNow }
  let s := s.setBar b
  s.setReg page 0 R.BARRIER_BAR_STATE (id % 65536 + 65536 * (b.arrivals.length % 65536))

/-- Whether a barrier has all the arrivals it needs. -/
def Bar.full (b : Bar) : Bool := !b.arrivals.isEmpty && decide (b.needed ≤ b.arrivals.length)

end Sys2Proof.Machine
end

