-- ==== Sys2Proof/Machine/MeltOps.lean ====
section
/-! DEFINITION. Melt sheet entries (R128 to R136, R142, R146, R157): roles, the format ladder, the format and tensor scale of an
instance. Entry x is bank x of the model's entry page. -/

namespace Sys2Proof.Machine

def State.entReg (s : State) (x off : Nat) : Nat := s.reg pgEntry x off
def State.entFld (s : State) (x : Nat) (f : Fld) : Nat := s.fld pgEntry x f
def State.setEnt (s : State) (x off v : Nat) : State := s.setReg pgEntry x off v
def State.setEntFld (s : State) (x : Nat) (f : Fld) (v : Nat) : State := s.setFld pgEntry x f v

/-- Roles of R130. -/
def roACT : Nat := 1
def roWEIGHT : Nat := 2
def roOUT : Nat := 3
def roACT_GRAD : Nat := 4
def roW_GRAD : Nat := 5
def isGrad (role : Nat) : Bool := role = roACT_GRAD || role = roW_GRAD
def isLaddered (role : Nat) : Bool := role = roACT || role = roWEIGHT || role = roOUT

def State.entRole (s : State) (x : Nat) : Nat := s.entFld x F.ENT_ENT_CTRL_ROLE
def State.entPin (s : State) (x : Nat) : Nat := s.entFld x F.ENT_ENT_CTRL_PIN_FMT

/-- A precision code as a format: reference writes FP32 (R132). -/
def pinFmt (c : Nat) : Nat := if c = 0xF then fmtFP32 else c

/-- The format of a rung of a ladder with the given ENT_CTRL (R142). -/
def rungFmt (ctrl r : Nat) : Nat :=
  match r with
  | 0 => if ctrl.testBit 11 then fmtIB4 else fmtFB4
  | 1 => if ctrl.testBit 12 then fmtFB8E5 else fmtFB8E4
  | 2 => fmtBF16
  | _ => fmtFP32

def ctrlFloor (ctrl : Nat) : Nat := bitsOf ctrl 14 13
def ctrlTop (ctrl : Nat) : Nat := bitsOf ctrl 16 15

/-- The rung of a format; off the ladder the lowest rung with at least as many element bits, brought into FLOOR to TOP
(R142). -/
def rungOf (ctrl f : Nat) : Nat :=
  match [0, 1, 2, 3].find? (fun r => rungFmt ctrl r = f) with
  | some r => r
  | none =>
    let r := if f = fmtFP32 then 3 else if f = fmtFP16 || f = fmtBF16 then 2
      else if f = fmtINT8 || f = fmtFP8E4 || f = fmtFP8E5 || f = fmtFB8E4 || f = fmtFB8E5 then 1 else 0
    min (ctrlTop ctrl) (max (ctrlFloor ctrl) r)

/-- Widenings of an entry this step that apply to micro-batch b: valid MB fields at or below b (R132). -/
def State.widenings (s : State) (x b : Nat) : Nat :=
  let w := s.entReg x R.ENT_WIDEN_AT
  ((List.range (bitsOf w 25 24)).filter (fun i => bitsOf w (8 * i + 7) (8 * i) ≤ b)).length

/-- The format of the instance of micro-batch b (R132). -/
def State.instFmt (s : State) (x b : Nat) : Nat :=
  let f := s.entFld x F.ENT_FMT_STATE_STEP_FMT
  let k := s.widenings x b
  if isGrad (s.entRole x) then fmtG16
  else if k = 0 then f
  else
    let c := s.entReg x R.ENT_ENT_CTRL
    rungFmt c (min 3 (rungOf c f + k))

/-- Precision codes: LN-20 codes translated, with conversion SR for 0x8C and 0x8D (R147). -/
def precCode (c : Nat) : Nat :=
  match c with
  | 0x80 => 0x01 | 0x81 => 0x02 | 0x82 => 0x03 | 0x83 => 0x04 | 0x84 => 0x05 | 0x85 => 0x0A | 0x86 => 0x07
  | 0x87 => 0x08 | 0x88 => 0x09 | 0x89 => 0x00 | 0x8A => 0x0F | 0x8B => 0x06 | 0x8C => 0x04 | 0x8D => 0x03
  | 0x8E => 0x0A | 0x8F => 0x00
  | c => c

def precSR (c : Nat) : Bool := c = 0x8C || c = 0x8D

/-- Whether a command's narrowing conversions are stochastic by its descriptor (R190, R191). -/
def dCvtSr (d : BitVec 1024) : Bool := dFlag d flCVT_SR || precSR (dPrecision d)

/-- Reference mode by the precision field or the output entry's pin (R146, R149). -/
def State.isRef (s : State) (d : BitVec 1024) (out : Option Nat) : Bool :=
  let c := precCode (dPrecision d)
  if c = 0x0F then true
  else match out with
    | some x => c = 0 && s.entPin x = 0xF && !isGrad (s.entRole x)
    | none => false

/-- The format in which a command writes its output (R146, R156, R429). -/
def State.outFmt (s : State) (d : BitVec 1024) (out : Option Nat) (tdFmt : Nat) : Nat :=
  let c := precCode (dPrecision d)
  if c = 0x0F then fmtFP32
  else match out with
    | some x =>
      if s.entRole x = 0 then (if c = 0 then tdFmt else c)
      else if isGrad (s.entRole x) then fmtG16
      else if c ≠ 0 then c
      else if s.entPin x ≠ 0 then pinFmt (s.entPin x)
      else s.instFmt x (dMb d)
    | none => if c = 0 then tdFmt else c

/-- Every format an instance can take in the step (R429). -/
def State.fmtsOf (s : State) (x : Nat) : List Nat :=
  let c := s.entReg x R.ENT_ENT_CTRL
  if isGrad (s.entRole x) then [fmtG16]
  else if s.entPin x ≠ 0 then [pinFmt (s.entPin x)]
  else ((List.range 4).filter (fun r => ctrlFloor c ≤ r && r ≤ ctrlTop c)).map (rungFmt c)

/-- Tensor scale with which an operand is read: TSCALE_RD for WEIGHT, else TSCALE (R429). TSCALE_RD of a WEIGHT entry that nothing
has set reads 1.0, as TSCALE does (DESIGN CHOICE log 25). -/
def State.readScale (s : State) (x : Nat) : Nat :=
  if s.entRole x = roWEIGHT then
    (let v := s.entReg x R.ENT_RISER_PEAK; if v = 0 then 0x3F800000 else v)
  else s.entReg x R.ENT_TSCALE

/-- The melt sheet entry a descriptor's index names; none for 0xFFFF. -/
def State.entryOf (s : State) (p i : Nat) : Option Nat :=
  if i = 0xFFFF then none
  else match s.globalMelt p i with
    | some x => if s.entRole x = 0 then none else some x
    | none => none

/-- Tensor scale of an operand slot: its entry's, or 1.0 (R80, R429). -/
def State.slotScale (s : State) (ent : Option Nat) (f : Nat) : Q :=
  if fmtScaled f then
    match ent with
    | some x => f32Q (s.readScale x)
    | none => Q.one
  else Q.one

/-- Tensor scale of an output: TSCALE of its entry, or 1.0 (R429). -/
def State.outScale (s : State) (ent : Option Nat) (f : Nat) : Q :=
  if fmtScaled f then
    match ent with
    | some x => f32Q (s.entReg x R.ENT_TSCALE)
    | none => Q.one
  else Q.one

/-- Effective riser capacity of an instance of n elements (R134), 0 while the riser is off. -/
def State.riserCap (s : State) (x n : Nat) : Nat :=
  if s.entRole x ≠ roACT || (s.entReg x R.ENT_WIDEN_AT).testBit 30 then 0
  else min (s.entReg x R.ENT_RISER_CAP) (n / 64)

/-- Address of an instance's riser area (R136). -/
def State.riserAddr (s : State) (x b : Nat) : Nat :=
  s.entReg x R.ENT_RISER_BASE + b * (s.entReg x R.ENT_RISER_CAP + 1) * 8

/-- Whether an output's K-chunk accumulation is stochastic (R148). -/
def State.accSr (s : State) (ent : Option Nat) (k : Nat) : Bool :=
  let m := match ent with
    | some x => s.entFld x F.ENT_ENT_CTRL_ACC_MODE
    | none => 0
  m = 2 || (m = 0 && decide (8192 ≤ k))

/-- Ingot side of a format in the array (R84); 0 where it has no shape. -/
def ingotSide (f : Nat) : Nat :=
  if f = fmtBF16 || f = fmtINT8 then 2 else if f = fmtFP16 || f = fmtG16 then 3 else if f = fmtFP32 then 6
  else if f = fmtIB2 || f = fmtIB1 || f = fmtFP64 then 0 else 1

end Sys2Proof.Machine
end

