-- ==== Sys2Proof/Machine/Stage.lean ====
section
/-! DEFINITION. Staged fields and their boundaries (R41 to R49): which shadows a boundary applies, what applying an entry's or a
core's settings does, a page changing hands, and a spare core taking over. -/

namespace Sys2Proof.Machine

def keyPage (k : Nat) : Nat := k / 4096 / 131072
def keyBank (k : Nat) : Nat := k / 4096 % 131072
def keyOff (k : Nat) : Nat := k % 4096

/-- The boundary kind of a register's staged fields: all staged fields of one register share it (R42). Offsets of a melt sheet entry
that only gradient roles use are step-kind as the others. -/
def regKind (page off : Nat) : Option Kind :=
  if page = pgEntry then some .step
  else match regDesc? (assignedType page) off with
    | some r => (r.fields.find? (fun f => match f.acc with | .rws _ => true | _ => false)).bind
        (fun f => match f.acc with | .rws k => some k | _ => none)
    | none => none

/-- The bits of a register that a boundary copies. -/
def stagedMask (page off : Nat) : Nat :=
  if page = pgEntry then 2 ^ 64 - 1
  else match regDesc? (assignedType page) off with
    | some r => r.mask (fun a => match a with | .rws _ => true | _ => false)
    | none => 0

/-- The partition a staged value belongs to (R42): an entry's owner, a bank's partition, or the page's owner; an idle pool cluster's
pages belong to partition 0 (R47; DEDUCED log 26). -/
def State.keyPart (s : State) (k : Nat) : Nat :=
  let page := keyPage k
  if page = pgEntry then s.meltOwner (keyBank k)
  else if isClusterPage page then s.pagePart page
  else keyBank k

/-- The page and bank whose STAGE_CTRL and STAGE_EPOCH show a staged value (R42, R154). -/
def State.epochOf (s : State) (k : Nat) : Nat × Nat :=
  if keyPage k = pgEntry then (shardPage (keyBank k), s.meltOwner (keyBank k)) else (keyPage k, keyBank k)

/-- Applied value with the staged bits of a shadow. -/
def mergeStaged (mask old new : Nat) : Nat := (old - (old &&& mask)) + (new &&& mask)

/-- The shape that a core's array runs in: 6 × 6 in reference mode, else INGOT (R102). -/
def cfgShape (cfg : Nat) : Nat := if cfg.testBit 11 then 3 else cfg % 4

/-- Apply one shadow. An applied shape change of a core advances its epoch and counts in RESHAPES (R97, R100). -/
def State.applyKey (s : State) (k v : Nat) : State :=
  let page := keyPage k
  let old := s.reg page (keyBank k) (keyOff k)
  let new := mergeStaged (stagedMask page (keyOff k)) old v
  if assignedType page = .core && keyOff k = R.CORE_ARRAY_CFG && cfgShape old ≠ cfgShape new then
    (s.setReg page 0 R.CORE_ARRAY_CFG (putBits new 3 2 (bitsOf old 3 2 + 1))).bump page 0 R.CORE_RESHAPES 1
  else if assignedType page = .temper && keyOff k = R.TEMPER_OPT_CFG && new.testBit 3 then
    ((s.setReg page 0 R.TEMPER_OPT_CFG (putBits new 3 3 0)).setReg page 0 R.TEMPER_B1POW 0x3F800000).setReg page 0
      R.TEMPER_B2POW 0x3F800000
  else s.setReg page (keyBank k) (keyOff k) new

/-- Remove a page's bank's registers in an offset range, so that they read their reset values. -/
def State.clearRegs (s : State) (page bank lo hi : Nat) : State :=
  { s with regs := s.regs.filter (fun e => !(rkey page bank lo ≤ e.1 && e.1 ≤ rkey page bank hi)) }

/-- The model's page for run lengths that SILENT saturates (R165): entry x is bank x, zero run at 0, flush run at 8. -/
def pgSilent : Nat := 0x20002

/-- Whether an offset of an entry is a configuration field under a role (R129, R157). -/
def entCfgOff (grad : Bool) (off : Nat) : Bool :=
  off = 0x00 || off = 0x04 || off = 0x68 || off = 0x6C || off = 0x08 || off = 0x18 ||
    (if grad then off = 0x14 else off = 0x0C || off = 0x20)

/-- Reset every RO field of an entry, for a change of ROLE (R133). -/
def State.resetEntRo (s : State) (x : Nat) (grad : Bool) : State :=
  { s with regs := s.regs.filter (fun e =>
      !(rkey pgEntry x 0 ≤ e.1 && e.1 < rkey pgEntry x 4096 && !entCfgOff grad (keyOff e.1)) &&
      !(rkey pgSilent x 0 ≤ e.1 && e.1 < rkey pgSilent x 4096)) }

/-- Set FMT, NEXT_FMT and STEP_FMT of an entry at once. -/
def State.setEntFmts (s : State) (x f : Nat) : State :=
  ((s.setEntFld x F.ENT_FMT_STATE_FMT f).setEntFld x F.ENT_FMT_STATE_NEXT_FMT f).setEntFld x F.ENT_FMT_STATE_STEP_FMT f

/-- Starting format of an entry whose ROLE changed (R133, R157). -/
def startFmt (role ctrl : Nat) : Nat :=
  if isGrad role then fmtG16
  else if bitsOf ctrl 7 4 ≠ 0 then pinFmt (bitsOf ctrl 7 4)
  else if bitsOf ctrl 20 17 ≠ 0 then bitsOf ctrl 20 17
  else rungFmt ctrl (ctrlTop ctrl)

/-- A format takes force at once: FMT and STEP_FMT of an ACT or OUT entry, NEXT_FMT of a WEIGHT entry (R143 item 3). -/
def State.forceFmt (s : State) (x role f : Nat) : State :=
  if role = roWEIGHT then s.setEntFld x F.ENT_FMT_STATE_NEXT_FMT f else s.setEntFmts x f

/-- Apply the staged writes of one entry (R129, R133, R143 item 3). -/
def State.applyEntry (s : State) (x : Nat) (sh : Store W64) : State :=
  let oldCtrl := s.entReg x R.ENT_ENT_CTRL
  let newCtrl := match sget sh (rkey pgEntry x R.ENT_ENT_CTRL) with
    | some v => v.toNat
    | none => oldCtrl
  let oldRole := oldCtrl % 16
  let role := newCtrl % 16
  let grad := isGrad role
  let s := if isGrad oldRole ≠ grad then
      let s := s.clearRegs pgEntry x 0x08 0x23
      if grad then (s.setEnt x 0x08 0).setEnt x 0x14 0x20 else s
    else s
  let s := if oldRole ≠ role then s.resetEntRo x grad else s
  let s := sh.foldl (fun s e => s.setReg pgEntry x (keyOff e.1) e.2.toNat) s
  let ovr := bitsOf newCtrl 20 17
  let pin := bitsOf newCtrl 7 4
  let s := if oldRole ≠ role then
      let s := s.setEntFmts x (if role = 0 then fmtFP32 else startFmt role newCtrl)
      if role = roWEIGHT then s.setEnt x R.ENT_RISER_PEAK (s.entReg x R.ENT_TSCALE) else s
    else if isLaddered role && bitsOf oldCtrl 7 4 = 0 && pin ≠ 0 then s.forceFmt x role (pinFmt pin)
    else if isLaddered role && pin = 0 && ovr ≠ 0 then s.forceFmt x role ovr
    else s
  s.setEntFld x F.ENT_ENT_CTRL_NEXT_OVR 0

/-- The shadows that a boundary of a kind applies: those of that kind whose key satisfies `sel`. Contract fields are applied by
their own rule (R270). -/
def State.dueShadows (s : State) (k : Kind) (sel : Nat → Bool) : Store W64 :=
  s.shadows.filter (fun e => regKind (keyPage e.1) (keyOff e.1) = some k && keyPage e.1 ≠ pgPartition && sel e.1)

/-- A boundary of one kind: every due shadow is copied to the applied values in one step, and APPLIED counts on each page that
applied one (R41, R45). -/
def State.applyKind (s : State) (k : Kind) (sel : Nat → Bool) : State :=
  let due := s.dueShadows k sel
  let ents := dedup ((due.filter (fun e => keyPage e.1 = pgEntry)).map (fun e => keyBank e.1))
  let pages := dedup (due.map (fun e => s.epochOf e.1))
  let s := { s with shadows := s.shadows.filter (fun e => !due.any (fun d => d.1 = e.1)) }
  let s := (due.filter (fun e => keyPage e.1 ≠ pgEntry)).foldl (fun s e => s.applyKey e.1 e.2.toNat) s
  let s := ents.foldl (fun s x => s.applyEntry x (due.filter (fun e => keyPage e.1 = pgEntry && keyBank e.1 = x))) s
  pages.foldl (fun s g => s.setFld g.1 g.2 F.HDR_STAGE_EPOCH_APPLIED (s.fld g.1 g.2 F.HDR_STAGE_EPOCH_APPLIED + 1)) s

/-- A boundary of a kind that reaches every page of a partition (R42). -/
def State.applyPart (s : State) (k : Kind) (p : Nat) : State := s.applyKind k (fun key => s.keyPart key = p)

/-- The array pass boundary of one core (R42). -/
def State.applyPass (s : State) (page : Nat) : State := s.applyKind .pass (fun key => keyPage key = page)

/-- A boundary of a kind on the pages of one cluster (R47). -/
def State.applyCluster (s : State) (k : Kind) (g : Nat) : State :=
  s.applyKind k (fun key => isClusterPage (keyPage key) && globalCluster (keyPage key) = g)

/-! ### Pages changing hands (R48) -/

/-- Bits of a register that survive when its page changes hands: all but RW, RWS and RWL fields. -/
def keepMask (page off : Nat) : Nat :=
  match regDesc? (assignedType page) off with
  | some r => r.mask (fun a => match a with | .ro => true | .rw1c => true | .wo => true | _ => false)
  | none => 0

/-- Reset what software has set on pages: shadows are discarded, with STAGE_LOST where any was pending, and RW, RWS and RWL fields
return to their reset values (R48). -/
def State.resetPages (s : State) (sel : Nat → Bool) : State :=
  let lost := dedup ((s.shadows.filter (fun e => sel (keyPage e.1))).map (fun e => keyPage e.1))
  let s := { s with
    shadows := s.shadows.filter (fun e => !sel (keyPage e.1))
    regs := s.regs.map (fun e =>
      if sel (keyPage e.1) then
        (e.1, BitVec.ofNat 64 (mergeStaged (keepMask (keyPage e.1) (keyOff e.1))
          (regReset (keyPage e.1) (keyBank e.1) (keyOff e.1)) e.2.toNat))
      else e) }
  lost.foldl (fun s page => s.raisePage page 2) s

/-- A cluster changes hands (R48, R271, R395): its pages are reset, its SRAM zeroed, its halts released and breakpoints
disarmed, with a HALT record to the old owner. -/
def State.clusterChanges (s : State) (g oldPart : Nat) : State :=
  let cc := clusterPage g uCtrl
  let d := s.dbgOf cc
  let s := if d.halted || d.wantHalt then
      s.traceHalt oldPart cc (s.reg cc 0 R.DBG_HALT_BEGIN) (s.reg cc 0 R.DBG_DBG_PC) (s.fld cc 0 F.DBG_DBG_STATUS_CAUSE)
        (s.fld cc 0 F.DBG_DBG_STATUS_BP)
    else s
  let s := s.updDbg cc (fun d => { d with halted := false, wantHalt := false, stepping := false })
  let s := if d.halted || d.wantHalt then s.setFld cc 0 F.DBG_DBG_STATUS_STATE 0 else s
  let s := s.setFld cc 0 F.DBG_DBG_STATUS_ISL 0
  let s := s.resetPages (fun page => isClusterPage page && globalCluster page = g)
  let s := s.updCluster g (fun c => { c with prevPart := none })
  { s with tiles := s.tiles.filter (fun t => globalCluster t.page ≠ g || !isClusterPage t.page) }

/-- Queue pairs that change hands: their contexts are reset (R48, R271). -/
def State.queuesChange (s : State) (sel : Nat → Bool) : State :=
  let pages := (List.range 1024).map (fun i => pageNum 15 (i / 128) (i % 128))
  let hit := pages.filter (fun page => sel (firstQueue page))
  let s := s.resetPages (fun page => hit.contains page)
  { s with queues := s.queues.filter (fun e => !sel e.1) }

/-- Melt sheet entries that change hands return to ROLE = 0 with every field at its reset value (R271). -/
def State.meltChange (s : State) (sel : Nat → Bool) : State :=
  let hit := fun (k : Nat) => (keyPage k = pgEntry || keyPage k = pgPending || keyPage k = pgSilent) && sel (keyBank k)
  { s with regs := s.regs.filter (fun e => !hit e.1), shadows := s.shadows.filter (fun e => !hit e.1) }

/-! ### Spare cores (R49, R329, R330) -/

/-- Replace the fenced cores of a cluster at a boundary: the spare takes the logical number with its settings and
counters; without a spare the number becomes absent. -/
def State.replaceFenced (s : State) (g : Nat) : State :=
  ((List.range 64).filter (fun u => (s.core (clusterPage g u)).fenced)).foldl (fun s u =>
    let page := clusterPage g u
    if (s.cluster g).spare = 1 then
      let s := s.updCluster g (fun c => { c with spare := 2 })
      let s := s.updCore page (fun c => { CoreX.init with tileSeq := c.tileSeq, assayT := s.timeNow })
      s.notice page caCORE_REPLACED 0
    else
      let s := s.updCore page (fun c => { c with fenced := false, absent := true })
      let s := s.updCluster g (fun c => { c with good := c.good - 1 })
      s.notice page caNO_SPARE 0) s

end Sys2Proof.Machine
end

