-- ==== Sys2Proof/Machine/VecArith.lean ====
section
/-! DEFINITION. The vector unit's arithmetic (R69, R78, R79, R173): IEEE 754-2019 operations on FP32 and FP64 codes with their exception
flags, and the four operations that are no IEEE operations, within 2 ulp (DEDUCED log 7). -/

namespace Sys2Proof.Machine

/-! ### Flags of VEC_FLAGS (R79) -/

def vfINVALID : Nat := 1
def vfDIVZERO : Nat := 2
def vfOVERFLOW : Nat := 4
def vfUNDERFLOW : Nat := 8
def vfINEXACT : Nat := 16

/-- A result code and the flags it signals. -/
abbrev VRes := Nat × Nat

/-- The result of an overflow in a rounding attribute. -/
def FFmt.overflow (f : FFmt) (m : Rnd) (neg : Bool) : Nat :=
  match m with
  | .rup => if neg then f.maxBits true else f.infBits false
  | .rdown => if neg then f.infBits true else f.maxBits false
  | .rzero => f.maxBits neg
  | _ => f.infBits neg

/-- Round an exact value as IEEE 754 does: subnormals in full; tiny as R68 defines it. -/
def FFmt.ieee (f : FFmt) (m : Rnd) (q : Q) : VRes :=
  if q.num = 0 then (f.pack { neg := q.neg, sig := 0, unit := 0, inexact := false }, 0)
  else
    let r := q.round f.prec f.emin true m
    let b := (q.round f.prec f.emin false m).q.abs
    if f.emax.lt b then (f.overflow m q.neg, vfOVERFLOW + vfINEXACT)
    else (f.pack r, (if r.inexact && b.lt (Q.dyadic false 1 f.emin) then vfUNDERFLOW else 0) + (if r.inexact then vfINEXACT else 0))

def FFmt.isNan (f : FFmt) (b : Nat) : Bool := (f.decode b).isNan

/-- The first NaN operand made quiet, with INVALID when some operand is a signalling NaN; none without a NaN operand (R78). -/
def FFmt.nanOf (f : FFmt) (ops : List Nat) : Option VRes :=
  (ops.find? f.isNan).map (fun b => (b ||| 2 ^ (f.mb - 1),
    if ops.any (fun c => f.isNan c && !c.testBit (f.mb - 1)) then vfINVALID else 0))

def FFmt.zeroBits (f : FFmt) (neg : Bool) : Nat := if neg then 2 ^ (f.eb + f.mb) else 0

/-- Whether the rounding attribute gives an exact zero sum of unlike signs the negative sign. -/
def Rnd.zeroNeg : Rnd → Bool
  | .rdown => true
  | _ => false

/-- Sum of two non-NaN values. -/
def FFmt.addV (f : FFmt) (m : Rnd) (a b : Val) : VRes :=
  match a, b with
  | .nan, _ => (f.nan, 0)
  | _, .nan => (f.nan, 0)
  | .inf n, .inf k => if n = k then (f.infBits n, 0) else (f.nan, vfINVALID)
  | .inf n, .fin _ => (f.infBits n, 0)
  | .fin _, .inf n => (f.infBits n, 0)
  | .fin p, .fin q =>
    let t := p.add q
    if t.num = 0 then (f.zeroBits (if p.neg = q.neg then p.neg else m.zeroNeg), 0) else f.ieee m t

/-- Exact product of two non-NaN values; none for infinity times zero. -/
def mulV (a b : Val) : Option Val :=
  match a, b with
  | .nan, _ => some .nan
  | _, .nan => some .nan
  | .inf n, .inf k => some (.inf (xor n k))
  | .inf n, .fin q => if q.num = 0 then none else some (.inf (xor n q.neg))
  | .fin q, .inf n => if q.num = 0 then none else some (.inf (xor n q.neg))
  | .fin p, .fin q => some (.fin (p.mul q))

def FFmt.ofVal (f : FFmt) (m : Rnd) (v : Val) : VRes :=
  match v with
  | .nan => (f.nan, 0)
  | .inf n => (f.infBits n, 0)
  | .fin q => f.ieee m q

/-- An operation on operands of which none is a NaN; NaN operands follow R78. -/
def FFmt.op (f : FFmt) (ops : List Nat) (k : VRes) : VRes := (f.nanOf ops).getD k

def FFmt.add (f : FFmt) (m : Rnd) (a b : Nat) : VRes := f.op [a, b] (f.addV m (f.decode a) (f.decode b))

/-- The code with its sign turned. -/
def FFmt.flip (f : FFmt) (b : Nat) : Nat := b ^^^ 2 ^ (f.eb + f.mb)

def FFmt.sub (f : FFmt) (m : Rnd) (a b : Nat) : VRes := f.op [a, b] (f.addV m (f.decode a) (f.decode (f.flip b)))

def FFmt.mul (f : FFmt) (m : Rnd) (a b : Nat) : VRes :=
  f.op [a, b] (match mulV (f.decode a) (f.decode b) with
    | none => (f.nan, vfINVALID)
    | some v => f.ofVal m v)

def FFmt.divV (f : FFmt) (m : Rnd) (a b : Val) : VRes :=
  match a, b with
  | .inf _, .inf _ => (f.nan, vfINVALID)
  | .inf n, .fin q => (f.infBits (xor n q.neg), 0)
  | .fin p, .inf n => (f.zeroBits (xor p.neg n), 0)
  | .fin p, .fin q =>
    if q.num = 0 then (if p.num = 0 then (f.nan, vfINVALID) else (f.infBits (xor p.neg q.neg), vfDIVZERO))
    else f.ieee m (p.div q)
  | _, _ => (f.nan, 0)

def FFmt.div (f : FFmt) (m : Rnd) (a b : Nat) : VRes := f.op [a, b] (f.divV m (f.decode a) (f.decode b))

/-- fusedMultiplyAdd a × b + c, rounded once. -/
def FFmt.fma (f : FFmt) (m : Rnd) (a b c : Nat) : VRes :=
  f.op [a, b, c] (match mulV (f.decode a) (f.decode b) with
    | none => (f.nan, vfINVALID)
    | some v => f.addV m v (f.decode c))

/-- minimum and maximum: −0 lies below +0. -/
def FFmt.below (f : FFmt) (a b : Nat) : Bool :=
  match f.decode a, f.decode b with
  | .inf n, .inf k => n && !k
  | .inf n, _ => n
  | _, .inf k => !k
  | .fin p, .fin q => if p.num = 0 && q.num = 0 then p.neg && !q.neg else p.lt q
  | _, _ => false

def FFmt.min (f : FFmt) (a b : Nat) : VRes := f.op [a, b] (if f.below b a then b else a, 0)
def FFmt.max (f : FFmt) (a b : Nat) : VRes := f.op [a, b] (if f.below a b then b else a, 0)

/-- Integer square root of `n`, its bits below bit k still to be found. -/
def isqrtFrom (n : Nat) : Nat → Nat → Nat
  | 0, r => r
  | k + 1, r => isqrtFrom n k (if (r + 2 ^ k) * (r + 2 ^ k) ≤ n then r + 2 ^ k else r)

def isqrt (n : Nat) : Nat := isqrtFrom n (Nat.log2 n / 2 + 1) 0

/-- A positive dyadic value's square root to 65 bits or more, its last bit set when inexact. -/
def Q.sqrt (q : Q) : Q :=
  let t : Nat := if q.exp % 2 = 0 then 130 else 131
  let n := q.num * 2 ^ t
  let r := isqrt n
  Q.dyadic false (2 * r + (if r * r = n then 0 else 1)) ((q.exp - Int.ofNat t) / 2 - 1)

def FFmt.sqrt (f : FFmt) (m : Rnd) (a : Nat) : VRes :=
  f.op [a] (match f.decode a with
    | .inf n => if n then (f.nan, vfINVALID) else (f.infBits false, 0)
    | .fin q => if q.num = 0 then (a, 0) else if q.neg then (f.nan, vfINVALID) else f.ieee m q.sqrt
    | .nan => (f.nan, 0))

/-! ### exp, log, tanh and reciprocal square root: fixed point with 200 fraction bits -/

def fxOne : Int := 2 ^ 200

def Q.fx (q : Q) : Int :=
  let f := q.inUnits (-200)
  let m : Int := Int.ofNat (f.1 / f.2)
  if q.neg then -m else m

def ofFx (i : Int) : Q := Q.dyadic (decide (i < 0)) i.natAbs (-200)

/-- ln 2. -/
def fxLn2 : Int := (List.range 210).foldl (fun a k => a + fxOne / (Int.ofNat (k + 1) * 2 ^ (k + 1))) 0

/-- Sum of a Taylor series of exp. -/
def expSeries (r : Int) : Nat → Nat → Int → Int → Int
  | 0, _, _, acc => acc
  | fuel + 1, n, term, acc =>
    let t := term * r / fxOne / Int.ofNat n
    expSeries r fuel (n + 1) t (acc + t)

/-- exp of a value of magnitude below 2^20. -/
def Q.expo (q : Q) : Q :=
  let x := q.fx
  let k := x / fxLn2
  let m := expSeries (x - k * fxLn2) 70 1 fxOne fxOne
  Q.dyadic false m.natAbs (k - 200)

/-- Odd powers of z divided by their exponents: half of the logarithm of (1 + z) / (1 - z). -/
def atanhSeries (z2 : Int) : Nat → Nat → Int → Int → Int
  | 0, _, _, acc => acc
  | fuel + 1, n, pow, acc => atanhSeries z2 fuel (n + 2) (pow * z2 / fxOne) (acc + pow / Int.ofNat n)

/-- Natural logarithm of a positive value. -/
def Q.ln (q : Q) : Q :=
  let e := q.log2
  let m := (Q.fx { q with exp := q.exp - e })
  let big := decide (fxOne * 3 / 2 < m)
  let m := if big then m / 2 else m
  let e := if big then e + 1 else e
  let z := (m - fxOne) * fxOne / (m + fxOne)
  ofFx (2 * atanhSeries (z * z / fxOne) 64 1 z 0 + e * fxLn2)

/-- Hyperbolic tangent of a non-zero value. -/
def Q.tanh (q : Q) : Q :=
  let a := q.abs
  let v := if a.lt (Q.dyadic false 1 (-40)) then a.mul (Q.one.sub ((a.mul a).div (Q.ofNat 3)))
    else if (Q.ofNat 64).lt a then Q.one.sub (Q.dyadic false 1 (-150))
    else
      let t := (a.mul (Q.ofNat 2)).expo
      (t.sub Q.one).div (t.add Q.one)
  { v with neg := q.neg }

/-- Reciprocal square root of a positive value. -/
def Q.rsqrt (q : Q) : Q :=
  let t : Nat := 2 * (130 + Nat.log2 q.num)
  let x : Nat := if q.exp % 2 = 0 then 0 else 1
  let n := 2 ^ (t + x) / q.num
  Q.dyadic false (isqrt n) (-((q.exp + Int.ofNat t + Int.ofNat x) / 2))

/-- A result within 2 ulp: the correctly rounded code moved by -2 to +2 (R78; DEDUCED log 7). -/
def FFmt.near (f : FFmt) (op a : Nat) (q : Q) : Nat :=
  let c := (f.ieee .rne q).1
  let sgn := f.zeroBits (c.testBit (f.eb + f.mb))
  let o := (Config.ulpOff op (BitVec.ofNat 64 a)).val
  sgn + Nat.min (f.infBits false) ((c - sgn) + o - 2)

/-- The four non-IEEE operations: 0 exp, 1 log, 2 tanh, 3 rsqrt. `none` where the spec states no result (DESIGN CHOICE log 36): the logarithm and
the reciprocal square root of zero and of negative values. The limits at infinity are taken (DESIGN CHOICE log 36). -/
def FFmt.nonIeee (f : FFmt) (op a : Nat) : Option VRes :=
  match f.nanOf [a] with
  | some r => some (r.1, 0)
  | none =>
    match f.decode a with
    | .nan => none
    | .inf n =>
      if op = 0 then some (if n then 0 else f.infBits false, 0)
      else if op = 2 then some ((f.ieee .rne { Q.one with neg := n }).1, 0)
      else if n then none
      else some (if op = 1 then f.infBits false else 0, 0)
    | .fin q =>
      if op = 0 then
        if q.abs.lt (Q.ofNat 4096) then some (f.near 0 a (if q.num = 0 then Q.one else q.expo), 0)
        else some (if q.neg then f.near 0 a (Q.dyadic false 1 (-4096)) else f.infBits false, 0)
      else if op = 2 then some (if q.num = 0 then a else f.near 2 a q.tanh, 0)
      else if q.num = 0 || q.neg then none
      else some (f.near op a (if op = 1 then q.ln else q.rsqrt), 0)

/-! ### Operands and results of the vector unit (R173) -/

/-- A NaN code of one float format in another: sign and leading payload bits. -/
def nanTo (g f : FFmt) (b : Nat) : Nat :=
  let pay := b % 2 ^ g.mb
  let pay := if g.mb ≤ f.mb then pay * 2 ^ (f.mb - g.mb) else pay / 2 ^ (g.mb - f.mb)
  f.infBits (b.testBit (g.eb + g.mb)) + (if pay = 0 then 2 ^ (f.mb - 1) else pay)

/-- The exact value of an element without flushing (R69), its block scale applied. -/
def rawVal (c b sc : Nat) : Val :=
  match fmtFloat c with
  | none => (scaledVal c b sc).1
  | some g =>
    if fmtBlock c then (scaledVal c b sc).1
    else if c = fmtG16 then
      match g16Code sc with
      | none => .nan
      | some s => (g.decode b).mulQ (Q.dyadic false 1 s)
    else g.decode b

/-- An input element decoded to the unit's width, with at most one rounding (R173). -/
def vecIn (f : FFmt) (c b sc : Nat) (t : Q) : VRes :=
  match fmtFloat c with
  | some g =>
    if !fmtPlane c && g.isNan b then (nanTo g f b, 0)
    else f.ofVal .rne ((rawVal c b sc).mulQ t)
  | none => f.ofVal .rne ((rawVal c b sc).mulQ t)

/-- The rounding attributes of VMODE (R78, R194). -/
def vmodeRnd (v : Nat) : Rnd :=
  match v / 2 % 8 with
  | 0 => .rne | 1 => .rna | 2 => .rup | 3 => .rdown | _ => .rzero

/-- Remove the element at a position. -/
def takeAt {α : Type} : List α → Nat → Option (α × List α)
  | [], _ => none
  | x :: r, 0 => some (x, r)
  | x :: r, n + 1 => (takeAt r n).map (fun p => (p.1, x :: p.2))

/-- Add the elements of a list in the order that `pick` chooses: every order and grouping is possible (DESIGN CHOICE log 37). -/
def sumBy (f : FFmt) (m : Rnd) (pick : Nat → Nat) : Nat → Nat → List Nat → Nat → VRes
  | 0, _, l, fl => (l.headD 0, fl)
  | fuel + 1, k, l, fl =>
    match takeAt l (pick k % l.length) with
    | none => (0, fl)
    | some (x, r) =>
      match takeAt r (pick (k + 1) % r.length) with
      | none => (x, fl)
      | some (y, r) =>
        let v := f.add m x y
        sumBy f m pick fuel (k + 2) (v.1 :: r) (fl ||| v.2)

end Sys2Proof.Machine
end

