-- ==== Sys2Proof/Machine/Govern.lean ====
section
/-! DEFINITION. The governor of the melt sheet (R129, R142 to R145), silent layers (R163) and numeric events (R165). -/

namespace Sys2Proof.Machine

/-- The entries of a partition in use: ROLE ≠ 0. -/
def State.entriesOf (s : State) (p : Nat) : List Nat :=
  (s.regs.filter (fun e => keyPage e.1 = pgEntry && keyOff e.1 = R.ENT_ENT_CTRL && e.2.toNat % 16 ≠ 0 &&
    s.meltOwner (keyBank e.1) = p)).map (fun e => keyBank e.1)

/-- Clear an entry's current-step fields (R129, R157). -/
def State.clearCurrent (s : State) (x : Nat) : State :=
  let role := s.entRole x
  let s := if role = roWEIGHT || isGrad role then s else s.setEnt x R.ENT_RISER_PEAK 0
  let s := [R.ENT_AMAX_CUR, R.ENT_BODY_CUR, R.ENT_NONZERO_BLK, R.ENT_ZERO_BLK, R.ENT_FLUSH_BLK, R.ENT_SAT_BLK,
    R.ENT_NONFIN_BLK, R.ENT_RISER_OVF, R.ENT_CLAMPED].foldl (fun s o => s.setEnt x o 0) s
  let s := (s.setEntFld x F.ENT_RERUN_STEP 0).setEntFld x F.ENT_FMT_STATE_DOT_FLAGS 0
  if isGrad role then s.setEnt x R.ENT_G16_SUM 0 else s.setEnt x R.ENT_WIDEN_AT 0

/-- A finite FP32 code rounded to BF16 toward +∞ (R72, R143): above the largest BF16 value this is +∞. -/
def bf16Up (b : Nat) : Nat := (fBF16.ieee .rup (f32Q b)).1

/-- 2^⌈log2 h⌉ as FP32, clamped to 2^-126..2^127 (R134). -/
def pow2Ceil (h : Q) : Nat :=
  let l := h.log2
  let c := if h.le (Q.dyadic false 1 l) then l else l + 1
  (max 1 (min 254 (c + 127))).toNat * 2 ^ 23

/-- A history value; +∞ counts as 2^128, which the clamp of R134 brings down. -/
def histQ (b : Nat) : Q :=
  match fBF16.decode b with
  | .inf _ => Q.dyadic false 1 128
  | v => v.q

/-- The largest of an entry's history. -/
def State.histMax (s : State) (x : Nat) : Q :=
  maxAbs ((List.range 8).map (fun i => histQ (s.entReg x (R.ENT_HIST_0 + 2 * i))))

/-- Roll the history: HIST_0 takes BODY_CUR rounded up (R143). -/
def State.rollHist (s : State) (x : Nat) : State :=
  let old := (List.range 7).map (fun i => s.entReg x (R.ENT_HIST_0 + 2 * i))
  let new := bf16Up (s.entReg x R.ENT_BODY_CUR) :: old
  new.zipIdx.foldl (fun s (v, i) => s.setEnt x (R.ENT_HIST_0 + 2 * i) v) s

/-- Elements of the latest instance written to an entry (the effective capacity that the governor tests, R134; DEDUCED log 27). -/
def State.instElems (s : State) (x : Nat) : Nat := s.reg pgSilent x 0x10
def State.setInstElems (s : State) (x n : Nat) : State := s.setReg pgSilent x 0x10 n

/-- What the governor decides of a laddered entry from its statistics: rung of the format written, whether it widens, whether the
step is clean, the rung chosen (R143). -/
structure Decision where
  rung : Nat
  widened : Bool
  clean : Bool
  up : Nat
  deriving DecidableEq, Repr

def State.rungDecision (s : State) (x : Nat) (choose : Bool) : Decision :=
  let ctrl := s.entReg x R.ENT_ENT_CTRL
  let weight := s.entRole x = roWEIGHT
  let written := if weight then s.entFld x F.ENT_FMT_STATE_NEXT_FMT else s.entFld x F.ENT_FMT_STATE_FMT
  let r := rungOf ctrl written
  let rerunUp := choose && !weight && decide (rungOf ctrl (s.entFld x F.ENT_FMT_STATE_STEP_FMT) < r)
  let flushy := decide (s.entReg x R.ENT_NONZERO_BLK <
    s.entReg x R.ENT_FLUSH_BLK * 2 ^ s.entFld x F.ENT_ENT_RULES_FLUSH_SHIFT)
  let cap := s.riserCap x (s.instElems x)
  let clean := s.entFld x F.ENT_RERUN_STEP = 0 && s.entReg x R.ENT_SAT_BLK = 0 && s.entReg x R.ENT_NONFIN_BLK = 0 &&
    s.entReg x R.ENT_RISER_OVF = 0 && !flushy &&
    (cap = 0 || decide (s.entReg x R.ENT_RISER_PEAK * 16 < s.entFld x F.ENT_ENT_RULES_RISER_Q * cap))
  let up := choose && flushy && decide (r < ctrlTop ctrl)
  { rung := r, widened := rerunUp || up, clean := clean, up := if up then r + 1 else r }

/-- Counters of a laddered entry: HOLD before and CLEAN after, and the rung in which the next step starts (R143). -/
def State.narrowTo (s : State) (x : Nat) (choose : Bool) (d : Decision) (hold : Nat) : Nat × Nat × Nat :=
  let hold := if d.widened then s.entFld x F.ENT_ENT_RULES_HOLD_STEPS else hold
  let clean := if d.clean && !d.widened then min 65535 (s.entFld x F.ENT_HYST_CLEAN + 1) else 0
  let v := s.entFld x F.ENT_ENT_RULES_NARROW_V
  if choose && !d.widened && v ≠ 0 && hold = 0 && decide (16 * v ≤ clean) &&
      decide (ctrlFloor (s.entReg x R.ENT_ENT_CTRL) < d.up) then (hold, 0, d.up - 1)
  else (hold, clean, d.up)

/-- The governor's decision on a laddered entry (R143): hysteresis, and the formats unless a skipped step kept them. -/
def State.governLadder (s : State) (x : Nat) (kept : Bool) (hold : Nat) : State :=
  let ctrl := s.entReg x R.ENT_ENT_CTRL
  let weight := s.entRole x = roWEIGHT
  let choose := s.entPin x = 0 && !kept
  let written := if weight then s.entFld x F.ENT_FMT_STATE_NEXT_FMT else s.entFld x F.ENT_FMT_STATE_FMT
  let d := s.rungDecision x choose
  let n := s.narrowTo x choose d hold
  let next := if s.entPin x ≠ 0 then pinFmt (s.entPin x) else rungFmt ctrl n.2.2
  let s := (s.setEntFld x F.ENT_HYST_HOLD n.1).setEntFld x F.ENT_HYST_CLEAN n.2.1
  let s := if d.rung < d.up then s.bump (shardPage x) 0 R.MELT_SHARD_SHARD_WIDENS 1 else s
  let s := if n.2.2 < d.up then s.bump (shardPage x) 0 R.MELT_SHARD_SHARD_NARROWS 1 else s
  let s := if kept then s
    else if weight then
      ((s.setEnt x R.ENT_RISER_PEAK (s.entReg x R.ENT_TSCALE)).setEntFld x F.ENT_FMT_STATE_FMT written).setEntFld x
        F.ENT_FMT_STATE_NEXT_FMT next
    else (s.setEntFld x F.ENT_FMT_STATE_FMT next).setEntFld x F.ENT_FMT_STATE_NEXT_FMT next
  s.setEntFld x F.ENT_FMT_STATE_STEP_FMT (s.entFld x F.ENT_FMT_STATE_FMT)

/-- The governor on one entry (R143). -/
def State.govern (s : State) (x : Nat) (aborted skipped : Bool) : State :=
  if aborted then s.clearCurrent x
  else
    let role := s.entRole x
    let kept := role = roWEIGHT && skipped
    let s := s.rollHist x
    let hold := s.entFld x F.ENT_HYST_HOLD - 1
    let s := s.setEntFld x F.ENT_HYST_HOLD hold
    let s := if isLaddered role then s.governLadder x kept hold else s
    let f := if role = roWEIGHT then s.entFld x F.ENT_FMT_STATE_NEXT_FMT else s.entFld x F.ENT_FMT_STATE_FMT
    let h := s.histMax x
    let s := if !kept && fmtBlock f && h.num ≠ 0 then s.setEnt x R.ENT_TSCALE (pow2Ceil h) else s
    s.clearCurrent x

/-! ### Silent layers (R163 to R165) -/

/-- A numeric event of an entry (R165). -/
def State.numericEvent (s : State) (p x cause : Nat) : State :=
  ((s.logErr (s.entSrc x 0) cause x).bump pgJobRunner p R.JOB_RUNNER_NUMERIC_EVENTS 1).setFld pgJobRunner p
    F.JOB_RUNNER_JR_STATUS_NUMERIC 1

/-- SILENT of a gradient entry at a step boundary that is not aborted, with its event. The runs themselves count without
limit (R165). -/
def State.silentUpdate (s : State) (p x : Nat) : State :=
  if !isGrad (s.entRole x) then s
  else
    let amax0 := (f32Q (s.entReg x R.ENT_AMAX_CUR)).num = 0
    let flush := s.entReg x R.ENT_FLUSH_BLK
    let zero := amax0 && s.entReg x R.ENT_NONFIN_BLK = 0
    let flushed := !amax0 && flush ≠ 0 && flush = s.entReg x R.ENT_NONZERO_BLK
    let zr := if zero then s.reg pgSilent x 0 + 1 else 0
    let fr := if !zero && flushed then s.reg pgSilent x 8 + 1 else 0
    let s := (s.setReg pgSilent x 0 zr).setReg pgSilent x 8 fr
    let s := s.setEnt x R.ENT_SILENT (min 65535 zr + 65536 * min 65535 fr)
    let dead := s.entFld x F.ENT_DEAD_CFG_DEAD_STEPS
    if zr ≠ 0 && zr % dead = 0 then s.numericEvent p x caDEAD_LAYER
    else if fr ≠ 0 && fr % 16 = 0 then s.numericEvent p x caFLUSHED_LAYER
    else s

/-- GOV_LAST_NS of each shard that holds entries of the partition: a free value within R144's bound (DESIGN CHOICE log 2). -/
def State.govTimed (s : State) (ents : List Nat) : State :=
  (List.range 4).foldl (fun s d =>
    let n := (ents.filter (fun x => x / 16384 = d)).length
    if n = 0 then s
    else
      let sh := diePage d 16
      ((s.setReg sh 0 R.MELT_SHARD_GOV_LAST_NS (s.freeVal.toNat % (5001 + 25 * n / 2))).progress sh 0 1 10000 n).freshen) s

/-- SILENT, then the governor, for every entry of a partition with a role (R143, R163). -/
def State.governPart (s : State) (p : Nat) (aborted skipped : Bool) : State :=
  let ents := s.entriesOf p
  let s := if aborted then s else ents.foldl (fun s x => s.silentUpdate p x) s
  (ents.foldl (fun s x => s.govern x aborted skipped) s).govTimed ents

end Sys2Proof.Machine
end

