-- ==== Sys2Proof/Machine/Contract.lean ====
section
/-! DEFINITION. Partition contracts (R270 to R273): when a staged contract may be applied, applying it, zeroing, and deletion. The
staged contract of partition p is the shadows of bank p of the PARTITION page. -/

namespace Sys2Proof.Machine

/-- No admitted or running task, and every submission ring empty (R46). -/
def State.partIdle (s : State) (p : Nat) : Bool :=
  s.queues.all (fun e => s.queueOwner e.1 ≠ p || (e.2.tasks.isEmpty && e.2.sqHead = e.2.tail))

/-- The contract a partition would have: staged values over applied ones; every holding removed by a deletion (R273). -/
def State.newContract (s : State) (p off : Nat) : Nat :=
  if (s.part p).state = 3 then 0
  else (s.shadow? pgPartition p off).getD (s.reg pgPartition p off)

/-- Clusters named by masks. -/
def maskClusters (f : Nat → Nat) : List Nat :=
  (List.range 160).filter (fun g => (f (R.PARTITION_CLUSTER_MASK_0 + 4 * (g / 32))).testBit (g % 32))

/-- HBM units of 256 MiB named by segments. -/
def segUnits (f : Nat → Nat) : List Nat :=
  (List.range 4).flatMap (fun n =>
    let v := f (R.PARTITION_HBM_SEG_0 + 4 * n)
    (List.range (bitsOf v 31 16)).map (fun i => bitsOf v 15 0 + i))

/-- Queue pairs and melt sheet entries of a range, in blocks of 64. -/
def rangeBlocks (v : Nat) : List Nat := (List.range (bitsOf v 20 10)).map (fun i => bitsOf v 9 0 + i)

/-- A cluster's task condition (R270): no task of the partition's owned queues has a command whose TARGET names it or that has a
share on it. -/
def State.clusterBusy (s : State) (p g : Nat) : Bool :=
  s.queues.any (fun e => s.queueOwner e.1 = p && e.2.tasks.any (fun t => !t.pool &&
    e.2.cmds.any (fun c => c.task = t.id && c.clusters.contains g)))

/-- Whether a partition's new contract may be applied (R270). -/
def State.contractOk (s : State) (p : Nat) : Bool :=
  let f := s.newContract p
  let old := s.clustersOf p
  let new := maskClusters f
  let others := s.partNums.filter (fun t => t ≠ p && t ≠ 0)
  let otherUnits := others.flatMap (fun t => segUnits (s.reg pgPartition t))
  let otherQ := others.flatMap (fun t => rangeBlocks (s.reg pgPartition t R.PARTITION_QUEUE_RANGE))
  let otherM := others.flatMap (fun t => rangeBlocks (s.reg pgPartition t R.PARTITION_MELT_RANGE))
  (new.filter (fun g => !old.contains g)).all (fun g => s.poolClusters.contains g && (s.cluster g).runQ.isNone) &&
  (old.filter (fun g => !new.contains g)).all (fun g => !s.clusterBusy p g) &&
  (p = 0 || ((segUnits f).all (fun u => !otherUnits.contains u) &&
    (rangeBlocks (f R.PARTITION_QUEUE_RANGE)).all (fun b => !otherQ.contains b) &&
    (rangeBlocks (f R.PARTITION_MELT_RANGE)).all (fun b => !otherM.contains b)))

/-- Blocks in one list and not in the other. -/
def symDiff (a b : List Nat) : List Nat := a.filter (fun x => !b.contains x) ++ b.filter (fun x => !a.contains x)

/-- Zero a unit of HBM. -/
def State.zeroUnit (s : State) (u : Nat) : State :=
  let lo := u * seg256M
  let hi := lo + seg256M
  { s with hbm := s.hbm.filter (fun c => !(lo ≤ c.1 && c.1 < hi)),
           hbmBad := s.hbmBad.filter (fun b => !(lo ≤ 64 * b.1 && 64 * b.1 < hi)) }

/-- A contract's registers of a bank: the contract fields. -/
def contractOffs : List Nat :=
  [R.PARTITION_CLUSTER_MASK_0, R.PARTITION_CLUSTER_MASK_1, R.PARTITION_CLUSTER_MASK_2, R.PARTITION_CLUSTER_MASK_3,
   R.PARTITION_CLUSTER_MASK_4, R.PARTITION_HBM_SEG_0, R.PARTITION_HBM_SEG_1, R.PARTITION_HBM_SEG_2,
   R.PARTITION_HBM_SEG_3, R.PARTITION_QUEUE_RANGE, R.PARTITION_MELT_RANGE, R.PARTITION_BW_CFG, R.PARTITION_POOL_CFG,
   R.PARTITION_POOL_BUDGET_MS]

/-- Whether a contract of the partition is staged. -/
def State.contractStaged (s : State) (p : Nat) : Bool :=
  s.shadows.any (fun e => keyPage e.1 = pgPartition && keyBank e.1 = p) || (s.part p).stageCreate

/-- The application completes (R271): STATE, the epoch and the count. -/
def State.contractDone (s : State) (p : Nat) : State :=
  let s := s.updPart p (fun x => { x with state := 2, stageCreate := false })
  let s := s.setFld pgPartition p F.HDR_STAGE_EPOCH_APPLIED (s.fld pgPartition p F.HDR_STAGE_EPOCH_APPLIED + 1)
  s.bump pgPartition 0 R.PARTITION_CONTRACTS_APPLIED 1

/-- Clusters, queues and melt sheet entries whose holder changes (R271). -/
def State.handOver (s : State) (p : Nat) (f : Nat → Nat) : State :=
  let cl := symDiff (s.clustersOf p) (maskClusters f)
  let qb := if p = 0 then [] else symDiff (rangeBlocks (s.reg pgPartition p R.PARTITION_QUEUE_RANGE)) (rangeBlocks (f R.PARTITION_QUEUE_RANGE))
  let mb := if p = 0 then [] else symDiff (rangeBlocks (s.reg pgPartition p R.PARTITION_MELT_RANGE)) (rangeBlocks (f R.PARTITION_MELT_RANGE))
  let s := cl.foldl (fun s g => s.clusterChanges g ((s.clusterOwner g).getD 0)) s
  let s := if qb.isEmpty then s else s.queuesChange (fun q => qb.contains (q / 64))
  if mb.isEmpty then s else s.meltChange (fun x => mb.contains (x / 64))

/-- Apply a staged contract (R270, R271): the holdings change hands at once; HBM added to a tenant is zeroed, and the
application completes when that ends. -/
def State.applyContract (s : State) (p : Nat) : State :=
  let f := s.newContract p
  let vals := contractOffs.map (fun o => (o, f o))
  let removed := (s.clustersOf p).filter (fun g => !(maskClusters f).contains g)
  let added := if p = 0 then [] else (segUnits f).filter (fun u => !(segUnits (s.reg pgPartition p)).contains u)
  let s := s.handOver p f
  let s := { s with shadows := s.shadows.filter (fun e => !(keyPage e.1 = pgPartition && keyBank e.1 = p)) }
  let s := vals.foldl (fun s v => s.setReg pgPartition p v.1 v.2) s
  let s := s.updPart p (fun x => { x with waitRes := false })
  let s := removed.foldl (fun s g => s.poolGrant g) s
  if added.isEmpty then s.contractDone p
  else
    let s := added.foldl (fun s u => s.zeroUnit u) s
    let s := s.updPart p (fun x => { x with
      state := 1
      zeroing := added.foldl (fun z u => sset z (u * seg256M) seg256M) x.zeroing })
    s.progress pgPartition p 2 0 0

/-- Zeroing of a partition's added HBM ends (R271). -/
def State.endZeroing (s : State) (p : Nat) : State :=
  let z := (s.part p).zeroing
  if z.isEmpty then s
  else
    let n := (svals z).sum
    let s := s.updPart p (fun x => { x with zeroing := [] })
    let s := (s.bump pgPartition 0 R.PARTITION_BYTES_ZEROED n).progress pgPartition p 2 10000 n
    s.contractDone p

/-- Reset a bank of a page that holds per-partition state: shadows go, with STAGE_LOST, and what software has set returns to
reset (R48). -/
def State.resetBank (s : State) (page p : Nat) : State :=
  let hit := fun (k : Nat) => keyPage k = page && keyBank k = p
  let lost := s.shadows.any (fun e => hit e.1)
  let s := { s with
    shadows := s.shadows.filter (fun e => !hit e.1)
    regs := s.regs.map (fun e =>
      if hit e.1 then (e.1, BitVec.ofNat 64 (mergeStaged (keepMask page (keyOff e.1)) (regReset page p (keyOff e.1)) e.2.toNat))
      else e) }
  if lost then s.raisePage page 2 else s

/-- Activation ends when every existing partition has moved (R371). -/
def State.fwSettle (s : State) : State :=
  if s.fld pgPkgMgr 0 F.PKG_MGR_FW_STATUS_STATE = 4 && s.reg pgPkgMgr 0 R.PKG_MGR_FW_PENDING ≠ 0 &&
      s.parts.all (fun e => e.2.state = 0 || !e.2.fwPending) then
    (s.setReg pgPkgMgr 0 R.PKG_MGR_FW_PENDING 0).setFld pgPkgMgr 0 F.PKG_MGR_FW_STATUS_STATE 5
  else s

/-- A deletion completes (R273): every holding is removed, the bank returns to its reset values, frozen masters are unfrozen. -/
def State.deleteDone (s : State) (p : Nat) : State :=
  let clusters := s.clustersOf p
  let s := s.handOver p (fun _ => 0)
  let s := clusters.foldl (fun s g => s.updDbg (clusterPage g uCtrl) (fun d => { d with frozen := false })) s
  let s := (s.resetBank pgJobRunner p).resetBank pgSnapshot p
  let s := s.resetBank pgPackage p
  let s := { s with
    shadows := s.shadows.filter (fun e => !(keyPage e.1 = pgPartition && keyBank e.1 = p))
    regs := s.regs.filter (fun e => !(keyPage e.1 = pgPartition && keyBank e.1 = p))
    bars := s.bars.filter (fun b => b.part ≠ p)
    parts := sdel s.parts p }
  (clusters.foldl (fun s g => s.poolGrant g) s).fwSettle

/-- Try a partition's pending contract or deletion at a boundary (R270, R273). A deletion also needs that no task of the
partition is admitted. -/
def State.tryContract (s : State) (p : Nat) : State :=
  let x := s.part p
  if x.state = 0 || !x.zeroing.isEmpty || s.pkgStopped then s
  else if x.state = 3 then
    if s.contractOk p && s.queues.all (fun e => s.queueOwner e.1 ≠ p || e.2.tasks.isEmpty) then s.deleteDone p
    else s.updPart p (fun x => { x with waitRes := true })
  else if s.contractStaged p then
    if s.contractOk p then s.applyContract p else s.updPart p (fun x => { x with waitRes := true })
  else s

end Sys2Proof.Machine
end

