-- ==== Sys2Proof/Machine/Release.lean ====
section
/-! DEFINITION. Barrier releases and step boundaries (R127, R143, R145, R170, R199, R205): statistics merge, the step's outcome, the order
of boundaries, and the ends of pool tasks (R47). -/

namespace Sys2Proof.Machine

/-! ### The verdict accumulator (R167, R172) -/

/-- Raise flags of VERDICT_ACC; after the closing contribution was taken they are late. -/
def State.verdict (s : State) (p bits : Nat) : State :=
  if bits = 0 then s
  else
    let s := s.setReg pgJobRunner p R.JOB_RUNNER_VERDICT_ACC (s.reg pgJobRunner p R.JOB_RUNNER_VERDICT_ACC ||| bits)
    if (s.part p).closing.isSome then s.setFld pgJobRunner p F.JOB_RUNNER_JR_STATUS_LATE 1 else s

def vNONFINITE : Nat := 1
def vOVERFLOW_BLOCK : Nat := 2
def vCHECK_FAIL : Nat := 4
def vSTEP_MISMATCH : Nat := 8

/-! ### Pending statistics (R127) -/

/-- Entries with a pending record. -/
def State.pendingEntries (s : State) (p : Nat) : List Nat :=
  dedup ((s.regs.filter (fun e => keyPage e.1 = pgPending && s.meltOwner (keyBank e.1) = p)).map (fun e => keyBank e.1))

def pend (s : State) (x off : Nat) : Nat := s.reg pgPending x off

/-- Add to a count of an entry, saturating (R126). -/
def State.addEnt (s : State) (x off n : Nat) : State := s.setEnt x off (satAdd 0xFFFFFFFF (s.entReg x off) n)

/-- Classes of blocks that a ladle, a temper unit or a collective has written, counted into an entry's current-step fields (R126), and the
verdict flags that they raise (R167). -/
def State.recordBlocks (s : State) (p x nz zeros flush sat nonfin : Nat) : State :=
  let s := ((((s.addEnt x R.ENT_NONZERO_BLK nz).addEnt x R.ENT_ZERO_BLK zeros).addEnt x R.ENT_FLUSH_BLK flush).addEnt x
    R.ENT_SAT_BLK sat).addEnt x R.ENT_NONFIN_BLK nonfin
  s.verdict p ((if nonfin ≠ 0 then vNONFINITE else 0) + (if isGrad (s.entRole x) && sat ≠ 0 then vOVERFLOW_BLOCK else 0))

/-- The larger of two FP32 magnitudes. -/
def maxF32 (a b : Nat) : Nat := if (f32Q a).lt (f32Q b) then b else a

/-- Two divisor summaries (R157) as one; `ua` and `ub` say whether either has seen a block yet. -/
def mergeG16 (ua ub : Bool) (a b : Nat) : Nat :=
  if !ub then a
  else if !ua then b
  else
    let f := fun (v lo : Nat) => bitsOf v (lo + 15) lo
    let mn := fun (x y : Nat) => if intOf 8 x ≤ intOf 8 y then x else y
    let mx := fun (x y : Nat) => if intOf 8 x ≤ intOf 8 y then y else x
    mn (bitsOf a 7 0) (bitsOf b 7 0) + 2 ^ 8 * mx (bitsOf a 15 8) (bitsOf b 15 8) +
      2 ^ 16 * satAdd 65535 (f a 16) (f b 16) + 2 ^ 32 * satAdd 65535 (f a 32) (f b 32) +
      2 ^ 48 * satAdd 65535 (f a 48) (f b 48)

/-- Blocks counted on an entry's page or in its pending record, of any class. -/
def State.blocksSeen (s : State) (page x : Nat) : Bool :=
  decide (0 < s.reg page x R.ENT_NONZERO_BLK + s.reg page x R.ENT_ZERO_BLK + s.reg page x R.ENT_NONFIN_BLK)

/-- Merge one entry's pending record into its current-step fields, and raise the verdict flags that it shows (R127, R167). -/
def State.mergeEntry (s : State) (p x : Nat) : State :=
  let role := s.entRole x
  let nonfin := pend s x R.ENT_NONFIN_BLK
  let sat := pend s x R.ENT_SAT_BLK
  let ua := s.blocksSeen pgEntry x
  let s := s.setEnt x R.ENT_AMAX_CUR (maxF32 (s.entReg x R.ENT_AMAX_CUR) (pend s x R.ENT_AMAX_CUR))
  let s := s.setEnt x R.ENT_BODY_CUR (maxF32 (s.entReg x R.ENT_BODY_CUR) (pend s x R.ENT_BODY_CUR))
  let s := [R.ENT_NONZERO_BLK, R.ENT_ZERO_BLK, R.ENT_FLUSH_BLK, R.ENT_SAT_BLK, R.ENT_NONFIN_BLK, R.ENT_RISER_OVF].foldl
    (fun s o => s.addEnt x o (pend s x o)) s
  let s := s.setEntFld x F.ENT_FMT_STATE_DOT_FLAGS
    (s.entFld x F.ENT_FMT_STATE_DOT_FLAGS ||| s.fld pgPending x F.ENT_FMT_STATE_DOT_FLAGS)
  let s := if role = roACT then s.setEnt x R.ENT_RISER_PEAK (max (s.entReg x R.ENT_RISER_PEAK) (pend s x R.ENT_RISER_PEAK)) else s
  let s := if isGrad role then s.setEnt x R.ENT_G16_SUM (mergeG16 ua (s.blocksSeen pgPending x) (s.entReg x R.ENT_G16_SUM) (pend s x R.ENT_G16_SUM)) else s
  let s := { s with regs := s.regs.filter (fun e => !(keyPage e.1 = pgPending && keyBank e.1 = x)) }
  s.verdict p ((if nonfin ≠ 0 then vNONFINITE else 0) + (if isGrad role && sat ≠ 0 then vOVERFLOW_BLOCK else 0))

/-- All pending records of a partition merge at a layer barrier. -/
def State.mergeStats (s : State) (p : Nat) : State := (s.pendingEntries p).foldl (fun s x => s.mergeEntry p x) s

/-! ### A layer barrier (R44, R127) -/

/-- What a layer barrier does before it releases: statistics merge, layer-kind values apply, and a layer's re-runs are
settled. -/
def State.layerBoundary (s : State) (p : Nat) : State :=
  let s := (s.mergeStats p).applyPart .layer p
  s.updPart p (fun x => { x with rerunWanted := [], rerunTaken := [], rerunCmds := [] })

/-! ### The end of a step (R170, R180, R205) -/

/-- Outcomes of a step's seal. -/
def soNone : Nat := 0
def soClean : Nat := 1
def soSkip : Nat := 2
def soAborted : Nat := 3

/-- Settle a step from its seal's verdict (R170): counters and LAST_VERDICT. -/
def State.settle (s : State) (p outcome v : Nat) : State :=
  let s := s.updPart p (fun x => { x with sealOut := outcome, sealVerdict := v })
  let s := s.setReg pgJobRunner p R.JOB_RUNNER_LAST_VERDICT v
  if outcome = soClean then
    s.setReg pgJobRunner p R.JOB_RUNNER_APPLIED_STEPS ((s.reg pgJobRunner p R.JOB_RUNNER_APPLIED_STEPS + 1) % 2 ^ 32)
  else if outcome = soSkip then s.bump pgJobRunner p R.JOB_RUNNER_SKIPPED_STEPS 1
  else s.bump pgJobRunner p R.JOB_RUNNER_ABORTED_STEPS 1

/-- The CLOSING collective of the step has begun and has no outcome yet. -/
def State.sealOpen (s : State) (p : Nat) : Bool := (s.part p).closing.isSome && (s.part p).sealOut = soNone

/-- The CLOSING collective of the step is still to come or under way (R170). -/
def State.sealDue (s : State) (p : Nat) : Bool :=
  (s.part p).sealOut = soNone && !(s.part p).abandoned &&
    s.queues.any (fun e => s.queueOwner e.1 = p && e.2.cmds.any (fun c => !c.recorded &&
      ((dOpcode c.desc = opCOLLECTIVE && dFlag c.desc flCLOSING) || dOpcode c.desc = opUPDATE)))

/-- The job runner's side of a step boundary (R180): stop after STEP_ABORTED, at a STOP, or when STEP_COUNT steps have run. -/
def State.jrStepEnd (s : State) (p : Nat) (aborted : Bool) : State :=
  let st := s.fld pgJobRunner p F.JOB_RUNNER_JR_STATUS_STATE
  if st = 0 || st = 4 then s
  else
    let j := (s.part p).jr
    let n := j.stepsRun + 1
    let cnt := leNat ((j.plan.drop 0x10).take 4)
    let cause := if aborted then 3 else if j.stopReq then 1 else if cnt ≠ 0 && cnt ≤ n then 2 else 0
    let s := s.updPart p (fun x => { x with jr := { j with
      stepsRun := n, phase := 0, stopReq := if cause = 0 then j.stopReq else false } })
    if cause = 0 then s.setFld pgJobRunner p F.JOB_RUNNER_JR_STATUS_STATE 1
    else (s.setFld pgJobRunner p F.JOB_RUNNER_JR_STATUS_STATE 4).setFld pgJobRunner p F.JOB_RUNNER_JR_STATUS_CAUSE cause

/-- A partition's step boundary (R143, R163, R205): settle an abandoned step, SILENT, governor, staged values, spares, step index. -/
def State.stepBoundary (s : State) (p : Nat) (aborted skipped : Bool) : State :=
  let s := s.governPart p aborted skipped
  let s := s.applyPart .step p
  let s := (s.clustersOf p).foldl (fun s g => s.replaceFenced g) s
  let s := s.setReg pgJobRunner p R.JOB_RUNNER_STEP_INDEX ((s.reg pgJobRunner p R.JOB_RUNNER_STEP_INDEX + 1) % 2 ^ 32)
  let s := (s.clustersOf p).foldl (fun s g => s.updCluster g (fun c => { c with stepAt := s.reg pgJobRunner p R.JOB_RUNNER_STEP_INDEX })) s
  s.updPart p (fun x => { x with
    abandoned := false, sealOut := soNone, sealVerdict := 0, closingSeen := false, updateSeen := false, closing := none })

/-! ### Pool tasks end (R47, R277, R279) -/

/-- A pool task has ended on its cluster: the three boundaries of the pool page, spares, and the cluster's release. -/
def State.poolTaskEnd (s : State) (q : Nat) (t : Task) (keep : Bool) : State :=
  match t.cluster with
  | none => s
  | some g =>
    let s := ((s.applyCluster .pass g).applyCluster .layer g).applyCluster .step g
    (s.replaceFenced g).releaseCluster q t keep

/-- A queue's next pool task starts waiting: grant while a cluster is free (R277). -/
def State.nextHead (s : State) (q : Nat) : State :=
  match (s.queue q).tasks.head? with
  | some t => if t.pool && !t.served && !t.refused && !t.aborted then s.poolArrived (s.queueOwner q) else s
  | none => s

/-- Whether class 3 takes a pool task's cluster at its closing barrier (R279). -/
def State.preempts (s : State) (t : Task) : Bool :=
  match t.cluster with
  | some g => (s.cluster g).marked && s.eligible 3 0
  | none => false

/-- One participant of a release completes (R199, R205): the record, the pool cluster's release, and the end of its task. -/
def State.releaseOne (s : State) (p : Nat) (a : Arrival) (anyAborted stepAborted : Bool) : State :=
  if a.aborted then s
  else
    match s.cmd? a.q a.slot with
    | none => s
    | some c =>
      match findTask (s.queue a.q).tasks c.task with
      | none => s
      | some t =>
        let pre := s.preempts t
        let code := if a.step && stepAborted then 0x13 else if anyAborted then 0x12 else if pre then 0x02 else 0
        let s := s.complete a.q a.slot code 0
        let s := if pre then s.bump pgAdmission 0 R.ADMISSION_POOL_PREEMPTS 1 else s
        let s := if pre && code = 0x02 then s.meter p R.METER_PREEMPTED 1 else s
        let s := s.taskDone a.q t.id ((a.slot + 1) % s.qSize a.q)
        (s.poolTaskEnd a.q t (!pre)).nextHead a.q

/-- Arrivals of a release other than the later ones, and the later ones arriving anew. -/
def State.rearrive (s : State) (p id page : Nat) : List Arrival → State
  | [] => s
  | a :: r => (s.arrive p id a page).rearrive p id page r

/-- A barrier releases (R43, R44, R199, R205). -/
def State.release (s : State) (b : Bar) : State :=
  let p := b.part
  let step := b.arrivals.any (fun a => a.step)
  let layer := step || b.arrivals.any (fun a => a.layer)
  let anyAborted := b.arrivals.any (fun a => a.aborted)
  let page := s.barrierPage p (b.arrivals.head?.bind (fun a => (s.cmd? a.q a.slot).bind (fun c => findTask (s.queue a.q).tasks c.task)))
  let s := s.setBar { b with arrivals := [] }
  let s := if layer then s.layerBoundary p else s
  let x := s.part p
  let stepAborted := step && (x.abandoned || x.sealOut = soAborted)
  let skipped := step && x.sealOut = soSkip
  let s := if step && x.abandoned && x.sealOut = soNone then s.settle p soAborted 0 else s
  let s := if step then s.stepBoundary p stepAborted skipped else s
  let s := b.arrivals.foldl (fun s a => s.releaseOne p a anyAborted stepAborted) s
  let s := if step then (s.jrStepEnd p stepAborted).tryContract p else s
  let s := (s.bump page 0 R.BARRIER_BAR_RELEASES 1).setReg page 0 R.BARRIER_BAR_STATE 0
  let s := (s.setReg page 0 R.BARRIER_BAR_LAST_NS (s.freeVal.toNat % 2 ^ 32)).freshen
  s.rearrive p b.id page b.later

/-- Whether a core of a partition waits for a forced assay at its next layer barrier (R327). -/
def State.assaysWait (s : State) (p : Nat) : Bool :=
  s.cores.any (fun e => e.2.assayDue && !e.2.fenced && !e.2.absent && s.pagePart e.1 = p)

/-- Whether a halted die manager core holds a partition's step boundaries: its die has clusters or entries of the partition (R390). -/
def State.boundaryStopped (s : State) (p : Nat) : Bool :=
  (List.range 4).any (fun d => s.dieStopped d &&
    ((s.clustersOf p).any (fun g => g / 40 = d) || (s.entriesOf p).any (fun x => x / 16384 = d)))

/-- Whether a barrier of the partition may release: full, its layer's forced assays run (R327), and a STEP_BOUNDARY not before its step's
seal (R170; DEDUCED log 28) nor while a die manager core is halted (R390). -/
def State.barReady (s : State) (b : Bar) : Bool :=
  let step := b.arrivals.any (fun a => a.step)
  b.full && !((step || b.arrivals.any (fun a => a.layer)) && s.assaysWait b.part) &&
    !(step && (s.sealDue b.part || s.boundaryStopped b.part))

/-- Release every full barrier of a partition; `fuel` bounds the releases. -/
def State.settleBars (s : State) (p : Nat) : Nat → State
  | 0 => s
  | fuel + 1 =>
    match s.bars.find? (fun b => b.part = p && s.barReady b) with
    | some b => (s.release b).settleBars p fuel
    | none => s

/-- Fuel enough for every arrival to release once. -/
def State.barFuel (s : State) : Nat := (s.bars.map (fun b => b.arrivals.length + b.later.length)).sum + 1

def State.runBars (s : State) (p : Nat) : State := s.settleBars p s.barFuel

/-- An arrival at a barrier, and the releases it brings about. -/
def State.arriveAt (s : State) (p id : Nat) (a : Arrival) (page : Nat) : State := (s.arrive p id a page).runBars p

end Sys2Proof.Machine
end

