-- ==== Sys2Proof/Machine/Form.lean ====
section
/-! DEFINITION. The form of a descriptor (R189 to R194, R214 to R218, R429 to R431): slots, targets, members, declared ranges, and the MALFORMED
details in the order in which the model tests them (R195 check 3). -/

namespace Sys2Proof.Machine

/-- A refusal: reason, MALFORMED detail, POSITION (R196). -/
structure Refuse where
  reason : Nat
  detail : Nat
  pos : Nat
  deriving DecidableEq, Repr

def rQUOTA : Nat := 1
def rQUEUE_FULL : Nat := 2
def rFROZEN : Nat := 3
def rNOT_OWNED : Nat := 4
def rDEADLINE : Nat := 5
def rOVERLAP : Nat := 6
def rALIAS : Nat := 7
def rSTREAM_CLAIMED : Nat := 8
def rMALFORMED : Nat := 9
def rSKIPPED : Nat := 10

def mdOPCODE : Nat := 1
def mdPRECISION : Nat := 2
def mdOPERAND : Nat := 3
def mdFORMAT : Nat := 4
def mdMELT : Nat := 5
def mdSTREAM : Nat := 6
def mdTENSOR : Nat := 7
def mdRANGES : Nat := 8
def mdUPDATE_ORDER : Nat := 9
def mdFLAGS : Nat := 10
def mdALIVE : Nat := 11
def mdTARGET : Nat := 12
def mdRESERVED : Nat := 13

/-- A descriptor as admission reads it, with its tensor descriptors; `pool` for a pool queue. -/
structure Form where
  p : Nat
  q : Nat
  pool : Bool
  d : BitVec 1024
  t0 : BitVec 1024
  t1 : BitVec 1024
  t2 : BitVec 1024
  deriving DecidableEq, Repr

def Form.op (f : Form) : Nat := dOpcode f.d

/-- Opcode groups. -/
def isGemmClass (op : Nat) : Bool := op = opGEMM || op = opGEMM_PATTERN || op = opVECTOR
def isGemm (op : Nat) : Bool := op = opGEMM || op = opGEMM_PATTERN
def isListMove (op : Nat) : Bool := op = opGATHER || op = opSCATTER || op = opSCATTER_ADD
def isMove (op : Nat) : Bool := op = opCOPY || isListMove op
def usesTarget (op : Nat) : Bool :=
  isGemmClass op || isMove op || op = opCHECK_SCAN || op = opUPDATE || op = opSTATS_READ
def acceptsHost (op : Nat) : Bool := isMove op || op = opCHECK_SCAN

/-- VOP, VMODE and IMM of a VECTOR (R194). -/
def dVop (d : BitVec 1024) : Nat := dField d 0x54 16
def dVmode (d : BitVec 1024) : Nat := dField d 0x56 16
def dImm (d : BitVec 1024) : Nat := dField d 0x58 64

/-- Whether a VOP reads Y. -/
def vopBinary (v : Nat) : Bool := decide (v ≤ 7) || v = 0x11

/-- What a slot is: 0 unused, 1 input, 2 output, 3 in place (R194), before ACCUM and overlap. A unary VECTOR with slot 1 zero has
none (DEDUCED log 32). -/
def slotDir (d : BitVec 1024) (n : Nat) : Nat :=
  let op := dOpcode d
  if isGemmClass op then
    if op = opVECTOR && n = 1 && !vopBinary (dVop d) && dAddr d 1 = 0 && dTdesc d 1 = 0 then 0
    else if n = 2 then (if dFlag d flACCUM then 3 else 2) else 1
  else if op = opCOPY then (if n = 0 then 1 else if n = 2 then 2 else 0)
  else if op = opGATHER || op = opSCATTER then (if n = 2 then 2 else 1)
  else if op = opSCATTER_ADD then (if n = 2 then 3 else 1)
  else if op = opCHECK_SCAN || op = opLINK_SEND || op = opEVENT_SIGNAL || op = opEVENT_WAIT then (if n = 0 then 1 else 0)
  else if op = opCOLLECTIVE then
    (if dField d 0x58 64 = 0 && dFlag d flCLOSING && dField d 0x54 8 = 3 then 0 else if n = 0 then 1 else if n = 2 then 2 else 0)
  else if op = opUPDATE then (if n = 0 then 1 else if n = 1 then 3 else 2)
  else if op = opSTATS_READ || op = opLINK_RECV then (if n = 2 then 2 else 0)
  else 0

/-- Slots given as byte ranges: the CHECK_SCAN range, coordinate lists, event words (R193). -/
def slotBytes (op n : Nat) : Bool :=
  (op = opCHECK_SCAN && n = 0) || (isListMove op && n = 1) || ((op = opEVENT_SIGNAL || op = opEVENT_WAIT) && n = 0)

/-- Opcode-specific bytes of a descriptor: (offset, length) from 0x54 on that carry a field (R194). -/
def usedBytes (op : Nat) : List (Nat × Nat) :=
  if op = opGEMM then [(0x54, 2), (0x5A, 1)]
  else if op = opGEMM_PATTERN then [(0x54, 4), (0x5A, 1)]
  else if op = opVECTOR then [(0x54, 12)]
  else if op = opCOPY then [(0x54, 4)]
  else if isListMove op then [(0x54, 4), (0x58, 12)]
  else if op = opCHECK_SCAN || op = opUPDATE then [(0x58, 16)]
  else if op = opCOLLECTIVE then [(0x54, 4), (0x58, 12)]
  else if op = opBARRIER || op = opSTATS_READ || op = opSTEP_BOUNDARY then [(0x54, 4)]
  else if op = opSNAPSHOT then [(0x54, 1), (0x58, 8)]
  else if op = opEVENT_SIGNAL || op = opTRACE_MARK then [(0x58, 8)]
  else if op = opEVENT_WAIT || op = opLINK_RECV then [(0x58, 12)]
  else if op = opLINK_SEND then [(0x54, 4), (0x58, 16)]
  else []

/-- Melt sheet index fields an opcode uses, slot order IN0, IN1, OUT. -/
def usesMelt (op n : Nat) : Bool :=
  if isGemmClass op then true
  else if op = opCOPY || op = opUPDATE || op = opCOLLECTIVE then n ≠ 1
  else if isListMove op || op = opLINK_RECV then n = 2
  else if op = opLINK_SEND then n = 0
  else false

/-- The index of a slot's entry (R429). -/
def dMelt (d : BitVec 1024) (n : Nat) : Nat := if n = 0 then dMeltIn0 d else if n = 1 then dMeltIn1 d else dMeltOut d

/-- Reserved fields are zero, unused slots and indices empty (R189, R194). -/
def reservedOk (d : BitVec 1024) : Bool :=
  let op := dOpcode d
  dField d 0x3F 8 = 0 && dField d 0x45 8 = 0 &&
  (List.range 44).all (fun i => let b := 0x54 + i
    dField d b 8 = 0 || (usedBytes op).any (fun u => decide (u.1 ≤ b) && decide (b < u.1 + u.2))) &&
  [0, 1, 2].all (fun n => slotDir d n ≠ 0 || (dAddr d n = 0 && dTdesc d n = 0)) &&
  [0, 1, 2].all (fun n => usesMelt op n || dMelt d n = 0xFFFF) &&
  (op ≠ opVECTOR || decide (dVmode d < 16))

/-- PRECISION is accepted by the opcode (R191). -/
def precisionOk (d : BitVec 1024) : Bool :=
  let c := dPrecision d
  if isGemmClass (dOpcode d) then decide (c ≤ 0x0A) || c = 0x0F || (decide (0x80 ≤ c) && decide (c ≤ 0x8F))
  else c = 0

def flagsOk (d : BitVec 1024) : Bool := dFlags d &&& flagsOf (dOpcode d) = dFlags d

/-! ### Targets and members (R192, R431) -/

def tgPage (d : BitVec 1024) : Nat := bitsOf (dTarget d) 15 0
def tgCore (d : BitVec 1024) : Nat := bitsOf (dTarget d) 22 16
def tgNarrow (d : BitVec 1024) : Bool := (dTarget d).testBit 23

/-- The clusters of a partition's local numbering: every present cluster of the module for partition 0 (R192). -/
def State.viewClusters (s : State) (p : Nat) : List Nat :=
  if p = 0 then (List.range 160).filter s.clusterPresent else (s.clustersOf p).filter s.clusterPresent

/-- Clusters named by an owned-queue TARGET; none where it names no present cluster. -/
def State.targetClusters (s : State) (p : Nat) (d : BitVec 1024) : Option (List Nat) :=
  if tgPage d = 0 then some ((s.clustersOf p).filter s.clusterPresent)
  else if 160 < tgPage d then none
  else ((s.viewClusters p)[tgPage d - 1]?).map (fun g => [g])

/-- A core that can take new work: present and not fenced. -/
def State.coreUsable (s : State) (g c : Nat) : Bool :=
  decide (c < 64) && !(s.core (clusterPage g c)).absent && !(s.core (clusterPage g c)).fenced && !(s.cluster g).dead

/-- Member cores of some clusters, in ascending order. -/
def State.coresOf (s : State) (gs : List Nat) (d : BitVec 1024) : List Nat :=
  gs.flatMap (fun g =>
    let cs := if tgNarrow d then [tgCore d] else List.range 64
    (cs.filter (fun c => s.coreUsable g c)).map (fun c => clusterPage g c))

/-- The engine pages of a command on some clusters (R192, R219, R431). A CHECK_SCAN takes its engine when it starts. -/
def State.enginesOn (s : State) (d : BitVec 1024) (slot : Nat) (gs : List Nat) (overlap : Bool) : List Nat :=
  let op := dOpcode d
  if isGemmClass op then s.coresOf gs d
  else if op = opCOPY || op = opGATHER then
    if overlap then (gs.take 1).map (fun g => clusterPage g uLadle0)
    else gs.map (fun g => clusterPage g (uLadle0 + Config.ladleOf g slot % 2))
  else if op = opSCATTER || op = opSCATTER_ADD then (gs.take 1).flatMap (fun g => [clusterPage g uLadle0, clusterPage g (uLadle0 + 1)])
  else if op = opUPDATE then gs.map (fun g => clusterPage g uTemper)
  else if op = opSTATS_READ then (gs.take 1).map (fun g => clusterPage g (uLadle0 + Config.ladleOf g slot % 2))
  else []

/-- TARGET names a unit that can run the command (R192, R275). A pool task's cluster is not known yet. -/
def State.targetOk (s : State) (f : Form) : Bool :=
  if !usesTarget f.op then true
  else if bitsOf (dTarget f.d) 31 24 ≠ 0 then false
  else if tgNarrow f.d && decide (64 ≤ tgCore f.d) then false
  else if f.pool then tgPage f.d = 0
  else if tgPage f.d = 0 && tgNarrow f.d then false
  else match s.targetClusters f.p f.d with
    | none => false
    | some gs =>
      (!tgNarrow f.d || gs.all (fun g => !(s.core (clusterPage g (tgCore f.d))).absent)) &&
      (!isGemmClass f.op || !(s.coresOf gs f.d).isEmpty)

/-! ### Slots -/

def Form.td (f : Form) (n : Nat) : TD := tdOf (if n = 0 then f.t0 else if n = 1 then f.t1 else f.t2) (dAddr f.d n)
def Form.tdRaw (f : Form) (n : Nat) : BitVec 1024 := if n = 0 then f.t0 else if n = 1 then f.t1 else f.t2

/-- Slot 2 of a GATHER that feeds sprues, and slot 0 of the GEMM it feeds, declare nothing (R229). -/
def Form.sprueOut (f : Form) : Bool := f.op = opGATHER && (f.td 2).flags % 2 = 1

/-- Whether a slot holds a tensor. -/
def Form.tensor (f : Form) (n : Nat) : Bool := slotDir f.d n ≠ 0 && !slotBytes f.op n

/-- The formats an instance of a slot can take (R429). -/
def State.slotFmts (s : State) (f : Form) (n : Nat) : List Nat :=
  let own := (f.td n).fmt
  if !isGemmClass f.op then [own]
  else match s.entryOf f.p (dMelt f.d n) with
    | none => [own]
    | some x =>
      let c := precCode (dPrecision f.d)
      if n = 2 && c = 0x0F then [fmtFP32]
      else if n = 2 && c ≠ 0 && !isGrad (s.entRole x) then dedup (c :: s.fmtsOf x)
      else s.fmtsOf x

/-- The format of a slot's instance now (R146, R429). -/
def State.slotFmt (s : State) (f : Form) (n : Nat) : Nat :=
  let own := (f.td n).fmt
  if !isGemmClass f.op then own
  else if n = 2 then s.outFmt f.d (s.entryOf f.p (dMeltOut f.d)) own
  else match s.entryOf f.p (dMelt f.d n) with
    | none => own
    | some x => if s.entPin x ≠ 0 && !isGrad (s.entRole x) then pinFmt (s.entPin x) else s.instFmt x (dMb f.d)

/-- A tensor descriptor lies at an aligned HBM address (R214, R216). -/
def tdPlace (s : State) (a : Nat) : Bool := a ≠ 0 && a % 64 = 0 && decide (a + 128 ≤ hbmBytes s.n8)

/-- Whether a slot's tensor descriptor can be read by admission: it lies in the partition's reservation (R195 check 4
refuses it otherwise). -/
def State.tdOwned (s : State) (f : Form) (n : Nat) : Bool :=
  !f.tensor n || s.inReservation f.p (dTdesc f.d n) (dTdesc f.d n + 127)

/-- The TENSOR and FORMAT details of one slot (R216). -/
def State.tensorDetail (s : State) (f : Form) (n : Nat) : Option Nat :=
  let dir := slotDir f.d n
  if dir = 0 then none
  else if slotBytes f.op n then (if dTdesc f.d n = 0 then none else some mdTENSOR)
  else if !tdPlace s (dTdesc f.d n) then some mdTENSOR
  else if !s.tdOwned f n then none
  else
    let t := f.td n
    let fs := s.slotFmts f n
    let ent := isGemmClass f.op && (s.entryOf f.p (dMelt f.d n)).isSome
    let plane := fs.any fmtPlane
    if !tdFields (f.tdRaw n) then some mdTENSOR
    else if !fmtValid t.fmt then some mdFORMAT
    else if (plane && t.scale = 0) || (!plane && !ent && t.scale ≠ 0) then some mdTENSOR
    else if fs.any (fun c => !({ t with fmt := c } : TD).aligned) && !(n = 2 && f.sprueOut) then some mdTENSOR
    else if dir ≠ 1 && !(n = 2 && f.sprueOut) && fs.any (fun c => !({ t with fmt := c } : TD).disjoint) then some mdTENSOR
    else none

/-- The interval over every format of a slot's tensor (R217, R429). -/
def slotRanges (t : TD) (fs : List Nat) : List Range :=
  let ts := fs.map (fun c => ({ t with fmt := c } : TD))
  let hi := ts.foldl (fun a u => max a u.highOff) t.lowOff
  let sc := ts.foldl (fun a u => max a u.scaleBytes) 0
  rangeOf t.base t.lowOff hi :: (if sc = 0 then [] else [rangeOf t.scale 0 ((sc : Int) - 1)])

/-- Bytes of a byte-range slot. -/
def Form.byteLen (f : Form) : Nat :=
  if f.op = opCHECK_SCAN then dField f.d 0x58 64
  else if isListMove f.op then dField f.d 0x54 32 * (f.td (if f.op = opGATHER then 0 else 2)).ndim * 4
  else 8

/-- Declared ranges of one slot (R193). Event words are none. -/
def State.rangesOf (s : State) (f : Form) (n : Nat) : List Range :=
  if slotDir f.d n = 0 || (n = 2 && f.sprueOut) then []
  else if slotBytes f.op n then
    (if f.op = opEVENT_SIGNAL || f.op = opEVENT_WAIT then []
     else if f.byteLen = 0 then [] else [rangeOf (dAddr f.d n) 0 ((f.byteLen : Int) - 1)])
  else slotRanges (f.td n) (s.slotFmts f n)

/-- The riser area of an entry's instance of the command (R136). -/
def State.riserRange (s : State) (f : Form) (n : Nat) : List Range :=
  match s.entryOf f.p (dMelt f.d n) with
  | some x =>
    if s.entRole x = roACT && s.entReg x R.ENT_RISER_CAP ≠ 0 then
      [rangeOf (s.riserAddr x (dMb f.d)) 0 (((s.entReg x R.ENT_RISER_CAP + 1) * 8 : Nat) - 1)]
    else []
  | none => []

/-- The compare area of an output (R150). -/
def State.compareRange (s : State) (f : Form) : List Range :=
  match s.entryOf f.p (dMeltOut f.d) with
  | some x =>
    if s.entFld x F.ENT_ENT_CTRL_COMPARE = 1 then
      [rangeOf (s.entReg x R.ENT_CMP_PAGE * 65536) 0 (((f.td 2).elems * 4 : Nat) - 1)]
    else []
  | none => []

/-- The optimiser state of an UPDATE (R174): tensors of the master's shape at STATE0 and STATE1. -/
def Form.stateTD (f : Form) (k : Nat) : TD := { f.td 1 with base := dField f.d (0x58 + 8 * k) 64 }

def Form.stateRanges (f : Form) : List Range :=
  [0, 1].flatMap (fun k => if dField f.d (0x58 + 8 * k) 64 = 0 then [] else (f.stateTD k).ranges)

def Range.overlaps (a b : Range) : Bool := a.host = b.host && decide (a.lo ≤ b.hi) && decide (b.lo ≤ a.hi)

def anyOverlap (a b : List Range) : Bool := a.any (fun x => b.any (fun y => x.overlaps y))

/-- A COPY whose source and destination overlap (R223). -/
def State.copyOverlap (s : State) (f : Form) : Bool :=
  f.op = opCOPY && anyOverlap (s.rangesOf f 0) (s.rangesOf f 2)

/-- Inputs, outputs and in-place ranges of a descriptor (R193). `fed` when a GATHER's sprues feed slot 0 (R229). -/
def State.declared (s : State) (f : Form) (fed : Bool) : List Range × List Range × List Range :=
  let gc := isGemmClass f.op
  let ovl := s.copyOverlap f
  let at_ := fun (k : Nat) => [0, 1, 2].flatMap (fun n =>
    if slotDir f.d n = k && !(fed && n = 0) then s.rangesOf f n else [])
  let ins := at_ 1 ++ (if gc then s.riserRange f 0 ++ s.riserRange f 1 else [])
  let outs := (if ovl then [] else at_ 2) ++ (if gc then s.riserRange f 2 ++ s.compareRange f else [])
  let inpl := at_ 3 ++ (if ovl then at_ 2 else []) ++ (if f.op = opUPDATE then f.stateRanges else [])
  (ins, outs, inpl)

/-! ### Operand rules -/

/-- Formats a pattern-unit weight or activation may have (R106), plain codes read as R58 states. -/
def patWeight (c : Nat) : Bool := c = fmtIB4 || c = fmtINT4 || c = fmtIB2 || c = fmtIB1
def patPair (a w : Nat) : Bool :=
  (patWeight w && (a = fmtFB8E4 || a = fmtFP8E4 || a = fmtINT8)) || (w = fmtIB1 && a = fmtIB1)

/-- Formats the array reads (R58, R84). -/
def arrayFmt (c : Nat) : Bool := fmtValid c && c ≠ fmtFP64 && c ≠ fmtIB2 && c ≠ fmtIB1

/-- The operand pairing of a GEMM or GEMM_PATTERN (R58, R84, R106, R107). -/
def State.pairOk (s : State) (f : Form) : Bool :=
  let a := s.slotFmt f 0
  let w := s.slotFmt f 1
  if f.op = opGEMM then arrayFmt a && arrayFmt w
  else if patWeight w then patPair a w
  else (s.entryOf f.p (dMeltIn1 f.d)).isSome && arrayFmt a && arrayFmt w && a ≠ fmtG16 && w ≠ fmtG16

/-- Dimensions of a GEMM agree (R430). -/
def Form.gemmDims (f : Form) : Bool :=
  let a := f.td 0
  let w := f.td 1
  let o := f.td 2
  let lay := dField f.d 0x5A 8
  a.e 0 = w.e 0 && (if lay = 1 then o.e 1 else o.e 0) = a.e 1 && (if lay = 1 then o.e 0 else o.e 1) = w.e 1 &&
  [2, 3, 4, 5].all (fun i => a.e i = w.e i && a.e i = o.e i)

/-- PERM of a COPY is a permutation that carries the source's extents to the destination's (R221). -/
def permAt (d : BitVec 1024) (i : Nat) : Nat := bitsOf (dField d 0x54 32) (4 * i + 3) (4 * i)

def Form.copyShape (f : Form) : Bool :=
  let sd := f.td 0
  let dd := f.td 2
  let n := sd.ndim
  let ps := (List.range n).map (permAt f.d)
  dd.ndim = n && dField f.d 0x54 32 / 2 ^ 24 = 0 &&
  (List.range 8).all (fun i => decide (i < n) || permAt f.d i = 0) &&
  ps.all (fun x => decide (x < n)) && (dedup ps).length = n &&
  (List.range n).all (fun i => dd.e i = sd.e (permAt f.d i))

/-- Whether a COPY converts (R222). -/
def Form.copyConverts (f : Form) : Bool :=
  (f.td 0).fmt ≠ (f.td 2).fmt || (permAt f.d 0 ≠ 0 && fmtBlock (f.td 0).fmt)

/-- Destination formats of a converting COPY (R222). -/
def copyDest (c : Nat) : Bool := fmtValid c && c ≠ fmtG16 && c ≠ fmtIB2 && c ≠ fmtIB1

def Form.block (f : Form) (i : Nat) : Nat := dField f.d (0x58 + 2 * i) 16
def Form.count (f : Form) : Nat := dField f.d 0x54 32

/-- Shapes of GATHER and the scatters (R224). -/
def Form.listShape (f : Form) : Bool :=
  let t := if f.op = opGATHER then f.td 0 else f.td 2
  let k := if f.op = opGATHER then f.td 2 else f.td 0
  let n := t.ndim
  decide (1 ≤ f.count ∧ f.count ≤ 65536) && k.fmt = t.fmt && k.ndim = n &&
  (List.range 6).all (fun i => if i < n then f.block i ≠ 0 && t.e i % f.block i = 0 else f.block i = 1) &&
  f.block 0 * fmtBits t.fmt % 512 = 0 && (t.fmt ≠ fmtG16 || f.block 0 % 256 = 0) &&
  (List.range n).all (fun i => k.e i = if i + 1 < n then f.block i else f.count * f.block i) &&
  dAddr f.d 1 % 64 = 0

/-- Group entry of a COLLECTIVE (R253; DEDUCED log 31): N, RANK and the member words. -/
structure GroupX where
  n : Nat
  rank : Nat
  members : List Nat
  deriving DecidableEq, Repr


def State.groupOf (s : State) (p g : Nat) : GroupX :=
  let a := s.reg (pgColl 8) p R.COLLECTIVE_GROUP_BASE + 16 * g
  let n := s.rdLE p a 2
  let m := s.rdLE p (a + 4) 8
  { n := n, rank := s.rdLE p (a + 2) 2, members := (List.range (min n 16384)).map (fun i => s.rdLE p (m + 4 * i) 4) }

/-- Admissible group entries (R253). -/
def State.groupOk (s : State) (p g : Nat) : Bool :=
  let x := s.groupOf p g
  decide (1 ≤ x.n ∧ x.n ≤ 16384) && decide (x.rank < x.n) &&
  (let ws := x.members.map (fun w => (memMod w, memPart w))
   (dedup ws).length = x.n && ws[x.rank]? = some (s.moduleId, p))

/-- Whether a partition may send to a module (R249; the ranges are those of IO0's ROUTER page, DEDUCED log 30). -/
def State.authorised (s : State) (p m : Nat) : Bool :=
  m = s.moduleId || (List.range 8).any (fun i =>
    let v := s.reg (pgRouter 8) p (R.ROUTER_AUTH_RANGE_0 + 4 * i)
    v.testBit 31 && decide (bitsOf v 13 0 ≤ m) && decide (m ≤ bitsOf v 29 16))

def collKind (d : BitVec 1024) : Nat := dField d 0x54 8
def collAlgo (d : BitVec 1024) : Nat := bitsOf (dField d 0x55 8) 3 0
def collWire (d : BitVec 1024) : Nat := bitsOf (dField d 0x55 8) 7 4
def collGroup (d : BitVec 1024) : Nat := dField d 0x56 16
def collLen (d : BitVec 1024) : Nat := dField d 0x58 64

/-- Shard length in elements (R254). -/
def shardLen (e n : Nat) : Nat := ceilDiv (ceilDiv e n) 1024 * 1024

/-- Elements of rank r's shard. -/
def shardOf (e n r : Nat) : Nat := min ((r + 1) * shardLen e n) e - min (r * shardLen e n) e

/-- Wire codes a memory format allows (R256). -/
def wireOk (w f : Nat) : Bool :=
  w = 0 || (decide (w ≤ 3) && (f = fmtFP32 || f = fmtBF16)) || w = 4 || (w = 5 && f = fmtFP32)

/-- The operand rules of a COLLECTIVE (R253, R254). -/
def State.collOk (s : State) (f : Form) : Bool :=
  let k := collKind f.d
  let e := collLen f.d
  let x := s.groupOf f.p (collGroup f.d)
  decide (1 ≤ k ∧ k ≤ 3) && decide (collAlgo f.d ≤ 2) && (collAlgo f.d ≠ 2 || k = 3) && s.groupOk f.p (collGroup f.d) &&
  (if e = 0 then k = 3 && dFlag f.d flCLOSING
   else
    let c := (f.td 0).fmt
    let sh := shardOf e x.n x.rank
    c = (f.td 2).fmt && (c = fmtFP32 || c = fmtBF16 || c = fmtG16) && wireOk (collWire f.d) c &&
    (f.td 0).elems = (if k = 2 then sh else e) && (f.td 2).elems = (if k = 1 then sh else e))

/-- Whether a partition's function can reach host memory (R296): it exists, with PASID and ATS enabled. -/
def State.hostReach (s : State) (p : Nat) : Bool := (p = 0 || s.cxl.vfEnable) && s.cxl.ats.contains p

/-- Whether a descriptor names a host address. -/
def Form.namesHost (f : Form) : Bool :=
  [0, 1, 2].any (fun n => slotDir f.d n ≠ 0 && (isHost (dAddr f.d n) || (f.tensor n && isHost (f.td n).scale)))

/-- The OPERAND rules of every opcode (R196). -/
def State.operandOk (s : State) (f : Form) : Bool :=
  let op := f.op
  let d := f.d
  (!f.namesHost || s.hostReach f.p) &&
  (acceptsHost op || [0, 1, 2].all (fun n => slotDir d n = 0 ||
    (!isHost (dAddr d n) && (!f.tensor n || !isHost (f.td n).scale)))) &&
  (!isListMove op || !isHost (dAddr d 1)) &&
  (!isGemm op || (decide (dField d 0x5A 8 ≤ 1) && s.pairOk f)) &&
  (op ≠ opVECTOR || (decide (1 ≤ dVop d ∧ dVop d ≤ 0x12) && decide (dVmode d / 2 ≤ 4))) &&
  (op ≠ opCOPY || (if f.copyConverts then copyDest (f.td 2).fmt else !(permAt d 0 ≠ 0 && (f.td 0).fmt = fmtG16))) &&
  (op ≠ opSCATTER_ADD || (f.td 2).fmt = fmtFP32 || (f.td 2).fmt = fmtFP16 || (f.td 2).fmt = fmtBF16) &&
  (op ≠ opCHECK_SCAN || dField d 0x58 64 ≠ 0) &&
  (op ≠ opCOLLECTIVE || s.collOk f) &&
  (op ≠ opUPDATE || ((f.td 0).fmt = fmtG16 && (f.td 1).fmt = fmtFP32 &&
    !isHost (dField d 0x58 64) && !isHost (dField d 0x60 64))) &&
  (!closesTask op || dField d 0x56 16 ≠ 0) &&
  (op ≠ opSNAPSHOT || (decide (1 ≤ dField d 0x54 8 ∧ dField d 0x54 8 ≤ 5) &&
    (let v := dField d 0x58 64
     bitsOf v 15 14 = 0 && bitsOf v 62 24 = 0 && (!v.testBit 63 || v = 2 ^ 63)))) &&
  ((op ≠ opEVENT_SIGNAL && op ≠ opEVENT_WAIT) || dAddr d 0 % 8 = 0) &&
  (op ≠ opLINK_SEND || dField d 0x60 64 = (f.td 0).elemBytes + (f.td 0).scaleBytes)

/-- Shape rules that are refused with TENSOR (R221, R224, R430). -/
def Form.shapeOk (f : Form) : Bool :=
  (!isGemm f.op || f.gemmDims) && (f.op ≠ opCOPY || f.copyShape) && (!isListMove f.op || f.listShape)

/-- Melt sheet rules (R146, R156, R222, R429, R182). -/
def State.meltOk (s : State) (f : Form) : Bool :=
  let op := f.op
  let out := s.entryOf f.p (dMeltOut f.d)
  let c := precCode (dPrecision f.d)
  let grad := match out with
    | some x => isGrad (s.entRole x)
    | none => false
  (!isGemmClass op || ((c ≠ 0 || out.isSome) && ((f.td 2).fmt ≠ fmtG16 || grad))) &&
  (op ≠ opCOPY || !f.copyConverts || !fmtBlock (f.td 2).fmt || out.isSome) &&
  (op ≠ opUPDATE || (dMeltIn0 f.d ≠ 0xFFFF && dMeltOut f.d ≠ 0xFFFF))

/-- An output without an entry has the explicit code's format (R429, detail FORMAT). -/
def State.codeFormatOk (s : State) (f : Form) : Bool :=
  let c := precCode (dPrecision f.d)
  !isGemmClass f.op || (s.entryOf f.p (dMeltOut f.d)).isSome || c = 0 || (f.td 2).fmt = fmtG16 ||
    (f.td 2).fmt = (if c = 0x0F then fmtFP32 else c)

/-- Whether the array settings of some member core select SR conversion (R74). -/
def State.stagedSr (s : State) (gs : List Nat) (d : BitVec 1024) : Bool :=
  (s.coresOf gs d).any (fun c => s.fld c 0 F.CORE_ARRAY_CFG_CVT_SR = 1)

/-- Whether the command draws bits of purposes 0 and 2, and of purpose 1 (R74, R77, R111). -/
def State.drawsOf (s : State) (f : Form) (gs : List Nat) : Bool × Bool :=
  let op := f.op
  let out := s.entryOf f.p (dMeltOut f.d)
  let ref := isGemm op && s.isRef f.d out
  let ofmt := s.slotFmt f 2
  let cvt := dCvtSr f.d || s.stagedSr gs f.d
  let conv := if isGemmClass op then !ref && cvt && ofmt ≠ fmtFP32
    else if op = opCOPY then dFlag f.d flCVT_SR && f.copyConverts
    else if op = opUPDATE then gs.any (fun g => s.fld (clusterPage g uTemper) 0 F.TEMPER_OPT_CFG_CVT_SR = 1)
    else false
  let acc := isGemm op && !ref && s.accSr out ((f.td 0).e 0)
  let a := s.slotFmt f 0
  (conv || acc, op = opGEMM_PATTERN && !ref && patWeight (s.slotFmt f 1) && (a = fmtFB8E4 || a = fmtFP8E4))

/-- Form check of one descriptor: the first MALFORMED detail (R195 check 3). `gs` are the clusters of its target; `counts` the
ranges of its task so far. -/
def State.formDetail (s : State) (f : Form) (gs : List Nat) (fed : Bool) (nIn nOut nInpl : Nat) (sprueBad : Bool) : Option Nat :=
  let owned := [0, 1, 2].all (fun n => s.tdOwned f n)
  let dr := s.drawsOf f gs
  let decl := s.declared f fed
  if !(decide (1 ≤ f.op ∧ f.op ≤ 0x13)) then some mdOPCODE
  else if !reservedOk f.d then some mdRESERVED
  else if !precisionOk f.d then some mdPRECISION
  else if !flagsOk f.d then some mdFLAGS
  else if !s.targetOk f then some mdTARGET
  else match [0, 1, 2].findSome? (fun n => s.tensorDetail f n) with
    | some m => some m
    | none =>
      if sprueBad then some mdTENSOR
      else if owned && !f.shapeOk then some mdTENSOR
      else if owned && !s.codeFormatOk f then some mdFORMAT
      else if owned && !s.operandOk f then some mdOPERAND
      else if owned && !s.meltOk f then some mdMELT
      else if (dr.1 && dStream0 f.d = 0) || (dr.2 && dStream1 f.d = 0) then some mdSTREAM
      else if decide (64 < nIn + decl.1.length) || decide (64 < nOut + decl.2.1.length) ||
          decide (16 < nInpl + decl.2.2.length) then some mdRANGES
      else if f.op = opUPDATE && !(s.part f.p).closingSeen then some mdUPDATE_ORDER
      else if (s.qcfg f.q).testBit 23 && !dFlag f.d flALIVE_EN then some mdALIVE
      else none

/-! ### Ownership (R195 check 4) -/

/-- Every resource the descriptor names is the partition's. -/
def State.formOwned (s : State) (f : Form) (fed : Bool) : Bool :=
  let op := f.op
  let decl := s.declared f fed
  let inRes := fun (r : Range) => r.host || s.inReservation f.p r.lo r.hi
  let melt := fun (n : Nat) => !usesMelt op n || dMelt f.d n = 0xFFFF || (s.globalMelt f.p (dMelt f.d n)).isSome
  (f.pool || !usesTarget op || tgPage f.d = 0 || (match s.targetClusters f.p f.d with
    | some gs => gs.all (fun g => (s.clustersOf f.p).contains g)
    | none => false)) &&
  [0, 1, 2].all (fun n => s.tdOwned f n) && [0, 1, 2].all melt &&
  [0, 1, 2].all (fun n => !f.tensor n || decide (0 ≤ ((dAddr f.d n % 2 ^ 63 : Nat) : Int) + (f.td n).lowOff)) &&
  decl.1.all inRes && decl.2.1.all inRes && decl.2.2.all inRes &&
  (op ≠ opSTATS_READ || (List.range (dField f.d 0x56 16)).all (fun i => (s.globalMelt f.p (dField f.d 0x54 16 + i)).isSome)) &&
  (op ≠ opLINK_SEND || s.authorised f.p (memMod (dField f.d 0x54 32))) &&
  (op ≠ opCOLLECTIVE || (s.groupOf f.p (collGroup f.d)).members.all (fun w => s.authorised f.p (memMod w))) &&
  (op ≠ opSNAPSHOT || !(dField f.d 0x54 8 = 4 || dField f.d 0x54 8 = 5) || s.authorised f.p (memMod (dField f.d 0x58 64)))

end Sys2Proof.Machine
end

