-- ==== Sys2Proof/Machine/Admission.lean ====
section
/-! DEFINITION. Doorbells and admission (R185 to R198, R203, R210, R275, R276, R280): what a doorbell write does, a turn of the admission
controller, and the resuming of paused queues. -/

namespace Sys2Proof.Machine

/-- A wake of a parked module (R403, R405): the return to Ready begins. -/
def State.wake (s : State) : State :=
  if s.power.state = 4 || s.power.state = 6 then
    (({ s with power := { s.power with state := 5, since := s.timeNow, parkWait := false } }.setFld pgPower 0
      F.POWER_POWER_STATUS_STATE 5).bump pgPower 0 R.POWER_WAKES 1).progress pgPower 0 2 0 2
  else if s.power.state = 3 then { s with power := { s.power with idleSince := s.timeNow } }
  else s

/-- Host page numbers of a queue's three areas (R184, R302). -/
def State.ringPages (s : State) (q : Nat) : List Nat :=
  [(R.QCTX_SQ_BASE, 128), (R.QCTX_CQ_BASE, 32), (R.QCTX_ADM_BASE, 16)].flatMap (fun a =>
    let base := s.qreg q a.1
    if isHost base then (List.range (ceilDiv (a.2 * s.qSize q) 4096)).map (fun i => base % 2 ^ 63 / 4096 + i) else [])

/-- Whether a translation of the queue's areas is awaited. -/
def State.ringWaits (s : State) (q : Nat) : Bool := s.cxl.ringWait.any (fun w => w.1 = q)

/-- Request a ring page's translation. -/
def State.ringAsk (s : State) (q v : Nat) : State :=
  let w := (s.cxl.ringWait.filter (fun w => !(w.1 = q && w.2.1 = v))) ++ [(q, v, 0)]
  ({ s with cxl := { s.cxl with ringWait := w } }.emit .atsRequest [s.queueOwner q, v]).bump pgCxl 0 R.CXL_ATS_REQ 1

/-- A doorbell to a queue with a ring fault: translations are asked for again; with all of them held the queue reads on (R302). -/
def State.ringRetry (s : State) (q : Nat) : State :=
  if !(s.queue q).ringFault then s
  else if s.ringWaits q then ((s.cxl.ringWait.filter (fun w => w.1 = q)).map (·.2.1)).foldl (fun s v => s.ringAsk q v) s
  else s.updQueue q (fun x => { x with ringFault := false })

/-! ### Pool queues and the replay of the arbitration (R275, R280) -/

/-- Whether a queue is a pool queue of its partition (R275): bank 0 counts in global numbers. -/
def State.poolQueue (s : State) (q : Nat) : Bool :=
  let p := s.queueOwner q
  let f := s.fld pgPartition p F.PARTITION_POOL_CFG_POOL_QFIRST
  f ≠ 0xFFFF && decide (f ≤ (if p = 0 then q else q - (s.queueRange p).1))

def State.tAvg (s : State) : Nat := s.reg pgPartition 0 R.PARTITION_T_AVG_NS

/-- A cluster that runs a task in the replay: its end and start, partition and class. -/
structure RpRun where
  endT : Nat
  startT : Nat
  p : Nat
  cls : Nat
  marked : Bool
  deriving DecidableEq, Repr

/-- The replay's state: time, free clusters, running and waiting tasks (task, partition, class), deficits, cursors, time used in
the budget window. -/
structure Rp where
  now : Nat
  free : Nat
  runs : List RpRun
  wait : List (Nat × Nat × Nat)
  deficits : Store (List Int)
  cursors : List Nat
  used : Store Nat
  grants : Nat
  deriving DecidableEq, Repr

def Rp.deficit (r : Rp) (p c : Nat) : Int := ((sget r.deficits p).getD [0, 0, 0, 0]).getD c 0
def Rp.setDeficit (r : Rp) (p c : Nat) (v : Int) : Rp :=
  { r with deficits := sset r.deficits p (((sget r.deficits p).getD [0, 0, 0, 0]).set c v) }

def Rp.eligible (s : State) (r : Rp) (c p : Nat) : Bool :=
  let b := s.reg pgPartition p R.PARTITION_POOL_BUDGET_MS
  r.wait.any (fun w => w.2.1 = p && w.2.2 = c) && s.poolWeight p ≠ 0 &&
    decide ((r.runs.filter (fun x => x.p = p)).length < s.fld pgPartition p F.PARTITION_POOL_CFG_POOL_CAP) &&
    (b = 0 || decide ((sget r.used p).getD 0 / 1000000 < b))

/-- Grant the oldest waiting task of a partition and class. -/
def Rp.grant (s : State) (r : Rp) (p c : Nat) : Rp × Option Nat :=
  match r.wait.find? (fun w => w.2.1 = p && w.2.2 = c) with
  | none => (r, none)
  | some w =>
    ({ r with
       wait := r.wait.filter (fun v => v.1 ≠ w.1)
       runs := r.runs ++ [{ endT := r.now + s.tAvg, startT := r.now, p := p, cls := c, marked := false }]
       free := r.free - 1
       grants := r.grants + 1 }, some w.1)

/-- Visits of one class (R278). -/
def Rp.visit (s : State) (r : Rp) (c : Nat) : Nat → Rp × Option Nat
  | 0 => (r, none)
  | fuel + 1 =>
    let cur := r.cursors.getD c 0
    match ((List.range 256).map (fun i => (cur + i) % 256)).find? (fun p => r.eligible s c p) with
    | none => (r, none)
    | some p =>
      let r := { r with cursors := r.cursors.set c ((p + 1) % 256) }
      let d : Int := r.deficit p c + Int.ofNat (s.reg pgPartition 0 R.PARTITION_QUANTUM_NS * s.poolWeight p)
      let r := r.setDeficit p c d
      if 0 < d then r.grant s p c else Rp.visit s r c fuel

/-- A decision with a free cluster (R278). -/
def Rp.choose (s : State) (r : Rp) : Rp × Option Nat :=
  match [3, 2, 1, 0].find? (fun c => (List.range 256).any (fun p => r.eligible s c p)) with
  | some c => r.visit s c (s.poolFuel + 256 * (s.tAvg / max 1 (s.reg pgPartition 0 R.PARTITION_QUANTUM_NS) + 2))
  | none => (r, none)

/-- A running task ends (R278): its partition keeps the cluster while its deficit is positive. -/
def Rp.ended (s : State) (r : Rp) (x : RpRun) : Rp × Option Nat :=
  let held := x.endT - x.startT
  let r := { r with
    runs := r.runs.erase x
    free := r.free + 1
    used := sset r.used x.p ((sget r.used x.p).getD 0 + held) }
  let r := r.setDeficit x.p x.cls (r.deficit x.p x.cls - Int.ofNat held)
  let waits := r.wait.any (fun w => w.2.1 = x.p && w.2.2 = x.cls)
  if waits && decide (0 < r.deficit x.p x.cls) && !x.marked && r.eligible s x.cls x.p then r.grant s x.p x.cls
  else
    let r := if !waits && decide (0 < r.deficit x.p x.cls) then r.setDeficit x.p x.cls 0 else r
    r.choose s

/-- Run the replay until it grants the task: (grants before it, start time). -/
def Rp.run (s : State) (r : Rp) (tid : Nat) : Nat → Option (Nat × Nat) × Nat
  | 0 => (none, r.grants)
  | fuel + 1 =>
    let next := if r.free = 0 then (r, none) else r.choose s
    match next.2 with
    | some t => if t = tid then (some (r.grants, r.now), next.1.grants) else Rp.run s next.1 tid fuel
    | none =>
      let r := next.1
      let win := 1000000000 * s.reg pgPartition 0 R.PARTITION_BUDGET_WINDOW_S
      let boundary := (r.now / win + 1) * win
      let blocked := r.wait.any (fun w => let b := s.reg pgPartition w.2.1 R.PARTITION_POOL_BUDGET_MS
        b ≠ 0 && decide (b ≤ (sget r.used w.2.1).getD 0 / 1000000))
      match r.runs.foldl (fun (o : Option RpRun) x => match o with
          | none => some x
          | some y => if x.endT < y.endT then some x else some y) none with
      | some x =>
        if blocked && decide (boundary < x.endT) then Rp.run s { r with now := boundary, used := [] } tid fuel
        else
          let e := Rp.ended s { r with now := max r.now x.endT } x
          match e.2 with
          | some t => if t = tid then (some (r.grants, e.1.now), e.1.grants) else Rp.run s e.1 tid fuel
          | none => Rp.run s e.1 tid fuel
      | none =>
        if blocked then Rp.run s { r with now := boundary, used := [] } tid fuel else (none, r.grants)

/-- The replay's starting state: running tasks end at their start plus T_AVG_NS, or at once. -/
def State.replayInit (s : State) : Rp :=
  let runs := s.poolClusters.filterMap (fun g => match (s.cluster g).runQ with
    | some q => ((s.queue q).tasks.find? (fun t => t.cluster = some g)).map (fun t =>
        ({ endT := max s.timeNow (t.startT + s.tAvg), startT := t.startT, p := s.queueOwner q, cls := t.cls,
           marked := (s.cluster g).marked } : RpRun))
    | none => none)
  let wait := sortOn (fun w => w.1) (s.partNums.flatMap (fun p => [0, 1, 2, 3].flatMap (fun c =>
    (s.waitingIn p c).map (fun w => (w.1, p, c)))))
  { now := s.timeNow, free := s.freePool.length, runs := runs, wait := wait,
    deficits := s.parts.map (fun e => (e.1, e.2.deficit)), cursors := s.adm.cursors,
    used := s.parts.map (fun e => (e.1, e.2.usedNs)), grants := 0 }

/-- POSITION and estimated start of a head task that waits (R280). -/
def State.replay (s : State) (tid : Nat) : Nat × Nat :=
  let r := s.replayInit
  match r.run s tid (4 * (r.wait.length + r.runs.length) + 8) with
  | (some (g, t), _) => (1 + g, t)
  | (none, g) => (1 + g, 2 ^ 64 - 1)

/-- POSITION and estimate of the tasks of a queue in order, the earlier one's first (R280). -/
def State.queuePos (s : State) (prev : Option (Task × Nat × Nat)) : List Task → Nat → Nat × Nat
  | [], _ => (1, s.timeNow)
  | t :: r, tid =>
    let here : Nat × Nat := match prev with
      | none => if t.served then (1, t.startT) else s.replay t.id
      | some (u, pos, est) =>
        if u.cluster.isSome then (1, u.startT + s.tAvg) else (pos + 1, min (2 ^ 64 - 1) (est + s.tAvg))
    if t.id = tid then here else State.queuePos s (some (t, here.1, here.2)) r tid

def State.position (s : State) (q tid : Nat) : Nat × Nat := s.queuePos none (s.queue q).tasks tid

/-! ### Reading a queue -/

/-- Admitted descriptors without a completion record. -/
def QueueX.outstanding (x : QueueX) : Nat := (x.cmds.filter (fun c => !c.recorded)).length

/-- Whether a queue's last read descriptor was a STEP_BOUNDARY that has not completed (R44; DEDUCED log 33). -/
def QueueX.behindStep (x : QueueX) : Bool :=
  match x.cmds.getLast? with
  | some c => dOpcode c.desc = opSTEP_BOUNDARY && !c.recorded && x.rdSaved.isNone
  | none => false

/-- The admission controller may read the next descriptor of a queue (R186, R208, R302). -/
def State.canRead (s : State) (q : Nat) : Bool :=
  let x := s.queue q
  let n := s.qSize q
  let unread := (x.cqTail + n - x.cqHead) % n
  s.qEnabled q && x.rd ≠ x.tail && x.state ≠ 3 && !x.ringFault && !s.ringWaits q && decide (x.outstanding < 256) &&
    decide (unread + x.outstanding + 1 < n) && !x.behindStep && (s.part (s.queueOwner q)).state ≠ 3

/-- The open task of a queue: the first whose closing barrier has not been read. -/
def QueueX.open? (x : QueueX) : Option Task := x.tasks.find? (fun t => !t.closed)

/-- Read a descriptor and its tensor descriptors; their bytes count for the partition (R287). -/
def State.readForm (s : State) (q slot : Nat) : Form × State :=
  let p := s.queueOwner q
  let a := s.qreg q R.QCTX_SQ_BASE + 128 * slot
  let d := BitVec.ofNat 1024 (s.rdLE p a 128)
  let td := fun (n : Nat) => if dTdesc d n = 0 then 0#1024 else BitVec.ofNat 1024 (s.rdLE p (dTdesc d n) 128)
  let n := ([0, 1, 2].filter (fun i => dTdesc d i ≠ 0)).length
  ({ p := p, q := q, pool := s.poolQueue q, d := d, t0 := td 0, t1 := td 1, t2 := td 2 },
   ((s.countBytes p a 128).meter p R.METER_HBM_BYTES (128 * n)))

/-- A GATHER's stack feeds the slot-0 operand of the task's next GEMM with the same tensor descriptor (R229): whether an
earlier GATHER of the task waits for this GEMM. -/
def sprueFed (x : QueueX) (tid : Nat) (f : Form) : Bool :=
  isGemm f.op && dTdesc f.d 0 ≠ 0 &&
    (let mine := x.cmds.filter (fun c => c.task = tid && !c.recorded)
     mine.any (fun c => dOpcode c.desc = opGATHER && (tdOf c.td2 0).flags % 2 = 1 && dTdesc c.desc 2 = dTdesc f.d 0 &&
       !mine.any (fun k => isGemm (dOpcode k.desc) && dTdesc k.desc 0 = dTdesc c.desc 2 && k.slot ≠ c.slot &&
         decide (c.admitT ≤ k.admitT))))

/-- A task that closes with a GATHER whose sprues no GEMM reads (R229). -/
def sprueUnmatched (x : QueueX) (tid : Nat) : Bool :=
  let mine := x.cmds.filter (fun c => c.task = tid)
  mine.any (fun c => dOpcode c.desc = opGATHER && (tdOf c.td2 0).flags % 2 = 1 &&
    !mine.any (fun k => isGemm (dOpcode k.desc) && dTdesc k.desc 0 = dTdesc c.desc 2))

/-- Ranges of a task so far: inputs, outputs, in-place ranges. -/
def taskCounts (x : QueueX) (tid : Nat) : Nat × Nat × Nat :=
  let mine := x.cmds.filter (fun c => c.task = tid)
  ((mine.map (fun c => c.ins.length)).sum, (mine.map (fun c => c.outs.length)).sum, (mine.map (fun c => c.inpl.length)).sum)

/-- The engine that a stream claim names (R77): the opcode's unit and its target (DEDUCED log 34). -/
def engineKey (f : Form) : Nat :=
  let op := f.op
  (if isGemm op then 1 else if op = opVECTOR then 2 else if isMove op then 3 else if op = opUPDATE then 4 else 5) +
    8 * (dTarget f.d % 2 ^ 24)

/-- Claim the streams of a descriptor, or the stream ID that refuses it (R77). -/
def claimStreams (cl : List Claim) (f : Form) (slot : Nat) : Sum Nat (List Claim) :=
  let e := engineKey f
  [dStream0 f.d, dStream1 f.d].foldl (fun r st => match r with
    | .inl i => .inl i
    | .inr l =>
      if st = 0 then .inr l
      else if l.any (fun k => k.stream = st && k.engine ≠ e) && !dFlag f.d flSHARED then .inl st
      else .inr (l ++ [{ stream := st, q := f.q, slot := slot, engine := e }])) (.inr cl)

/-- Check 5 (R203): the slot whose range conflicts. A COPY that overlaps itself is exempt from the first case through its in-place
destination. -/
def aliasSlot (x : QueueX) (tid slot : Nat) (decl : List Range × List Range × List Range) : Option Nat :=
  if anyOverlap decl.2.1 decl.1 then some slot
  else (x.cmds.find? (fun c => c.task = tid && anyOverlap (decl.2.1 ++ decl.2.2) c.ins)).map (·.slot)

/-- Delayed tasks of a partition. -/
def State.delayedTasks (s : State) (p : Nat) : Nat :=
  (s.queues.map (fun e => if s.queueOwner e.1 = p then
    (e.2.tasks.filter (fun t => t.pool && !t.served && !t.refused && !t.aborted)).length else 0)).sum

/-- The quota case that refuses a task's first descriptor (R276); 0 for none. -/
def State.quotaCase (s : State) (p : Nat) (pool : Bool) : Nat :=
  if !pool then (if (s.clustersOf p).isEmpty then 1 else 0)
  else if s.poolWeight p = 0 || s.fld pgPartition p F.PARTITION_POOL_CFG_POOL_CAP = 0 then 2
  else if s.overBudget p then 3 else 0

/-! ### Refusal (R195 to R197) -/

/-- SQ_HEAD passes a task that is refused, skipped or complete. -/
def State.dropTask (s : State) (q tid next : Nat) : State :=
  s.updQueue q (fun x =>
    let ts := x.tasks.filter (fun t => t.id ≠ tid)
    { x with
      tasks := ts
      cmds := x.cmds.filter (fun c => c.task ≠ tid)
      sqHead := next
      restarts := 0
      state := if x.state = 3 then 3 else if ts.isEmpty then 1 else 2 })

/-- The closing descriptor of a refused or skipped task: an aborted arrival, and the task is gone (R197, R199). -/
def State.closeRefused (s : State) (q tid slot : Nat) (d : BitVec 1024) : State :=
  let p := s.queueOwner q
  let t := findTask (s.queue q).tasks tid
  let page := s.barrierPage p t
  let s := s.dropTask q tid ((slot + 1) % s.qSize q)
  let s := match t with
    | some t => s.poolTaskEnd q t false
    | none => s
  let s := s.nextHead q
  s.arriveAt p (dField d 0x54 16)
    { q := q, slot := slot, count := dField d 0x56 16, layer := dOpcode d = opBARRIER && dFlag d flLAYER, aborted := true,
      step := dOpcode d = opSTEP_BOUNDARY } page

/-- A task struct for a first descriptor. -/
def newTask (id slot cls now : Nat) (pool : Bool) : Task :=
  { id := id, first := slot, cls := cls, pool := pool, served := false, delayed := false, refused := false, aborted := false,
    closed := false, inPlace := false, cluster := none, startT := now, admitT := now, lastProg := now, poolMark := now }

/-- The task a descriptor belongs to: the open one, or a new one. -/
def State.openTask (s : State) (q slot : Nat) : Task × State :=
  match (s.queue q).open? with
  | some t => (t, s)
  | none =>
    let t := newTask s.adm.nextTask slot (s.qPrio q) s.timeNow (s.poolQueue q)
    (t, { (s.updQueue q (fun x => { x with tasks := x.tasks ++ [t], state := 2 })) with
          adm := { s.adm with nextTask := s.adm.nextTask + 1 } })

/-- Refuse a descriptor and with it its task (R196, R197). A NOT_OWNED refusal is also a violation (R195). -/
def State.refuse (s : State) (f : Form) (slot : Nat) (r : Refuse) : State :=
  let q := f.q
  let p := f.p
  let s := s.admRecord q slot 3 r.reason r.detail r.pos s.timeNow
  let s := s.bump pgAdmission 0 R.ADMISSION_ADM_REFUSED 1
  let s := s.bump pgAdmission p (R.ADMISSION_REFUSE_1 + 8 * (r.reason - 1)) 1
  let s := s.bump (queuePage q) 0 R.QUEUE_CTX_REFUSED 1
  let s := s.meter p R.METER_REFUSALS 1
  let s := s.updQueue q (fun x => { x with lastReason := r.reason })
  let s := s.qIrq q
  let s := if r.reason = rNOT_OWNED then s.violation p 1 (.queue q) q else s
  let ts := s.openTask q slot
  let s := ts.2
  let tid := ts.1.id
  let s := if ts.1.refused then s else s.endTaskCmds q tid none 0 0 0x12
  let s := match findTask (s.queue q).tasks tid with
    | some t => s.putTask q { t with refused := true, aborted := false }
    | none => s
  let s := s.updPart p (fun x => { x with abandoned := true })
  if closesTask f.op then s.closeRefused q tid slot f.d else s

/-! ### Acceptance -/

/-- The command of an admitted descriptor. -/
def mkCmd (f : Form) (slot tid now : Nat) (decl : List Range × List Range × List Range) (members clusters : List Nat)
    (aliveBad : Bool) : Cmd :=
  { slot := slot, task := tid, part := f.p, desc := f.d, td0 := f.t0, td1 := f.t1, td2 := f.t2, admitT := now, startT := none,
    done := false, recorded := false, code := 0, cause := 0, count := 0, runs := 0, pos := 0, members := members,
    clusters := clusters, haltNs := [], held0 := 0, ins := decl.1, outs := decl.2.1, inpl := decl.2.2, fmt := 0, fmtIn0 := 0, fmtIn1 := 0,
    wrote := false, waitPages := [], hostPages := [], aliveBad := aliveBad, phase := 0 }

/-- The alive counter of a queue (R198): whether the value matches, and the next expected one. -/
def State.aliveCheck (s : State) (f : Form) : Bool × State :=
  if !dFlag f.d flALIVE_EN then (false, s)
  else
    let bad := dAlive f.d ≠ s.qreg f.q R.QCTX_ALIVE_NEXT % 65536
    (bad, (s.setQreg f.q R.QCTX_ALIVE_NEXT ((dAlive f.d + 1) % 65536)).updQueue f.q (fun x => { x with aliveUsed := true }))

/-- A task may start: a pool task when its cluster is granted, any other at once once it heads its queue or not (R197, R275). -/
def State.tryServe (s : State) (q tid : Nat) : State :=
  match findTask (s.queue q).tasks tid with
  | none => s
  | some t =>
    if t.served then s
    else if !t.pool then s.putTask q { t with served := true, startT := s.timeNow }
    else if (s.queue q).tasks.head?.map (·.id) = some tid then s.poolArrived (s.queueOwner q) else s

/-- Admit a descriptor that passed the checks: claims, command, record (R196 to R198). -/
def State.accept (s : State) (f : Form) (slot tid : Nat) (decl : List Range × List Range × List Range) (claims : List Claim)
    (gs : List Nat) : State :=
  let q := f.q
  let p := f.p
  let s := s.updPart p (fun x => { x with
    claims := claims
    closingSeen := x.closingSeen || (f.op = opCOLLECTIVE && dFlag f.d flCLOSING)
    updateSeen := x.updateSeen || f.op = opUPDATE })
  let al := s.aliveCheck f
  let s := al.2
  let c := mkCmd f slot tid s.timeNow decl (s.enginesOn f.d slot gs (s.copyOverlap f)) gs al.1
  let s := s.updQueue q (fun x => { x with
    cmds := x.cmds ++ [c]
    tasks := x.tasks.map (fun t => if t.id = tid then
      { t with closed := t.closed || closesTask f.op, inPlace := t.inPlace || !decl.2.2.isEmpty } else t) })
  let s := s.bump (queuePage q) 0 R.QUEUE_CTX_ADMITTED 1
  let t := (findTask (s.queue q).tasks tid).getD (newTask 0 0 0 0 false)
  let s := if t.served then
      (s.admRecord q slot 1 0 0 0 s.timeNow).bump pgAdmission 0 R.ADMISSION_ADM_SERVED 1
    else
      let pe := s.position q tid
      let s := s.putTask q { t with delayed := true }
      ((s.admRecord q slot 2 0 0 pe.1 pe.2).bump pgAdmission 0 R.ADMISSION_ADM_DELAYED 1).poolMark
  let s := if closesTask f.op then
      s.updQueue q (fun x => match x.rdSaved with
        | some r => { x with rd := r, rdSaved := none }
        | none => x)
    else s
  if al.1 then s.abortTask q tid (some slot) 0x14 0x20 else s

/-- Checks 3 to 10 of R195 for a descriptor of an open task or of a new one: a refusal, or the state with the task in place
and what acceptance needs. -/
def State.admitChecks (s : State) (f : Form) (slot : Nat) :
    Sum (Refuse × State) (State × Nat × (List Range × List Range × List Range) × List Claim × List Nat) :=
  let x := s.queue f.q
  let first := x.open?.isNone
  let tid := match x.open? with
    | some t => t.id
    | none => 0
  let fed := !first && sprueFed x tid f
  let gs := if f.pool || !usesTarget f.op then [] else (s.targetClusters f.p f.d).getD []
  let n := if first then (0, 0, 0) else taskCounts x tid
  match s.formDetail f gs fed n.1 n.2.1 n.2.2 (closesTask f.op && !first && sprueUnmatched x tid) with
  | some m => .inl (⟨rMALFORMED, m, 0⟩, s)
  | none =>
    if !s.formOwned f fed then .inl (⟨rNOT_OWNED, 0, 0⟩, s)
    else
      let decl := s.declared f fed
      match if first then aliasSlot { x with cmds := [] } 0 slot decl else aliasSlot x tid slot decl with
      | some a => .inl (⟨rALIAS, 0, a⟩, s)
      | none =>
        if s.copyOverlap f && decide (4194304 < (f.td 0).elemBytes + (f.td 0).scaleBytes) then .inl (⟨rOVERLAP, 0, 0⟩, s)
        else match claimStreams (s.part f.p).claims f slot with
          | .inl st => .inl (⟨rSTREAM_CLAIMED, 0, st⟩, s)
          | .inr claims =>
            if first && decide (1024 ≤ s.delayedTasks f.p) then .inl (⟨rQUEUE_FULL, 0, 0⟩, s)
            else
              let qc := if first then s.quotaCase f.p f.pool else 0
              if qc ≠ 0 then
                .inl (⟨rQUOTA, 0, 0⟩, (s.setReg pgAdmission f.p R.ADMISSION_ADM_QUOTA_LAST qc).bump pgAdmission f.p
                  R.ADMISSION_QUOTA_CASES 1)
              else
                let ts := s.openTask f.q slot
                let s1 := ts.2.tryServe f.q ts.1.id
                let t := (findTask (s1.queue f.q).tasks ts.1.id).getD ts.1
                let est := if t.served then s1.timeNow else (s1.position f.q ts.1.id).2
                if dDeadline f.d ≠ 0 && decide (dDeadline f.d ≤ est) then .inl (⟨rDEADLINE, 0, 0⟩, s)
                else .inr (s1, ts.1.id, decl, claims, gs)

/-- Admit one descriptor of a queue (R195): FROZEN, SKIPPED, then the other checks. -/
def State.admitNext (s : State) (q : Nat) : State :=
  let x := s.queue q
  let slot := x.rd
  let rf := s.readForm q slot
  let f := rf.1
  let n := s.qSize q
  let wrap := slot + 1 = n
  let s := rf.2.updQueue q (fun x => { x with
    rd := if wrap then 0 else slot + 1 })
  let adv := fun (s : State) => if wrap then s.updQueue q (fun x => { x with admPass := x.admPass + 1 }) else s
  if x.frozen then adv (s.refuse f slot ⟨rFROZEN, 0, 0⟩)
  else if (match x.open? with | some t => t.refused | none => false) then adv (s.refuse f slot ⟨rSKIPPED, 0, 0⟩)
  else match s.admitChecks f slot with
    | .inl (r, s) => adv (s.refuse f slot r)
    | .inr (s, tid, decl, claims, gs) => adv (s.accept f slot tid decl claims gs)

/-- The first of the places that the next descriptor of a queue needs (its slot, its admission record, the completion record it will
have) that lies in HBM outside the partition's reservation (R283 kind 2). -/
def State.ringOut (s : State) (q : Nat) : Option Nat :=
  let x := s.queue q
  let slot := x.rd
  [(R.QCTX_SQ_BASE, 128, slot), (R.QCTX_ADM_BASE, 16, slot), (R.QCTX_CQ_BASE, 32, (x.cqTail + x.outstanding) % s.qSize q)].findSome?
    (fun r =>
      let a := s.qreg q r.1 + r.2.1 * r.2.2
      if isHost a || s.inReservation (s.queueOwner q) a (a + r.2.1 - 1) then none else some a)

/-- At most `n` descriptors of a queue. A queue whose rings leave the reservation reads nothing. -/
def State.admitMany (s : State) (q : Nat) : Nat → State
  | 0 => s
  | n + 1 =>
    if !s.canRead q then s
    else match s.ringOut q with
      | some a => if (s.queue q).frozen then s else s.outside q (s.queueOwner q) a
      | none => (s.admitNext q).admitMany q n

/-- A doorbell joins the admission controller's FIFO. -/
def State.enqueue (s : State) (q : Nat) : State := { s with adm := { s.adm with fifo := s.adm.fifo ++ [q] } }

/-- One turn of the admission controller (R187): up to 16 descriptors of the queue at the head; the doorbell goes back to the
tail while descriptors remain. A paused or disabled queue's doorbell is dropped; resuming enters it again. -/
def State.turn (s : State) : State :=
  match s.adm.fifo with
  | [] => s
  | q :: r =>
    let s := { s with adm := { s.adm with fifo := r } }
    let s := s.admitMany q 16
    let x := s.queue q
    if x.rd ≠ x.tail && x.state ≠ 3 && s.qEnabled q && !x.ringFault && (s.ringOut q).isNone then s.enqueue q else s

/-! ### Doorbells (R185, R187, R283) -/

/-- Why a doorbell write does not reach its queue: dropped silently, as a frozen function's write, as a violation, or as a bad
doorbell; else the state goes on. -/
def State.doorbell (s : State) (p q : Nat) (k : State → State) : State :=
  if !s.ready || (s.part p).state = 0 then s
  else if (s.part p).hostFrozen then s.meter p R.METER_VIOLATIONS 1
  else if s.queueOwner q ≠ p then s.violation p 3 (.host p) q
  else if !s.qEnabled q then s.notice (queuePage q) caBAD_DOORBELL 0
  else k s

def State.badDoorbell (s : State) (q : Nat) : State := s.notice (queuePage q) caBAD_DOORBELL 0

/-- A write of SQ_TAIL (R187, R302, R405). -/
def State.sqTail (s : State) (p q v : Nat) : State :=
  s.doorbell p q (fun s =>
    let i := v % 65536
    let s := s.wake
    if s.qSize q ≤ i then s.badDoorbell q
    else if i = (s.queue q).tail then s
    else ((s.updQueue q (fun x => { x with tail := i, state := if x.state = 0 then 1 else x.state })).ringRetry q).enqueue q)

/-- A write of CQ_HEAD (R186, R187): a queue that had stopped for want of completion entries goes on. -/
def State.cqHeadWrite (s : State) (p q v : Nat) : State :=
  s.doorbell p q (fun s =>
    let i := v % 65536
    let s := s.wake
    if s.qSize q ≤ i then s.badDoorbell q
    else
      let s := (s.updQueue q (fun x => { x with cqHead := i })).ringRetry q
      if (s.queue q).rd ≠ (s.queue q).tail && !s.adm.fifo.contains q then s.enqueue q else s)

/-- The aborted task of a paused queue. -/
def QueueX.aborted? (x : QueueX) : Option Task := x.tasks.find? (fun t => t.aborted)

/-- RESTART (R210): the paused task is read again from its first slot. -/
def State.restartTask (s : State) (q : Nat) : State :=
  let x := s.queue q
  match x.aborted? with
  | none => s
  | some t =>
    let s := s.updQueue q (fun x => { x with
      cmds := x.cmds.filter (fun c => c.task ≠ t.id)
      tasks := x.tasks.map (fun u => if u.id = t.id then { u with aborted := false, closed := false, inPlace := false } else u)
      rd := t.first
      rdSaved := if t.closed then some x.rd else x.rdSaved
      admPass := if x.rd < t.first then x.admPass - 1 else x.admPass
      restarts := x.restarts + 1
      state := 2 })
    (s.progress (queuePage q) 0 1 0 q).enqueue q

/-- SKIP (R210): the paused task is given up; its barrier receives an aborted arrival and its step is abandoned. -/
def State.skipTask (s : State) (q : Nat) : State :=
  let x := s.queue q
  match x.aborted? with
  | none => s
  | some t =>
    let s := s.updPart (s.queueOwner q) (fun y => { y with abandoned := true })
    let s := s.updQueue q (fun x => { x with state := 2 })
    let s := s.meter (s.queueOwner q) R.METER_TASKS 1
    let s := s.putTask q { t with refused := true, aborted := false }
    let s := match (x.cmds.find? (fun c => c.task = t.id && closesTask (dOpcode c.desc))) with
      | some c => s.closeRefused q t.id c.slot c.desc
      | none => s
    if (s.queue q).rd ≠ (s.queue q).tail then s.enqueue q else s

/-- The task that QCMD.ABORT and ABORT_ALL end: the first of the queue that runs or waits. -/
def QueueX.liveTask? (x : QueueX) : Option Task :=
  x.tasks.find? (fun t => !t.aborted && !t.refused && x.cmds.any (fun c => c.task = t.id && !c.recorded))

/-- A write of QCMD (R187, R210): exactly one bit, and one that the queue's state allows. -/
def State.qcmd (s : State) (p q v : Nat) : State :=
  s.doorbell p q (fun s =>
    let s := s.wake
    let x := s.queue q
    let b := v % 8
    if b = 0 then s
    else if b = 1 then
      if x.state = 3 && !x.frozen && (match x.aborted? with | some t => !t.inPlace | none => false) then s.restartTask q
      else s.badDoorbell q
    else if b = 2 then
      if x.state = 3 && !x.frozen && x.aborted?.isSome then s.skipTask q else s.badDoorbell q
    else if b = 4 then
      match x.liveTask? with
      | some t => if x.state = 2 && !x.frozen then s.abortWhole q t.id 0x0E else s.badDoorbell q
      | none => s.badDoorbell q
    else s.badDoorbell q)

/-! ### Commands -/

def execSqTail (p q : Nat) (v : W32) (s : State) : Result := .next (s.sqTail p q v.toNat)
def execCqHead (p q : Nat) (v : W32) (s : State) : Result := .next (s.cqHeadWrite p q v.toNat)
def execRestart (p q : Nat) (v : W32) (s : State) : Result := .next (s.qcmd p q v.toNat)
def execSkip (p q : Nat) (v : W32) (s : State) : Result := .next (s.qcmd p q v.toNat)
def execAbort (p q : Nat) (v : W32) (s : State) : Result := .next (s.qcmd p q v.toNat)
def execAdmissionTurn (s : State) : Result := .next s.turn

end Sys2Proof.Machine
end

