-- ==== Sys2Proof/Machine/Start.lean ====
section
/-! DEFINITION. Starting and completing commands (R202, R206, R389): when an admitted command may start, what starting records, halts of
control cores, and the common completion. -/

namespace Sys2Proof.Machine

/-! ### Halting a control core (R389, R390) -/

/-- A started command that waits on other modules (R390). -/
def waitsOutside (op : Nat) : Bool := op = opCOLLECTIVE || op = opLINK_SEND || op = opLINK_RECV || op = opSNAPSHOT

/-- Engines that a control core controls and that hold commands. -/
def State.busyEngines (s : State) (page : Nat) : Nat :=
  (dedup (s.queues.flatMap (fun e => (e.2.cmds.filter (fun c =>
    !c.recorded && c.startT.isSome && !waitsOutside (dOpcode c.desc))).flatMap (fun c =>
      c.members.filter (fun m => issuingCore m = page))))).length

def State.coreStopped (s : State) (page : Nat) : Bool :=
  (s.dbgOf page).frozen || (s.coreHalted page && !(s.dbgOf page).stepping)

/-- A control core halts: draining while its engines hold commands (R390). Where its firmware stands is free (DESIGN CHOICE log 6). -/
def State.haltCore (s : State) (page cause bp : Nat) : State :=
  if s.coreStopped page then s
  else
    let n := s.busyEngines page
    let pc := 2 * (s.freeVal.toNat % 2 ^ 47)
    let s := s.freshen.updDbg page (fun d => { d with halted := n = 0, wantHalt := n ≠ 0, stepping := false, since := s.timeNow, pc := pc })
    let s := ((s.setFld page 0 F.DBG_DBG_STATUS_STATE (if n = 0 then 2 else 1)).setFld page 0 F.DBG_DBG_STATUS_CAUSE cause).setFld
      page 0 F.DBG_DBG_STATUS_BP bp
    let s := (s.setReg page 0 R.DBG_DBG_PC (s.dbgOf page).pc).setReg page 0 R.DBG_HALT_BEGIN s.timeNow
    let s := s.bump page 0 R.DBG_HALTS 1
    let s := if cause = 2 then s.bump page 0 R.DBG_BP_HITS 1 else s
    if n = 0 then s else s.progress page 0 1 0 n

/-- Whether PC breakpoint n of a control core is armed (R389). -/
def State.pcArmed (s : State) (page n : Nat) : Bool := bitsOf (s.reg page 0 (R.DBG_BP_CFG_0 + 4 * n)) 1 0 = 1

/-- The breakpoint that hits before a control core dispatches a command (R389). Whether its firmware comes to the instruction of an armed PC
breakpoint on the way is free, what the firmware executes being open (DESIGN CHOICE log 6); a dispatch breakpoint hits unless the command has passed it. -/
def State.bpHit (s : State) (page : Nat) (d : BitVec 1024) : Option Nat :=
  match (List.range 8).find? (fun n => s.pcArmed page n && (Config.free (s.fresh + page)).toNat.testBit n) with
  | some n => some n
  | none =>
    if (s.dbgOf page).pass then none
    else (List.range 8).find? (fun n =>
      let cfg := s.reg page 0 (R.DBG_BP_CFG_0 + 4 * n)
      bitsOf cfg 1 0 = 2 && (bitsOf cfg 9 2 = 0 || bitsOf cfg 9 2 = dOpcode d) &&
        (!cfg.testBit 10 || s.reg page 0 (R.DBG_BP_VAL_0 + 8 * n) % 2 ^ 32 = dTaskId d))

/-- The free values that the armed PC breakpoints of control cores used up, one number per page. -/
def State.pcPassed (s : State) (cores : List Nat) : State :=
  if cores.any (fun m => (List.range 8).any (s.pcArmed m)) then { s with fresh := s.fresh + 0x20000 } else s

/-- Halt at a dispatch breakpoint; a ONCE breakpoint disarms. -/
def State.bpHalt (s : State) (page n : Nat) : State :=
  let cfg := s.reg page 0 (R.DBG_BP_CFG_0 + 4 * n)
  let pc := s.pcArmed page n
  let s := s.pcPassed [page]
  let s := if cfg.testBit 11 then s.setReg page 0 (R.DBG_BP_CFG_0 + 4 * n) (putBits cfg 1 0 0) else s
  let s := s.haltCore page 2 n
  if pc then
    let at_ := 2 * bitsOf (s.reg page 0 (R.DBG_BP_VAL_0 + 8 * n)) 47 1
    (s.updDbg page (fun d => { d with pcHit := true, pc := at_ })).setReg page 0 R.DBG_DBG_PC at_
  else s.updDbg page (fun d => { d with pcHit := false })

/-! ### May a command start? (R202) -/

def Form.ofCmd (c : Cmd) (q : Nat) (pool : Bool) : Form :=
  { p := c.part, q := q, pool := pool, d := c.desc, t0 := c.td0, t1 := c.td1, t2 := c.td2 }

/-- Commands of a queue before a command: those of earlier tasks, then earlier ones of its task. -/
def QueueX.before (x : QueueX) (c : Cmd) : List Cmd :=
  let early := (x.tasks.takeWhile (fun t => t.id ≠ c.task)).map (·.id)
  (x.cmds.filter (fun k => early.contains k.task)) ++
    ((x.cmds.filter (fun k => k.task = c.task)).takeWhile (fun k => k.slot ≠ c.slot || k.recorded))

/-- Every unrecorded earlier command of a partition's step, for a CLOSING collective (R168). -/
def State.stepBusy (s : State) (p q slot : Nat) : Bool :=
  s.queues.any (fun e => s.queueOwner e.1 = p && e.2.cmds.any (fun c => !c.recorded && !(e.1 = q && c.slot = slot) &&
    !closesTask (dOpcode c.desc) && dOpcode c.desc ≠ opUPDATE && decide (c.startT.isSome || !(e.1 = q)) &&
    !(dOpcode c.desc = opSNAPSHOT)))

/-- The clusters a command runs on: fixed at admission, or the pool cluster of its task. -/
def startClusters (c : Cmd) (t : Task) : List Nat :=
  match t.cluster with
  | some g => [g]
  | none => c.clusters

/-- The GEMM that a GATHER feeds through its sprues, or the GATHER that feeds a GEMM (R229). -/
def QueueX.sprueMate (x : QueueX) (c : Cmd) : Option Cmd :=
  let mine := x.cmds.filter (fun k => k.task = c.task && !k.recorded)
  if dOpcode c.desc = opGATHER && (tdOf c.td2 0).flags % 2 = 1 then
    (mine.dropWhile (fun k => k.slot ≠ c.slot)).find? (fun k => isGemm (dOpcode k.desc) && dTdesc k.desc 0 = dTdesc c.desc 2)
  else none

/-- A command fed by a GATHER: the last GATHER before it whose stack is its slot 0. -/
def QueueX.feeder (x : QueueX) (c : Cmd) : Option Cmd :=
  if isGemm (dOpcode c.desc) && dTdesc c.desc 0 ≠ 0 then
    ((x.cmds.filter (fun k => k.task = c.task)).takeWhile (fun k => k.slot ≠ c.slot)).reverse.find? (fun k =>
      dOpcode k.desc = opGATHER && (tdOf k.td2 0).flags % 2 = 1 && dTdesc k.desc 2 = dTdesc c.desc 0)
  else none

/-- Whether an admitted command may start now (R202, R204, R168, R338): the part that its opcode's own rules do not add. -/
def State.mayStart (s : State) (q : Nat) (c : Cmd) : Bool :=
  let x := s.queue q
  let op := dOpcode c.desc
  s.ready && s.power.state = 3 && !x.frozen && c.startT.isNone && !c.recorded && !c.aliveBad &&
  (match x.tasks.head? with
    | some t => t.id = c.task && t.served && !t.aborted && !t.refused &&
        (!(s.part c.part).paused || x.cmds.any (fun k => k.task = t.id && k.startT.isSome))
    | none => false) &&
  (let early := (x.before c).filter (fun k => !k.recorded)
   early.all (fun k => !anyOverlap (k.outs ++ k.inpl) (c.ins ++ c.inpl)) &&
   (!(dFlag c.desc flFENCE || op = opEVENT_SIGNAL || op = opTRACE_MARK) || early.isEmpty) &&
   early.all (fun k => dOpcode k.desc ≠ opEVENT_WAIT)) &&
  (!(op = opCOLLECTIVE && dFlag c.desc flCLOSING) || (!s.stepBusy c.part q c.slot && ((x.before c).filter (fun k => !k.recorded)).isEmpty))

/-- The engine pages a command takes at its start. -/
def State.startMembers (s : State) (q : Nat) (c : Cmd) (t : Task) : List Nat :=
  let op := dOpcode c.desc
  let f := Form.ofCmd c q t.pool
  if t.pool then
    if usesTarget op then s.enginesOn c.desc c.slot (startClusters c t) (s.copyOverlap f)
    else if op = opBARRIER || op = opSTEP_BOUNDARY then [s.barrierPage c.part (some t)]
    else if op = opCOLLECTIVE || op = opLINK_SEND || op = opLINK_RECV then [pgColl 8]
    else if op = opSNAPSHOT then [pgSnapshot] else [queuePage q]
  else if op = opCHECK_SCAN then
    -- the first free engine of the die of its target cluster (R332)
    let die := (c.clusters.headD 0) / 40
    let busy := s.queues.flatMap (fun e => (e.2.cmds.filter (fun k => !k.recorded && k.startT.isSome)).flatMap (·.members))
    [((List.range 4).map (fun i => diePage die (20 + i))).find? (fun m => !busy.contains m) |>.getD (diePage die 20)]
  else if usesTarget op then c.members
  else if op = opBARRIER || op = opSTEP_BOUNDARY then [s.barrierPage c.part (some t)]
  else if op = opCOLLECTIVE || op = opLINK_SEND || op = opLINK_RECV then [pgColl 8]
  else if op = opSNAPSHOT then [pgSnapshot]
  else [queuePage q]

/-- The uncorrectable block that a command's inputs touch (R322). -/
def State.badInput (s : State) (c : Cmd) : Option (Nat × Nat) :=
  (c.ins ++ c.inpl).findSome? (fun r => if r.host then none else s.badBlock c.part r.lo r.hi)

/-- A command read an uncorrected block: HBM_UC of the block's source, and the task aborts with MEMORY (R322, R313). -/
def State.readBad (s : State) (q slot : Nat) (b : Nat × Nat) : State :=
  let page := b.2 / 2 ^ 32
  let s := (s.raisePage page 4).bump page 0 R.HBM_CTRL_HBM_UC 1
  s.raiseErr (s.hbmSrc page (b.2 % 2 ^ 32) (64 * b.1)) caHBM_UC (64 * b.1) (some (q, slot)) 0x02

/-- Engines that hold one command at a time until its work is done: cores, ladles, temper units and check engines (R202). -/
def holdsOne (t : PageType) : Bool := t = .core || t = .ladle || t = .temper || t = .check

/-- Whether another command still works on one of the engines. -/
def State.enginesBusy (s : State) (ms : List Nat) : Bool :=
  s.queues.any (fun e => e.2.cmds.any (fun c => !c.recorded && c.startT.isSome && !c.done &&
    c.members.any (fun m => holdsOne (assignedType m) && ms.contains m)))

/-- Nothing keeps a command from starting: it is next in its queue, and its engines are free, not held, halted or due for their assay (R35, R202, R327,
R389). -/
def State.startsNow (s : State) (q : Nat) (c : Cmd) (t : Task) : Bool :=
  let ms := s.startMembers q c t
  s.mayStart q c && !ms.isEmpty && !s.enginesBusy ms && !ms.any (fun m => s.fld m 0 F.HDR_PAGE_CTRL_HOLD = 1) &&
    !(dedup (ms.map issuingCore)).any s.coreStopped && !ms.any s.islHalted && !ms.any s.assayFirst

/-- The breakpoint that a command's start hits, with its control core (R389). -/
def State.startBp (s : State) (q : Nat) (c : Cmd) (t : Task) : Option (Nat × Nat) :=
  (dedup ((s.startMembers q c t).map issuingCore)).findSome? (fun m => (s.bpHit m c.desc).map (fun n => (m, n)))

/-- The record of a command that starts. -/
def State.begunCmd (s : State) (q : Nat) (c : Cmd) (t : Task) : Cmd :=
  let ms := s.startMembers q c t
  let f := Form.ofCmd c q t.pool
  { c with
    startT := some s.timeNow
    runs := c.runs + 1
    members := ms
    clusters := startClusters c t
    haltNs := ms.map (fun _ => 0)
    held0 := (s.part c.part).heldNs
    fmt := s.slotFmt f 2
    fmtIn0 := s.slotFmt f 0
    fmtIn1 := s.slotFmt f 1 }

/-- A command's start recorded: in its queue, for STALL_MS of its task, and at its cores. -/
def State.begun (s : State) (q : Nat) (c : Cmd) (t : Task) : State :=
  let ms := s.startMembers q c t
  let k := s.begunCmd q c t
  let s := (dedup (ms.map issuingCore)).foldl (fun s m => if (s.dbgOf m).pass || (s.dbgOf m).stepping then
      s.updDbg m (fun d => { d with pass := false, stepping := false }) else s) s
  let s := s.putCmd q k
  let s := s.putTask q { t with lastProg := s.timeNow }
  let s := ms.foldl (fun s m => if assignedType m = .core then
      s.updCore m (fun x => { x with usedBy := dedup (x.usedBy ++ [c.part]), tileSeq := 0 }) else s) s
  s.pcPassed (ms.map issuingCore)

/-- Start a command: a breakpoint halts its control core first (R389); otherwise its start is recorded and `k` is its
effect. A command that may not start, or whose opcode is not `op`, is left as it is (DESIGN CHOICE log 1). -/
def State.startCmd (s : State) (q slot : Nat) (op : Nat → Bool) (extra : State → Cmd → Bool) (k : State → Cmd → State) : State :=
  match s.cmd? q slot with
  | none => s
  | some c =>
    match findTask (s.queue q).tasks c.task with
    | none => s
    | some t =>
      if !op (dOpcode c.desc) || !extra s c || !s.startsNow q c t then s
      else match s.startBp q c t with
        | some b => s.bpHalt b.1 b.2
        | none =>
          match (s.begun q c t).badInput c with
          | some b => (s.begun q c t).readBad q slot b
          | none => k (s.begun q c t) (s.begunCmd q c t)

/-- Set fields of a started command. -/
def State.updCmd (s : State) (q slot : Nat) (f : Cmd → Cmd) : State :=
  match s.cmd? q slot with
  | some c => s.putCmd q (f c)
  | none => s

/-- A command's engine has finished; its completion record follows at COMMAND_COMPLETE (R206). -/
def State.finish (s : State) (q slot code count pos : Nat) : State :=
  s.updCmd q slot (fun c => { c with done := true, code := code, count := count, pos := pos, wrote := true })

/-- A task's progress for STALL_MS (R201). -/
def State.progressed (s : State) (q tid : Nat) : State :=
  s.updQueue q (fun x => { x with tasks := x.tasks.map (fun t => if t.id = tid then { t with lastProg := s.timeNow } else t) })

/-- COMMAND_COMPLETE (R206): a command whose engine has finished gets its record. Clamped entries join the MELT_OUT entry (R226), and the busy
time of its cores counts (R287). -/
def State.commandDone (s : State) (q slot : Nat) : State :=
  match s.cmd? q slot with
  | none => s
  | some c =>
    if c.done && !closesTask (dOpcode c.desc) then
      let s := match (if isListMove (dOpcode c.desc) && c.code = 1 then s.entryOf c.part (dMeltOut c.desc) else none) with
        | some x => s.setEnt x R.ENT_CLAMPED (satAdd 0xFFFFFFFF (s.entReg x R.ENT_CLAMPED) c.count)
        | none => s
      let s := s.complete q slot c.code 0
      let s := s.progressed q c.task
      let cores := (c.members.filter (fun m => assignedType m = .core)).length
      s.meter c.part R.METER_CORE_BUSY_NS (cores * (s.timeNow - c.startT.getD s.timeNow))
    else s

end Sys2Proof.Machine
end

