-- ==== Sys2Proof/Machine/Drain.lean ====
section
/-! DEFINITION. The drain converter (R120 to R127, R135, R136, R138, R141, R151, R156 to R162): accumulation into an existing output,
statistics (pass one), re-run triggers, conversion (pass two), the divisors of G16 blocks and riser records. An output arrives
as pieces of innermost rows. -/

namespace Sys2Proof.Machine

/-- Consecutive FP32 sums of one innermost row of an output: the row's indices (dimension 0 at 0), the first element, the codes and
the rounding of each. -/
structure Row where
  idx : List Nat
  c0 : Nat
  codes : List Nat
  modes : List Rnd

/-- Consecutive elements of one innermost row, ready for the two passes. `wide` holds the codes of a vector result that needs no
narrowing (R173), and is empty otherwise. -/
structure Seg where
  idx : List Nat
  c0 : Nat
  vals : List Val
  modes : List Rnd
  wide : List Nat

/-- Cut a list into groups that end at multiples of k; the first element stands at position c. -/
def cutAt {α : Type} (k : Nat) : Nat → Nat → List α → List (Nat × List α)
  | 0, _, _ => []
  | fuel + 1, c, l =>
    if l.isEmpty then []
    else
      let n := k - c % k
      (c, l.take n) :: cutAt k fuel (c + n) (l.drop n)

/-- Groups of a segment by which blocks are counted and encoded: G16 blocks of 256, blocks of 16, or groups of 16 from the piece's own
edge (R123, R156). The number of each is its position in the row. -/
def groupsBy (fmt c0 : Nat) {α : Type} (l : List α) : List (Nat × List α) :=
  if fmt = fmtG16 then cutAt 256 (l.length + 1) c0 l
  else if fmtBlock fmt then cutAt 16 (l.length + 1) c0 l
  else (cutAt 16 (l.length + 1) 0 l).map (fun g => (g.1 + c0, g.2))

/-! ### Pending statistics (R126, R127) -/

def State.setPend (s : State) (x off v : Nat) : State := s.setReg pgPending x off v
def State.addPend (s : State) (x off n : Nat) : State := s.setPend x off (satAdd 0xFFFFFFFF (pend s x off) n)
def State.maxPend (s : State) (x off v : Nat) : State := s.setPend x off (maxF32 (pend s x off) v)

/-- Dot-product flags of a core and of the output entry's pending record (R83). -/
def State.dotFlags (s : State) (page : Nat) (ent : Option Nat) (fl : Nat) : State :=
  if fl = 0 then s
  else
    let s := if assignedType page = .core then s.setReg page 0 R.CORE_DOT_FLAGS (s.reg page 0 R.CORE_DOT_FLAGS ||| fl) else s
    match ent with
    | some x => s.setFld pgPending x F.ENT_FMT_STATE_DOT_FLAGS (s.fld pgPending x F.ENT_FMT_STATE_DOT_FLAGS ||| fl)
    | none => s

/-- Conversion counts of a core (R68, R71), and the flags of R83 that they raise. -/
def State.countCvt (s : State) (page : Nat) (ent : Option Nat) (c : Cvt) : State :=
  let add := fun (s : State) (off n : Nat) => if n = 0 then s else s.bump page 0 off n
  let s := add (add (add (add s R.CORE_FLUSH_IN c.flushIn) R.CORE_FLUSH_OUT c.flushOut) R.CORE_CVT_SAT c.sat) R.CORE_CVT_NAN c.nanw
  s.dotFlags page ent ((if c.sat = 0 then 0 else dfCVT_SAT) + (if c.nanw = 0 then 0 else dfCVT_NAN))

/-! ### Divisors of G16 blocks (R158 to R160) -/

/-- Address of a block's divisor state word (R158). -/
def State.stateAddr (s : State) (x : Nat) (o : TD) (idx : List Nat) (b : Nat) : Nat :=
  s.entReg x R.ENT_RISER_BASE + o.rowNum idx * roundUp (4 * ceilDiv (o.e 0) 256) 64 + 4 * b

def State.stepIndex (s : State) (p : Nat) : Nat := s.reg pgJobRunner p R.JOB_RUNNER_STEP_INDEX

/-- Whether a block has not been written in the present step (R159). -/
def State.firstWrite (s : State) (p x : Nat) (o : TD) (idx : List Nat) (b : Nat) : Bool :=
  s.rdLE p (s.stateAddr x o idx b) 4 % 65536 ≠ s.stepIndex p % 65536

/-- The first write's adjustment of a state word: new word, raised, lowered (R159). -/
def divisorStep (w step lowerAfter : Nat) : Nat × Bool × Bool :=
  let sd := intOf 8 (w / 2 ^ 24)
  let clean := bitsOf w 23 18
  if w.testBit 16 then (intBits 8 (min (sd + 1) 100) * 2 ^ 24 + step, true, false)
  else
    let c := min (clean + 1) 63
    if w.testBit 17 && decide (lowerAfter ≤ c) then (intBits 8 (max (sd - 1) (-100)) * 2 ^ 24 + step, false, true)
    else (intBits 8 sd * 2 ^ 24 + c * 2 ^ 18 + step, false, false)

/-- What a divisor fetch returns: code, raised, lowered. -/
structure Div where
  code : Int
  raised : Bool
  lowered : Bool
  deriving DecidableEq, Repr

/-- The divisor fetch of R159. -/
def State.divisorFetch (s : State) (p x : Nat) (o : TD) (idx : List Nat) (b : Nat) : Div × State :=
  let a := s.stateAddr x o idx b
  let w := s.rdLE p a 4
  if s.firstWrite p x o idx b then
    let r := divisorStep w (s.stepIndex p % 65536) (s.entReg x R.ENT_WIDEN_AT % 64)
    ({ code := intOf 8 (r.1 / 2 ^ 24), raised := r.2.1, lowered := r.2.2 },
      (s.wrLE p a 4 r.1).wrLE p (o.scaleAddr ((256 * b) :: idx.drop 1)) 1 (r.1 / 2 ^ 24))
  else ({ code := intOf 8 (w / 2 ^ 24), raised := false, lowered := false }, s)

/-- The divisor report of R159: OVF and FLUSH join the state word; a non-finite part sets the scale byte to -128. Answers whether the
block flushes for the first time in the step. -/
def State.divisorReport (s : State) (p x : Nat) (o : TD) (idx : List Nat) (b : Nat) (ovf flush nonfin : Bool) : Bool × State :=
  let a := s.stateAddr x o idx b
  let w := s.rdLE p a 4
  let s := s.wrLE p a 4 (w ||| (if ovf then 2 ^ 16 else 0) ||| (if flush then 2 ^ 17 else 0))
  (flush && !w.testBit 17, if nonfin then s.wrLE p (o.scaleAddr ((256 * b) :: idx.drop 1)) 1 0x80 else s)

/-- Whether the stored values of a block are unpredictable under its scale byte (R158, R162): an accumulating first write, or a
scale byte that neither equals SDIV nor marks a non-finite block in a step that has written the block. -/
def State.blockOpen (s : State) (p x : Nat) (o : TD) (idx : List Nat) (b : Nat) (accum : Bool) : Bool :=
  let sc := s.rdLE p (o.scaleAddr ((256 * b) :: idx.drop 1)) 1
  if s.firstWrite p x o idx b then accum
  else sc ≠ 0x80 && sc ≠ s.rdLE p (s.stateAddr x o idx b) 4 / 2 ^ 24

/-! ### Accumulation into an existing output (R162, R190) -/

/-- The stored value of an output element as FP32, and whether it is a NaN read from the operand. A value the spec leaves
unpredictable is free. -/
def State.oldOut (s : State) (p : Nat) (o : TD) (t : Q) (idx : List Nat) (free : Bool) : Nat × Nat :=
  if free then (s.freeVal.toNat % 2 ^ 32, 0)
  else
    let v := (s.elem p o idx).1.mulQ t
    (match v with
      | .nan => fFP32.nan
      | .inf n => fFP32.infBits n
      | .fin q => (roundF32 .rne q).1, if v.isNan then dfNAN_IN else 0)

/-- Add a segment to the stored output, in RNE. -/
def State.accumSeg (s : State) (p : Nat) (o : TD) (ent : Option Nat) (t : Q) (g : Row) : Row × Nat × State :=
  let r := g.codes.zipIdx.foldl (fun (a : List Nat × Nat × State) ci =>
    let i := g.c0 + ci.2
    let open_ := match ent with
      | some x => o.fmt = fmtG16 && a.2.2.blockOpen p x o g.idx (i / 256) true
      | none => false
    let old := a.2.2.oldOut p o t (i :: g.idx.drop 1) open_
    let v := addF32 .rne old.1 ci.1
    (v.1 :: a.1, a.2.1 ||| old.2 ||| v.2, if open_ then a.2.2.freshen else a.2.2)) ([], 0, s)
  ({ g with codes := r.1.reverse }, r.2.1, r.2.2)

/-! ### Pass one (R121, R126) -/

/-- What pass one gathers. -/
structure Tally where
  nz : Nat := 0
  zero : Nat := 0
  sat : Nat := 0
  nonfin : Nat := 0
  amax : Q := Q.zero false
  body : Q := Q.zero false
  outs : Nat := 0

/-- FP32 sums as pass one reads them: subnormal codes are flushed (R68, R121). -/
def Row.seg (g : Row) : Seg := { idx := g.idx, c0 := g.c0, vals := g.codes.map (fun c => (fFP32.read c).1), modes := g.modes, wide := [] }
def Row.flushed (g : Row) : Nat := (g.codes.map (fun c => (fFP32.read c).2)).sum

/-- Whether a value is an outlier: finite and above h. -/
def outlier (h : Option Q) (v : Val) : Bool :=
  match h, v with
  | some h, .fin q => h.lt q.abs
  | _, _ => false

/-- An outlier's slot encodes as +0. -/
def bodyVal (h : Option Q) (v : Val) : Val := if outlier h v then .fin (Q.zero false) else v

/-- The FP16 quotient of a riser record and whether it is beyond the range (R136). -/
def riserQuot (h q : Q) : Nat × Bool :=
  let r := q.div h
  let v := fFP16.ieee .rne r
  if (fFP16.decode v.1).isFin then (v.1, false) else (fFP16.maxBits q.neg, true)

def maxQ (a b : Q) : Q := if a.lt b then b else a

/-- Pass one over one segment: `c` is the output format, `t` its tensor scale. -/
def Tally.seg (c : Nat) (t : Q) (h : Option Q) (a : Tally) (g : Seg) : Tally :=
  let vs := g.vals
  let fin := vs.filterMap (fun v => match v with | .fin q => some q | _ => none)
  let outs := vs.filter (outlier h)
  let a := { a with
    amax := maxQ a.amax (maxAbs fin)
    body := maxQ a.body (maxAbs (fin.filter (fun q => !outlier h (.fin q))))
    outs := a.outs + outs.length
    sat := a.sat + (outs.filter (fun v => match h with | some h => (riserQuot h v.q).2 | none => false)).length }
  (groupsBy c g.c0 (vs.map (bodyVal h))).foldl (fun a b =>
    if b.2.any (fun v => !v.isFin) then { a with nonfin := a.nonfin + 1 }
    else
      let m := maxAbs (b.2.map Val.q)
      if m.num = 0 then { a with zero := a.zero + 1 }
      else { a with nz := a.nz + 1, sat := a.sat + (if fmtBlock c && (scaleFor c t m).isNone then 1 else 0) }) a

/-- A non-negative exact value as an FP32 code. -/
def qF32 (q : Q) : Nat := (fFP32.ieee .rne q).1

/-! ### Re-run triggers (R138, R141) -/

/-- Causes: 0 SAT, 1 NONFIN, 2 RISER_OVF; 7 marks an execution that NONFIN brought about. -/
def rcKey (x cause rung : Nat) : Nat := x * 64 + cause * 8 + rung
def rcNonfin : Nat := rcKey 0 7 0

/-- An output that never widens: pinned by its descriptor or entry, or at TOP. -/
def State.stuck (s : State) (c : Cmd) (x : Nat) : Bool :=
  precCode (dPrecision c.desc) ≠ 0 || s.entPin x ≠ 0 || decide (ctrlTop (s.entReg x R.ENT_ENT_CTRL) ≤ rungOf (s.entReg x R.ENT_ENT_CTRL) c.fmt)

/-- The causes for which entry x's pending record leads to a re-run. -/
def State.rerunCauses (s : State) (c : Cmd) (x : Nat) : List Nat :=
  if !fmtBlock c.fmt then []
  else
    let taken := (s.part c.part).rerunTaken
    let rung := rungOf (s.entReg x R.ENT_ENT_CTRL) c.fmt
    [0, 1, 2].filter (fun k =>
      !taken.contains (rcKey x k rung) &&
      (if k = 0 then pend s x R.ENT_SAT_BLK ≠ 0 && !s.stuck c x
       else if k = 1 then pend s x R.ENT_NONFIN_BLK ≠ 0 && !taken.contains rcNonfin
       else pend s x R.ENT_RISER_OVF ≠ 0))

/-- Signal a re-run for entry x (R138, R139). -/
def State.wantRerun (s : State) (c : Cmd) (x : Nat) (causes : List Nat) : State :=
  s.updPart c.part (fun y => { y with rerunWanted := dedup (y.rerunWanted ++ causes.map (fun k => x * 8 + k)) })

/-! ### Pass two (R122, R71, R159) -/

/-- What pass two counts: flushed blocks, overflow blocks, conversions. -/
structure Tally2 where
  flush : Nat := 0
  ovf : Nat := 0
  cvt : Cvt := {}
  /-- G16_SUM of what was written, once a block was fetched -/
  g16 : Option Nat := none

/-- Write element codes at a place in a row. -/
def State.putCodes (s : State) (p : Nat) (o : TD) (idx : List Nat) (c0 : Nat) (codes : List Nat) : State :=
  if 8 ≤ fmtBits o.fmt then s.wrBytes p (o.rowAddr idx + c0 * (fmtBits o.fmt / 8)) (packCodes (fmtBits o.fmt) codes)
  else if fmtBlock o.fmt then s.wrBytes p (o.rowAddr idx + c0 * fmtBits o.fmt / 8) (packCodes (fmtBits o.fmt) codes)
  else codes.zipIdx.foldl (fun s (c, i) => s.putElem p o ((c0 + i) :: idx.drop 1) c) s

/-- The zero bytes that pad a scale row whose last block has been written (R60). -/
def State.padScale (s : State) (p : Nat) (o : TD) (idx : List Nat) (last : Nat) : State :=
  let n := ceilDiv (o.e 0) (fmtBlockLen o.fmt)
  if last < o.e 0 || o.scaleRow ≤ n then s
  else s.wrBytes p (o.scale + o.rowNum idx * o.scaleRow + n) (List.replicate (o.scaleRow - n) 0)

/-- Free codes in place of a block's elements. -/
def State.freeCodes (s : State) (n : Nat) : List Nat × State :=
  ((List.range n).map (fun i => (Config.free (s.fresh + i)).toNat % 65536), { s with fresh := s.fresh + n })

/-- One G16 block's part: fetch, encode, report (R159). -/
def State.putG16 (s : State) (p x : Nat) (o : TD) (idx : List Nat) (c0 : Nat) (vals : List Val) (modes : List Rnd) (accum : Bool)
    (a : Tally2) : State × Tally2 :=
  let b := c0 / 256
  let open_ := s.blockOpen p x o idx b accum
  let f := s.divisorFetch p x o idx b
  let e := encodeG16 f.1.code (fun i => modes.getD i .rne) vals
  let flushed := e.1.kind ≠ .zero && e.1.kind ≠ .nonfinite && e.1.codes.all (fun c => c % 2 ^ 15 = 0)
  let r := f.2.divisorReport p x o idx b e.2 (decide (0 < e.1.cvt.flushOut)) (e.1.kind = .nonfinite)
  let cs := if open_ then r.2.freeCodes vals.length else (e.1.codes, r.2)
  let s := (cs.2.putCodes p o idx c0 cs.1).padScale p o idx (c0 + vals.length)
  let d := intBits 8 f.1.code
  let one := d + 2 ^ 8 * d + (if f.1.raised then 2 ^ 16 else 0) + (if f.1.lowered then 2 ^ 32 else 0) + (if r.1 then 2 ^ 48 else 0)
  (s, { flush := a.flush + (if flushed then 1 else 0), ovf := a.ovf + (if e.2 then 1 else 0), cvt := a.cvt.add e.1.cvt,
        g16 := some (mergeG16 a.g16.isSome true (a.g16.getD 0) one) })

/-- Pass two over one segment. -/
def State.putSeg (s : State) (p : Nat) (o : TD) (ent : Option Nat) (t : Q) (h : Option Q) (accum : Bool) (a : Tally2) (g : Seg) :
    State × Tally2 :=
  let vs := g.vals.map (bodyVal h)
  let items := vs.zip g.modes
  if o.fmt = fmtG16 then
    match ent with
    | some x => (groupsBy o.fmt g.c0 items).foldl (fun (r : State × Tally2) b =>
        r.1.putG16 p x o g.idx b.1 (b.2.map (·.1)) (b.2.map (·.2)) accum r.2) (s, a)
    | none => (s, a)
  else if fmtBlock o.fmt then
    (groupsBy o.fmt g.c0 items).foldl (fun (r : State × Tally2) b =>
      let k := encodeBlock o.fmt t (fun i => (b.2.map (·.2)).getD i .rne) (b.2.map (·.1))
      let s := (r.1.putCodes p o g.idx b.1 k.codes).wrLE p (o.scaleAddr (b.1 :: g.idx.drop 1)) 1 k.scale
      (s.padScale p o g.idx (b.1 + b.2.length),
       { r.2 with flush := r.2.flush + (if k.kind = .flushed then 1 else 0), cvt := r.2.cvt.add k.cvt })) (s, a)
  else if !g.wide.isEmpty then (s.putCodes p o g.idx g.c0 g.wide, a)
  else
    let es := items.map (fun i => narrowElem o.fmt t i.2 i.1)
    let grp := groupsBy o.fmt g.c0 (vs.zip es)
    let fl := (grp.filter (fun b => b.2.any (fun e => e.1.isFin && e.1.q.num ≠ 0) &&
      b.2.all (fun e => e.1.isFin && (e.1.q.num = 0 || e.2.2.flushOut ≠ 0)))).length
    (s.putCodes p o g.idx g.c0 (es.map (·.1)),
     { a with flush := a.flush + fl, cvt := es.foldl (fun c e => c.add e.2) a.cvt })

/-! ### Riser records (R136) -/

/-- The order in which a piece's records are written is open (R136): an order chosen by free values. -/
def shuffle {α : Type} : Nat → Nat → List α → List α
  | 0, _, l => l
  | fuel + 1, k, l =>
    match takeAt l ((Config.free k).toNat % l.length) with
    | some (x, r) => x :: shuffle fuel (k + 1) r
    | none => []

/-- Records of a segment: linear index in the instance, value. -/
def Seg.risers (o : TD) (h : Option Q) (g : Seg) : List (Nat × Q) :=
  (g.vals.zipIdx.filter (fun v => outlier h v.1)).map (fun v => (ravel o.ext ((g.c0 + v.2) :: g.idx.drop 1), v.1.q))

/-- Write records behind those that the execution has written; none beyond the effective capacity. -/
def State.putRisers (s : State) (p x mb cap : Nat) (h : Q) (first : Nat) (recs : List (Nat × Q)) : State :=
  let l := shuffle recs.length s.fresh recs
  let s := { s with fresh := s.fresh + recs.length }
  (l.zipIdx.filter (fun r => first + r.2 < cap)).foldl (fun s r =>
    s.wrLE p (s.riserAddr x mb + 8 * (1 + first + r.2)) 8 ((riserQuot h r.1.2).1 + 65536 * r.1.1)) s

/-- The header of an instance's riser area, written after its last record. -/
def State.putRiserHeader (s : State) (c : Cmd) (o : TD) : State :=
  match s.entryOf c.part (dMeltOut c.desc) with
  | none => s
  | some x =>
    if s.entRole x = roACT && s.entReg x R.ENT_RISER_CAP ≠ 0 then
      let cap := if fmtBlock c.fmt then s.riserCap x o.elems else 0
      s.wrLE c.part (s.riserAddr x (dMb c.desc)) 8 (min cap (pend s x R.ENT_RISER_PEAK))
    else s

/-! ### A piece of an output through both passes -/

/-- The outlier threshold h of an output (R121). -/
def State.thresh (s : State) (ent : Option Nat) (fmt n : Nat) : Option Q :=
  match ent with
  | some x => if fmtBlock fmt && s.riserCap x n ≠ 0 then some ((f32Q (s.entReg x R.ENT_CEIL)).mul (f32Q (s.entReg x R.ENT_TSCALE))) else none
  | none => none

/-- Pass one's statistics reach the shard (R127) and the core's page (R151). -/
def State.passOne (s : State) (page : Nat) (ent : Option Nat) (fmt n elems : Nat) (h : Option Q) (a : Tally) : State :=
  let s := (s.setReg page 0 R.CORE_DRAIN_TILE_AMAX (qF32 a.amax)).setReg page 0 R.CORE_DRAIN_TILE_BODY (qF32 a.body)
  let s := s.setReg page 0 R.CORE_DRAIN_THRESH (match h with | some q => qF32 q | none => 0x7F800000)
  let s := s.setFld page 0 F.CORE_DRAIN_PASS_CYCLES_ONE (min 65535 (ceilDiv (4 * elems) 256))
  let s := (((s.bump page 0 R.CORE_DRAIN_TILES 1).bump page 0 R.CORE_DRAIN_ZERO_BLK a.zero).bump page 0 R.CORE_DRAIN_SAT_BLK a.sat).bump
    page 0 R.CORE_DRAIN_NONFIN_BLK a.nonfin
  let s := s.bump page 0 R.CORE_DRAIN_RISER a.outs
  let s := s.setFld page 0 F.CORE_DRAIN_STATE_ENTRY (ent.getD 0)
  match ent with
  | none => s
  | some x =>
    let s := (s.maxPend x R.ENT_AMAX_CUR (qF32 a.amax)).maxPend x R.ENT_BODY_CUR (qF32 a.body)
    let s := (((s.addPend x R.ENT_NONZERO_BLK a.nz).addPend x R.ENT_ZERO_BLK a.zero).addPend x R.ENT_SAT_BLK a.sat).addPend x
      R.ENT_NONFIN_BLK a.nonfin
    let s := s.addPend x R.ENT_RISER_PEAK a.outs
    let s := if fmtBlock fmt && h.isSome && decide (s.riserCap x n < pend s x R.ENT_RISER_PEAK) then s.setPend x R.ENT_RISER_OVF 1 else s
    (s.setInstElems x n).bump (shardPage x) 0 R.MELT_SHARD_SHARD_STAT_MSGS 1

/-- Both passes over one piece of a command's output (R120): statistics, triggers, conversion. -/
def State.twoPasses (s : State) (page : Nat) (c : Cmd) (o : TD) (segs : List Seg) : State :=
  let p := c.part
  let ent := s.entryOf p (dMeltOut c.desc)
  let t := s.outScale ent o.fmt
  let n := o.elems
  let elems := (segs.map (fun g => g.vals.length)).sum
  let h := s.thresh ent o.fmt n
  let a := segs.foldl (fun a g => a.seg o.fmt t h g) ({} : Tally)
  let first := match ent with
    | some x => pend s x R.ENT_RISER_PEAK
    | none => 0
  let seen := match ent with
    | some x => s.blocksSeen pgPending x
    | none => false
  let s := s.passOne page ent o.fmt n elems h a
  let causes := match ent with
    | some x => s.rerunCauses c x
    | none => []
  let trig := (if a.sat ≠ 0 then 1 else 0) + (if a.nonfin ≠ 0 then 2 else 0) +
    (match ent with | some x => if pend s x R.ENT_RISER_OVF ≠ 0 && a.outs ≠ 0 then 4 else 0 | none => 0)
  let s := s.setFld page 0 F.CORE_DRAIN_STATE_TRIG (if fmtBlock o.fmt then trig else 0)
  match ent, causes with
  | some x, k :: r => (s.bump page 0 R.CORE_DRAIN_TRIGGERS 1).wantRerun c x (k :: r)
  | _, _ =>
    let b := segs.foldl (fun (r : State × Tally2) g => r.1.putSeg p o ent t h (dFlag c.desc flACCUM) r.2 g) (s, {})
    let s := b.1.countCvt page ent b.2.cvt
    let s := s.setFld page 0 F.CORE_DRAIN_PASS_CYCLES_TWO (min 65535 (ceilDiv (4 * elems) 256))
    let s := s.bump page 0 R.CORE_DRAIN_FLUSH_BLK b.2.flush
    let s := s.countBytes p o.base (ceilDiv (elems * fmtBits o.fmt) 8)
    match ent with
    | none => s
    | some x =>
      let s := (s.addPend x R.ENT_FLUSH_BLK b.2.flush).addPend x R.ENT_SAT_BLK b.2.ovf
      let s := match b.2.g16 with
        | some g => s.setPend x R.ENT_G16_SUM (mergeG16 seen true (pend s x R.ENT_G16_SUM) g)
        | none => s
      match h with
      | some h => s.putRisers p x (dMb c.desc) (s.riserCap x n) h first (segs.flatMap (fun g => g.risers o (some h)))
      | none => s

/-- Drain one piece of FP32 sums: accumulation into the existing output, then both passes. -/
def State.drainPiece (s : State) (page : Nat) (c : Cmd) (o : TD) (rows : List Row) : State :=
  let ent := s.entryOf c.part (dMeltOut c.desc)
  let acc := if dFlag c.desc flACCUM then
      rows.foldl (fun (r : List Row × State) g =>
        let a := r.2.accumSeg c.part o ent (s.outScale ent o.fmt) g
        (r.1 ++ [a.1], a.2.2.dotFlags page ent a.2.1)) ([], s)
    else (rows, s)
  let s := acc.2.countCvt page ent { flushIn := (acc.1.map Row.flushed).sum }
  s.twoPasses page c o (acc.1.map Row.seg)

end Sys2Proof.Machine
end

