-- ==== Sys2Proof/Machine/Lists.lean ====
section
/-! DEFINITION. Coordinate lists of GATHER, SCATTER and SCATTER_ADD (R224 to R227): reading, clamping, duplicates, and the element of
the indexed tensor that an element of the stack stands for. -/

namespace Sys2Proof.Machine

/-- A list entry: clamped block coordinates, and whether some coordinate was clamped. -/
structure Entry where
  at_ : List Nat
  clamped : Bool
  deriving DecidableEq, Repr

/-- Clamp one coordinate to the blocks of its dimension (R226). -/
def clampCoord (c : Int) (blocks : Nat) : Nat × Bool :=
  if c < 0 then (0, true) else if (blocks : Int) ≤ c then (blocks - 1, true) else (c.toNat, false)

/-- The indexed tensor of a list command, and its block extents (R224). -/
def Form.indexed (f : Form) : TD := if f.op = opGATHER then f.td 0 else f.td 2
def Form.stack (f : Form) : TD := if f.op = opGATHER then f.td 2 else f.td 0
def Form.blocks (f : Form) : List Nat := (List.range 6).map f.block

/-- The list of a command, clamped (R225, R226). -/
def State.listOf (s : State) (f : Form) : List Entry :=
  let t := f.indexed
  (List.range f.count).map (fun j =>
    let cs := (List.range t.ndim).map (fun i =>
      clampCoord (intOf 32 (s.rdLE f.p (dAddr f.d 1 + 4 * (j * t.ndim + i)) 4)) (t.e i / max 1 (f.block i)))
    { at_ := cs.map (·.1), clamped := cs.any (·.2) })

/-- Number of entries equal to an earlier one (R227). -/
def dupCount (l : List Entry) : Nat := l.length - (dedup (l.map (·.at_))).length

/-- Index in the indexed tensor of an element of the stack: the stack's outermost dimension holds the entries. -/
def unstack (n : Nat) (blocks : List Nat) (l : List Entry) (idx : List Nat) : List Nat :=
  let b := blocks.getD (n - 1) 1
  let j := idx.getD (n - 1) 0 / b
  let e := (l[j]?).getD { at_ := [], clamped := false }
  (List.range 6).map (fun i =>
    if i < n then e.at_.getD i 0 * blocks.getD i 1 + (if i + 1 = n then idx.getD i 0 % b else idx.getD i 0) else 0)

/-- All indices of a tensor in element order. -/
def TD.allIdx (t : TD) : List (List Nat) := (List.range t.elems).map (unravel t.ext)

end Sys2Proof.Machine
end

