-- ==== Sys2Proof/Machine/Array.lean ====
section
/-! DEFINITION. GEMM and GEMM_PATTERN (R80 to R89, R106 to R115, R137, R149, R430, R431): operands, dot products in the array, in reference
mode and in the pattern unit, and the cutting of an output into tiles. -/

namespace Sys2Proof.Machine

/-! ### Operands -/

/-- An operand of a run: its tensor in the format read, its tensor scale, its riser records in ascending order with the unit
CEIL × TSCALE of their quotients, and the gather that feeds it through the sprues (R229). -/
structure Opd where
  p : Nat
  t : TD
  ts : Q
  recs : List (Nat × Nat)
  h : Q
  fed : Option (TD × List Nat × List Entry)

/-- Riser records of an instance in ascending linear index (R136). -/
def State.riserRecs (s : State) (p x mb : Nat) : List (Nat × Nat) :=
  let a := s.riserAddr x mb
  let n := min (s.rdLE p a 4) (s.entReg x R.ENT_RISER_CAP)
  sortOn (·.1) ((List.range n).map (fun i =>
    let w := s.rdLE p (a + 8 * (i + 1)) 8
    (w / 65536, w % 65536)))

/-- Operand slot n of a started command. -/
def State.operand (s : State) (q : Nat) (c : Cmd) (n : Nat) : Opd :=
  let f := Form.ofCmd c q false
  let fmt := if n = 0 then c.fmtIn0 else c.fmtIn1
  let ent := s.entryOf c.part (dMelt c.desc n)
  let fed := if n = 0 then (s.queue q).feeder c else none
  { p := c.part
    t := { f.td n with fmt := fmt }
    ts := s.slotScale ent fmt
    recs := match ent with
      | some x => if s.entRole x = roACT && fmtBlock fmt && s.entReg x R.ENT_RISER_CAP ≠ 0 then s.riserRecs c.part x (dMb c.desc) else []
      | none => []
    h := match ent with
      | some x => (f32Q (s.entReg x R.ENT_CEIL)).mul (f32Q (s.entReg x R.ENT_TSCALE))
      | none => Q.one
    fed := fed.map (fun g =>
      let gf := Form.ofCmd g q false
      (gf.indexed, gf.blocks, s.listOf gf)) }

/-- Where an operand's element lies: its tensor and index. -/
def Opd.place (o : Opd) (idx : List Nat) : TD × List Nat :=
  match o.fed with
  | some (t, b, l) => (t, unstack t.ndim b l idx)
  | none => (o.t, idx)

/-- Element code and scale byte of an operand. -/
def State.opdRaw (s : State) (o : Opd) (idx : List Nat) : Nat × Nat :=
  let w := o.place idx
  (s.elemCode o.p w.1 w.2, s.elemScale o.p w.1 w.2)

def Opd.fmt (o : Opd) : Nat := (o.place []).1.fmt

/-- An element as the array reads it: element × block scale after flushing, and whether it was flushed (R68, R80). -/
def State.opdVal (s : State) (o : Opd) (idx : List Nat) : Val × Nat :=
  let r := s.opdRaw o idx
  scaledVal o.fmt r.1 r.2

/-- An element as reference mode reads it (`ref_decode` of R149): its FP32 code, and whether it was flushed. -/
def State.opdRef (s : State) (o : Opd) (idx : List Nat) : Nat × Nat :=
  match o.recs.find? (fun r => r.1 = ravel o.t.ext idx) with
  | some r =>
    let v := roundF32 .rne ((fFP16.decode r.2).q.mul o.h)
    (v.1, if v.2 = dfUFL_FLUSH then 1 else 0)
  | none =>
    let r := s.opdRaw o idx
    match (rawVal o.fmt r.1 r.2).mulQ o.ts with
    | .nan => (fFP32.nan, 0)
    | .inf n => (fFP32.infBits n, 0)
    | .fin q =>
      let v := roundF32 .rne q
      (v.1, if v.2 = dfUFL_FLUSH then 1 else 0)

/-! ### Dot products (R80, R149) -/

def prodZero : Prod := .fin (Q.zero false)

/-- One chunk's column sum in the array. -/
def State.colSum (s : State) (a w : Opd) (ref : Bool) (kext kk j : Nat) (m n : Nat) (b : List Nat) : Nat × Nat :=
  columnSum ((List.range kext).map (fun i =>
    let k := j * kext + i
    if k < kk then
      (if ref then product (f32 (s.opdRef a (k :: m :: b)).1) (f32 (s.opdRef w (k :: n :: b)).1)
       else product (s.opdVal a (k :: m :: b)).1 (s.opdVal w (k :: n :: b)).1)
    else prodZero))

/-- One chunk's contribution: the column sum times T (R80 steps 2 and 3). -/
def scaled (t : Option Nat) (v : Nat × Nat) : Nat × Nat :=
  match t with
  | some t => let r := scaleSum v.1 t
    (r.1, v.2 ||| r.2)
  | none => v

/-- Chunks accumulated in ascending order (R80 step 4, R87). -/
def accumulate (nk : Nat) (chunk : Nat → Nat × Nat) (mode : Nat → Rnd) : Nat × Nat :=
  (List.range nk).foldl (fun (acc : Nat × Nat) j =>
    let v := chunk j
    if j = 0 then v
    else
      let r := addF32 (mode j) acc.1 v.1
      (r.1, acc.2 ||| v.2 ||| r.2)) (0, 0)

/-! ### The pattern unit (R108 to R113) -/

/-- Planes of a weight format, the doubled plane coefficients, and the doubled offset. -/
def planesOf (w : Nat) : List Int × Int :=
  if w = fmtIB2 then ([1, -2], -1) else if w = fmtIB1 then ([-2], 0) else ([1, 2, 4, -8], -1)

/-- The plane bits of a weight element: IB2 0b10 is rewritten to 0b00. -/
def planeBits (w code : Nat) : Nat := if w = fmtIB2 && code % 4 = 2 then 0 else code

/-- Half of an integer, exactly. -/
def halfQ (i : Int) (q : Q) : Q := (Q.ofInt i).mul { q with exp := q.exp - 1 }

/-- Sum of exact values. -/
def sumQ (l : List Q) : Q := l.foldl Q.add (Q.zero false)

/-- The 16-bit table word of an index (R110): `r` are its 8 random bits. -/
def tableEntry (es : List Q) (idx r : Nat) : Q :=
  let q := sumQ (es.zipIdx.map (fun (e, j) => if idx.testBit j then e else e.negate))
  if q.num = 0 then Q.zero false else (q.round 11 (-14) true (.sr 8 r)).q

/-- A block partial B_b (R112): four groups of four. `rnd g idx` are the random bits of an entry. -/
def blockPartial (wf : Nat) (es : List Q) (ws : List Nat) (rnd : Nat → Nat → Nat) : Q :=
  let pl := planesOf wf
  let groups := (List.range 4).map (fun g =>
    let e := (es.drop (4 * g)).take 4
    let w := ((ws.drop (4 * g)).take 4).map (planeBits wf)
    sumQ (pl.1.zipIdx.map (fun (c, p) =>
      let idx := (w.zipIdx.map (fun (b, j) => if b.testBit p then 2 ^ j else 0)).sum
      halfQ c (tableEntry e idx (rnd g idx)))))
  (sumQ groups).add (halfQ pl.2 (sumQ es))

/-- An XNOR block partial (R113). -/
def xnorPartial (a w : List Nat) : Q := Q.ofInt (16 - 2 * Int.ofNat ((a.zip w).filter (fun x => x.1 % 2 ≠ x.2 % 2)).length)

/-- What a block of activations is: zero, non-finite, or its elements in element units (R110). -/
inductive ActBlk where
  | zero
  | bad
  | elems (es : List Q) (codes : List Nat) (scale : Q)

/-- The activation block of elements k to k + 15 of a vector; blocks beyond K are zero blocks. -/
def State.actBlock (s : State) (a : Opd) (kk k m : Nat) (b : List Nat) : ActBlk :=
  if kk ≤ k then .zero
  else
    let raw := (List.range 16).map (fun i => if k + i < kk then s.opdRaw a ((k + i) :: m :: b) else (0, 0x78))
    let sc := if fmtBlock a.fmt then (raw.headD (0, 0)).2 else 0x78
    let vs := raw.map (fun r => (elemVal a.fmt r.1).1)
    if sc = 0 then .zero
    else match ue5m3 sc with
      | none => .bad
      | some q => if vs.any (fun v => !v.isFin) then .bad else .elems (vs.map Val.q) (raw.map (·.1)) q

/-- q_b of one block (R112 step 2), and the lookups it makes (R117). -/
def State.patBlock (s : State) (a w : Opd) (kk k m n : Nat) (b : List Nat) (rnd : Nat → Nat → Nat) : Prod × Nat :=
  let blk := s.actBlock a kk k m b
  let ws := (List.range 16).map (fun i => if k + i < kk then s.opdRaw w ((k + i) :: n :: b) else (0, 0x78))
  let wsc := if fmtBlock w.fmt then (ws.headD (0, 0)).2 else 0x78
  let planes := if fmtBlock a.fmt && a.fmt = fmtIB1 then 1 else (planesOf w.fmt).1.length
  let wk := if kk ≤ k then some Q.one else if wsc = 0 then some (Q.zero false) else ue5m3 wsc
  match blk, wk with
  | .bad, _ => (.nan, 0)
  | .zero, none => (.nan, 0)
  | .elems .., none => (.nan, 4 * planes)
  | .zero, some _ => (prodZero, 0)
  | .elems es cs sa, some sw =>
    if sw.num = 0 then (prodZero, 0)
    else
      let p := if a.fmt = fmtIB1 then xnorPartial cs (ws.map (·.1)) else blockPartial w.fmt es (ws.map (·.1)) rnd
      (.fin ((p.mul sa).mul sw), 4 * planes)

/-- One chunk of 128 elements in the pattern unit: column sum of 8 block products, and lookups. -/
def State.patChunk (s : State) (a w : Opd) (kk j m n : Nat) (b : List Nat) (rnd : Nat → Nat → Nat → Nat) : (Nat × Nat) × Nat :=
  let r := (List.range 8).map (fun i => s.patBlock a w kk (128 * j + 16 * i) m n b (rnd (8 * j + i)))
  (columnSum (r.map (·.1)), (r.map (·.2)).sum)

/-! ### Draws (R75, R76, R125) -/

/-- The partition-local index of a cluster (R76). -/
def State.localCluster (s : State) (p g : Nat) : Nat := ((s.viewClusters p).takeWhile (fun h => h ≠ g)).length

/-- First global lane of a core. -/
def State.coreLane (s : State) (p page : Nat) : Nat := (s.localCluster p (globalCluster page) * 64 + pageUnit page) * 64

def State.drawAt (s : State) (p stream lane purpose ordinal n : Nat) : Nat :=
  draw (s.part p).jr.seed stream (s.stepIndex p) lane purpose ordinal n

/-! ### Which cells toggle (R94) -/

/-- Non-zero 4-bit slices of a number. -/
def nibbles : Nat → Nat → Nat
  | 0, _ => 0
  | k + 1, n => (if n % 16 = 0 then 0 else 1) + nibbles k (n / 16)

/-- Non-zero slices of an element's significand or integer; none for zero, flushed and special elements (DEDUCED log 39). -/
def slices (fmt code sc : Nat) : Nat :=
  if fmtBlock fmt && sc = 0 then 0
  else match fmtFloat fmt with
    | some f =>
      let v := if fmtBlock fmt then f.decode code else (f.read code).1
      if !v.isFin || v.q.num = 0 then 0
      else nibbles 6 (if f.isSub code then code % 2 ^ f.mb else 2 ^ f.mb + code % 2 ^ f.mb)
    | none => if fmt = fmtIB2 then (if code % 4 = 1 || code % 4 = 3 then 1 else 0) else if fmt = fmtIB1 then 1
      else nibbles 2 (code % 2 ^ fmtBits fmt)

def State.opdSlices (s : State) (o : Opd) (ref : Bool) (idx : List Nat) : Nat :=
  if ref then slices fmtFP32 (s.opdRef o idx).1 0x78
  else
    let r := s.opdRaw o idx
    slices o.fmt r.1 r.2

/-! ### A run: shape, passes and tiles (R84, R107, R115, R431) -/

/-- How a command runs: reference mode, pattern unit, ingot side, N extent, K extent of a pass, vectors per pass, largest pass,
planes per weight. -/
structure Run where
  ref : Bool
  pat : Bool
  side : Nat
  width : Nat
  kext : Nat
  v : Nat
  vmax : Nat
  planes : Nat
  deriving DecidableEq, Repr

/-- Largest pass of an ingot side (R84). -/
def largestPass (side : Nat) : Nat := if side = 1 then 224 else if side = 2 then 448 else if side = 3 then 680 else 1360

def ingotCode (side : Nat) : Nat := if side = 6 then 3 else side - 1

/-- The engine and shape of a GEMM or GEMM_PATTERN (R84, R86, R107). -/
def State.runOf (s : State) (c : Cmd) : Run :=
  let d := c.desc
  let ref := s.isRef d (s.entryOf c.part (dMeltOut d))
  let pat := dOpcode d = opGEMM_PATTERN && !ref && patWeight c.fmtIn1
  let side := if ref then 6 else max 1 (max (ingotSide c.fmtIn0) (ingotSide c.fmtIn1))
  let rows := dField d 0x56 16
  let vmax := if pat then (if rows = 0 then 0 else min 4095 (8192 / rows)) else largestPass side
  let pv := dField d 0x54 16
  { ref := ref, pat := pat, side := side, width := if pat then rows else 36 / side, kext := if pat then 128 else 36 / side,
    v := if pv = 0 then vmax else pv, vmax := vmax, planes := (planesOf c.fmtIn1).1.length }

/-- Pass settings that R105 and R119 refuse. -/
def Run.bad (r : Run) : Bool := r.v = 0 || decide (r.vmax < r.v) || (r.pat && (r.width = 0 || decide (1024 < r.width * r.planes)))

/-- PAT_CFG as the control core stages it (R118). -/
def Run.patCfg (r : Run) (c : Cmd) : Nat :=
  if !r.pat then 0
  else
    let a := c.fmtIn0
    let w := c.fmtIn1
    (if a = fmtIB1 then 2 else 1) + 4 * (if w = fmtIB2 then 1 else if w = fmtIB1 then 2 else 0) +
      16 * (if a = fmtFP8E4 then 1 else if a = fmtINT8 then 2 else if a = fmtIB1 then 3 else 0) + 256 * r.width

/-- Settings of a core for a command (R97, R102, R107, R148): what its control core stages for the layer takes effect when the command
starts (DEDUCED log 35). A new ingot shape advances the epoch. -/
def State.configCore (s : State) (c : Cmd) (r : Run) (page : Nat) : State :=
  let old := s.reg page 0 R.CORE_ARRAY_CFG
  let ent := s.entryOf c.part (dMeltOut c.desc)
  let ing := if r.pat then old % 4 else ingotCode r.side
  let kk := (Form.ofCmd c 0 false).td 0 |>.e 0
  let new := putBits (putBits (putBits (putBits old 1 0 ing) 8 4 c.fmt) 9 9 (if s.accSr ent kk then 1 else 0)) 11 11 (if r.ref then 1 else 0)
  let s := if !r.pat && cfgShape old ≠ cfgShape new then
      ((s.setReg page 0 R.CORE_ARRAY_CFG (putBits new 3 2 (bitsOf old 3 2 + 1))).bump page 0 R.CORE_RESHAPES 1)
    else s.setReg page 0 R.CORE_ARRAY_CFG new
  let s := s.setReg page 0 R.CORE_PAT_CFG (r.patCfg c)
  s.updCore page (fun x => { x with nextAt := 0, tileSeq := 0 })

/-- The pass settings of a core's next pass (R104): V, whether the chunk adds into the half, the half, the feed (DEDUCED log 38). -/
def State.stagePass (s : State) (page : Nat) : State :=
  match s.tiles.find? (fun t => t.page = page && t.left ≠ 0) with
  | none => s
  | some t =>
    let fed := match s.cmd? t.q t.slot with
      | some c => ((s.queue t.q).feeder c).isSome
      | none => false
    let cfg := (if fed then 1 else 0) + 2 * t.half + (if t.left = t.passes then 0 else 4) + 16 * (t.mLen % 4096)
    let s := s.setReg page 0 R.CORE_PASS_CFG cfg
    let pc := s.reg page 0 R.CORE_PAT_CFG
    if pc % 4 = 0 || (s.reg page 0 R.CORE_ARRAY_CFG).testBit 11 then s
    else s.setReg page 0 R.CORE_SHADOW_STRIDE (8 + (if bitsOf pc 3 2 = 0 then 64 else if bitsOf pc 3 2 = 1 then 32 else 16))

/-- A tile's place: batch indices, strip and run. -/
structure Cut where
  j : Nat
  batch : List Nat
  m0 : Nat
  n0 : Nat
  mLen : Nat
  nLen : Nat

/-- The tiles of a command in ascending number (R431). -/
def tileCuts (a w : TD) (r : Run) : List Cut :=
  let mm := a.e 1
  let nn := w.e 1
  let runs := ceilDiv mm r.v
  let strips := ceilDiv nn r.width
  let bx := a.ext.drop 2
  (List.range (bx.foldl (· * ·) 1 * strips * runs)).map (fun j =>
    let ns := j / runs % strips
    let mr := j % runs
    { j := j, batch := unravel bx (j / (runs * strips)), m0 := mr * r.v, n0 := ns * r.width,
      mLen := min mm ((mr + 1) * r.v) - mr * r.v, nLen := min nn ((ns + 1) * r.width) - ns * r.width })

/-- The value of one output element, its flags and the lookups it makes. -/
def State.element (s : State) (c : Cmd) (a w : Opd) (r : Run) (t : Option Nat) (accSr : Bool) (lane : Nat) (tSeq : Nat) (k : Cut)
    (i : Nat) : (Nat × Nat) × Nat :=
  let kk := a.t.e 0
  let m := k.m0 + i / k.nLen
  let n := k.n0 + i % k.nLen
  let nk := ceilDiv kk r.kext
  let mode := fun (j : Nat) =>
    if accSr then Rnd.sr 12 (s.drawAt c.part (dStream0 c.desc) (lane + i % 64) 2 (tSeq * 2 ^ 32 + j * 2 ^ 8 + i / 64) 12) else Rnd.rne
  if r.pat then
    let mIdx := m + a.t.e 1 * ravel (a.t.ext.drop 2) k.batch
    let rnd := fun (blk g idx : Nat) =>
      if a.fmt = fmtINT8 then 0
      else s.drawAt c.part (dStream1 c.desc) (lane + 16 * g + idx) 1 (mIdx * (8 * nk) + blk) 8
    let ch := (List.range nk).map (fun j => s.patChunk a w kk j m n k.batch rnd)
    (accumulate nk (fun j => scaled t ((ch.getD j ((0, 0), 0)).1)) mode, (ch.map (·.2)).sum)
  else (accumulate nk (fun j => scaled t (s.colSum a w r.ref r.kext kk j m n k.batch)) mode, 0)

/-- T of a run (R80 step 3, R82): none where no operand has a tensor scale, and in reference mode. -/
def tensorT (a w : Opd) (r : Run) : Option Nat × Nat :=
  if r.ref || !(fmtScaled a.fmt || fmtScaled w.fmt) then (none, 0)
  else
    let t := scaleT a.ts w.ts
    (some t.1, t.2)

/-- Elements of an operand that were flushed when its row is read (R68). -/
def State.rowFlush (s : State) (o : Opd) (ref : Bool) (row : Nat) (b : List Nat) : Nat :=
  ((List.range (o.t.e 0)).map (fun k =>
    if ref then (s.opdRef o (k :: row :: b)).2 else (s.opdVal o (k :: row :: b)).2)).sum

/-- Active cells of a tile's passes (R94). -/
def State.tileCells (s : State) (a w : Opd) (ref : Bool) (k : Cut) : Nat :=
  ((List.range (a.t.e 0)).map (fun i =>
    let as_ := ((List.range k.mLen).map (fun m => s.opdSlices a ref (i :: (k.m0 + m) :: k.batch))).sum
    let ws := ((List.range k.nLen).map (fun n => s.opdSlices w ref (i :: (k.n0 + n) :: k.batch))).sum
    as_ * ws)).sum

/-- Form one tile on its core. -/
def State.formTile (s : State) (q : Nat) (c : Cmd) (a w : Opd) (r : Run) (t : Option Nat) (k : Cut) : State :=
  let n := c.members.length
  let page := c.members.getD (k.j % n) 0
  let tSeq := k.j / n
  let ent := s.entryOf c.part (dMeltOut c.desc)
  let accSr := !r.ref && s.accSr ent (a.t.e 0)
  let lane := s.coreLane c.part page
  let es := (List.range (k.mLen * k.nLen)).map (fun i => s.element c a w r t accSr lane tSeq k i)
  let nk := ceilDiv (a.t.e 0) r.kext
  let tile : Tile :=
    { q := q, slot := c.slot, page := page, index := k.j, t := tSeq, epoch := s.fld page 0 F.CORE_ARRAY_CFG_EPOCH, m0 := k.m0,
      n0 := k.n0, mLen := k.mLen, nLen := k.nLen, batch := k.batch, vals := es.map (fun e => BitVec.ofNat 32 e.1.1), left := nk,
      passes := nk, half := tSeq % 2 }
  let s := { s with tiles := s.tiles ++ [tile] }
  let s := s.dotFlags page ent (es.foldl (fun f e => f ||| e.1.2) 0)
  if r.pat then s.bump page 0 R.CORE_PAT_LOOKUPS ((es.map (·.2)).sum)
  else
    let n := s.tileCells a w r.ref k
    (s.bump page 0 R.CORE_CELL_ACTIVE n).meter c.part R.METER_CELL_ACTIVE n

/-- Flushed inputs of a core's tiles: every element it reads counts once (R68). -/
def State.coreFlush (s : State) (c : Cmd) (a w : Opd) (ref : Bool) (cuts : List Cut) (i : Nat) : Nat :=
  let mine := cuts.filter (fun k => k.j % c.members.length = i)
  let rows := dedup (mine.flatMap (fun k => (List.range k.mLen).map (fun m => (k.m0 + m, k.batch))))
  let cols := dedup (mine.flatMap (fun k => (List.range k.nLen).map (fun n => (k.n0 + n, k.batch))))
  (rows.map (fun x => s.rowFlush a ref x.1 x.2)).sum + (cols.map (fun x => s.rowFlush w ref x.1 x.2)).sum

/-- A pass whose settings are invalid ends the task (R105, R119). -/
def State.passInvalid (s : State) (page : Nat) (hit : Option (Nat × Nat)) : State :=
  (s.raisePage page 9).raiseErr (s.srcOf page 0) caPASS_INVALID 0 hit 0x03

/-- One execution of a GEMM or GEMM_PATTERN from its first pass (R80, R112): settings, tiles, counts. -/
def State.launch (s : State) (q : Nat) (c : Cmd) : State :=
  let r := s.runOf c
  if r.bad then s.passInvalid (c.members.headD 0) (some (q, c.slot))
  else
    let a := s.operand q c 0
    let w := s.operand q c 1
    let t := tensorT a w r
    let cuts := tileCuts a.t w.t r
    let s := c.members.foldl (fun s m => (s.configCore c r m).progress m 0 (if dOpcode c.desc = opGEMM then 1 else 3) 0 0) s
    let s := s.dotFlags (c.members.headD 0) (s.entryOf c.part (dMeltOut c.desc)) t.2
    let s := c.members.zipIdx.foldl (fun s m =>
      let n := s.coreFlush c a w r.ref cuts m.2
      if n = 0 then s else s.bump m.1 0 R.CORE_FLUSH_IN n) s
    let s := (s.countBytes c.part a.t.base (a.t.elemBytes + a.t.scaleBytes)).countBytes c.part w.t.base (w.t.elemBytes + w.t.scaleBytes)
    let s := cuts.foldl (fun s k => s.formTile q c a w r t.1 k) s
    c.members.foldl (fun s m => s.stagePass m) s

end Sys2Proof.Machine
end

