-- ==== Sys2Proof/Machine/Vector.lean ====
section
/-! DEFINITION. VECTOR (R78, R156, R162, R173, R194, R431): operands, the operation of each VOP, and the output's way through the two
passes. -/

namespace Sys2Proof.Machine

def vopADD : Nat := 1
def vopSUB : Nat := 2
def vopMUL : Nat := 3
def vopDIV : Nat := 4
def vopFMA : Nat := 5
def vopMIN : Nat := 6
def vopMAX : Nat := 7
def vopSQRT : Nat := 8
def vopEXP : Nat := 9
def vopLOG : Nat := 0xA
def vopTANH : Nat := 0xB
def vopRSQRT : Nat := 0xC
def vopROW_SUM : Nat := 0xD
def vopROW_MAX : Nat := 0xE
def vopXENT_ROW : Nat := 0x11
def vopCONVERT : Nat := 0x12

/-- An input element decoded to the unit's width; an outlier comes from its riser record (R136, R173). -/
def State.vecElem (s : State) (f : FFmt) (o : Opd) (idx : List Nat) : VRes :=
  match o.recs.find? (fun r => r.1 = ravel o.t.ext idx) with
  | some r => f.ieee .rne ((fFP16.decode r.2).q.mul o.h)
  | none =>
    let r := s.opdRaw o idx
    vecIn f o.fmt r.1 r.2 o.ts

/-- Two results as one: the flags of the first operand's decoding join. -/
def VRes.also (fl : Nat) (r : VRes) : VRes := (r.1, r.2 ||| fl)

/-- The operation on one pair of elements. -/
def elemOp (f : FFmt) (m : Rnd) (vop imm x y : Nat) : Option VRes :=
  if vop = vopADD then some (f.add m x y)
  else if vop = vopSUB then some (f.sub m x y)
  else if vop = vopMUL then some (f.mul m x y)
  else if vop = vopDIV then some (f.div m x y)
  else if vop = vopFMA then some (f.fma m x y imm)
  else if vop = vopMIN then some (f.min x y)
  else if vop = vopMAX then some (f.max x y)
  else if vop = vopSQRT then some (f.sqrt m x)
  else if vop = vopCONVERT then some (x, 0)
  else f.nonIeee (vop - vopEXP) x

/-- Results per row rather than per element. -/
def rowResult (vop : Nat) : Bool := vop = vopROW_SUM || vop = vopROW_MAX || vop = vopXENT_ROW

/-- Operations over an innermost row. -/
def rowOp (vop : Nat) : Bool := decide (vopROW_SUM ≤ vop) && decide (vop ≤ vopXENT_ROW)

/-- The operation on a row: element i of the result. SOFTMAX_ROW, NORM_ROW and XENT_ROW have no arithmetic stated step by step: an open
function of their operands (DESIGN CHOICE log 37). -/
def rowVal (f : FFmt) (m : Rnd) (vop imm : Nat) (row : List Nat) (y i : Nat) : VRes :=
  if vop = vopROW_SUM then sumBy f m (Config.sumPick row.length) row.length 0 row 0
  else if vop = vopROW_MAX then
    match row with
    | [] => (0, 0)
    | x :: r => r.foldl (fun a b => VRes.also a.2 (f.max a.1 b)) (x, 0)
  else
    let arg := if vop = vopXENT_ROW then y else imm
    ((Config.rowFn vop (f = fFP64) row arg i).toNat % 2 ^ f.bits, (Config.rowFn vop (f = fFP64) row arg (2 ^ 32 + i)).toNat % 32)

/-- Result element e of a VECTOR command; none where the spec states no value: a corner of a non-IEEE operation, or an operand without
such an element (DESIGN CHOICE log 36). -/
def State.vecRes (s : State) (f : FFmt) (m : Rnd) (vop imm : Nat) (x y : Opd) (e : Nat) : Option VRes :=
  let at_ := fun (o : Opd) (e : Nat) => s.vecElem f o (unravel o.t.ext e)
  let w := x.t.e 0
  if rowOp vop then
    let r := if rowResult vop then e else e / w
    if x.t.rows ≤ r || (vop = vopXENT_ROW && decide (y.t.elems ≤ r)) then none
    else
      let row := (List.range w).map (fun i => at_ x (r * w + i))
      let yv := if vop = vopXENT_ROW then (at_ y r).1 else 0
      some (VRes.also (row.foldl (fun a v => a ||| v.2) 0) (rowVal f m vop imm (row.map (·.1)) yv (if rowResult vop then 0 else e % w)))
  else if x.t.elems ≤ e || (vopBinary vop && decide (y.t.elems ≤ e)) then none
  else
    let xv := at_ x e
    let yv := if vopBinary vop then at_ y e else (0, 0)
    (elemOp f m vop imm xv.1 yv.1).map (VRes.also (xv.2 ||| yv.2))

/-- The member core of output element e (R431). -/
def shareOf (elems n e : Nat) : Nat :=
  let q := elems / n
  let r := elems % n
  if e < r * (q + 1) then e / (q + 1) else r + (e - r * (q + 1)) / max 1 q

/-- Add a result into the stored output element (R162, R190). -/
def State.vecAccum (s : State) (c : Cmd) (f : FFmt) (o : TD) (idx : List Nat) (v : VRes) : VRes :=
  let ent := s.entryOf c.part (dMeltOut c.desc)
  let open_ := match ent with
    | some x => o.fmt = fmtG16 && s.blockOpen c.part x o (0 :: idx.drop 1) (idx.headD 0 / 256) true
    | none => false
  if open_ then ((Config.free (s.fresh + 2 * o.elems + ravel o.ext idx)).toNat % 2 ^ f.bits, v.2)
  else
    let old := vecIn f o.fmt (s.elemCode c.part o idx) (s.elemScale c.part o idx) (s.outScale ent o.fmt)
    VRes.also v.2 (f.add .rne old.1 v.1)

/-- The stored code of a result that needs no narrowing. -/
def wideCode (f : FFmt) (fmt code : Nat) : Option Nat :=
  if fmt = fmtFP64 then some (if f = fFP64 then code else if f.isNan code then nanTo f fFP64 code else (fFP64.ofVal .rne (f.decode code)).1)
  else if fmt = fmtFP32 && f = fFP32 then some code else none

/-- Segments of one core: the groups of each row whose first element falls to it. -/
def vecSegs (o : TD) (f : FFmt) (codes : List Nat) (modes : Nat → Rnd) (n i : Nat) : List Seg :=
  let w := o.e 0
  (List.range o.rows).filterMap (fun r =>
    let row := ((codes.drop (r * w)).take w).zipIdx
    let mine := (groupsBy o.fmt 0 row).filter (fun g => shareOf o.elems n (r * w + g.1) = i)
    match mine with
    | [] => none
    | g :: _ =>
      let es := mine.flatMap (·.2)
      some { idx := 0 :: unravel (o.ext.drop 1) r, c0 := g.1, vals := es.map (fun e => f.decode e.1),
             modes := es.map (fun e => modes (r * w + e.2)), wide := es.filterMap (fun e => wideCode f o.fmt e.1) })

/-- One execution of a VECTOR command. -/
def State.vectorRun (s : State) (q : Nat) (c : Cmd) : State :=
  let d := c.desc
  let f := if dVmode d % 2 = 1 then fFP64 else fFP32
  let m := vmodeRnd (dVmode d)
  let fm := Form.ofCmd c q false
  let x := s.operand q c 0
  let y := s.operand q c 1
  let o : TD := { fm.td 2 with fmt := c.fmt }
  let n := c.members.length
  let imm := (f.ofVal .rne (fFP64.decode (dImm d))).1
  let imm := if fFP64.isNan (dImm d) then nanTo fFP64 f (dImm d) else imm
  let sr := dCvtSr d || c.members.any (fun p => s.fld p 0 F.CORE_ARRAY_CFG_CVT_SR = 1)
  let base := s.fresh
  let modes := fun (e : Nat) => if sr then Rnd.sr 8 ((Config.free (base + e)).toNat % 256) else Rnd.rne
  let res := (List.range o.elems).map (fun e =>
    let v := (s.vecRes f m (dVop d) imm x y e).getD ((Config.free (base + o.elems + e)).toNat % 2 ^ f.bits, 0)
    if dFlag d flACCUM then s.vecAccum c f o (unravel o.ext e) v else v)
  let s := { s with fresh := base + 3 * o.elems }
  let s := c.members.foldl (fun s p => s.setFld p 0 F.CORE_ARRAY_CFG_DRAIN_FMT c.fmt) s
  let s := c.members.zipIdx.foldl (fun s k =>
    let fl := (res.zipIdx.filter (fun r => shareOf o.elems n r.2 = k.2)).foldl (fun a r => a ||| r.1.2) 0
    s.setReg k.1 0 R.CORE_VEC_FLAGS (s.reg k.1 0 R.CORE_VEC_FLAGS ||| fl)) s
  let s := s.countBytes c.part x.t.base (x.t.elemBytes + x.t.scaleBytes)
  let s := if vopBinary (dVop d) then s.countBytes c.part y.t.base (y.t.elemBytes + y.t.scaleBytes) else s
  c.members.zipIdx.foldl (fun s k =>
    match vecSegs o f (res.map (·.1)) modes n k.2 with
    | [] => s
    | segs => s.twoPasses k.1 c o segs) s

end Sys2Proof.Machine
end

