-- ==== Sys2Proof/Machine/Passes.lean ====
section
/-! DEFINITION. Passes of the array (R90 to R96, R105, R119), the release of tiles (R120 to R125, R137), layer re-runs (R138 to R141),
compare mode (R150) and the commands GEMM, GEMM_PATTERN, VECTOR and COMMAND_COMPLETE. -/

namespace Sys2Proof.Machine

/-! ### Starting a pass -/

/-- The tile whose passes a core runs: its first with passes left. -/
def State.passTile (s : State) (page : Nat) : Option Tile := s.tiles.find? (fun t => t.page = page && t.left ≠ 0)

/-- Offsets and strides of a pass are multiples of 4 (R105). -/
def State.passAligned (s : State) (page : Nat) : Bool :=
  s.fld page 0 F.CORE_SHADOW_SRC_OFFSET % 4 = 0 && s.fld page 0 F.CORE_SHADOW_STRIDE_STRIDE % 4 = 0

def shapeSide (code : Nat) : Nat := if code = 3 then 6 else code + 1

/-- Element bytes of a weight row of 128 (R118), by WFMT. -/
def patRowBytes (wfmt : Nat) : Nat := if wfmt = 0 then 64 else if wfmt = 1 then 32 else 16

/-- Planes of a weight, by WFMT. -/
def patPlanes (wfmt : Nat) : Nat := if wfmt = 0 then 4 else if wfmt = 1 then 2 else 1

/-- Whether PAT_CFG holds a pairing of R106: table mode with an FP8 or INT8 activation, XNOR mode with one-bit operands. -/
def patCfgOk (pc : Nat) : Bool :=
  let mode := pc % 4
  let w := bitsOf pc 3 2
  let a := bitsOf pc 5 4
  (mode = 1 && decide (w ≤ 2) && decide (a ≤ 2)) || (mode = 2 && w = 2 && a = 3)

/-- A pattern pass whose settings R119 refuses. -/
def State.patBad (s : State) (page actEnd : Nat) : Bool :=
  let pc := s.reg page 0 R.CORE_PAT_CFG
  let w := bitsOf pc 3 2
  let r := s.fld page 0 F.CORE_PAT_CFG_ROWS
  let v := s.fld page 0 F.CORE_PASS_CFG_VECTORS
  let st := s.fld page 0 F.CORE_SHADOW_STRIDE_STRIDE
  let row := patRowBytes w + 8
  !patCfgOk pc || r = 0 || decide (1024 < r * patPlanes w) || decide (min 4095 (8192 / max 1 r) < v) ||
    s.fld page 0 F.CORE_PASS_CFG_FEED = 1 || decide (st < row) ||
    decide (0x14000 < s.fld page 0 F.CORE_SHADOW_SRC_OFFSET + (r - 1) * st + row) || decide (0x14000 < actEnd)

/-- An array pass whose settings R105 refuses: `need` is the narrowest shape that its operands allow. -/
def State.arrayBad (s : State) (page need : Nat) : Bool :=
  let shape := cfgShape (s.reg page 0 R.CORE_ARRAY_CFG)
  let x := s.core page
  decide (largestPass (shapeSide shape) < s.fld page 0 F.CORE_PASS_CFG_VECTORS) || decide (shape < need) ||
    (s.fld page 0 F.CORE_PASS_CFG_REUSE = 1 &&
      (x.wShape ≠ shape + 1 || x.wEpoch ≠ s.fld page 0 F.CORE_ARRAY_CFG_EPOCH))

/-- A pass of the pattern unit: PAT_CFG.MODE is set and the core is not in reference mode (R107, R119). -/
def State.patPass (s : State) (page : Nat) : Bool :=
  s.fld page 0 F.CORE_PAT_CFG_MODE ≠ 0 && s.fld page 0 F.CORE_ARRAY_CFG_REF = 0

/-- The swap freeze and the load times of a pass (R95, R96). -/
def State.swapPass (s : State) (page tileAt v : Nat) : State :=
  let x := s.core page
  if s.fld page 0 F.CORE_PASS_CFG_REUSE = 1 then
    (s.updCore page (fun x => { x with nextAt := max x.nextAt tileAt + v })).setReg page 0 R.CORE_SWAP_FREEZE_LAST 0
  else
    let first := x.nextAt = 0
    let l := if first then tileAt else max (max x.swapAt (x.loadAt + 36)) tileAt
    let n := if first then l + 1 else x.nextAt
    let f := l + 1 - n
    let s := s.updCore page (fun x => { x with
      loadAt := l
      swapAt := n + f
      nextAt := n + f + v
      wShape := cfgShape (s.reg page 0 R.CORE_ARRAY_CFG) + 1
      wEpoch := s.fld page 0 F.CORE_ARRAY_CFG_EPOCH })
    let s := s.setReg page 0 R.CORE_SWAP_FREEZE_LAST (min 65535 f)
    if f = 0 then s
    else ((s.bump page 0 R.CORE_FREEZE_SWAP f).bump page 0 R.HDR_CNT_FREEZE f).setFld page 0 F.CORE_ARRAY_STATE_HOLD_CAUSE 8

/-- A core not assayed for 10 s is held for its assay at its array pass boundary (R327). -/
def State.assayHolds (s : State) (page : Nat) : Bool :=
  (s.core page).assayDue && decide (s.assayTime page + 10000000000 ≤ s.timeNow)

/-- ARRAY_PASS_START (R91, R95, R96, R105, R119). -/
def State.passStart (s : State) (page need tileAt sprueMin actEnd : Nat) : State :=
  if s.pageType page ≠ .core || s.fld page 0 F.CORE_ARRAY_STATE_STATE = 1 || s.islHalted page || s.assayHolds page || s.assayFirst page then s
  else
    let v := s.fld page 0 F.CORE_PASS_CFG_VECTORS
    let pat := s.patPass page
    if v = 0 || !s.passAligned page || (if pat then s.patBad page actEnd else s.arrayBad page need) then
      s.passInvalid page ((s.passTile page).map (fun t => (t.q, t.slot)))
    else if s.fld page 0 F.CORE_PASS_CFG_FEED = 1 && decide (sprueMin < min 4 v) then
      s.setFld page 0 F.CORE_SPRUE_STATUS_MIN_LEVEL (min (s.fld page 0 F.CORE_SPRUE_STATUS_MIN_LEVEL) sprueMin)
    else
      let s := if s.fld page 0 F.CORE_PASS_CFG_FEED = 1 then
          s.setFld page 0 F.CORE_SPRUE_STATUS_MIN_LEVEL (min (s.fld page 0 F.CORE_SPRUE_STATUS_MIN_LEVEL) sprueMin)
        else s
      let s := (s.setFld page 0 F.CORE_ARRAY_STATE_STATE 1).setFld page 0 F.CORE_ARRAY_STATE_VEC_REMAIN v
      if pat then s.setFld page 0 F.CORE_PAT_STATE_STATE 1 else s.swapPass page tileAt v

/-- PAT_PASS_CYCLES of a pattern pass (R115, R118): at least its fixed cycles, the lookups and stalls free (DESIGN CHOICE log 2). -/
def State.patCycles (s : State) (page : Nat) : State :=
  if s.patPass page then
    let b := if s.fld page 0 F.CORE_PAT_CFG_MODE = 1 then 18 else 14
    (s.setReg page 0 R.CORE_PAT_PASS_CYCLES (b + s.freeVal.toNat % (0x1000000 - b))).freshen
  else s

/-- ARRAY_PASS_END (R42, R43): the pass boundary of one core; the pass of a tile's K-loop has ended. -/
def State.passEnd (s : State) (page : Nat) : State :=
  if s.pageType page ≠ .core || s.fld page 0 F.CORE_ARRAY_STATE_STATE ≠ 1 || s.islHalted page || s.assayFirst page then s
  else
    let s := s.patCycles page
    let s := (s.setFld page 0 F.CORE_ARRAY_STATE_STATE 0).setFld page 0 F.CORE_ARRAY_STATE_VEC_REMAIN 0
    let s := (s.setFld page 0 F.CORE_PAT_STATE_STATE 0).bump page 0 R.CORE_PASSES 1
    let s := s.applyPass page
    match s.passTile page with
    | none => s
    | some t =>
      let u := { t with left := t.left - 1 }
      let s := { s with tiles := s.tiles.map (fun (x : Tile) => if x.q = t.q && x.slot = t.slot && x.index = t.index then u else x) }
      let s := if u.left = 0 then s.bump page 0 R.HDR_PROGRESS_POS t.mLen else s
      let s := match s.cmd? t.q t.slot with
        | some c => if u.left = 0 then s.progressed t.q c.task else s
        | none => s
      s.stagePass page

/-! ### Releasing a tile -/

/-- The innermost part of a block-scaled output that a tile covers is whole blocks (R123). -/
def tileBlocksOk (fmt lay : Nat) (pat : Bool) (t : Tile) : Bool :=
  !fmtBlock fmt ||
    (if lay = 1 then pat && t.n0 % 16 = 0 && t.nLen % 16 = 0 else t.m0 % 16 = 0 && t.mLen % 16 = 0)

/-- One fused multiply-add of the riser correction (R137, R82): its code and flags. -/
def riserFma (x w acc : Nat) : Nat × Nat :=
  let r := fFP32.fma .rne x w acc
  if fFP32.isNan r.1 then (fFP32.nan, if fFP32.isNan acc || fFP32.isNan w then 0 else dfINVALID)
  else (r.1, if r.2.testBit 2 then dfSUM_OVF else 0)

/-- The riser correction of a tile by one operand's records (R137). `cols` when the records belong to the output's rows n. -/
def State.riserFix (s : State) (a w : Opd) (t : Tile) (cols : Bool) (start : List Nat × Nat) : List Nat × Nat :=
  a.recs.foldl (fun (acc : List Nat × Nat) r =>
    let idx := unravel a.t.ext r.1
    let row := idx.getD 1 0
    let lo := if cols then t.n0 else t.m0
    let len := if cols then t.nLen else t.mLen
    if idx.drop 2 ≠ t.batch || decide (row < lo) || decide (lo + len ≤ row) then acc
    else
      let x := (roundF32 .rne ((fFP16.decode r.2).q.mul a.h)).1
      let out := acc.1.zipIdx.map (fun v =>
        let mine := if cols then v.2 % t.nLen = row - lo else v.2 / t.nLen = row - lo
        if mine then
          let other := if cols then t.m0 + v.2 / t.nLen else t.n0 + v.2 % t.nLen
          let wv := match (s.opdVal w (idx.headD 0 :: other :: t.batch)).1.mulQ w.ts with
            | .nan => fFP32.nan
            | .inf n => fFP32.infBits n
            | .fin q => (roundF32 .rne q).1
          riserFma x wv v.1
        else (v.1, 0))
      (out.map (·.1), out.foldl (fun f v => f ||| v.2) acc.2)) start

/-- Both operands' corrections; reference mode has none. -/
def State.riserTile (s : State) (q : Nat) (c : Cmd) (t : Tile) : List Nat × Nat :=
  let v := (t.vals.map (·.toNat), 0)
  if (s.runOf c).ref then v
  else
    let a := s.operand q c 0
    let w := s.operand q c 1
    s.riserFix w a t true (s.riserFix a w t false v)

/-- Rounding of element i of a tile in the drain (R74, R125). -/
def State.drainMode (s : State) (c : Cmd) (t : Tile) (i : Nat) : Rnd :=
  let sr := !(s.runOf c).ref && (dCvtSr c.desc || s.fld t.page 0 F.CORE_ARRAY_CFG_CVT_SR = 1)
  if sr then
    .sr 8 (s.drawAt c.part (dStream0 c.desc) (s.coreLane c.part t.page + i % 64) 0 (t.t * 2 ^ 32 + i / 64) 8)
  else .rne

/-- A tile's values as pieces of the output's innermost rows (R430). -/
def State.tileRows (s : State) (c : Cmd) (t : Tile) (vals : List Nat) : List Row :=
  let at_ := fun (i : Nat) => vals.getD i 0
  if dField c.desc 0x5A 8 = 1 then
    (List.range t.mLen).map (fun v =>
      let is := (List.range t.nLen).map (fun n => v * t.nLen + n)
      { idx := 0 :: (t.m0 + v) :: t.batch, c0 := t.n0, codes := is.map at_, modes := is.map (s.drainMode c t) })
  else
    (List.range t.nLen).map (fun n =>
      let is := (List.range t.mLen).map (fun v => v * t.nLen + n)
      { idx := 0 :: (t.n0 + n) :: t.batch, c0 := t.m0, codes := is.map at_, modes := is.map (s.drainMode c t) })

/-- Output tensor of a command in the format it writes. -/
def outTD (q : Nat) (c : Cmd) : TD := { (Form.ofCmd c q false).td 2 with fmt := c.fmt }

/-- A GEMM-class execution has written everything and no re-run is wanted: the riser header, and the command is done. A GATHER that
fed it is done as well (R229). -/
def State.gemmEnd (s : State) (q slot : Nat) : State :=
  match s.cmd? q slot with
  | none => s
  | some c =>
    if !(s.part c.part).rerunWanted.isEmpty || s.tiles.any (fun t => t.q = q && t.slot = slot) then s
    else
      let s := (s.putRiserHeader c (outTD q c)).finish q slot 0 0 c.pos
      match (s.queue q).feeder c with
      | some g => s.updCmd q g.slot (fun g => { g with done := true, wrote := true })
      | none => s

/-- A tile leaves the buffer. -/
def State.dropTile (s : State) (t : Tile) : State :=
  { s with tiles := s.tiles.filter (fun u => !(u.q = t.q && u.slot = t.slot && u.index = t.index)) }

/-- TILE_RELEASE (R98, R120, R123, R137): the first finished tile of a core goes through the drain converter. -/
def State.tileRelease (s : State) (page : Nat) : State :=
  match s.tiles.find? (fun t => t.page = page && t.left = 0 && !s.islHalted page && !s.assayFirst page) with
  | none => s
  | some t =>
    match s.cmd? t.q t.slot with
    | none => s.dropTile t
    | some c =>
      let s := s.dropTile t
      if t.epoch ≠ s.fld page 0 F.CORE_ARRAY_CFG_EPOCH then
        (s.raisePage page 8).raiseErr (s.srcOf page 0) caEPOCH_MISMATCH 0 (some (t.q, t.slot)) 0x04
      else if !tileBlocksOk c.fmt (dField c.desc 0x5A 8) (s.runOf c).pat t then
        ((s.raisePage page 10).setFld page 0 F.CORE_DRAIN_STATE_TRIG 8).raiseErr (s.srcOf page 0) caTILE_BLOCKS 0
          (some (t.q, t.slot)) 0x05
      else
        let v := s.riserTile t.q c t
        let s := s.dotFlags page (s.entryOf c.part (dMeltOut c.desc)) v.2
        let s := s.setFld page 0 F.CORE_DRAIN_STATE_HALF t.half
        let s := s.drainPiece page c (outTD t.q c) (s.tileRows c t v.1)
        let s := s.updCmd t.q t.slot (fun c => { c with pos := c.pos + t.mLen, wrote := true })
        s.gemmEnd t.q t.slot

/-! ### Re-running a layer (R138 to R141) -/

/-- What a re-run does to one entry that triggered (R139 items 3 and 4, R141). -/
def State.rerunEntry (s : State) (x : Nat) (c : Cmd) (causes : List Nat) : State :=
  let s := s.setEntFld x F.ENT_RERUN_STEP (satAdd 255 (s.entFld x F.ENT_RERUN_STEP) 1)
  let s := s.setEntFld x F.ENT_RERUN_TOTAL (satAdd 65535 (s.entFld x F.ENT_RERUN_TOTAL) 1)
  let bits := causes.foldl (fun a k => a ||| 2 ^ k) 0
  let stuck := s.stuck c x
  let off := stuck && causes.contains 2
  let s := s.setEntFld x F.ENT_WIDEN_AT_CAUSE (s.entFld x F.ENT_WIDEN_AT_CAUSE ||| bits ||| (if off then 8 else 0))
  let s := s.bump (shardPage x) 0 R.MELT_SHARD_SHARD_RERUNS 1
  let s := s.progress (shardPage x) 0 2 0 x
  if stuck then (if off then s.setEntFld x F.ENT_WIDEN_AT_RISER_OFF 1 else s)
  else
    let ctrl := s.entReg x R.ENT_ENT_CTRL
    let n := s.entFld x F.ENT_WIDEN_AT_COUNT
    let f := rungFmt ctrl (min (ctrlTop ctrl) (rungOf ctrl c.fmt + 1))
    let s := s.setEnt x R.ENT_WIDEN_AT (putBits (s.entReg x R.ENT_WIDEN_AT) (8 * n + 7) (8 * n) (dMb c.desc))
    let s := s.setEntFld x F.ENT_WIDEN_AT_COUNT (min 3 (n + 1))
    let s := if s.entRole x = roWEIGHT then s.setEntFld x F.ENT_FMT_STATE_NEXT_FMT f
      else (s.setEntFld x F.ENT_FMT_STATE_FMT f).setEntFld x F.ENT_FMT_STATE_NEXT_FMT f
    s.bump (shardPage x) 0 R.MELT_SHARD_SHARD_WIDENS 1

/-- The layer's commands without a record, and the command that writes an entry. -/
def State.layerCmds (s : State) (p : Nat) : List (Nat × Cmd) :=
  (s.part p).rerunCmds.filterMap (fun k => (s.cmd? k.1 k.2).map (fun c => (k.1, c)))

/-- One execution of a GEMM-class command from its start. -/
def State.runGemmClass (s : State) (q slot : Nat) : State :=
  match s.cmd? q slot with
  | none => s
  | some c => if dOpcode c.desc = opVECTOR then (s.vectorRun q c).gemmEnd q slot else s.launch q c

/-- One command of the layer runs again (R139 item 5): a new epoch on its cores, its outputs unpredictable until written, its format
that of the entry now. -/
def State.rerunCmd (s : State) (q : Nat) (c : Cmd) : State :=
  let s := c.members.foldl (fun s m =>
    let cfg := s.reg m 0 R.CORE_ARRAY_CFG
    let s := s.setReg m 0 R.CORE_ARRAY_CFG (putBits cfg 3 2 (bitsOf cfg 3 2 + 1))
    s.setFld m 0 F.CORE_ARRAY_STATE_STATE 0) s
  let s := s.havocAll c.part (c.outs ++ c.inpl)
  s.updCmd q c.slot (fun c => { c with
    fmt := s.slotFmt (Form.ofCmd c q false) 2, runs := c.runs + 1, done := false, pos := 0 })

/-- RERUN (R139): the layer widens and runs again. -/
def State.rerun (s : State) (p : Nat) : State :=
  let want := (s.part p).rerunWanted
  if want.isEmpty || want.any (fun w => s.dieStopped (w / 8 / 16384)) then s
  else
    let cs := s.layerCmds p
    let xs := dedup (want.map (· / 8))
    let nonfin := want.any (fun w => w % 8 = 1)
    let keys := want.filterMap (fun w => (cs.find? (fun k => s.entryOf k.2.part (dMeltOut k.2.desc) = some (w / 8))).map (fun k =>
      rcKey (w / 8) (w % 8) (rungOf (s.entReg (w / 8) R.ENT_ENT_CTRL) k.2.fmt)))
    let s := { s with tiles := s.tiles.filter (fun t => !cs.any (fun k => k.1 = t.q && k.2.slot = t.slot)) }
    let s := (dedup (cs.filterMap (fun k => s.entryOf k.2.part (dMeltOut k.2.desc)))).foldl (fun s x => s.dropPending x) s
    let s := xs.foldl (fun s x =>
      match cs.find? (fun k => s.entryOf k.2.part (dMeltOut k.2.desc) = some x) with
      | some k => s.rerunEntry x k.2 ((want.filter (fun w => w / 8 = x)).map (· % 8))
      | none => s) s
    let s := s.updPart p (fun y => { y with
      rerunWanted := []
      rerunTaken := dedup ((y.rerunTaken.filter (fun k => k ≠ rcNonfin)) ++ keys ++ (if nonfin then [rcNonfin] else [])) })
    let s := s.applyPart .layer p
    let s := cs.foldl (fun s k => s.rerunCmd k.1 k.2) s
    cs.foldl (fun s k => s.runGemmClass k.1 k.2.slot) s

/-! ### Compare mode (R150) -/

/-- Whether a command's output is compared. -/
def State.compares (s : State) (c : Cmd) : Option Nat :=
  match s.entryOf c.part (dMeltOut c.desc) with
  | some x => if isGemmClass (dOpcode c.desc) && s.entFld x F.ENT_ENT_CTRL_COMPARE = 1 then some x else none
  | none => none

/-- The reference execution's run: 6 × 6. -/
def refRun : Run := { ref := true, pat := false, side := 6, width := 6, kext := 6, v := 1360, vmax := 1360, planes := 1 }

/-- Output element number e of a GEMM by M, N and batch (R430). -/
def gemmPlace (d : BitVec 1024) (idx : List Nat) : Nat × Nat :=
  if dField d 0x5A 8 = 1 then (idx.getD 1 0, idx.headD 0) else (idx.headD 0, idx.getD 1 0)

/-- The reference value of output element e as FP32. With ACCUM the value added to is no longer stored, and a VECTOR has no reference
mode: a free value (DESIGN CHOICE log 41). -/
def State.refElement (s : State) (q : Nat) (c : Cmd) (o : TD) (e : Nat) : Nat :=
  if dFlag c.desc flACCUM || dOpcode c.desc = opVECTOR then (Config.free (s.fresh + e)).toNat % 2 ^ 32
  else
    let a := s.operand q c 0
    let w := s.operand q c 1
    let idx := unravel o.ext e
    let mn := gemmPlace c.desc idx
    (accumulate (ceilDiv (a.t.e 0) 6) (fun j => s.colSum a w true 6 (a.t.e 0) j mn.1 mn.2 (idx.drop 2)) (fun _ => .rne)).1

/-- The narrow output's element as written, its riser record restored. -/
def State.narrowElement (s : State) (c : Cmd) (o : TD) (x e : Nat) : Val :=
  let idx := unravel o.ext e
  let recs := if s.entRole x = roACT && fmtBlock c.fmt && s.entReg x R.ENT_RISER_CAP ≠ 0 then s.riserRecs c.part x (dMb c.desc) else []
  match recs.find? (fun r => r.1 = e) with
  | some r => .fin ((fFP16.decode r.2).q.mul ((f32Q (s.entReg x R.ENT_CEIL)).mul (f32Q (s.entReg x R.ENT_TSCALE))))
  | none => (s.elem c.part o idx).1.mulQ (s.outScale (some x) o.fmt)

/-- One comparison: whether the values differ, and their difference as an FP32 code rounded upward. -/
def cmpDiff (a b : Val) : Bool × Nat :=
  match a, b with
  | .nan, .nan => (false, 0)
  | .fin x, .fin y =>
    if x.eq y then (false, 0)
    else (true, (fFP32.ieee .rup (fFP64.decode (fFP64.ieee .rne (x.sub y).abs).1).q).1)
  | .inf x, .inf y => if x = y then (false, 0) else (true, 0x7F800000)
  | _, _ => (true, 0x7F800000)

/-- The comparison of a command whose final run has ended. CMP_NDIFF and CMP_MAXDIFF start again with the step's first comparison. -/
def State.compareRun (s : State) (q : Nat) (c : Cmd) (x : Nat) : State :=
  let o := outTD q c
  let p := c.part
  let refs := (List.range o.elems).map (s.refElement q c o)
  let s := { s with fresh := s.fresh + o.elems }
  let diffs := refs.zipIdx.map (fun r => cmpDiff (s.narrowElement c o x r.2) (f32 r.1))
  let s := s.wrBytes p (s.entReg x R.ENT_CMP_PAGE * 65536) (refs.flatMap (fun r => leBytes r 4))
  let fresh := s.reg pgSilent x 0x18 ≠ s.stepIndex p + 1
  let s := if fresh then ((s.setEnt x R.ENT_CMP_NDIFF 0).setEnt x R.ENT_CMP_MAXDIFF 0).setReg pgSilent x 0x18 (s.stepIndex p + 1) else s
  let s := s.setEnt x R.ENT_CMP_NDIFF (satAdd 0xFFFFFFFF (s.entReg x R.ENT_CMP_NDIFF) (diffs.filter (·.1)).length)
  s.setEnt x R.ENT_CMP_MAXDIFF (diffs.foldl (fun m d => max m d.2) (s.entReg x R.ENT_CMP_MAXDIFF))

/-- A layer command's record waits while a re-run of its layer is wanted, or another command of the layer still runs (R139 item 5). -/
def State.layerOpen (s : State) (q : Nat) (c : Cmd) : Bool :=
  let y := s.part c.part
  y.rerunCmds.contains (q, c.slot) &&
    (!y.rerunWanted.isEmpty || (s.layerCmds c.part).any (fun k => !k.2.done))

/-- Commands that end by themselves when what they wait for is there: an EVENT_WAIT whose word has reached its threshold (R204), and an
UPDATE that holds for a seal that will not come (R170, R205). -/
def State.endWaits (s : State) (q slot : Nat) : State :=
  match s.cmd? q slot with
  | none => s
  | some c =>
    let op := dOpcode c.desc
    if c.done || c.startT.isNone then s
    else if op = opEVENT_WAIT && decide (dField c.desc 0x58 64 ≤ s.rdLE c.part (dAddr c.desc 0) 8) then s.finish q slot 0 0 0
    else if op = opUPDATE && (s.part c.part).abandoned && !s.colls.any (fun (k : CollX) => k.part = c.part && k.closing) then
      s.updCmd q slot (fun c => { c with done := true, code := 0x13 })
    else s

/-- COMMAND_COMPLETE (R139, R150, R206). -/
def State.completeCmd (s : State) (q slot : Nat) : State :=
  let s := s.endWaits q slot
  match s.cmd? q slot with
  | none => s
  | some c =>
    if !c.done || s.layerOpen q c || s.ringWaits q || c.members.any s.islHalted then s
    else
      let s := match s.compares c with
        | some x => s.compareRun q c x
        | none => s
      s.commandDone q slot

/-! ### Starting GEMM, GEMM_PATTERN and VECTOR -/

/-- A GATHER that feeds the command has ended its list phase and pre-touch (R229). -/
def State.fedReady (s : State) (q : Nat) (c : Cmd) : Bool :=
  match (s.queue q).feeder c with
  | some g => g.startT.isSome && g.waitPages.isEmpty
  | none => true

/-- The state plane of a divisor output (R158) is no declared range (R193): whether it lies in the reservation shows when the
command runs. -/
def State.planeOut (s : State) (q : Nat) (c : Cmd) : Option Nat :=
  let o := outTD q c
  match s.entryOf c.part (dMeltOut c.desc) with
  | some x =>
    let a := s.entReg x R.ENT_RISER_BASE
    if o.fmt = fmtG16 && !s.inReservation c.part a (a + o.rows * roundUp (4 * ceilDiv (o.e 0) 256) 64 - 1) then some a else none
  | none => none

/-- The effect of a GEMM-class start: the command joins its layer and runs. -/
def State.gemmStart (s : State) (q : Nat) (c : Cmd) : State :=
  match s.planeOut q c with
  | some a => s.outside q c.part a
  | none => (s.updPart c.part (fun y => { y with rerunCmds := y.rerunCmds ++ [(q, c.slot)] })).runGemmClass q c.slot

def execGemm (q slot : Nat) (s : State) : Result :=
  .next (s.startCmd q slot (fun op => op = opGEMM) (fun s c => s.fedReady q c) (fun s c => s.gemmStart q c))
def execGemmPattern (q slot : Nat) (s : State) : Result :=
  .next (s.startCmd q slot (fun op => op = opGEMM_PATTERN) (fun s c => s.fedReady q c) (fun s c => s.gemmStart q c))
def execVector (q slot : Nat) (s : State) : Result :=
  .next (s.startCmd q slot (fun op => op = opVECTOR) (fun s c => s.fedReady q c) (fun s c => s.gemmStart q c))
def execCommandComplete (q slot : Nat) (s : State) : Result := .next (s.completeCmd q slot)
def execArrayPassStart (page need tileAt sprueMin actEnd : Nat) (s : State) : Result :=
  .next (s.passStart page need tileAt sprueMin actEnd)
def execArrayPassEnd (page : Nat) (s : State) : Result := .next (s.passEnd page)
def execTileRelease (page : Nat) (s : State) : Result := .next (s.tileRelease page)
def execRerun (part : Nat) (s : State) : Result := .next (s.rerun part)

end Sys2Proof.Machine
end

