-- ==== Sys2Proof/Machine/Movement.lean ====
section
/-! DEFINITION. The ladles (R219 to R236) and the check engines' scans (R331, R332): COPY, GATHER, SCATTER, SCATTER_ADD and CHECK_SCAN with
the pre-touch of host pages, page requests and invalidations. A command's data moves in one step, when every translation of its last window is held (DESIGN CHOICE log 42). -/

namespace Sys2Proof.Machine

/-! ### Division among ladles (R219) -/

/-- The share of index i of an extent among n ladles. -/
def shareIdx (n ext i : Nat) : Nat :=
  ((List.range n).filter (fun k => k = 0 || decide (Config.shareBound n ext k ≤ i))).length - 1

/-- The ladle among a command's members that writes a destination element: by its outermost dimension. -/
def ladleAt (c : Cmd) (t : TD) (idx : List Nat) : Nat :=
  let o := t.ndim - 1
  c.members.getD (shareIdx c.members.length (t.e o) (idx.getD o 0)) (c.members.headD 0)

/-- First global lane of a ladle for SR draws (R220). -/
def State.ladleLane (s : State) (p page : Nat) : Nat :=
  0x00300000 + (s.localCluster p (globalCluster page) * 2 + (pageUnit page - uLadle0)) * 64

def State.bumpIf (s : State) (page off n : Nat) : State := if n = 0 then s else s.bump page 0 off n

/-- Bytes that a ladle reads or writes (R235). -/
def State.ladleBytes (s : State) (page off n : Nat) (host : Bool) : State :=
  let s := s.bumpIf page off n
  if host then s.bumpIf page R.LADLE_LADLE_HOST_BYTES n else s

/-- Conversion counts of a ladle (R235). -/
def State.ladleCvt (s : State) (page : Nat) (c : Cvt) : State :=
  (((s.bumpIf page R.LADLE_FLUSH_IN c.flushIn).bumpIf page R.LADLE_FLUSH_OUT c.flushOut).bumpIf page R.LADLE_CVT_SAT c.sat).bumpIf page
    R.LADLE_CVT_NAN c.nanw

/-- All bytes of a tensor, its scale plane included. -/
def TD.allBytes (t : TD) : Nat := t.elemBytes + t.scaleBytes

/-! ### COPY (R221 to R223) -/

/-- The source index of a destination index under PERM. -/
def permIdx (d : BitVec 1024) (n : Nat) (idx : List Nat) : List Nat :=
  (List.range 6).map (fun i =>
    if i < n then
      match (List.range n).find? (fun j => permAt d j = i) with
      | some j => idx.getD j 0
      | none => 0
    else 0)

/-- A row ready to be written: index, codes or bytes as written, scale bytes. -/
structure OutRow where
  idx : List Nat
  bytes : List Byte
  scales : List Byte

def State.putOutRow (s : State) (p : Nat) (t : TD) (r : OutRow) : State :=
  let s := s.wrBytes p (t.rowAddr r.idx) r.bytes
  if fmtPlane t.fmt then s.wrBytes p (t.scale + t.rowNum r.idx * t.scaleRow) r.scales else s

/-- A verbatim row of `w` elements: the source's own row, or its elements one by one where PERM moves dimension 0. -/
def State.copyRow (s : State) (c : Cmd) (a : TD) (w : Nat) (idx : List Nat) : OutRow :=
  let src := permIdx c.desc a.ndim idx
  { idx := idx,
    bytes := if permAt c.desc 0 = 0 then s.rdBytes c.part (a.rowAddr src) a.rowBytes
      else packCodes (fmtBits a.fmt) ((List.range w).map (fun j => s.elemCode c.part a (permIdx c.desc a.ndim (j :: idx.drop 1)))),
    scales := if fmtPlane a.fmt then s.rdBytes c.part (a.scale + a.rowNum src * a.scaleRow) a.scaleRow else [] }

/-- What a converted row counts: conversions and the classes of R126. -/
structure RowCount where
  cvt : Cvt := {}
  nz : Nat := 0
  zero : Nat := 0
  flush : Nat := 0
  sat : Nat := 0
  nonfin : Nat := 0

def RowCount.blk (r : RowCount) (b : Blk) : RowCount :=
  { cvt := r.cvt.add b.cvt
    nz := r.nz + (if b.kind = .normal || b.kind = .saturated || b.kind = .flushed then 1 else 0)
    zero := r.zero + (if b.kind = .zero then 1 else 0)
    flush := r.flush + (if b.kind = .flushed then 1 else 0)
    sat := r.sat + (if b.kind = .saturated then 1 else 0)
    nonfin := r.nonfin + (if b.kind = .nonfinite then 1 else 0) }

/-- The tensor scale of an entry named by a movement command, 1.0 where it names none (R222). -/
def State.moveScale (s : State) (p i fmt : Nat) (read : Bool) : Q :=
  if fmtScaled fmt then
    match s.entryOf p i with
    | some x => f32Q (if read then s.readScale x else s.entReg x R.ENT_TSCALE)
    | none => Q.one
  else Q.one

/-- A converted row of a COPY (R220, R222). -/
def State.convertRow (s : State) (c : Cmd) (a o : TD) (idx : List Nat) : OutRow × RowCount :=
  let ta := s.moveScale c.part (dMeltIn0 c.desc) a.fmt true
  let tOut := s.moveScale c.part (dMeltOut c.desc) o.fmt false
  let vs := (List.range (o.e 0)).map (fun i =>
    let v := s.elem c.part a (permIdx c.desc a.ndim (i :: idx.drop 1))
    (v.1.mulQ ta, v.2))
  let mode := fun (i : Nat) =>
    if dFlag c.desc flCVT_SR then
      let e := ravel o.ext (i :: idx.drop 1)
      Rnd.sr 8 (s.drawAt c.part (dStream0 c.desc) (s.ladleLane c.part (ladleAt c o (i :: idx.drop 1)) + e % 64) 0 (e / 64) 8)
    else Rnd.rne
  let flushed : RowCount := { cvt := { flushIn := (vs.map (·.2)).sum } }
  if fmtBlock o.fmt then
    let bs := (cutAt 16 (vs.length + 1) 0 (vs.map (·.1))).map (fun g => encodeBlock o.fmt tOut (fun i => mode (g.1 + i)) g.2)
    let sc := bs.map (fun b => BitVec.ofNat 8 b.scale)
    ({ idx := idx, bytes := packCodes (fmtBits o.fmt) (bs.flatMap (·.codes)),
       scales := sc ++ List.replicate (o.scaleRow - sc.length) 0 }, bs.foldl RowCount.blk flushed)
  else
    let es := vs.zipIdx.map (fun v => narrowElem o.fmt tOut (mode v.2) v.1.1)
    ({ idx := idx, bytes := packCodes (fmtBits o.fmt) (es.map (·.1)), scales := [] },
     { flushed with cvt := es.foldl (fun k e => k.add e.2) flushed.cvt })

/-- The classes of a movement command's encoded blocks count into its MELT_OUT entry (R126, R220). -/
def State.countClasses (s : State) (p i : Nat) (r : RowCount) : State :=
  match s.entryOf p i with
  | none => s
  | some x => s.recordBlocks p x r.nz r.zero r.flush r.sat r.nonfin

/-- The data of a COPY: the whole source is read, then the whole destination written. -/
def State.moveCopy (s : State) (q : Nat) (c : Cmd) : State :=
  let f := Form.ofCmd c q false
  let a := f.td 0
  let o := f.td 2
  let p := c.part
  let per := fun (s : State) (row : List Nat) (off n : Nat) (host : Bool) => s.ladleBytes (ladleAt c o row) off n host
  let rows := o.rowIdx
  let s' := if f.copyConverts then
      let rs := rows.map (fun r => (r, s.convertRow c a o r))
      let s1 := rs.foldl (fun t r => (t.putOutRow p o r.2.1).ladleCvt (ladleAt c o r.1) r.2.2.cvt) s
      if fmtBlock o.fmt then rs.foldl (fun t r => t.countClasses p (dMeltOut c.desc) r.2.2) s1 else s1
    else (rows.map (fun r => s.copyRow c a (o.e 0) r)).foldl (fun t r => t.putOutRow p o r) s
  let n := rows.length
  let s' := rows.foldl (fun t r =>
    per (per t r R.LADLE_LADLE_RD_BYTES (a.allBytes / n) (isHost a.base)) r R.LADLE_LADLE_WR_BYTES (o.allBytes / n) (isHost o.base)) s'
  (s'.countBytes p a.base a.allBytes).countBytes p o.base o.allBytes

/-! ### Lists (R224 to R228) -/

/-- One innermost row of a block: entry, index in the indexed tensor, index in the stack. -/
structure BlkRow where
  entry : Nat
  ti : List Nat
  si : List Nat
  deriving DecidableEq, Repr

/-- The rows of every listed block, in list order. -/
def blkRows (n : Nat) (b : List Nat) (l : List Entry) : List BlkRow :=
  l.zipIdx.flatMap (fun (e, j) =>
    (List.range ((b.drop 1).foldl (· * ·) 1)).map (fun r =>
      let inner := 0 :: unravel (b.drop 1) r
      { entry := j
        ti := (List.range 6).map (fun i => if i < n then e.at_.getD i 0 * b.getD i 1 + inner.getD i 0 else 0)
        si := (List.range 6).map (fun i => inner.getD i 0 + (if i + 1 = n then j * b.getD i 1 else 0)) }))

/-- Address of an element that starts a byte. -/
def TD.elemAddr (t : TD) (idx : List Nat) : Nat := t.rowAddr idx + idx.headD 0 * fmtBits t.fmt / 8

/-- Copy one row of a block verbatim, with its scale bytes; `from_` and `into` are tensor and index. -/
def State.moveRow (s : State) (p : Nat) (w : Nat) (from_ into : TD × List Nat) : State :=
  let t := s.wrBytes p (into.1.elemAddr into.2) (s.rdBytes p (from_.1.elemAddr from_.2) (w * fmtBits into.1.fmt / 8))
  if fmtPlane into.1.fmt then
    t.wrBytes p (into.1.scaleAddr into.2) (s.rdBytes p (from_.1.scaleAddr from_.2) (ceilDiv w (fmtBlockLen into.1.fmt)))
  else t

/-- Bytes of one block, scale bytes included. -/
def blkBytes (t : TD) (b : List Nat) : Nat :=
  let rows := (b.drop 1).foldl (· * ·) 1
  let w := b.headD 1
  rows * (w * fmtBits t.fmt / 8 + (if fmtPlane t.fmt then ceilDiv w (fmtBlockLen t.fmt) else 0))

/-- Hits of a gather cache of `cap` blocks over a share of the list: the cache holds the blocks most recently read. -/
def cacheHits (cap : Nat) : List (List Nat) → List (List Nat) → Nat → Nat
  | _, [], n => n
  | held, e :: r, n => if held.contains e then cacheHits cap held r (n + 1) else cacheHits cap ((e :: held).take cap) r n

/-- The list's shares among a GATHER's ladles: contiguous ranges. -/
def gatherShare (c : Cmd) (l : List Entry) (k : Nat) : List Entry :=
  (l.zipIdx.filter (fun e => shareIdx c.members.length l.length e.2 = k)).map (·.1)

/-- The ladle of a scatter that takes an entry: by the parity of the destination block's number (R227). -/
def scatterLadle (c : Cmd) (f : Form) (e : Entry) : Nat :=
  let grid := (List.range 6).map (fun i => f.indexed.e i / max 1 (f.block i))
  c.members.getD (ravel grid (e.at_ ++ List.replicate (6 - e.at_.length) 0) % 2) (c.members.headD 0)

/-- Counts of the list phase (R225 to R227). Each running ladle reads the list; an entry counts on the ladle that takes it. -/
def State.listPhase (s : State) (q : Nat) (c : Cmd) (l : List Entry) : State :=
  let f := Form.ofCmd c q false
  let s := c.members.foldl (fun s m => s.ladleBytes m R.LADLE_LADLE_RD_BYTES f.byteLen false) s
  let s := s.countBytes c.part (dAddr c.desc 1) f.byteLen
  let s := c.members.foldl (fun s m => s.progress m 0 1 10000 f.count) s
  l.zipIdx.foldl (fun s (e, j) =>
    let m := if f.op = opGATHER then c.members.getD (shareIdx c.members.length l.length j) 0 else scatterLadle c f e
    let dup := (l.take j).any (fun d => d.at_ = e.at_)
    let s := if e.clamped then s.bump m 0 R.LADLE_LADLE_CLAMPED 1 else s
    if dup then s.bump m 0 R.LADLE_LADLE_DUPS 1 else s) s

/-- Clamped entries of a list, and the code and COUNT that a list command completes with (R226, R227). -/
def listCode (op : Nat) (l : List Entry) : Nat × Nat :=
  let n := (l.filter (·.clamped)).length
  if n ≠ 0 then (1, n) else (0, if op = opGATHER then 0 else dupCount l)

/-- GATHER of a list into memory. -/
def State.moveGather (s : State) (q : Nat) (c : Cmd) (l : List Entry) : State :=
  let f := Form.ofCmd c q false
  let t := f.indexed
  let k := f.stack
  let s' := (blkRows t.ndim f.blocks l).foldl (fun u r => u.moveRow c.part (f.block 0) (t, r.ti) (k, r.si)) s
  let bb := blkBytes t f.blocks
  let cap := if 1048576 < bb then 0 else 1048576 / max 1 bb
  c.members.zipIdx.foldl (fun u m =>
    let mine := gatherShare c l m.2
    let hits := cacheHits cap [] (mine.map (·.at_)) 0
    let rd := (mine.length - hits) * bb
    let u := u.bumpIf m.1 R.LADLE_LADLE_CACHE_HITS hits
    let u := (u.ladleBytes m.1 R.LADLE_LADLE_RD_BYTES rd (isHost t.base)).ladleBytes m.1 R.LADLE_LADLE_WR_BYTES (mine.length * bb) (isHost k.base)
    (u.countBytes c.part t.base rd).countBytes c.part k.base (mine.length * bb)) s'

/-- SCATTER: each ladle takes its entries in list order, so the last entry that names a block stands. -/
def State.moveScatter (s : State) (q : Nat) (c : Cmd) (l : List Entry) : State :=
  let f := Form.ofCmd c q false
  let t := f.indexed
  let k := f.stack
  let s' := (blkRows t.ndim f.blocks l).foldl (fun u r => u.moveRow c.part (f.block 0) (k, r.si) (t, r.ti)) s
  let bb := blkBytes t f.blocks
  let s' := l.foldl (fun u e =>
    let m := scatterLadle c f e
    (u.ladleBytes m R.LADLE_LADLE_RD_BYTES bb (isHost k.base)).ladleBytes m R.LADLE_LADLE_WR_BYTES bb (isHost t.base)) s'
  (s'.countBytes c.part k.base (l.length * bb)).countBytes c.part t.base (l.length * bb)

/-- A stored value as an FP32 code, with flushed inputs counted. -/
def State.asF32 (s : State) (p : Nat) (t : TD) (idx : List Nat) : Nat × Nat :=
  let v := s.elem p t idx
  (match v.1 with
    | .nan => fFP32.nan
    | .inf n => fFP32.infBits n
    | .fin q => (roundF32 .rne q).1, v.2)

/-- One element of SCATTER_ADD (R228): the entries' stack elements are added in list order. -/
def State.scatterElem (s : State) (p : Nat) (t k : TD) (ti : List Nat) (sis : List (List Nat)) : Nat × Cvt :=
  let d := s.asF32 p t ti
  let r := sis.foldl (fun (a : Nat × Nat) si =>
    let v := s.asF32 p k si
    ((addF32 .rne a.1 v.1).1, a.2 + v.2)) d
  let e := narrowElem t.fmt Q.one .rne (fFP32.decode r.1)
  (e.1, e.2.add { flushIn := r.2 })

/-- SCATTER_ADD. -/
def State.moveScatterAdd (s : State) (q : Nat) (c : Cmd) (l : List Entry) : State :=
  let f := Form.ofCmd c q false
  let t := f.indexed
  let k := f.stack
  let rows := blkRows t.ndim f.blocks l
  let w := f.block 0
  let bb := blkBytes t f.blocks
  let s' := (dedup (rows.map (·.ti))).foldl (fun u ti =>
    let mine := rows.filter (fun r => r.ti = ti)
    let m := match mine with
      | r :: _ => ((l[r.entry]?).map (scatterLadle c f)).getD (c.members.headD 0)
      | [] => c.members.headD 0
    let es := (List.range w).map (fun i =>
      let at_ := fun (x : List Nat) => (x.headD 0 + i) :: x.drop 1
      s.scatterElem c.part t k (at_ ti) (mine.map (fun r => at_ r.si)))
    let u := u.wrBytes c.part (t.elemAddr ti) (packCodes (fmtBits t.fmt) (es.map (·.1)))
    es.foldl (fun u e => u.ladleCvt m e.2) u) s
  let s' := l.zipIdx.foldl (fun u (e, j) =>
    let m := scatterLadle c f e
    let first := !(l.take j).any (fun d => d.at_ = e.at_)
    let u := u.ladleBytes m R.LADLE_LADLE_RD_BYTES bb (isHost k.base)
    if first then (u.ladleBytes m R.LADLE_LADLE_RD_BYTES bb (isHost t.base)).ladleBytes m R.LADLE_LADLE_WR_BYTES bb (isHost t.base) else u) s'
  let d := (l.length - dupCount l) * bb
  (s'.countBytes c.part k.base (l.length * bb)).countBytes c.part t.base (2 * d)

/-! ### CHECK_SCAN (R331, R332) -/

/-- The scan of a CHECK_SCAN: CRC, counts, and the outcome of a mismatch. -/
def State.scanData (s : State) (q : Nat) (c : Cmd) : State :=
  let m := c.members.headD 0
  let n := dField c.desc 0x58 64
  let crc := crc64 (s.rdBytes c.part (dAddr c.desc 0) n)
  let s := (s.countBytes c.part (dAddr c.desc 0) n).progress m 0 1 10000 n
  let s := ((s.setReg m 0 R.CHECK_CHECK_LAST_CRC crc).bump m 0 R.CHECK_CHECK_BYTES n).bump m 0 R.CHECK_CHECK_SCANS 1
  if crc = dField c.desc 0x60 64 then s.finish q c.slot 0 0 n
  else
    let s := ((s.notice m caCRC_MISMATCH crc).bump m 0 R.CHECK_CHECK_MISMATCHES 1).raisePage m 8
    let s := if dFlag c.desc flVERDICT then s.verdict c.part vCHECK_FAIL else s
    let s := s.finish q c.slot 0 0 n
    if dFlag c.desc flABORT_ON_MISMATCH then s.abortCmd q c.slot 0x14 0x21 else s

/-! ### Host pages (R230 to R232) -/

/-- Set a field of LADLE_STATE on the ladles among some engines. -/
def State.ladleSet (s : State) (ms : List Nat) (st : Nat) : State :=
  ms.foldl (fun s m => if assignedType m = .ladle then s.setFld m 0 F.LADLE_LADLE_STATE_STATE st else s) s

/-- Count on an engine that is a ladle. -/
def State.ladleBump (s : State) (m off : Nat) : State := if assignedType m = .ladle then s.bump m 0 off 1 else s

/-- Send a translation request (R230, R312). -/
def State.requestAts (s : State) (p v : Nat) : State := (s.emit .atsRequest [p, v]).bump pgCxl 0 R.CXL_ATS_REQ 1

/-- 4 KiB pages of host memory that a byte range touches (DEDUCED log 43). -/
def hostPagesOf (a n : Nat) : List Nat :=
  if !isHost a || n = 0 then []
  else
    let lo := a % 2 ^ 63 / 4096
    let hi := (a % 2 ^ 63 + n - 1) / 4096
    (List.range (hi + 1 - lo)).map (fun i => lo + i)

/-- Host pages of a whole tensor, row by row. -/
def TD.hostPages (t : TD) : List Nat :=
  if isHost t.base || isHost t.scale then
    t.rowIdx.flatMap (fun r => hostPagesOf (t.rowAddr r) t.rowBytes) ++ hostPagesOf t.scale t.scaleBytes
  else []

/-- Host pages of the listed blocks in a tensor. -/
def TD.blockPages (t : TD) (w : Nat) (ixs : List (List Nat)) : List Nat :=
  if isHost t.base || isHost t.scale then
    ixs.flatMap (fun i => hostPagesOf (t.elemAddr i) (w * fmtBits t.fmt / 8) ++
      (if fmtPlane t.fmt then hostPagesOf (t.scaleAddr i) (ceilDiv w (fmtBlockLen t.fmt)) else []))
  else []

/-- Every host page that a movement command accesses, each once. -/
def State.movePages (s : State) (q : Nat) (c : Cmd) : List Nat :=
  let f := Form.ofCmd c q false
  dedup (if f.op = opCHECK_SCAN then hostPagesOf (dAddr c.desc 0) (dField c.desc 0x58 64)
    else if f.op = opCOPY then (f.td 0).hostPages ++ (f.td 2).hostPages
    else
      let rows := blkRows f.indexed.ndim f.blocks (s.listOf f)
      f.indexed.blockPages (f.block 0) (rows.map (·.ti)) ++
        (if f.sprueOut then [] else f.stack.blockPages (f.block 0) (rows.map (·.si))))

/-- Translations that a ladle holds at once. -/
def atcSize : Nat := 16384

/-- Begin the next window (R230): a translation request for each of its pages. Entries of `waitPages` are page × 2, plus 1 while a
page request is outstanding. -/
def State.preTouch (s : State) (q slot : Nat) : State :=
  match s.cmd? q slot with
  | none => s
  | some c =>
    let win := c.hostPages.take atcSize
    let s := win.foldl (fun s v => s.requestAts c.part v) s
    let s := c.members.foldl (fun s m => if assignedType m = .ladle then s.progress m 0 2 0 0 else s) s
    let s := s.ladleSet c.members 2
    s.updCmd q slot (fun c => { c with waitPages := win.map (2 * ·), phase := c.phase + 1 })

/-- Bytes of the destination that a movement command writes. -/
def Form.moveBytes (f : Form) : Nat :=
  if f.op = opCOPY then (f.td 2).allBytes else f.count * blkBytes f.indexed f.blocks

/-- The data of a movement command moves, and the command is done. -/
def State.moveData (s : State) (q slot : Nat) : State :=
  match s.cmd? q slot with
  | none => s
  | some c =>
    let f := Form.ofCmd c q false
    let n := f.moveBytes
    if f.op = opCHECK_SCAN then s.scanData q c
    else
    let s := c.members.foldl (fun s m => s.progress m 0 3 10000 n) s
    let s := s.ladleSet c.members 3
    if f.op = opCOPY then (s.moveCopy q c).finish q slot 0 0 n
    else if f.sprueOut then s.updCmd q slot (fun c => { c with pos := n })
    else
      let l := s.listOf f
      let r := listCode f.op l
      let s := if f.op = opGATHER then s.moveGather q c l
        else if f.op = opSCATTER then s.moveScatter q c l else s.moveScatterAdd q c l
      s.finish q slot r.1 r.2 n

/-- A window's translations are all held: the next window follows, or the data moves. -/
def State.windowHeld (s : State) (q slot : Nat) : State :=
  match s.cmd? q slot with
  | none => s
  | some c =>
    if atcSize < c.hostPages.length then
      (s.updCmd q slot (fun c => { c with hostPages := c.hostPages.drop atcSize, wrote := true })).preTouch q slot
    else s.moveData q slot

/-- After the list phase: the pre-touch of the first window, or the data at once. -/
def State.moveStart (s : State) (q slot : Nat) : State :=
  match s.cmd? q slot with
  | none => s
  | some c =>
    let pages := s.movePages q c
    let s := s.updCmd q slot (fun c => { c with hostPages := pages, phase := 0 })
    if pages.isEmpty then s.moveData q slot else s.preTouch q slot

/-- The abort of a movement command, with its position (R226, R231, R232). -/
def State.abortMove (s : State) (q slot cause bit pos : Nat) : State :=
  match s.cmd? q slot with
  | none => s
  | some c =>
    let s := c.members.foldl (fun s m => if assignedType m = .ladle then s.raisePage m bit else s) s
    (s.updCmd q slot (fun c => { c with pos := pos })).abortCmd q slot 0x10 cause

/-! ### Starting -/

/-- Cluster SRAM in KiB that a movement command holds (R223, R227). -/
def State.moveAlloc (s : State) (f : Form) : Nat :=
  if s.copyOverlap f then ceilDiv (f.td 0).allBytes 1024 else if f.op = opGATHER then 1024 else 0

/-- Whether the running clusters' SRAM is free for a command. -/
def State.sramFree (s : State) (q : Nat) (c : Cmd) : Bool :=
  let n := s.moveAlloc (Form.ofCmd c q false)
  c.clusters.all (fun g =>
    decide (n + s.fld (clusterPage g uLadle0) 0 F.LADLE_LADLE_ALLOC_KIB + s.fld (clusterPage g (uLadle0 + 1)) 0 F.LADLE_LADLE_ALLOC_KIB ≤ 4096))

/-- The registers of the ladles that a movement command takes. -/
def State.ladlesTake (s : State) (q : Nat) (c : Cmd) (st : Nat) : State :=
  let n := s.moveAlloc (Form.ofCmd c q false)
  c.members.foldl (fun s m => ((s.setFld m 0 F.LADLE_LADLE_STATE_STATE st).setFld m 0 F.LADLE_LADLE_STATE_OPCODE (dOpcode c.desc)).setFld m 0
    F.LADLE_LADLE_ALLOC_KIB n) s

/-- COPY starts. -/
def State.copyStart (s : State) (q : Nat) (c : Cmd) : State :=
  let f := Form.ofCmd c q false
  let s := s.ladlesTake q c (if s.copyOverlap f then 4 else 3)
  s.moveStart q c.slot

/-- GATHER, SCATTER or SCATTER_ADD starts: the list phase, STRICT, then the data. -/
def State.listStart (s : State) (q : Nat) (c : Cmd) : State :=
  let f := Form.ofCmd c q false
  let l := s.listOf f
  let s := (s.ladlesTake q c 1).listPhase q c l
  let r := listCode f.op l
  if r.1 = 1 && dFlag c.desc flSTRICT then s.abortMove q c.slot 0x0C 9 0
  else
    let s := s.updCmd q c.slot (fun c => { c with code := r.1, count := r.2 })
    s.moveStart q c.slot

/-! ### Translation responses and page requests (R230 to R232) -/

/-- A translation response for a ring page (R302). -/
def State.ringAnswer (s : State) (q v : Nat) (ok : Bool) : State :=
  if !s.cxl.ringWait.any (fun w => w.1 = q && w.2.1 = v) then s
  else if ok then
    let w := s.cxl.ringWait.filter (fun w => !(w.1 = q && w.2.1 = v))
    let s := { s with cxl := { s.cxl with ringWait := w } }
    if !s.ringWaits q && !(s.queue q).ringFault && (s.queue q).rd ≠ (s.queue q).tail then s.enqueue q else s
  else
    let w := s.cxl.ringWait.map (fun w => if w.1 = q && w.2.1 = v then (q, v, 1) else w)
    ({ s with cxl := { s.cxl with ringWait := w } }.emit .priRequest [s.queueOwner q, v]).bump pgCxl 0 R.CXL_PRI_REQ 1

/-- A page request's response for a ring page: asked for again, or RING_FAULT (R302). -/
def State.ringPri (s : State) (q : Nat) (success : Bool) : State :=
  match s.cxl.ringWait.find? (fun w => w.1 = q && w.2.2 = 1) with
  | none => s
  | some w =>
    if success then s.ringAsk q w.2.1
    else
      let l := s.cxl.ringWait.map (fun x => if x = w then (q, w.2.1, 2) else x)
      let s := { s with cxl := { s.cxl with ringWait := l } }
      ((s.updQueue q (fun x => { x with ringFault := true })).raisePage pgCxl 9).notice pgCxl caRING_FAULT q

/-- A ring page of an enabled queue loses its translation: the module asks for it again before its next access (R302). -/
def State.ringInval (s : State) (p v : Nat) : State :=
  (s.queuesOf p).foldl (fun s q => if s.qEnabled q && (s.ringPages q).contains v then s.ringAsk q v else s) s

/-- A translation response reaches a command in its pre-touch: the translation is held, or the page is requested (R231). -/
def State.atsResponse (s : State) (q slot v : Nat) (ok : Bool) : State :=
  match s.cmd? q slot with
  | none => s.ringAnswer q v ok
  | some c =>
    if !c.waitPages.contains (2 * v) then s.ringAnswer q v ok
    else
      let m := c.members.headD 0
      if ok then
        let s := s.updCmd q slot (fun c => { c with waitPages := c.waitPages.filter (fun w => w ≠ 2 * v) })
        let s := c.members.foldl (fun s m => if assignedType m = .ladle then
            (s.bump m 0 R.HDR_PROGRESS_POS 1).setFld m 0 F.LADLE_LADLE_STATE_ATC_USED
              (min atcSize (s.fld m 0 F.LADLE_LADLE_STATE_ATC_USED + 1))
          else s) s
        let s := s.progressed q c.task
        if c.waitPages.length = 1 then s.windowHeld q slot else s
      else
        let s := s.updCmd q slot (fun c => { c with waitPages := c.waitPages.map (fun w => if w = 2 * v then w + 1 else w) })
        let s := s.ladleBump m R.LADLE_LADLE_PRI
        let s := if assignedType m = .ladle then s.setReg m 0 R.LADLE_LADLE_PRI_LAST (4096 * v) else s
        ((s.ladleSet [m] 6).emit .priRequest [c.part, v]).bump pgCxl 0 R.CXL_PRI_REQ 1

/-- A page request's response (R231): the translation is requested again, or the task aborts. -/
def State.priAnswer (s : State) (q slot : Nat) (success : Bool) : State :=
  match s.cmd? q slot with
  | none => s.ringPri q success
  | some c =>
    match c.waitPages.find? (fun w => w % 2 = 1) with
    | none => s.ringPri q success
    | some w =>
      if success then
        let s := s.updCmd q slot (fun c => { c with waitPages := c.waitPages.map (fun x => if x = w then w - 1 else x) })
        (s.ladleSet c.members 2).requestAts c.part (w / 2)
      else if c.phase ≤ 1 then s.abortMove q slot 0x01 8 0
      else (s.abortMove q slot 0x01 8 (s.freeVal.toNat % ((Form.ofCmd c q false).moveBytes + 1))).freshen

/-- An invalidation at one command's ladles (R232). How far the moving window has come is a free value (DESIGN CHOICE log 42). -/
def State.invalCmd (s : State) (q slot v : Nat) : State :=
  match s.cmd? q slot with
  | none => s
  | some c =>
    let m := c.members.headD 0
    let s := s.ladleBump m R.LADLE_LADLE_INVAL
    let s := if assignedType m = .ladle then s.setReg m 0 R.LADLE_LADLE_INVAL_LAST (4096 * v) else s
    if c.waitPages.isEmpty then
      (if (c.hostPages.take atcSize).contains v then
        (s.abortMove q slot 0x01 8 (s.freeVal.toNat % ((Form.ofCmd c q false).moveBytes + 1))).freshen else s)
    else if (c.hostPages.take atcSize).contains v && !c.waitPages.any (fun w => w / 2 = v) then
      (s.updCmd q slot (fun c => { c with waitPages := c.waitPages ++ [2 * v] })).requestAts c.part v
    else s

/-- An invalidation of a page that a checkpoint push writes restarts the push (R345). -/
def State.pushHit (s : State) (p v : Nat) : State :=
  let x := (s.part p).snap
  let a := s.reg pgSnapshot p R.SNAPSHOT_CKPT_BUF_BASE % 2 ^ 63
  if x.pushing && decide (a / 4096 ≤ v) && decide (v * 4096 < a + x.stageLen) then
    s.setFld pgSnapshot p F.SNAPSHOT_CKPT_STATUS_RESTARTS (min 255 (s.fld pgSnapshot p F.SNAPSHOT_CKPT_STATUS_RESTARTS + 1))
  else s

/-- ATS_INVALIDATION (R232, R302): ladles whose windows hold the page, then the rings' translations. -/
def State.invalidate (s : State) (p v : Nat) : State :=
  let hit := s.queues.flatMap (fun e => (e.2.cmds.filter (fun c =>
    !c.recorded && c.startT.isSome && c.part = p && (isMove (dOpcode c.desc) || dOpcode c.desc = opCHECK_SCAN) && c.hostPages.contains v)).map (fun c => (e.1, c.slot)))
  let s := hit.foldl (fun s h => s.invalCmd h.1 h.2 v) s
  let s := (s.ringInval p v).pushHit p v
  (s.bump pgCxl 0 R.CXL_ATS_INVAL 1).emit .invalAck [p, v]

/-- CHECK_SCAN starts on its engine. -/
def State.scanStart (s : State) (q : Nat) (c : Cmd) : State :=
  (c.members.foldl (fun s m => s.setReg m 0 R.CHECK_CHECK_STATE 1) s).moveStart q c.slot

/-- Whether a command would start now but for cluster SRAM that is not free (R219, R235). -/
def State.allocWaits (s : State) (q slot op : Nat) : Bool :=
  match s.cmd? q slot with
  | none => false
  | some c =>
    match findTask (s.queue q).tasks c.task with
    | none => false
    | some t => dOpcode c.desc = op && !s.sramFree q c && s.startsNow q c t

/-- A movement command starts, or its ladles show that they wait for an allocation. -/
def State.moveCmd (s : State) (q slot op : Nat) (k : State → Cmd → State) : State :=
  if s.allocWaits q slot op then
    match s.cmd? q slot with
    | none => s
    | some c => c.members.foldl (fun s m => (s.setFld m 0 F.LADLE_LADLE_STATE_STATE 7).setFld m 0 F.LADLE_LADLE_STATE_OPCODE op) s
  else s.startCmd q slot (fun o => o = op) (fun s c => s.sramFree q c) k

def execCopy (q slot : Nat) (s : State) : Result := .next (s.moveCmd q slot opCOPY (fun s c => s.copyStart q c))
def execGather (q slot : Nat) (s : State) : Result := .next (s.moveCmd q slot opGATHER (fun s c => s.listStart q c))
def execScatter (q slot : Nat) (s : State) : Result := .next (s.moveCmd q slot opSCATTER (fun s c => s.listStart q c))
def execScatterAdd (q slot : Nat) (s : State) : Result := .next (s.moveCmd q slot opSCATTER_ADD (fun s c => s.listStart q c))
def execCheckScan (q slot : Nat) (s : State) : Result :=
  .next (s.startCmd q slot (fun op => op = opCHECK_SCAN) (fun _ _ => true) (fun s c => s.scanStart q c))
def execAtsTranslationResponse (q slot vpage : Nat) (ok : Bool) (s : State) : Result := .next (s.atsResponse q slot vpage ok)
def execPriResponse (q slot : Nat) (success : Bool) (s : State) : Result := .next (s.priAnswer q slot success)
def execAtsInvalidation (part vpage : Nat) (s : State) : Result := .next (s.invalidate part vpage)

end Sys2Proof.Machine
end

