-- ==== Sys2Proof/Machine/Signals.lean ====
section
/-! DEFINITION. Commands without an arithmetic engine: BARRIER, STEP_BOUNDARY, EVENT_SIGNAL, EVENT_WAIT, STATS_READ, TRACE_MARK (R194, R199,
R204, R205, R383), and the timers of R201. -/

namespace Sys2Proof.Machine

/-! ### Barriers (R199, R205) -/

/-- Every earlier command of the queue has its record. -/
def State.reached (s : State) (q : Nat) (c : Cmd) : Bool := ((s.queue q).before c).all (·.recorded)

/-- An arrival of a BARRIER or STEP_BOUNDARY; one whose count differs from the first arrival's ends its task. -/
def State.barrierArrives (s : State) (q : Nat) (c : Cmd) : State :=
  let id := dField c.desc 0x54 16
  let n := dField c.desc 0x56 16
  let page := c.members.headD 0
  let step := dOpcode c.desc = opSTEP_BOUNDARY
  let bad : Bool := match s.bar? c.part id with
    | some b => (match b.arrivals.find? (fun a => !a.aborted) with
      | some a => decide (a.count ≠ n) && !b.arrivals.any (fun x => x.q = q)
      | none => false)
    | none => false
  if bad then (s.raisePage page 8).abortCmd q c.slot 0x10 0x09
  else s.arriveAt c.part id
    { q := q, slot := c.slot, count := n, layer := step || dFlag c.desc flLAYER, aborted := false, step := step } page

/-! ### STATS_READ (R194) -/

/-- Registers of a melt sheet entry's 128 bytes: offset and bytes (R129, R157). -/
def entLayout (grad : Bool) : List (Nat × Nat) :=
  (if grad then [(0x00, 4), (0x04, 4), (0x08, 8), (0x10, 4), (0x14, 4), (0x18, 8), (0x20, 4), (0x24, 4)]
   else [(0x00, 4), (0x04, 4), (0x08, 4), (0x0C, 4), (0x10, 4), (0x14, 4), (0x18, 8), (0x20, 4), (0x24, 4)]) ++
  [(0x28, 4), (0x2C, 4)] ++ (List.range 8).map (fun i => (0x30 + 2 * i, 2)) ++
  (List.range 12).map (fun i => (0x40 + 4 * i, 4)) ++ [(0x70, 8), (0x78, 4), (0x7C, 4)]

/-- Whether an offset is unused by a role and reads zero (R129, R163). -/
def entUnused (grad : Bool) (off : Nat) : Bool :=
  if grad then off = 0x20 || off = 0x24 else off = 0x64 || off = 0x68 || off = 0x70

/-- A register of an entry as reads show it, under a role. -/
def State.entView (s : State) (x off : Nat) (grad : Bool) : Nat := if entUnused grad off then 0 else s.entReg x off

/-- The 128 bytes of an entry. -/
def State.entImage (s : State) (x : Nat) : List Byte :=
  let g := isGrad (s.entRole x)
  (entLayout g).flatMap (fun r => leBytes (s.entView x r.1 g) r.2)

/-- Write bytes into a tensor in element order, row after row. -/
def State.putStream (s : State) (p : Nat) (t : TD) (l : List Byte) : State :=
  (t.rowIdx.foldl (fun (r : State × List Byte) idx =>
    (r.1.wrBytes p (t.rowAddr idx) (r.2.take t.rowBytes), r.2.drop t.rowBytes)) (s, l)).1

/-- STATS_READ: COUNT entries from FIRST, 128 bytes each, as they stand now. -/
def State.statsRead (s : State) (q : Nat) (c : Cmd) : State :=
  let o := (Form.ofCmd c q false).td 2
  let n := dField c.desc 0x56 16
  let l := (List.range n).flatMap (fun i =>
    match s.globalMelt c.part (dField c.desc 0x54 16 + i) with
    | some x => s.entImage x
    | none => [])
  let s := (s.putStream c.part o l).countBytes c.part o.base (min l.length o.elemBytes)
  let s := c.members.foldl (fun s m => (s.ladleBytes m R.LADLE_LADLE_WR_BYTES (min l.length o.elemBytes) false).ladleSet [m] 3) s
  s.finish q c.slot 0 0 (min l.length o.elemBytes)

/-! ### Events (R204) -/

/-- An event word is no declared range (R193): whether it lies in the reservation shows when the command runs. -/
def State.eventIn (s : State) (c : Cmd) : Bool := s.inReservation c.part (dAddr c.desc 0) (dAddr c.desc 0 + 7)

/-- EVENT_SIGNAL: ADD joins the word modulo 2^64. -/
def State.signalEvent (s : State) (q : Nat) (c : Cmd) : State :=
  let a := dAddr c.desc 0
  if !s.eventIn c then s.outside q c.part a
  else
  let s := s.wrLE c.part a 8 ((s.rdLE c.part a 8 + dField c.desc 0x58 64) % 2 ^ 64)
  s.finish q c.slot 0 0 0

/-! ### Timers (R201) -/

/-- BARRIER_TIMEOUT: the tasks of the arrived participants abort. -/
def State.barrierTimeout (s : State) (p id : Nat) : State :=
  match s.bar? p id with
  | none => s
  | some b =>
    let t := b.arrivals.head?.bind (fun a => (s.cmd? a.q a.slot).bind (fun c => findTask (s.queue a.q).tasks c.task))
    let page := s.barrierPage p t
    if b.arrivals.isEmpty || decide (s.timeNow < b.first + 1000 * s.reg page 0 R.BARRIER_BAR_TIMEOUT) then s
    else
      let hit := b.arrivals.filter (fun a => !a.aborted)
      let s := s.setBar { b with arrivals := [] }
      let s := (s.bump page 0 R.BARRIER_BAR_TIMEOUTS 1).setReg page 0 R.BARRIER_BAR_STATE 0
      let s := hit.foldl (fun s a => s.abortCmd a.q a.slot 0x10 0x08) s
      s.rearrive p id page b.later

/-- Commands during which STALL_MS does not run, when every unfinished one is of this kind. -/
def waitsLong (op : Nat) : Bool := op = opEVENT_WAIT || op = opLINK_RECV || op = opCOLLECTIVE || op = opUPDATE

/-- STALL: the running task has made no progress for STALL_MS. -/
def State.stallOut (s : State) (q : Nat) : State :=
  let x := s.queue q
  let ms := s.qreg q R.QCTX_QLIMITS % 65536
  match x.tasks.head? with
  | none => s
  | some t =>
    let open_ := x.cmds.filter (fun c => c.task = t.id && !c.recorded && !closesTask (dOpcode c.desc))
    if ms = 0 || !t.served || t.aborted || t.refused || x.frozen || x.state = 3 || open_.isEmpty ||
        open_.all (fun c => waitsLong (dOpcode c.desc)) || decide (s.timeNow < t.lastProg + 1000000 * ms) then s
    else s.abortWhole q t.id 0x0A

/-- DEADLINE of an admitted command has passed. -/
def State.deadlineOut (s : State) (q slot : Nat) : State :=
  match s.cmd? q slot with
  | none => s
  | some c =>
    if dDeadline c.desc ≠ 0 && decide (dDeadline c.desc ≤ s.timeNow) then s.abortCmd q slot 0x10 0x07 else s

/-- TIMEOUT_US of a started EVENT_WAIT has passed with its word below the threshold. -/
def State.eventOut (s : State) (q slot : Nat) : State :=
  match s.cmd? q slot with
  | none => s
  | some c =>
    let us := dField c.desc 0x60 32
    if dOpcode c.desc = opEVENT_WAIT && us ≠ 0 && !c.done && decide (s.rdLE c.part (dAddr c.desc 0) 8 < dField c.desc 0x58 64) &&
        (match c.startT with | some t => decide (t + 1000 * us + ((s.part c.part).heldNs - c.held0) ≤ s.timeNow) | none => false) then
      s.abortCmd q slot 0x10 0x0B
    else s

/-! ### Commands -/

def execBarrier (q slot : Nat) (s : State) : Result :=
  .next (s.startCmd q slot (fun op => op = opBARRIER) (fun s c => s.reached q c) (fun s c => s.barrierArrives q c))
def execStepBoundary (q slot : Nat) (s : State) : Result :=
  .next (s.startCmd q slot (fun op => op = opSTEP_BOUNDARY) (fun s c => s.reached q c) (fun s c => s.barrierArrives q c))
def execStatsRead (q slot : Nat) (s : State) : Result :=
  .next (s.startCmd q slot (fun op => op = opSTATS_READ) (fun _ _ => true) (fun s c => s.statsRead q c))
def execEventSignal (q slot : Nat) (s : State) : Result :=
  .next (s.startCmd q slot (fun op => op = opEVENT_SIGNAL) (fun s c => s.reached q c) (fun s c => s.signalEvent q c))
def execEventWait (q slot : Nat) (s : State) : Result :=
  .next (s.startCmd q slot (fun op => op = opEVENT_WAIT) (fun _ _ => true) (fun s c =>
    if s.eventIn c then s.endWaits q c.slot else s.outside q c.part (dAddr c.desc 0)))
def execTraceMark (q slot : Nat) (s : State) : Result :=
  .next (s.startCmd q slot (fun op => op = opTRACE_MARK) (fun s c => s.reached q c) (fun s c => s.finish q c.slot 0 0 0))
def execBarrierTimeout (part id : Nat) (s : State) : Result := .next (s.barrierTimeout part id)
def execStall (q : Nat) (s : State) : Result := .next (s.stallOut q)
def execDeadline (q slot : Nat) (s : State) : Result := .next (s.deadlineOut q slot)
def execEventTimeout (q slot : Nat) (s : State) : Result := .next (s.eventOut q slot)

end Sys2Proof.Machine
end

