-- ==== Sys2Proof/Machine/Update.lean ====
section
/-! DEFINITION. The temper units (R173 to R177, R181, R182): UPDATE, its holding for the seal, and what a seal does to a partition's updates. -/

namespace Sys2Proof.Machine

/-! ### One element (R174) -/

/-- Hyperparameters of one temper unit with the step's derived values. -/
structure Hyper where
  kind : Nat
  lr : Nat
  b1 : Nat
  b2 : Nat
  c1 : Nat
  c2 : Nat
  eps : Nat
  wd : Nat
  tmax : Nat
  gs : Nat
  deriving DecidableEq, Repr

def fp32One : Nat := 0x3F800000
def mul32f (a b : Nat) : Nat := (fFP32.mul .rne a b).1
def add32f (a b : Nat) : Nat := (fFP32.add .rne a b).1
def sub32f (a b : Nat) : Nat := (fFP32.sub .rne a b).1
def div32f (a b : Nat) : Nat := (fFP32.div .rne a b).1
def fma32f (a b c : Nat) : Nat := (fFP32.fma .rne a b c).1
def sqrt32f (a : Nat) : Nat := (fFP32.sqrt .rne a).1
def neg32f (a : Nat) : Nat := fFP32.flip a

def State.hyper (s : State) (page p : Nat) : Hyper :=
  let r := fun (o : Nat) => s.reg page 0 o
  { kind := s.fld page 0 F.TEMPER_OPT_CFG_KIND, lr := mul32f (r R.TEMPER_LR) (s.part p).jr.lrMult, b1 := r R.TEMPER_BETA1,
    b2 := r R.TEMPER_BETA2, c1 := sub32f fp32One (r R.TEMPER_B1POW), c2 := sub32f fp32One (r R.TEMPER_B2POW), eps := r R.TEMPER_EPS,
    wd := r R.TEMPER_WDECAY, tmax := r R.TEMPER_TRUST_MAX, gs := r R.TEMPER_GRAD_SCALE }

/-- Master, state and copy of one element after an update, and its e. -/
structure Elem where
  w : Nat
  s0 : Nat
  s1 : Nat
  e : Nat
  deriving DecidableEq, Repr

/-- The pseudocode of R174 for one element; `g` is the scaled gradient and `r` the trust ratio. -/
def Hyper.elem (h : Hyper) (r g w s0 s1 : Nat) : Elem :=
  if h.kind = 0 then
    let d := fma32f h.wd w g
    let s0 := fma32f h.b1 s0 d
    { w := fma32f (neg32f h.lr) s0 w, s0 := s0, s1 := s1, e := 0 }
  else
    let a := mul32f (sub32f fp32One h.b1) g
    let b := mul32f (sub32f fp32One h.b2) (mul32f g g)
    let s0 := fma32f h.b1 s0 a
    let s1 := fma32f h.b2 s1 b
    let u := div32f (div32f s0 h.c1) (add32f (sqrt32f (div32f s1 h.c2)) h.eps)
    let e := fma32f h.wd w u
    let lr := if h.kind = 2 then mul32f h.lr r else h.lr
    { w := fma32f (neg32f lr) e w, s0 := s0, s1 := s1, e := e }

/-! ### The trust ratio (R175) -/

def sq64 (a : Nat) : Nat :=
  let v := (fFP64.ofVal .rne (f32 a)).1
  (fFP64.mul .rne v v).1

def sum64 (l : List Nat) : Nat := l.foldl (fun a v => (fFP64.add .rne a v).1) 0

/-- Sum of squares: `l` lists each temper unit's values in element order; per lane, then lanes, then units (R175). -/
def laneSum (l : List (List Nat)) : Nat :=
  sum64 (l.map (fun u => sum64 ((List.range 64).map (fun k =>
    sum64 ((u.zipIdx.filter (fun x => x.2 % 64 = k)).map (fun x => sq64 x.1))))))

/-- The ratio: division and square root in FP64, rounded to FP32 (DEDUCED log 48). -/
def trustRatio (tmax sw se : Nat) : Nat :=
  if sw % 2 ^ 63 = 0 || se % 2 ^ 63 = 0 then fp32One
  else
    let q := (fFP64.sqrt .rne (fFP64.div .rne sw se).1).1
    let r := if fFP64.isNan q then fFP32.nan else (fFP32.ofVal .rne (fFP64.decode q)).1
    (fFP32.min tmax r).1

/-! ### One UPDATE -/

/-- The command's tensors: gradient, master, states, copy in its NEXT_FMT. -/
structure UpdTds where
  g : TD
  w : TD
  s0 : TD
  s1 : Option TD
  o : TD

def State.updTds (s : State) (q : Nat) (c : Cmd) (x : Nat) : UpdTds :=
  let f := Form.ofCmd c q false
  { g := f.td 0, w := f.td 1, s0 := f.stateTD 0,
    s1 := if dField c.desc 0x60 64 = 0 then none else some (f.stateTD 1),
    o := { f.td 2 with fmt := s.entFld x F.ENT_FMT_STATE_NEXT_FMT } }

/-- First element of member k's range (R431). -/
def shareStart (elems n k : Nat) : Nat := elems / n * k + min k (elems % n)

/-- Elements of an update in element order, before and after: gradient, old master, new element. -/
def State.updElems (s : State) (c : Cmd) (t : UpdTds) : List (Nat × Elem) :=
  let p := c.part
  let n := c.members.length
  let hs := c.members.map (fun m => s.hyper m p)
  let at_ := fun (d : TD) (i : Nat) => s.elemCode p d (unravel d.ext i)
  let run := fun (r : List Nat) => (List.range t.w.elems).map (fun i =>
    let k := shareOf t.w.elems n i
    let h := hs.getD k (s.hyper 0 p)
    let gv := (s.elem p t.g (unravel t.g.ext i)).1
    let g := (fFP32.ofVal .rne (match mulV gv (f32 h.gs) with | some v => v | none => .nan)).1
    let s1 := match t.s1 with
      | some d => at_ d i
      | none => (Config.free (s.fresh + i)).toNat % 2 ^ 32
    let w := at_ t.w i
    (w, h.elem (r.getD k fp32One) g w (at_ t.s0 i) s1))
  if hs.any (fun h => h.kind = 2) then
    let one := run []
    let units := (List.range n).map (fun k => (one.drop (shareStart t.w.elems n k)).take (shareStart t.w.elems n (k + 1) - shareStart t.w.elems n k))
    let sw := laneSum (units.map (fun u => u.map (·.1)))
    let se := laneSum (units.map (fun u => u.map (fun e => e.2.e)))
    run (hs.map (fun h => trustRatio h.tmax sw se))
  else run []

/-- Rounding of the copy's element i (R176). -/
def State.copyMode (s : State) (c : Cmd) (elems i : Nat) : Rnd :=
  let n := c.members.length
  let k := shareOf elems n i
  let m := c.members.getD k 0
  let j := i - shareStart elems n k
  if s.fld m 0 F.TEMPER_OPT_CFG_CVT_SR = 1 then
    .sr 8 (s.drawAt c.part (dStream0 c.desc) (0x00100000 + s.localCluster c.part (globalCluster m) * 64 + j % 64) 0 (j / 64) 8)
  else .rne

/-- Segments of the copy: one per innermost row. -/
def State.copySegs (s : State) (c : Cmd) (t : UpdTds) (l : List (Nat × Elem)) : List Seg :=
  let w := t.o.e 0
  t.o.rowIdx.zipIdx.map (fun r =>
    let es := ((l.drop (r.2 * w)).take w).zipIdx
    { idx := r.1, c0 := 0, vals := es.map (fun e => (fFP32.read e.1.2.w).1),
      modes := es.map (fun e => s.copyMode c t.w.elems (r.2 * w + e.2)), wide := [] })

/-- The copy's statistics go straight into the WEIGHT entry's current-step fields (R126, R176). -/
def State.copyStats (s : State) (p x : Nat) (a : Tally) (b : Tally2) : State :=
  let am := qF32 a.amax
  let s := s.setEnt x R.ENT_AMAX_CUR (maxF32 (s.entReg x R.ENT_AMAX_CUR) am)
  let s := s.setEnt x R.ENT_BODY_CUR (maxF32 (s.entReg x R.ENT_BODY_CUR) am)
  s.recordBlocks p x a.nz a.zero b.flush a.sat a.nonfin

/-- Write one innermost row of every tensor that the update writes. -/
def State.putUpd (s : State) (p : Nat) (t : UpdTds) (kind : Nat) (l : List (Nat × Elem)) : State :=
  let w := t.w.e 0
  t.w.rowIdx.zipIdx.foldl (fun s r =>
    let es := (l.drop (r.2 * w)).take w
    let s := (s.putRow p t.w r.1 (es.map (fun e => e.2.w))).putRow p t.s0 r.1 (es.map (fun e => e.2.s0))
    match t.s1 with
    | some d => if kind = 0 then s else s.putRow p d r.1 (es.map (fun e => e.2.s1))
    | none => s) s

/-- Bytes that an update moves (R177). -/
def UpdTds.bytes (t : UpdTds) (kind : Nat) : Nat :=
  let n := t.w.elems
  let states := if kind = 0 then 1 else 2
  let first := t.g.elemBytes + ceilDiv n 256 + 4 * n + 4 * states * n
  (if kind = 2 then 2 * first else first) + 4 * n + 4 * states * n + t.o.elemBytes + t.o.scaleBytes

/-- The update acts: every element, its copy and its statistics. -/
def State.updWrite (s : State) (q : Nat) (c : Cmd) (x : Nat) : State :=
  let p := c.part
  let t := s.updTds q c x
  let kind := s.fld (c.members.headD 0) 0 F.TEMPER_OPT_CFG_KIND
  let l := s.updElems c t
  let segs := s.copySegs c t l
  let ts := s.outScale (some x) t.o.fmt
  let a := segs.foldl (fun a g => a.seg t.o.fmt ts none g) ({} : Tally)
  let s := { s with fresh := s.fresh + t.w.elems }
  let s := s.putUpd p t kind l
  let b := segs.foldl (fun (r : State × Tally2) g => r.1.putSeg p t.o (some x) ts none false r.2 g) (s, {})
  let s := b.1.copyStats p x a b.2
  let n := c.members.length
  let s := c.members.zipIdx.foldl (fun s m =>
    let cnt := shareStart t.w.elems n (m.2 + 1) - shareStart t.w.elems n m.2
    ((s.bump m.1 0 R.TEMPER_TEMPER_ELEMS cnt).progress m.1 0 2 10000 cnt).setReg m.1 0 R.TEMPER_TEMPER_STATE (3 + (if kind = 2 then 4 else 0))) s
  (s.meter p R.METER_HBM_BYTES (t.bytes kind)).finish q c.slot 0 0 t.w.elems

/-- Cycles of 1.8 GHz spent waiting count in TEMPER_HOLD (R174; DEDUCED log 45). -/
def State.countHold (s : State) (c : Cmd) : State :=
  let ns := s.timeNow - c.startT.getD s.timeNow
  c.members.foldl (fun s m => s.bump m 0 R.TEMPER_TEMPER_HOLD (ns * 18 / 10)) s

/-- What the step's outcome does to one started UPDATE (R170). -/
def State.updSettle (s : State) (q : Nat) (c : Cmd) : State :=
  let y := s.part c.part
  let s := s.countHold c
  if y.sealOut = soClean && !y.abandoned then
    match s.entryOf c.part (dMeltOut c.desc) with
    | some x => s.updWrite q c x
    | none => s.finish q c.slot 0 0 0
  else s.updCmd q c.slot (fun c => { c with done := true, code := if y.sealOut = soSkip && !y.abandoned then 0 else 0x13 })

/-- The operands that UPD_INVALID refuses (R182). -/
def State.updBad (s : State) (q : Nat) (c : Cmd) : Bool :=
  let f := Form.ofCmd c q false
  let role := fun (i : Nat) => match s.entryOf c.part i with | some x => s.entRole x | none => 0
  (f.td 0).ext ≠ (f.td 1).ext || (f.td 2).ext ≠ (f.td 1).ext || role (dMeltIn0 c.desc) ≠ roW_GRAD || role (dMeltOut c.desc) ≠ roWEIGHT

/-- UPDATE starts: it reads and holds until its step's seal; after the seal it acts at once (R174, R182). -/
def State.updStart (s : State) (q : Nat) (c : Cmd) : State :=
  let page := c.members.headD 0
  if s.updBad q c then
    (s.raisePage page 9).raiseErr (s.srcOf page 0) caUPD_INVALID 0 (some (q, c.slot)) 0x06
  else
    let s := c.members.foldl (fun s m => (s.setReg m 0 R.TEMPER_TEMPER_STATE 2).progress m 0 1 0 0) s
    if (s.part c.part).sealOut = soNone then s else s.updSettle q c

/-! ### The seal (R170, R174) -/

/-- Temper units of a partition: of its clusters and of pool clusters that run its tasks. -/
def State.temperPages (s : State) (p : Nat) : List Nat :=
  (s.clustersOf p ++ s.poolClusters.filter (fun g => s.poolRunner g = some p)).map (fun g => clusterPage g uTemper)

/-- B1POW and B2POW advance (R174). -/
def State.advancePows (s : State) (page : Nat) : State :=
  (s.setReg page 0 R.TEMPER_B1POW (mul32f (s.reg page 0 R.TEMPER_B1POW) (s.reg page 0 R.TEMPER_BETA1))).setReg page 0 R.TEMPER_B2POW
    (mul32f (s.reg page 0 R.TEMPER_B2POW) (s.reg page 0 R.TEMPER_BETA2))

/-- Started UPDATEs of a partition that hold. -/
def State.heldUpdates (s : State) (p : Nat) : List (Nat × Cmd) :=
  s.queues.flatMap (fun e => (e.2.cmds.filter (fun c => c.part = p && !c.recorded && c.startT.isSome && !c.done &&
    dOpcode c.desc = opUPDATE)).map (fun c => (e.1, c)))

/-- The step settles (R170): outcome, powers, held updates; then barriers that waited for it. -/
def State.applySeal (s : State) (p outcome v : Nat) : State :=
  let s := s.settle p outcome v
  let s := if outcome = soClean then (s.temperPages p).foldl (fun s m => s.advancePows m) s else s
  (s.heldUpdates p).foldl (fun s u => s.updSettle u.1 u.2) s

/-- The outcome that a verdict word means (R170). -/
def sealOutcome (v : Nat) : Nat := if v.testBit 3 then soAborted else if v % 8 = 0 then soClean else soSkip

def execUpdate (q slot : Nat) (s : State) : Result :=
  .next (s.startCmd q slot (fun op => op = opUPDATE) (fun _ _ => true) (fun s c => s.updStart q c))

end Sys2Proof.Machine
end

