-- ==== Sys2Proof/Machine/Links.lean ====
section
/-! DEFINITION. Cridra links (R237 to R249, R260 to R263): the arrival of flits, replay, training, narrowing, going DOWN, probes, the
time tree and forwarding. Link n is LINK_k of die 8 + d with n = 16 × d + k. -/

namespace Sys2Proof.Machine

/-- An error of a page that concerns no task. -/
def State.fault (s : State) (page cause detail : Nat) : State := s.raiseErr (s.srcOf page 0) cause detail none 0

/-! ### The time tree (R261, R262) -/

def State.linkOff (s : State) (n : Nat) : Int := intOf 64 (s.reg (linkPage n) 0 R.LINK_LINK_OFFSET)
def State.timeFld (s : State) (f : Fld) : Nat := s.fld (pgTime 8) 0 f
def State.setTimeFld (s : State) (f : Fld) (v : Nat) : State := s.setFld (pgTime 8) 0 f v
def State.timeOffset (s : State) : Int := intOf 64 (s.reg (pgTime 8) 0 R.TIME_TIME_OFFSET)
def State.timeRoot (s : State) : Nat := s.timeFld F.TIME_TIME_ROOT_MODULE_ID
def State.isRoot (s : State) : Bool := s.timeRoot = s.moduleId
def State.timeParent (s : State) : Nat := s.timeFld F.TIME_TIME_STATUS_PARENT

/-- Send TIME_TREE with this module's place on some links. -/
def State.sendTree (s : State) (ns : List Nat) : State :=
  let hops := s.timeFld F.TIME_TIME_STATUS_TIME_HOPS
  ns.foldl (fun s n => s.ctrlMsg n [mTIME_TREE, s.timeRoot, hops, intBits 64 s.timeOffset]) s

/-- A new alignment: offset, hop count, parent; EPOCH counts, a TIME record is written and TIME_TREE goes out. -/
def State.align (s : State) (off : Int) (hops parent : Nat) (root : Bool) : State :=
  let s := s.setReg (pgTime 8) 0 R.TIME_TIME_OFFSET (intBits 64 off)
  let s := s.setReg (pgTime 8) 0 R.TIME_TIME_STATUS (1 + (if root then 4 else 0) + 2 ^ 8 * (hops % 256) + 2 ^ 16 * (parent % 128) +
    2 ^ 24 * ((s.timeFld F.TIME_TIME_STATUS_EPOCH + 1) % 256))
  let s := s.progress (pgTime 8) 0 1 10000 hops
  let s := { s with timeX := { s.timeX with alignOff := s.linkOff parent, lastOff := s.linkOff parent, lastT := s.timeNow } }
  s.traceTime.sendTree (s.upLinks.filter (fun n => root || n ≠ parent))

/-- The root aligns its tree. -/
def State.alignRoot (s : State) : State := s.align 0 0 0 true

/-- The link whose TIME_TREE has the lowest hop count among UP links; ties go to the lowest number. -/
def State.bestParent (s : State) : Option (Nat × Nat × Int) :=
  (s.upLinks.filterMap (fun n => (s.link n).tree.bind (fun t => if t.1 = s.timeRoot then some (n, t.2.1, t.2.2) else none))).foldl
    (fun (o : Option (Nat × Nat × Int)) c => match o with
      | none => some c
      | some a => if c.2.1 < a.2.1 then some c else some a) none

/-- Compose the offset from a parent link. -/
def State.alignFrom (s : State) (c : Nat × Nat × Int) : State := s.align (c.2.2 + s.linkOff c.1) (c.2.1 + 1) c.1 false

/-- VALID is lost (R21, R262). -/
def State.timeInvalid (s : State) : State :=
  if s.timeFld F.TIME_TIME_STATUS_VALID = 1 then (s.setTimeFld F.TIME_TIME_STATUS_VALID 0).traceTime else s

/-- TIME_TREE from link n. -/
def State.timeTree (s : State) (n root hops : Nat) (off : Int) : State :=
  if !s.linkUp n then s
  else
    let s := s.updLink n (fun l => { l with tree := some (root, hops, off) })
    if s.isRoot then s
    else match s.bestParent with
      | some c => if c.1 = n || c.1 ≠ s.timeParent then s.alignFrom c else s
      | none => s

/-- A parked module's link with traffic to forward leaves low power (R405). -/
def State.linksWake (s : State) : State :=
  if s.power.state = 4 then
    { (s.setFld pgPower 0 F.POWER_POWER_STATUS_LINKS_LP 0) with power := { s.power with linksUsed := some s.timeNow } }
  else s

/-! ### Probes (R260) -/

/-- Send the next probe of a run. -/
def State.sendProbe (s : State) (n : Nat) : State :=
  let l := s.link n
  let s := s.setLink n { l with probeNum := l.probeNum + 1, probeT := s.timeNow, probes := l.probes ++ [(l.probeNum, s.timeNow)] }
  s.ctrlMsg n [mPROBE, l.probeNum, s.timeNow]

/-- Start 16 probes. -/
def State.startProbes (s : State) (n why : Nat) : State :=
  (s.updLink n (fun l => { l with probeNum := 0, probes := [], answers := 0, bestRtt := 0, bestOff := 0, probeFor := why })).sendProbe n

/-- PROBE_TICK: 10 µs after the last probe the next one leaves. -/
def State.probeTick (s : State) (n : Nat) : State :=
  let l := s.link n
  if (s.linkSt n = 4 || s.linkSt n = 5) && decide (0 < l.probeNum ∧ l.probeNum < 16) && decide (l.probeT + 10000 ≤ s.timeNow) then s.sendProbe n
  else s

/-- Drift of the parent link judged after its probes (R262). -/
def State.judgeDrift (s : State) (n : Nat) : State :=
  let off := s.linkOff n
  let t := s.timeX
  let dt := s.timeNow - t.lastT
  let ppb := ((off - t.lastOff) * 1000000000).tdiv (Int.ofNat (max 1 dt))
  let s := s.setReg (pgTime 8) 0 R.TIME_TIME_DRIFT_PPB (intBits 32 ppb)
  let s := { s with timeX := { t with lastOff := off, lastT := s.timeNow } }
  if 16 < (off - t.alignOff).natAbs then
    ((s.timeInvalid).setTimeFld F.TIME_TIME_STATUS_DRIFT 1).notice (pgTime 8) caTIME_DRIFT (intBits 32 ppb)
  else s

/-- Send every flit of the replay buffer again (R242, R263). -/
def State.resend (s : State) (n : Nat) : State :=
  let l := s.link n
  let k := l.unacked.length
  let s := l.unacked.foldl (fun s u => { s with out := .flit n u.flit :: s.out }) s
  let s := s.setLink n { l with winFlits := l.winFlits + k, winRetries := l.winRetries + k }
  let data := (l.unacked.filter (fun u => u.flit.ftype = 1)).foldl (fun a u => a + u.flit.len) 0
  ((s.bump (linkPage n) 0 R.LINK_LINK_RETRY k).bump (linkPage n) 0 R.LINK_LINK_TX_FLITS k).bump (linkPage n) 0 R.LINK_LINK_TX_BYTES data

/-- The link enters UP (R240, R242, R243): ALIVE starts anew, unacknowledged flits are sent again, and waiting work goes out. -/
def State.linkReady (s : State) (n : Nat) : State :=
  let s := s.setLinkSt n 5
  let s := s.setFld (linkPage n) 0 F.LINK_LINK_STAT_FAILS 0
  let s := s.updLink n (fun l => { l with aliveTx := 0, aliveRx := 0, winT := s.timeNow })
  let s := s.resend n
  let s := s.pump n
  if s.timeFld F.TIME_TIME_STATUS_VALID = 1 then s.sendTree [n] else s

/-- IDENT is left when identification and probes are complete. -/
def State.tryUp (s : State) (n : Nat) : State :=
  let l := s.link n
  if s.linkSt n = 4 && l.identDone && decide (16 ≤ l.answers) then s.linkReady n else s

/-- All 16 probes are answered: LINK_OFFSET and LINK_RTT_NS, and what the run was for. -/
def State.probesDone (s : State) (n : Nat) : State :=
  let l := s.link n
  let s := (s.setReg (linkPage n) 0 R.LINK_LINK_OFFSET (intBits 64 l.bestOff)).setReg (linkPage n) 0 R.LINK_LINK_RTT_NS (l.bestRtt % 2 ^ 32)
  let s := s.updLink n (fun l => { l with probeFor := 0 })
  if l.probeFor = 1 then s.judgeDrift n
  else if l.probeFor = 2 then
    (match l.tree with
      | some t => s.alignFrom (n, t.2.1, t.2.2)
      | none => s)
  else s.tryUp n

/-- PROBE_RESP (R260). -/
def State.probeAnswer (s : State) (n num t1 t2 t3 : Nat) : State :=
  let l := s.link n
  if (s.linkSt n ≠ 4 && s.linkSt n ≠ 5) || !l.probes.contains (num, t1) then s
  else
    let i := fun (t : Nat) => Int.ofNat t
    let t4 := s.timeNow
    let rtt := ((i t4 - i t1) - (i t3 - i t2)).toNat
    let off := ((i t2 - i t1) + (i t3 - i t4)).tdiv 2
    let better := l.answers = 0 || decide (rtt < l.bestRtt)
    let s := s.setLink n { l with
      probes := l.probes.filter (fun x => x ≠ (num, t1))
      answers := l.answers + 1
      bestRtt := if better then rtt else l.bestRtt
      bestOff := if better then off else l.bestOff
      usedT := s.timeNow }
    if l.answers + 1 = 16 then s.probesDone n else s

/-- PROBE: answered with t2 and t3. -/
def State.probeIn (s : State) (n num t1 : Nat) : State :=
  if s.linkSt n = 4 || s.linkSt n = 5 then s.linksWake.ctrlMsg n [mPROBE_RESP, num, t1, s.timeNow, s.timeNow] else s

/-! ### Going DOWN, narrowing, training (R240, R244, R245) -/

/-- Packets held for a port leave by the alternate port or are dropped (R245). -/
def State.rerouteHeld (s : State) (n : Nat) : State :=
  let mine := s.routed.filter (fun h => 16 * (h.die - 8) + h.port = n)
  let s := { s with routed := s.routed.filter (fun h => 16 * (h.die - 8) + h.port ≠ n) }
  mine.foldl (fun s h => s.routeAt h.die h.pk h.owner) s

/-- Whether a LINK_SEND has data that its links have not acknowledged (R251). -/
def State.sendOpen (s : State) (q slot : Nat) : Bool :=
  s.routed.any (fun h => h.owner = some (q, slot)) || s.links.any (fun l => l.2.unacked.any (fun u => u.owner = some (q, slot)))

/-- A LINK_SEND completes when its links have acknowledged every data packet, or lost it (R251, R252). -/
def State.endSends (s : State) : State :=
  let s := { s with xfers := s.xfers.filter (fun x => !(131072 ≤ x.q && x.phase = 2 && x.send && !s.sendOpen x.q x.slot)) }
  (s.xfers.filter (fun x => x.phase = 2 && x.send && !(x.snap && x.base = 1) && !s.sendOpen x.q x.slot)).foldl (fun s x =>
    match s.cmd? x.q x.slot with
    | some c => if c.done then s else s.finish x.q x.slot 0 0 x.len
    | none => s) s

/-- The parent link is lost: VALID clears, and the module selects its parent anew (R262). -/
def State.parentLost (s : State) (n : Nat) : State :=
  let s := s.updLink n (fun l => { l with tree := none })
  if s.isRoot || s.timeParent ≠ n || s.timeFld F.TIME_TIME_STATUS_EPOCH = 0 then s
  else
    let s := s.timeInvalid
    match s.bestParent with
    | some c => s.alignFrom c
    | none => s

/-- The link goes DOWN (R245); `st` is the state it then reads: 7, or 0 where it was disabled. -/
def State.linkDown (s : State) (n cause st : Nat) : State :=
  let page := linkPage n
  let s := s.setLinkSt n st
  let s := ((s.setFld page 0 F.LINK_LINK_STAT_DOWN_CAUSE cause).setFld page 0 F.LINK_LINK_STAT_WIDTH 0).setFld page 0 F.LINK_LINK_STAT_LANES 0
  let s := s.setFld page 0 F.LINK_PEER_ID_VALID 0
  let s := s.setLink n { LinkX.init with phaseT := s.timeNow }
  let s := ((s.rerouteHeld n).bump page 0 R.LINK_LINK_DOWN_EVENTS 1).parentLost n
  (s.fault page caLINK_DOWN cause).endSends

/-- A failed training attempt (R240). -/
def State.trainFail (s : State) (n cause : Nat) : State :=
  let page := linkPage n
  let k := s.fld page 0 F.LINK_LINK_STAT_FAILS + 1
  let s := s.setFld page 0 F.LINK_LINK_STAT_FAILS (min 3 k)
  if 3 ≤ k then s.linkDown n cause 7
  else (s.setLinkSt n 1).setFld page 0 F.LINK_LINK_STAT_DOWN_CAUSE (if cause = 3 then 3 else 0)

/-- Train again from DETECT, keeping the replay buffer (R240, R242). -/
def State.retrainLink (s : State) (n : Nat) : State :=
  let s := s.setLinkSt n 1
  let s := s.updLink n (fun l => { l with sameSeq := 0, identDone := false, probeNum := 0, probes := [], answers := 0, rxBuf := [] })
  s.setFld (linkPage n) 0 F.LINK_PEER_ID_VALID 0

/-- LINK_CTRL.RETRAIN, or ENABLE written 1: the failed attempts are forgotten. -/
def State.startTraining (s : State) (n : Nat) : State :=
  if s.fld (linkPage n) 0 F.LINK_LINK_CFG_ENABLE = 0 then s
  else ((s.retrainLink n).setFld (linkPage n) 0 F.LINK_LINK_STAT_FAILS 0).setFld (linkPage n) 0 F.LINK_LINK_STAT_DOWN_CAUSE 0

/-- LINK_CFG.ENABLE changes. -/
def State.linkEnable (s : State) (n : Nat) (on : Bool) : State :=
  if on then (if s.linkSt n = 0 || s.linkSt n = 7 then s.startTraining n else s)
  else if s.linkSt n = 0 then s
  else s.linkDown n 5 0

def pairMask (upper : Bool) : Nat := if upper then 0xC else 0x3

/-- The link runs on one pair of lanes from now on (R244). -/
def State.linkNarrow (s : State) (n : Nat) (upper : Bool) : State :=
  let page := linkPage n
  let s := ((s.setFld page 0 F.LINK_LINK_STAT_WIDTH 1).setFld page 0 F.LINK_LINK_STAT_LANES (pairMask upper)).setFld page 0
    F.LINK_LINK_STAT_NARROWED 1
  (s.bump page 0 R.LINK_LINK_NARROW_EVENTS 1).fault page caLINK_NARROW (pairMask upper)

/-- A condition of R244: narrow, or DOWN when narrowed already. -/
def State.narrowOrDown (s : State) (n : Nat) (upper : Bool) : State :=
  if s.fld (linkPage n) 0 F.LINK_LINK_STAT_NARROWED = 1 then s.linkDown n 2 7
  else (s.ctrlMsg n [mNARROW, if upper then 1 else 0]).linkNarrow n upper

/-- The pair without the lane that has most corrected symbols. -/
def State.betterPair (s : State) (n : Nat) : Bool :=
  let sym := fun (i : Nat) => s.reg (linkPage n) 0 (R.LINK_LANE_SYM_0 + 4 * i)
  let worst := (List.range 4).foldl (fun b i => if sym b < sym i then i else b) 0
  decide (worst < 2)

/-- LANE_SIGNAL_LOSS. -/
def State.laneLoss (s : State) (n lane : Nat) : State :=
  if s.linkUp n && decide (lane < 4) && (s.fld (linkPage n) 0 F.LINK_LINK_STAT_LANES).testBit lane then s.narrowOrDown n (decide (lane < 2)) else s

/-- PARTNER_DETECT. -/
def State.partnerDetect (s : State) (n : Nat) : State :=
  if s.ready && decide (n < s.linkCount) && s.linkSt n = 1 then (s.setLinkSt n 2).emit .partnerPulse [n] else s

/-- Lanes that a training can keep: all four, or a pair (R240). -/
def trainedLanes (lanes : Nat) : Option Nat :=
  if lanes % 16 = 0xF then some 0xF
  else if lanes % 4 = 3 then some 0x3
  else if lanes / 4 % 4 = 3 then some 0xC else none

/-- TRAIN_CONVERGE. -/
def State.trainConverge (s : State) (n lanes : Nat) (lowLoss : Bool) : State :=
  if s.linkSt n ≠ 2 then s
  else match trainedLanes lanes with
    | none => s
    | some m =>
      let page := linkPage n
      let reach := s.fld page 0 F.LINK_LINK_CFG_REACH
      let used := if reach = 1 then 1 else if reach = 2 then 2 else if lowLoss then 1 else 2
      let s := (List.range 4).foldl (fun s i => s.setReg page 0 (R.LINK_LANE_SYM_0 + 4 * i) 0) (s.setLinkSt n 3)
      let s := (s.setFld page 0 F.LINK_LINK_STAT_REACH_USED used).setFld page 0 F.LINK_LINK_STAT_NARROWED 0
      if m = 0xF then (s.setFld page 0 F.LINK_LINK_STAT_WIDTH 2).setFld page 0 F.LINK_LINK_STAT_LANES 0xF
      else s.linkNarrow n (m = 0xC)

/-- Variant code in IDENT (DESIGN CHOICE log 50): 0 for the CX-1260-M12, 1 for the CX-1260-N8. -/
def State.variantCode (s : State) : Nat := if s.n8 then 1 else 0

/-- ALIGN_LOCK: IDENT is sent and the probes begin. -/
def State.alignLock (s : State) (n : Nat) : State :=
  if s.linkSt n ≠ 3 then s
  else
    let s := (s.setLinkSt n 4).ctrlMsg n [mIDENT, s.moduleId, n, s.variantCode, s.fld (linkPage n) 0 F.LINK_LINK_STAT_LANES]
    s.startProbes n 0

/-- IDENT from the peer (R240). -/
def State.identIn (s : State) (n peer peerLink lanes : Nat) : State :=
  if s.linkSt n ≠ 4 then s
  else if peer = s.moduleId then
    (s.trainFail n 3).logErr { s.srcOf (linkPage n) 0 with pkg := true } caID_CONFLICT peer
  else
    let page := linkPage n
    let s := s.setReg page 0 R.LINK_PEER_ID (peer % 2 ^ 14 + 2 ^ 14 * (peerLink % 128) + 2 ^ 31)
    let s := if s.fld page 0 F.LINK_LINK_STAT_LANES = 0xF && (lanes = 0x3 || lanes = 0xC) then s.linkNarrow n (lanes = 0xC) else s
    (s.updLink n (fun l => { l with identDone := true })).tryUp n

/-- Limit of a training state in nanoseconds (R240). -/
def State.trainLimit (s : State) (n : Nat) : Option Nat :=
  match s.linkSt n with
  | 2 => some (if s.fld (linkPage n) 0 F.LINK_LINK_CFG_REACH = 1 then 200000000 else 500000000)
  | 3 => some 20000000
  | 4 => some 10000000
  | _ => none

/-- TRAINING_TIMEOUT. -/
def State.trainTimeout (s : State) (n : Nat) : State :=
  match s.trainLimit n with
  | some t => if (s.link n).phaseT + t ≤ s.timeNow then s.trainFail n 1 else s
  | none => s

/-- NARROW from the peer. -/
def State.narrowIn (s : State) (n : Nat) (upper : Bool) : State :=
  if s.linkUp n && s.fld (linkPage n) 0 F.LINK_LINK_STAT_LANES = 0xF then s.linkNarrow n upper else s

/-! ### Flits arrive (R242, R243) -/

/-- Acknowledge: flits up to SEQ `a` leave the replay buffer. -/
def State.ackTo (s : State) (n a : Nat) : State :=
  let l := s.link n
  match l.unacked.findIdx? (fun u => u.flit.seq = a) with
  | some i => s.setLink n { l with unacked := l.unacked.drop (i + 1), sameSeq := 0 }
  | none => s

/-- Send everything unacknowledged again; the eighth vain replay retrains the link. -/
def State.replayLink (s : State) (n : Nat) : State :=
  let l := s.link n
  if l.unacked.isEmpty then s
  else if 8 ≤ l.sameSeq then s.retrainLink n
  else
    (s.resend n).updLink n (fun l => { l with sameSeq := l.sameSeq + 1 })

/-- Credits are cumulative modulo 4,096. -/
def creditUp (old new : Nat) : Nat := old + (new + 4096 - old % 4096) % 4096

def State.creditIn (s : State) (n : Nat) (f : Flit) : State :=
  s.updLink n (fun l => { l with credit := (List.range 4).map (fun i =>
    let v := creditUp (l.credit.getD i 0) (bitsOf f.credit.toNat (12 * i + 11) (12 * i))
    if v ≤ l.sent.getD i 0 then v else l.credit.getD i 0) })

/-- Deliver the expected flit. -/
def State.deliverFlit (s : State) (n : Nat) (f : Flit) : State :=
  let l := s.link n
  if f.ftype = 2 && leNat (f.payload.take 2) ≠ l.aliveRx % 65536 then
    (s.fault (linkPage n) caLINK_ALIVE (leNat (f.payload.take 2))).retrainLink n
  else
    let s := s.setLink n { l with
      rxSeq := (l.rxSeq + 1) % 4096
      freed := l.freed.set f.vc (l.freed.getD f.vc 0 + 1)
      aliveRx := if f.ftype = 2 then l.aliveRx + 1 else l.aliveRx
      rxBuf := if f.ftype = 1 then (if f.eop then [] else (if f.sop then [] else l.rxBuf) ++ f.payload.take f.len) else l.rxBuf
      usedT := s.timeNow }
    let s := s.bump (linkPage n) 0 R.LINK_LINK_RX_FLITS 1
    let s := if f.ftype = 1 then s.bump (linkPage n) 0 R.LINK_LINK_RX_BYTES f.len else s
    s.sendNull n false

/-- Corrected FEC symbols of a flit, by lane (R263). -/
def State.countSymbols (s : State) (n : Nat) (l : List Nat) : State :=
  let s := (l.take 4).zipIdx.foldl (fun s x => s.bump (linkPage n) 0 (R.LINK_LANE_SYM_0 + 4 * x.2) x.1) s
  s.bump (linkPage n) 0 R.LINK_LINK_FEC_CORR (l.take 4).sum

/-- FLIT_RECEIVED. -/
def State.flitIn (s : State) (n : Nat) (f : Flit) : State :=
  if !(decide (n < s.linkCount) && (s.linkSt n = 4 || s.linkSt n = 5)) then s
  else
  let s := s.countSymbols n f.symbols
  if !f.fecOk then (s.bump (linkPage n) 0 R.LINK_LINK_FEC_UNCORR 1).sendNull n true
  else if f.crc.toNat ≠ crc32c (flitBytes f) then (s.bump (linkPage n) 0 R.LINK_LINK_CRC_ERR 1).sendNull n true
  else
    let s := if f.ackValid then s.ackTo n f.ack else s
    let s := if f.nak then s.replayLink n else s
    let s := s.creditIn n f
    let s := if f.ftype = 1 || f.ftype = 2 then
        (if f.seq = (s.link n).rxSeq then s.deliverFlit n f
         else s.sendNull n (decide ((f.seq + 4096 - (s.link n).rxSeq) % 4096 < 2048)))
      else s
    (s.pump n).endSends

/-- LINK_WINDOW_EVAL (R321): the retry rate of a link or die-to-die port over its window. -/
def State.windowEval (s : State) (page : Nat) : State :=
  let t := assignedType page
  let w := s.reg pgPkgErr 0 R.ERR_ERR_WINDOW_S * 1000000000
  let ppt := s.reg pgPkgErr 0 R.ERR_LINK_RETRY_PPT
  if t = .link then
    let n := 16 * (pageDie page - 8) + pageUnit page
    let l := s.link n
    if !s.linkUp n || decide (s.timeNow < l.winT + w) || decide (l.winFlits < 1000000000) then s
    else
      let s := s.setLink n { l with winT := s.timeNow, winFlits := 0, winRetries := 0 }
      if ppt * l.winFlits < l.winRetries * 1000000000000 then s.narrowOrDown n (s.betterPair n) else s
  else if t = .d2d then
    let l := s.link (1000 + page)
    let fl := s.counterAt page R.D2D_D2D_FLITS - l.winFlits
    let rt := s.counterAt page R.D2D_D2D_RETRY - l.winRetries
    if s.timeNow < l.winT + w || fl < 1000000000 then s
    else
      let s := s.setLink (1000 + page) { l with winT := s.timeNow, winFlits := s.counterAt page R.D2D_D2D_FLITS, winRetries := s.counterAt page R.D2D_D2D_RETRY }
      if ppt * fl < rt * 1000000000000 then s.fault page caD2D_LASTING 0 else s
  else s

/-! ### Forwarded packets -/

/-- PACKET_FORWARD (R247). -/
def State.forward (s : State) (die : Nat) (pk : Packet) : State :=
  if !s.ready || pk.destMod = s.moduleId || !(decide (8 ≤ die) && decide (die < 8 + ioDies s.n8)) then s
  else (s.linksWake.bump (pgRouter die) 0 R.ROUTER_ROUTE_FWD_FLITS (packetFlits pk)).routeAt die pk none

/-- ROUTE_STUCK: each packet of a die held longer than ROUTE_STUCK_US is recorded once and stays queued. -/
def State.routeStuck (s : State) (die : Nat) : State :=
  let us := s.reg (pgRouter die) 0 R.ROUTER_ROUTE_STUCK_US
  let hit := s.routed.filter (fun h => h.die = die && !h.stuck && decide (h.since + 1000 * us < s.timeNow))
  let s := { s with routed := s.routed.map (fun h => if hit.contains h then { h with stuck := true } else h) }
  hit.foldl (fun s h => (s.bump (pgRouter die) 0 R.ROUTER_ROUTE_STUCK 1).notice (pgRouter die) caROUTE_STUCK h.pk.destMod) s

/-- A HALT_NOTICE that names a member holds a collective's timer for 1 ms from its arrival, where the partition's JR_FLAGS say so (R258, R393). -/
def State.holdColl (s : State) (x : Notice) (c : CollX) : CollX :=
  let till := x.time + 1000000
  if s.fld pgJobRunner c.part F.JOB_RUNNER_JR_FLAGS_COLLECTIVE_HOLD = 1 && decide (c.heldTo < till) &&
      c.members.any (fun w => memMod w = x.module && (x.infra || memPart w = x.part)) then
    { c with heldNs := c.heldNs + (till - max c.heldTo x.time), heldTo := till }
  else c

/-- Take a notice: kept 10 ms, and timers hold. -/
def State.takeNotice (s : State) (x : Notice) : State :=
  { s with notices := s.notices.filter (fun y => decide (s.timeNow < y.time + 10000000)) ++ [x], colls := s.colls.map (s.holdColl x) }

/-- HALT_NOTICE (R393): held for collective timers, and forwarded once within its TTL. -/
def State.noticeIn (s : State) (n module part : Nat) (infra : Bool) (seq ttl : Nat) : State :=
  if !s.linkUp n then s
  else
    let seen := s.notices.any (fun x => x.module = module && x.seq = seq && decide (s.timeNow < x.time + 10000000))
    let s := s.takeNotice { module := module, seq := seq, part := part, infra := infra, time := s.timeNow }
    if seen || ttl = 0 then s
    else (s.upLinks.filter (· ≠ n)).foldl (fun s k => s.ctrlMsg k [mHALT_NOTICE, module, part, if infra then 1 else 0, seq, ttl - 1]) s

/-- DRIFT_PROBE (R262): a second after alignment or the last probe, the parent link is probed again. -/
def State.driftProbe (s : State) : State :=
  if s.isRoot || s.timeFld F.TIME_TIME_STATUS_EPOCH = 0 || !s.linkUp s.timeParent || decide (s.timeNow < s.timeX.lastT + 1000000000) then s
  else s.startProbes s.timeParent 1

/-- TIME_CTRL.REMEASURE (R262). -/
def State.remeasureTime (s : State) : State :=
  if s.isRoot then s.alignRoot
  else if s.timeFld F.TIME_TIME_STATUS_EPOCH ≠ 0 && s.linkUp s.timeParent then (s.progress (pgTime 8) 0 1 0 (s.timeFld F.TIME_TIME_STATUS_TIME_HOPS)).startProbes s.timeParent 2
  else s

def execPartnerDetect (n : Nat) (s : State) : Result := .next (s.partnerDetect n)
def execTrainConverge (n lanes : Nat) (lowLoss : Bool) (s : State) : Result := .next (s.trainConverge n lanes lowLoss)
def execAlignLock (n : Nat) (s : State) : Result := .next (s.alignLock n)
def execTrainingTimeout (n : Nat) (s : State) : Result := .next (s.trainTimeout n)
def execFlitReceived (n : Nat) (f : Flit) (s : State) : Result := .next (s.flitIn n f)
def execLaneSignalLoss (n lane : Nat) (s : State) : Result := .next (s.laneLoss n lane)
def execLinkWindowEval (page : Nat) (s : State) : Result := .next (s.windowEval page)
def execIdent (n peer peerLink _variant lanes : Nat) (s : State) : Result := .next (s.identIn n peer peerLink lanes)
def execProbe (n num : Nat) (t1 : W64) (s : State) : Result := .next (s.probeIn n num t1.toNat)
def execProbeResp (n num : Nat) (t1 t2 t3 : W64) (s : State) : Result := .next (s.probeAnswer n num t1.toNat t2.toNat t3.toNat)
def execProbeTick (n : Nat) (s : State) : Result := .next (s.probeTick n)
def execTimeTree (n root hops : Nat) (off : W64) (s : State) : Result := .next (s.timeTree n root hops off.toInt)
def execDriftProbe (s : State) : Result := .next s.driftProbe
def execNarrow (n : Nat) (upper : Bool) (s : State) : Result := .next (s.narrowIn n upper)
def execHaltNotice (n module part : Nat) (infra : Bool) (seq ttl : Nat) (s : State) : Result := .next (s.noticeIn n module part infra seq ttl)
def execPacketForward (die : Nat) (pk : Packet) (s : State) : Result := .next (s.forward die pk)
def execRouteStuck (die : Nat) (s : State) : Result := .next (s.routeStuck die)

end Sys2Proof.Machine
end

