-- ==== Sys2Proof/Machine/Snapshot.lean ====
section
/-! DEFINITION. Snapshots and checkpoints (R335 to R352): images, capture, streams to a partner, pairing, receiving, restoring, and the checkpoint push
and pull. A capture is made in one step; the pause lasts until the command's completion. -/

namespace Sys2Proof.Machine

def snMode (d : BitVec 1024) : Nat := dField d 0x54 8
def snPartner (d : BitVec 1024) : Nat := dField d 0x58 64
def snNone (d : BitVec 1024) : Bool := (snPartner d).testBit 63

def State.snapReg (s : State) (p off : Nat) : Nat := s.reg pgSnapshot p off
def State.snapFld (s : State) (p : Nat) (f : Fld) : Nat := s.fld pgSnapshot p f
def State.setSnapFld (s : State) (p : Nat) (f : Fld) (v : Nat) : State := s.setFld pgSnapshot p f v
def State.updSnap (s : State) (p : Nat) (f : SnapX → SnapX) : State := s.updPart p (fun x => { x with snap := f x.snap })
def State.snapErr (s : State) (p code : Nat) : State := s.setSnapFld p F.SNAPSHOT_SNAP_LAST_ERR_CODE code

/-- FEED_ID as read at the release of PERST# (R421). -/
def State.feedId (s : State) : Nat := s.reg pgSideband 0 R.SIDEBAND_FEED_ID % 64
def State.coFed (s : State) (p : Nat) : Bool := s.fld pgJobRunner p F.JOB_RUNNER_JR_FLAGS_CO_FED = 1

/-! ### Images (R335 to R337) -/

/-- The protected ranges: base and length. -/
def State.snapRanges (s : State) (p : Nat) : List (Nat × Nat) :=
  let a := s.snapReg p R.SNAPSHOT_SNAP_SET_BASE
  (List.range (s.snapFld p F.SNAPSHOT_SNAP_SET_COUNT_SNAP_SET_COUNT)).map (fun i => (s.rdLE p (a + 16 * i) 8, s.rdLE p (a + 16 * i + 8) 8))

/-- A partition's melt sheet entries as a state section numbers them: its range, or all for partition 0. -/
def State.meltCount (s : State) (p : Nat) : Nat := if p = 0 then 65536 else (s.meltRange p).2

def padTo64 (l : List Byte) : List Byte := l ++ List.replicate (roundUp l.length 64 - l.length) 0

/-- The step index at which a restored job resumes: the next step once this step's seal has settled (DEDUCED log 62). -/
def State.resumeStep (s : State) (p : Nat) : Nat :=
  if (s.part p).sealOut = soNone then s.stepIndex p else (s.stepIndex p + 1) % 2 ^ 32

/-- The state section (R337). -/
def State.stateSection (s : State) (p : Nat) : List Byte :=
  let cs := s.clustersOf p
  let n := s.meltCount p
  padTo64 (leBytes 1 2 ++ leBytes p 1 ++ leBytes 0 1 ++ leBytes (s.stepIndex p) 4 ++ leBytes (s.part p).jr.seed 8 ++ leBytes cs.length 2 ++
    leBytes 0 2 ++ leBytes n 4 ++ (List.replicate 40 0 : List Byte) ++
    cs.zipIdx.flatMap (fun g => leBytes g.2 2 ++ leBytes 0 2 ++ leBytes (s.reg (clusterPage g.1 uTemper) 0 R.TEMPER_B1POW) 4 ++
      leBytes (s.reg (clusterPage g.1 uTemper) 0 R.TEMPER_B2POW) 4 ++ leBytes 0 4) ++
    (List.range n).flatMap (fun i => match s.globalMelt p i with
      | some x => s.entImage x
      | none => List.replicate 128 0))

/-- Pieces of at most 1 MiB: range index, offset, payload. -/
def cutMiB (r : Nat) : Nat → Nat → List Byte → List (Nat × Nat × List Byte)
  | 0, _, _ => []
  | k + 1, o, l => if l.isEmpty then [] else (r, o, l.take 1048576) :: cutMiB r k (o + 1048576) (l.drop 1048576)

/-- A block header (R336). -/
def blockHeader (flags part feed mod range step idx count off time : Nat) (pay : List Byte) : List Byte :=
  let h := leBytes 1 2 ++ leBytes (idx % 65536) 2 ++ leBytes flags 2 ++ leBytes part 1 ++ leBytes feed 1 ++ leBytes mod 2 ++ leBytes range 2 ++
    leBytes step 4 ++ leBytes idx 4 ++ leBytes count 4 ++ leBytes off 8 ++ leBytes pay.length 4 ++ leBytes 0 4 ++ leBytes (crc64 pay) 8 ++
    leBytes time 8
  h ++ leBytes (crc64 h) 8

/-- Whether the blocks that a partition sends are power-independent (R339). -/
def State.powerIndep (s : State) (p : Nat) : Bool :=
  s.snapFld p F.SNAPSHOT_PAIR_STATE_VALID = 0 || s.snapFld p F.SNAPSHOT_PAIR_STATE_INDEP = 1

/-- The trailer's payload, one block of 64 bytes. -/
def trailerBytes (count step crc : Nat) : List Byte := ((Config.trailer count step crc) ++ List.replicate 64 0).take 64

/-- An image of a partition (R335). -/
def State.image (s : State) (p : Nat) (ckpt : Bool) : List Byte :=
  let step := s.resumeStep p
  let base := (if ckpt then 1 else 0) + (if s.powerIndep p then 2 else 0)
  let parts := (s.snapRanges p).zipIdx.flatMap (fun r => cutMiB r.2 (r.1.2 / 1048576 + 1) 0 (s.rdBytes p r.1.1 r.1.2))
  let sect := s.stateSection p
  let blocks := parts ++ cutMiB 0xFFFF (sect.length / 1048576 + 1) 0 sect
  let n := blocks.length + 1
  let hdr := fun (b : Nat × Nat × List Byte) (i : Nat) =>
    blockHeader (base + (if b.1 = 0xFFFF then 8 else 0) + (if b.1 = 0xFFFE then 4 else 0)) p s.feedId s.moduleId b.1 step i n b.2.1 s.timeNow b.2.2
  let hs := blocks.zipIdx.map (fun b => (hdr b.1 b.2, b.1.2.2))
  let crc := crc64 (hs.flatMap (fun h => h.1.drop 56))
  let t := trailerBytes n step crc
  hs.flatMap (fun h => h.1 ++ h.2) ++ hdr (0xFFFE, 0, t) (n - 1) ++ t

/-! ### Reading an image -/

/-- A block as read: header fields and payload, and whether its CRCs, its place in the sequence and its version hold. -/
structure BlockX where
  range : Nat
  flags : Nat
  step : Nat
  off : Nat
  src : Nat
  pay : List Byte
  crcOk : Bool
  seqOk : Bool
  verOk : Bool
  hdrCrc : List Byte

def readBlock (l : List Byte) (i : Nat) : BlockX × List Byte :=
  let f := fun (o n : Nat) => leNat ((l.drop o).take n)
  let len := f 0x20 4
  let pay := (l.drop 64).take len
  ({ range := f 0x0A 2, flags := f 0x04 2, step := f 0x0C 4, off := f 0x18 8, src := f 0x08 2 % 2 ^ 14, pay := pay,
     crcOk := decide (64 ≤ len ∧ len ≤ 1048576) && pay.length = len && crc64 (l.take 56) = f 0x38 8 && crc64 pay = f 0x28 8,
     seqOk := f 0x02 2 = i % 65536 && f 0x10 4 = i, verOk := f 0x00 2 = 1, hdrCrc := (l.drop 56).take 8 }, l.drop (64 + len))

/-- Blocks up to the trailer, or until the bytes end; `fuel` bounds them. -/
def readBlocks : Nat → Nat → List Byte → List BlockX
  | 0, _, _ => []
  | k + 1, i, l =>
    if l.length < 64 then []
    else
      let b := readBlock l i
      if b.1.range = 0xFFFE || !b.1.crcOk then [b.1] else b.1 :: readBlocks k (i + 1) b.2

def blocksOf (l : List Byte) : List BlockX := readBlocks (l.length / 64 + 1) 0 l

/-- The trailer ends the image and agrees with it (R335). -/
def trailerOk (bs : List BlockX) : Bool :=
  match bs.getLast? with
  | some t => t.range = 0xFFFE && t.pay = trailerBytes bs.length t.step (crc64 (bs.dropLast.flatMap (·.hdrCrc)))
  | none => false

/-- The first failure of an image: 0 none, 3 FORMAT, 7 BLOCK, 8 SEQUENCE (R346, R351). -/
def imageErr (bs : List BlockX) : Nat :=
  if bs.any (fun b => !b.crcOk) then 7
  else if bs.any (fun b => !b.verOk) then 3
  else if bs.any (fun b => !b.seqOk) then 8
  else if !trailerOk bs then 7 else 0

/-! ### Stage, streams and pauses -/

/-- The stream queue number that stands for a partition's background stream, and for its engine's pairing answers. -/
def streamQ (p : Nat) : Nat := 65536 + p
def answerQ (p : Nat) : Nat := 131072 + p

def State.streaming (s : State) (p : Nat) : Bool := s.xfers.any (fun x => x.q = streamQ p)
def State.stageBusy (s : State) (p : Nat) : Bool := s.streaming p || (s.part p).snap.pushing || (s.part p).snap.held

/-- No other task of a partition runs (R338). -/
def State.aloneIn (s : State) (q : Nat) (c : Cmd) : Bool :=
  s.queues.all (fun e => s.queueOwner e.1 ≠ c.part ||
    e.2.cmds.all (fun k => (e.1 = q && k.task = c.task) || k.recorded || k.startT.isNone))

/-- Send bytes to the current pair under SNAP_HANDLE with format code 0 (R339). `mark` is 1 for a pairing block. -/
def State.sendStream (s : State) (p q slot mod part mark : Nat) (l : List Byte) : State :=
  let x : XferX := { part := p, q := q, slot := slot, snap := true, send := true, handle := s.snapReg p R.SNAPSHOT_SNAP_HANDLE, mod := mod,
                     peerPart := part, len := l.length, got := 0, fmt := 0, phase := 1, startT := s.timeNow, retryT := 0, src := l, base := mark }
  let pk : Packet := { s.mkPacket p pkSEND_REQ mod part x.handle with aux := BitVec.ofNat 32 l.length, len := l.length, fmt := 0 }
  ({ s with xfers := s.xfers ++ [x] }).sendPk p 0 pk none

def State.pairMod (s : State) (p : Nat) : Nat := s.snapFld p F.SNAPSHOT_PAIR_STATE_MODULE
def State.pairPart (s : State) (p : Nat) : Nat := s.snapFld p F.SNAPSHOT_PAIR_STATE_PART

/-- Write an image to the stage area. -/
def State.fillStage (s : State) (p : Nat) (ckpt : Bool) (img : List Byte) : State :=
  let step := s.resumeStep p
  let s := (s.wrBytes p (s.snapReg p R.SNAPSHOT_SNAP_STAGE_BASE) img).meter p R.METER_HBM_BYTES (2 * img.length)
  let s := s.updSnap p (fun x => { x with stageOk := true, stageLen := img.length, stageStep := step, stageCkpt := ckpt })
  s.progress pgSnapshot p 1 10000 img.length

/-- A SNAPSHOT's failure: SNAP_LAST_ERR, ABORT_FAULT with cause LINK. -/
def State.snapFail (s : State) (q : Nat) (c : Cmd) (code : Nat) : State := (s.snapErr c.part code).abortCmd q c.slot 0x10 0x0D

/-- The pair that LOCAL_STAGE and DIRECT need, and its feed (R338, R339): 0 when they may stream. -/
def State.pairErr (s : State) (p partner : Nat) : Nat :=
  if s.snapFld p F.SNAPSHOT_PAIR_STATE_VALID = 0 || s.pairMod p ≠ bitsOf partner 13 0 || s.pairPart p ≠ bitsOf partner 23 16 then 1
  else if s.snapFld p F.SNAPSHOT_PAIR_STATE_FEED = s.feedId && !s.coFed p then 2 else 0

/-- The captured snapshot counts. -/
def State.countSnap (s : State) (p : Nat) : State :=
  (s.bump pgSnapshot 0 R.SNAPSHOT_SNAPSHOTS 1).setReg pgSnapshot p R.SNAPSHOT_SNAP_LAST_STEP (s.resumeStep p)

def State.pause (s : State) (p : Nat) : State := s.updPart p (fun x => { x with paused := true })

/-- LOCAL_STAGE: the image goes to the stage, and from there to the partner in the background. -/
def State.localStage (s : State) (q : Nat) (c : Cmd) : State :=
  let p := c.part
  let e := if snNone c.desc then 0 else s.pairErr p (snPartner c.desc)
  let img := s.image p false
  let base := s.snapReg p R.SNAPSHOT_SNAP_STAGE_BASE
  if e ≠ 0 then s.snapFail q c e
  else if s.snapReg p R.SNAPSHOT_SNAP_STAGE_BYTES < img.length then s.snapFail q c 5
  else
    let s := s.updCmd q c.slot (fun c => { c with outs := [rangeOf base 0 (Int.ofNat img.length - 1)] })
    let s := ((s.pause p).fillStage p false img).countSnap p
    let s := if snNone c.desc then s else
        (s.setSnapFld p F.SNAPSHOT_SNAP_STATUS_STATE 3).sendStream p (streamQ p) 0 (s.pairMod p) (s.pairPart p) 0 img
    s.finish q c.slot 0 0 img.length

/-- DIRECT: the image is streamed from the ranges. -/
def State.direct (s : State) (q : Nat) (c : Cmd) : State :=
  let p := c.part
  let e := if snNone c.desc then 1 else s.pairErr p (snPartner c.desc)
  if e ≠ 0 then s.snapFail q c e
  else if s.fld pgPartition p F.PARTITION_BW_CFG_LINK_MIN < s.snapReg p R.SNAPSHOT_SNAP_BW then s.snapFail q c 6
  else
    let img := s.image p false
    let s := ((s.pause p).countSnap p).setSnapFld p F.SNAPSHOT_SNAP_STATUS_STATE 3
    s.sendStream p q c.slot (s.pairMod p) (s.pairPart p) 0 img

/-- SNAP_STREAM_DONE: a background stream has been acknowledged whole. -/
def State.streamDone (s : State) (p : Nat) : State :=
  match s.xfers.find? (fun x => x.q = streamQ p && x.phase = 2 && !s.sendOpen x.q x.slot) with
  | none => s
  | some x =>
    let s := { s with xfers := s.xfers.filter (fun y => y ≠ x) }
    ((s.setSnapFld p F.SNAPSHOT_SNAP_STATUS_STATE 0).setSnapFld p F.SNAPSHOT_SNAP_STATUS_STREAM_OK 1).progress pgSnapshot p 2 10000 x.len

/-- A stream or window of the engine is cancelled. -/
def State.streamLost (s : State) (x : XferX) : State :=
  if x.send then ((s.setSnapFld x.part F.SNAPSHOT_SNAP_STATUS_STATE 0).setSnapFld x.part F.SNAPSHOT_SNAP_STATUS_STREAM_OK 0) else s

/-! ### Pairing (R339) -/

/-- This module's pairing block. The replacement class comes from its configuration record (R362). -/
def State.ownBlock (s : State) (p : Nat) : List Byte :=
  ((Config.pairBlock [s.moduleId, s.feedId, if s.coFed p then 1 else 0, s.variantCode, s.boot.cfgClass, 1, s.snapReg p R.SNAPSHOT_SNAP_RECV_BYTES]) ++
    List.replicate 64 0).take 64

/-- The first failed check of a partner's block, as SNAP_LAST_ERR; 0 when it passes. -/
def State.pairCheck (s : State) (p : Nat) (b : List Byte) : Nat :=
  if Config.pairField 5 b < 1 then 3
  else if Config.pairField 6 b / 2 < (s.image p false).length then 4
  else if Config.pairField 1 b = s.feedId && !s.coFed p then 2 else 0

/-- Judge a pairing once the partner's block is here. -/
def State.tryPair (s : State) (p : Nat) : State :=
  let x := (s.part p).snap
  match x.pairCmd, x.peerBlock with
  | some (q, slot), some (mod, b) =>
    match s.cmd? q slot with
    | none => s
    | some c =>
      if bitsOf (snPartner c.desc) 13 0 ≠ mod then s
      else
        let s := s.updSnap p (fun x => { x with peerBlock := none })
        let e := s.pairCheck p b
        if e ≠ 0 then ((s.notice pgSnapshot caPAIR_REFUSED e).raisePage pgSnapshot 8).snapFail q c e
        else
          let f := Config.pairField 1 b % 64
          let v := mod + 2 ^ 14 * bitsOf (snPartner c.desc) 23 16 + 2 ^ 22 * f + (if f = s.feedId then 0 else 2 ^ 28) + 2 ^ 29
          (s.setReg pgSnapshot p R.SNAPSHOT_PAIR_STATE v).finish q slot 0 0 64
  | _, _ => s

/-- PAIR: the module's block goes out. -/
def State.pairStart (s : State) (q : Nat) (c : Cmd) : State :=
  let p := c.part
  let mod := bitsOf (snPartner c.desc) 13 0
  if snNone c.desc || !s.reaches mod || !s.authorised p mod then s.abortCmd q c.slot 0x10 0x0D
  else
    let s := s.updSnap p (fun x => { x with pairCmd := some (q, c.slot) })
    (s.sendStream p q c.slot mod (bitsOf (snPartner c.desc) 23 16) 1 (s.ownBlock p)).tryPair p

/-- A partner's block has arrived: a PAIR under way takes it, else the engine answers with its own. -/
def State.blockIn (s : State) (p mod : Nat) (b : List Byte) : State :=
  let s := s.updSnap p (fun x => { x with peerBlock := some (mod, b) })
  if (s.part p).snap.pairCmd.isSome then s.tryPair p
  else s.sendStream p (answerQ p) 0 mod (s.freeVal.toNat % 256) 1 (s.ownBlock p) |>.freshen

/-! ### Receiving (R340, R346) -/

def State.intact (s : State) (p n : Nat) : Bool := (s.snapReg p R.SNAPSHOT_RECV_STATUS).testBit n

/-- The slot that takes the next image: the one that does not hold the newer intact image. -/
def State.nextRecv (s : State) (p : Nat) : Nat :=
  if !s.intact p 0 then 0 else if !s.intact p 1 then 1 else 1 - s.snapFld p F.SNAPSHOT_RECV_STATUS_NEWER

/-- A request that the snapshot engine answers: format code 0, which no tensor has, under SNAP_HANDLE. -/
def State.snapRequest (s : State) (pk : Packet) : Bool :=
  pk.fmt = 0 && pk.key.toNat = s.snapReg pk.destPart R.SNAPSHOT_SNAP_HANDLE

/-- The window that the engine opens for a request, if it takes it: a pairing block, a fetched image for the stage, or a slot. -/
def State.snapWindow (s : State) (pk : Packet) : Option XferX :=
  let p := pk.destPart
  let w : XferX := { part := p, q := answerQ p, slot := 0, snap := true, send := false, handle := pk.key.toNat, mod := pk.srcMod, peerPart := pk.destPart,
                     len := pk.len, got := 0, fmt := 0, phase := 2, startT := s.timeNow, retryT := 0, src := [], base := 0 }
  let half := s.snapReg p R.SNAPSHOT_SNAP_RECV_BYTES / 2
  if pk.len = 64 then some { w with slot := 9 }
  else match (s.part p).snap.fetch with
    | some f =>
      if f.2.2.1 = pk.srcMod && decide (pk.len ≤ s.snapReg p R.SNAPSHOT_SNAP_STAGE_BYTES) then
        some { w with slot := 2, base := s.snapReg p R.SNAPSHOT_SNAP_STAGE_BASE }
      else none
    | none =>
      let n := s.nextRecv p
      if pk.len ≤ half then some { w with slot := n, base := s.snapReg p R.SNAPSHOT_SNAP_RECV_BASE + n * half } else none

/-- Blocks of an image that fail, one SNAP_BLOCK notice each. -/
def State.blockNotices (s : State) (bs : List BlockX) (mod : Nat) : State :=
  (bs.zipIdx.filter (fun b => !b.1.crcOk || !b.1.seqOk || !b.1.verOk || b.1.src ≠ mod)).foldl (fun s b => s.notice pgSnapshot caSNAP_BLOCK b.2) s

/-- An image has arrived whole in a slot. -/
def State.slotIn (s : State) (p n mod len base : Nat) : State :=
  let bs := blocksOf (s.rdBytes p base len)
  let s := s.blockNotices bs mod
  let st := (bs.getLast?.map (·.step)).getD 0
  let fl := (bs.head?.map (·.flags)).getD 0
  if imageErr bs ≠ 0 || bs.any (fun b => b.src ≠ mod) then s
  else
    let v := s.snapReg p R.SNAPSHOT_RECV_STATUS
    let v := putBits (putBits (putBits v n n 1) (2 + n) (2 + n) (if fl.testBit 1 then 1 else 0)) (4 + n) (4 + n) (if fl.testBit 0 then 1 else 0)
    let other := s.snapReg p (R.SNAPSHOT_RECV_STEP_0 + 4 * (1 - n))
    let newer := if v.testBit (1 - n) && decide (st < other) then 1 - n else n
    let v := putBits (putBits v 6 6 newer) 21 8 mod
    (s.setReg pgSnapshot p R.SNAPSHOT_RECV_STATUS v).setReg pgSnapshot p (R.SNAPSHOT_RECV_STEP_0 + 4 * n) st

/-- A window of the engine has closed. -/
def State.snapClosed (s : State) (x : XferX) : State :=
  let p := x.part
  let s := { s with xfers := s.xfers.filter (fun y => y ≠ x) }
  if x.slot = 9 then s.blockIn p x.mod x.src
  else if x.slot = 2 then
    let bs := blocksOf (s.rdBytes p x.base x.len)
    let s := s.blockNotices bs x.mod
    let s := s.updSnap p (fun y => { y with stageOk := imageErr bs = 0, stageLen := x.len, stageStep := (bs.getLast?.map (·.step)).getD 0, stageCkpt := false })
    match (s.part p).snap.fetch with
    | some f => s.finish f.1 f.2.1 0 0 x.len
    | none => s
  else s.slotIn p x.slot x.mod x.len x.base

/-- Put bytes into a list at a position. -/
def spliceAt (l : List Byte) (pos : Nat) (d : List Byte) : List Byte :=
  let l := l ++ List.replicate (pos + d.length - l.length) 0
  l.take pos ++ d ++ l.drop (pos + d.length)

/-- Data for a window of the engine. -/
def State.snapData (s : State) (x : XferX) (pk : Packet) : State :=
  let pos := pk.pos.toNat
  let y := if x.slot = 9 then { x with src := spliceAt x.src pos pk.data } else x
  let s := { s with xfers := s.xfers.map (fun z => if z = x then y else z) }
  let s := if x.slot = 9 then s else
      let s := if x.slot ≤ 1 then s.setReg pgSnapshot x.part R.SNAPSHOT_RECV_STATUS (putBits (s.snapReg x.part R.SNAPSHOT_RECV_STATUS) x.slot x.slot 0) else s
      (s.wrBytes x.part (x.base + pos) (pk.data.take (x.len - pos))).meter x.part R.METER_HBM_BYTES pk.data.length
  if x.len ≤ x.got then s.snapClosed y else s

/-- FETCH: asks the partner for its newest slot. How the request travels the spec does not say (DESIGN CHOICE log 64). -/
def State.fetchStart (s : State) (q : Nat) (c : Cmd) : State :=
  let mod := bitsOf (snPartner c.desc) 13 0
  let part := bitsOf (snPartner c.desc) 23 16
  if snNone c.desc || !s.reaches mod || !s.authorised c.part mod then s.abortCmd q c.slot 0x10 0x0D
  else (s.updSnap c.part (fun x => { x with fetch := some (q, c.slot, mod, part) })).emit .snapFetch [mod, part]

/-! ### Restoring (R337, R346) -/

/-- Write an entry record's registers. -/
def State.loadEntry (s : State) (x : Nat) (l : List Byte) : State :=
  let role := leNat (l.take 4) % 16
  let s := s.meltChange (fun y => y = x)
  if role = 0 && l.all (fun b => b = 0) then s
  else (entLayout (isGrad role)).foldl (fun s r => s.setEnt x r.1 (leNat ((l.drop r.1).take r.2))) s

/-- Load a state section. -/
def State.loadSection (s : State) (p step : Nat) (l : List Byte) : State :=
  let f := fun (o n : Nat) => leNat ((l.drop o).take n)
  let nc := f 0x10 2
  let ne := f 0x14 4
  let pow := fun (i o : Nat) => if i < nc then f (0x40 + 16 * i + o) 4 else if nc = 0 then fp32One else f (0x40 + o) 4
  let s := (s.clustersOf p).zipIdx.foldl (fun s g =>
    (s.setReg (clusterPage g.1 uTemper) 0 R.TEMPER_B1POW (pow g.2 4)).setReg (clusterPage g.1 uTemper) 0 R.TEMPER_B2POW (pow g.2 8)) s
  let s := (List.range (s.meltCount p)).foldl (fun s i => match s.globalMelt p i with
    | some x => if i < ne then s.loadEntry x ((l.drop (0x40 + 16 * nc + 128 * i)).take 128) else s.meltChange (fun y => y = x)
    | none => s) s
  let s := s.updPart p (fun x => { x with jr := { x.jr with seed := f 0x08 8 } })
  s.setReg pgJobRunner p R.JOB_RUNNER_STEP_INDEX step

/-- The set an image holds matches the current table (R346): SNAP_LAST_ERR code 9 otherwise. -/
def State.setErr (s : State) (p : Nat) (bs : List BlockX) (sect : List Byte) : Nat :=
  let lens := (s.snapRanges p).zipIdx.all (fun r => ((bs.filter (fun b => b.range = r.2)).map (fun b => b.pay.length)).sum = r.1.2)
  let extra := bs.any (fun b => b.range < 0xFFFE && decide ((s.snapRanges p).length ≤ b.range))
  if !lens || extra || leNat (sect.take 2) ≠ 1 || decide (s.meltCount p < leNat ((sect.drop 0x14).take 4)) then 9 else 0

/-- RESTORE: verify the staged image whole, then copy the ranges back and load the state section. -/
def State.restore (s : State) (q : Nat) (c : Cmd) : State :=
  let p := c.part
  let s := s.pause p
  let bs := blocksOf (s.rdBytes p (s.snapReg p R.SNAPSHOT_SNAP_STAGE_BASE) (s.snapReg p R.SNAPSHOT_SNAP_STAGE_BYTES))
  let sect := (bs.filter (fun b => b.range = 0xFFFF)).flatMap (·.pay)
  let e := if imageErr bs ≠ 0 then imageErr bs else s.setErr p bs sect
  if e ≠ 0 then (s.snapErr p e).abortCmd q c.slot 0x14 0x21
  else
    let rs := s.snapRanges p
    let total := ((bs.filter (fun b => b.range < 0xFFFE)).map (fun b => b.pay.length)).sum
    let s := s.updCmd q c.slot (fun c => { c with inpl := rs.map (fun r => rangeOf r.1 0 (Int.ofNat r.2 - 1)) })
    let s := (bs.filter (fun b => b.range < 0xFFFE)).foldl (fun s b => s.wrBytes p ((rs.getD b.range (0, 0)).1 + b.off) b.pay) s
    let s := s.loadSection p ((bs.getLast?.map (·.step)).getD 0) sect
    ((s.meter p R.METER_HBM_BYTES (3 * total)).progress pgSnapshot p 5 10000 total).finish q c.slot 0 0 total

/-! ### Checkpoints (R344, R345) -/

def State.ckptErr (s : State) (p code : Nat) : State := s.setSnapFld p F.SNAPSHOT_CKPT_STATUS_ERR code

/-- The stage is pushed to the host or held for a pull. -/
def State.ckptOut (s : State) (p : Nat) : State :=
  let s := (s.setSnapFld p F.SNAPSHOT_CKPT_STATUS_RESTARTS 0).setSnapFld p F.SNAPSHOT_CKPT_STATUS_INDEP (if s.powerIndep p then 1 else 0)
  if s.snapReg p R.SNAPSHOT_CKPT_CFG % 2 = 1 then
    if !s.cxl.cxlMode then s.ckptErr p 1
    else
      let s := ((s.ckptErr p 0).setSnapFld p F.SNAPSHOT_CKPT_STATUS_STATE 2).setSnapFld p F.SNAPSHOT_CKPT_STATUS_READY 1
      let s := (s.updSnap p (fun x => { x with held := true })).bump pgSnapshot 0 R.SNAPSHOT_CHECKPOINTS 1
      s.setReg pgSnapshot p R.SNAPSHOT_CKPT_LAST_STEP (s.part p).snap.stageStep
  else if s.snapReg p R.SNAPSHOT_CKPT_BUF_BYTES < (s.part p).snap.stageLen then s.ckptErr p 3
  else if !s.hostReach p then s.ckptErr p 2
  else ((s.ckptErr p 0).setSnapFld p F.SNAPSHOT_CKPT_STATUS_STATE 1).updSnap p (fun x => { x with pushing := true })

/-- CKPT_PUSH_DONE: the image is visible in host memory, and the step index is written to CKPT_DONE_ADDR. -/
def State.ckptPushDone (s : State) (p : Nat) : State :=
  let x := (s.part p).snap
  if !x.pushing then s
  else
    let img := s.rdBytes p (s.snapReg p R.SNAPSHOT_SNAP_STAGE_BASE) x.stageLen
    let s := s.wrBytes p (2 ^ 63 + s.snapReg p R.SNAPSHOT_CKPT_BUF_BASE % 2 ^ 63) img
    let s := s.wrLE p (2 ^ 63 + s.snapReg p R.SNAPSHOT_CKPT_DONE_ADDR % 2 ^ 63) 8 x.stageStep
    let s := (s.meter p R.METER_HOST_BYTES (img.length + 8)).meter p R.METER_HBM_BYTES img.length
    let s := (s.setSnapFld p F.SNAPSHOT_CKPT_STATUS_STATE 0).setReg pgSnapshot p R.SNAPSHOT_CKPT_LAST_STEP x.stageStep
    let s := (s.bump pgSnapshot 0 R.SNAPSHOT_CHECKPOINTS 1).progress pgSnapshot p 3 10000 img.length
    s.updSnap p (fun x => { x with pushing := false })

/-- CKPT_CTRL.RELEASE frees a held stage. -/
def State.ckptFree (s : State) (p : Nat) : State :=
  if (s.part p).snap.held then
    ((s.setSnapFld p F.SNAPSHOT_CKPT_STATUS_STATE 0).setSnapFld p F.SNAPSHOT_CKPT_STATUS_READY 0).updSnap p (fun x => { x with held := false })
  else s

/-! ### Commands -/

def execLocalStage (q slot : Nat) (s : State) : Result :=
  .next (s.startCmd q slot (fun op => op = opSNAPSHOT) (fun s c => snMode c.desc = 1 && s.aloneIn q c && !s.stageBusy c.part) (fun s c => s.localStage q c))
def execDirect (q slot : Nat) (s : State) : Result :=
  .next (s.startCmd q slot (fun op => op = opSNAPSHOT) (fun s c => snMode c.desc = 2 && s.aloneIn q c) (fun s c => s.direct q c))
def execRestore (q slot : Nat) (s : State) : Result :=
  .next (s.startCmd q slot (fun op => op = opSNAPSHOT) (fun s c => snMode c.desc = 3 && s.aloneIn q c) (fun s c => s.restore q c))
def execPair (q slot : Nat) (s : State) : Result :=
  .next (s.startCmd q slot (fun op => op = opSNAPSHOT) (fun _ c => snMode c.desc = 4) (fun s c => s.pairStart q c))
def execFetch (q slot : Nat) (s : State) : Result :=
  .next (s.startCmd q slot (fun op => op = opSNAPSHOT) (fun s c => snMode c.desc = 5 && !s.stageBusy c.part) (fun s c => s.fetchStart q c))
def execSnapStreamDone (part : Nat) (s : State) : Result := .next (s.streamDone part)
def execCkptPushDone (part : Nat) (s : State) : Result := .next (s.ckptPushDone part)

end Sys2Proof.Machine
end

