-- ==== Sys2Proof/Machine/Transfers.lean ====
section
/-! DEFINITION. Point-to-point transfers (R233, R234, R248, R249, R251, R252): LINK_SEND, LINK_RECV and the packets of the rendezvous. Windows
and streams of the snapshot engine use the same rendezvous (R339). -/

namespace Sys2Proof.Machine

/-! ### Tags and answers (R249) -/

/-- A packet may be delivered to its partition. -/
def State.tagOk (s : State) (pk : Packet) : Bool :=
  pk.jobTag ≠ 0 && s.partNums.contains pk.destPart && s.jobTag pk.destPart = pk.jobTag

/-- Answer a packet. The header holds no source partition, so the answer's DEST_PART is open, as is its AUX; it carries the tag of
the packet it answers, so that the sender's partition takes it (DEDUCED log 57). -/
def State.answer (s : State) (pk : Packet) (kind : Nat) : State :=
  let a := s.mkPacket pk.destPart kind pk.srcMod (s.freeVal.toNat % 256) pk.key.toNat
  s.freshen.sendPk pk.destPart 0 { a with jobTag := pk.jobTag, aux := BitVec.ofNat 32 (Config.free (s.fresh + 1)).toNat } none

/-- A packet with a tag that is not its partition's: discarded, counted, recorded, and answered where it asks for an answer. -/
def State.tagReject (s : State) (die : Nat) (pk : Packet) : State :=
  let s := (s.bump (pgRouter die) 0 R.ROUTER_TAG_REJECTS 1).notice (pgRouter die) caTAG_REJECT (pk.srcMod + 2 ^ 16 * pk.destPart)
  if pk.kind = pkSEND_REQ || pk.kind = pkSEND_DATA then s.answer pk pkSEND_REJECT
  else if pk.kind = pkCOLL_READY || pk.kind = pkCOLL_DATA then s.answer pk pkCOLL_CANCEL
  else s

/-- A packet arrives for a local partition: its bytes count, a parked module wakes (R405), its tag is checked. -/
def State.deliver (s : State) (die : Nat) (pk : Packet) (k : State → State) : State :=
  if !s.ready || pk.destMod ≠ s.moduleId then s
  else
    let s := s.wake.bump (pgRouter die) 0 R.ROUTER_ROUTE_LOCAL_FLITS (packetFlits pk)
    if !s.tagOk pk then s.tagReject die pk
    else k (s.bump pgMeter pk.destPart R.METER_LINK_BYTES (32 + pk.data.length))

/-! ### The byte stream of a tensor (R234): elements, then scale bytes (DEDUCED log 56) -/

/-- Address of byte k of a tensor's stream. -/
def TD.streamAddr (t : TD) (k : Nat) : Nat :=
  if k < t.elemBytes then t.rowAddr (0 :: unravel (t.ext.drop 1) (k / t.rowBytes)) + k % t.rowBytes
  else t.scale + (k - t.elemBytes)

def TD.streamLen (t : TD) : Nat := t.elemBytes + t.scaleBytes

def State.streamOf (s : State) (p : Nat) (t : TD) : List Byte := (List.range t.streamLen).map (fun k => s.rd1 p (t.streamAddr k))

/-- Land bytes at a position of a stream. -/
def State.putAt (s : State) (p : Nat) (t : TD) (pos : Nat) (l : List Byte) : State :=
  l.zipIdx.foldl (fun s b => if pos + b.2 < t.streamLen then s.wrBytes p (t.streamAddr (pos + b.2)) [b.1] else s) s

/-! ### LINK_LAST_ERR (R263) -/

/-- The link whose page shows a transfer's failure: PORT_A of the first die that routes to the module (DESIGN CHOICE log 58). -/
def State.errLink (s : State) (mod : Nat) : Nat :=
  match s.diesTo mod with
  | d :: _ => 16 * (d - 8) + bitsOf (s.route d mod) 3 0
  | [] => 0

def State.linkErr (s : State) (mod part code : Nat) : State :=
  s.setReg (linkPage (s.errLink mod)) 0 R.LINK_LINK_LAST_ERR (code + 256 * part)

/-! ### LINK_SEND -/

def sendDest (d : BitVec 1024) : Nat := dField d 0x54 32
def sendHandle (d : BitVec 1024) : Nat := dField d 0x58 64
def sendLength (d : BitVec 1024) : Nat := dField d 0x60 64

def State.sendReqPacket (s : State) (x : XferX) : Packet :=
  { s.mkPacket x.part pkSEND_REQ x.mod x.peerPart x.handle with aux := BitVec.ofNat 32 x.len, len := x.len, fmt := x.fmt }

/-- LINK_SEND starts: SEND_REQ goes out, or no die routes to the module (R248, R251). -/
def State.sendStart (s : State) (q : Nat) (c : Cmd) : State :=
  let w := sendDest c.desc
  if !s.reaches (memMod w) then (s.linkErr (memMod w) c.part 1).abortCmd q c.slot 0x10 0x0D
  else
    let x : XferX := { part := c.part, q := q, slot := c.slot, snap := false, send := true, handle := sendHandle c.desc, mod := memMod w,
                       peerPart := memPart w, len := sendLength c.desc, got := 0, fmt := ((Form.ofCmd c q false).td 0).fmt, phase := 1,
                       startT := s.timeNow, retryT := 0, src := [], base := 0 }
    ({ s with xfers := s.xfers ++ [x] }).sendPk c.part 0 (s.sendReqPacket x) none

/-- The sender's exchange that an answer concerns. -/
def State.sendOf (s : State) (pk : Packet) (phase : Nat) : Option XferX :=
  s.xfers.find? (fun x => x.send && x.phase = phase && x.part = pk.destPart && x.mod = pk.srcMod && x.handle = pk.key.toNat)

def State.putXfer (s : State) (x y : XferX) : State := { s with xfers := s.xfers.map (fun z => if z = x then y else z) }

/-- Data packets of 4,096 bytes (R250). -/
def cut4096 : Nat → List Byte → List (List Byte)
  | 0, _ => []
  | k + 1, l => if l.isEmpty then [] else l.take 4096 :: cut4096 k (l.drop 4096)

/-- SEND_CLEAR: the data goes out, dealt over the dies (R248, R251). -/
def State.sendData (s : State) (x : XferX) : State :=
  let bytes := if x.snap then x.src else match s.cmd? x.q x.slot with
    | some c => s.streamOf x.part ((Form.ofCmd c x.q false).td 0)
    | none => []
  let s := s.putXfer x { x with phase := 2, src := [] }
  let s := if x.snap then s else s.updCmd x.q x.slot (fun c => { c with wrote := true })
  let s := (cut4096 (bytes.length / 4096 + 1) bytes).zipIdx.foldl (fun s c =>
    s.sendPk x.part c.2 { s.mkPacket x.part pkSEND_DATA x.mod x.peerPart x.handle with
      pos := BitVec.ofNat 64 (4096 * c.2), aux := BitVec.ofNat 32 c.1.length, data := c.1 } (some (x.q, x.slot))) s
  (s.meter x.part R.METER_HBM_BYTES bytes.length).endSends

def State.clearIn (s : State) (pk : Packet) : State :=
  match s.sendOf pk 1 with
  | some x => s.sendData x
  | none => s

/-- End the command or stream of an exchange that failed. -/
def State.xferFail (s : State) (x : XferX) (code : Nat) : State :=
  let s := s.linkErr x.mod x.part code
  let s := { s with xfers := s.xfers.filter (fun y => y ≠ x) }
  if 65536 ≤ x.q then s.streamLost x else s.abortCmd x.q x.slot 0x10 0x0D

/-! ### Windows and requests (R251) -/

/-- Open windows of a partition under a handle, oldest admitted first. -/
def State.openWindows (s : State) (p handle : Nat) : List XferX :=
  sortOn (fun x => match s.cmd? x.q x.slot with | some c => c.admitT | none => x.startT)
    (s.xfers.filter (fun x => !x.send && x.phase = 1 && x.part = p && x.handle = handle))

/-- One pending request against the oldest open window: rejected or cleared. -/
def State.matchOne (s : State) (r : ReqX) (x : XferX) : State :=
  let s := { s with reqs := s.reqs.erase r }
  if r.pk.fmt ≠ x.fmt || r.pk.len ≠ x.len then s.answer r.pk pkSEND_REJECT
  else (s.putXfer x { x with phase := 2, mod := r.pk.srcMod, peerPart := r.pk.destPart }).answer r.pk pkSEND_CLEAR

/-- Match the requests of one handle in arrival order; `fuel` bounds them. -/
def State.matchReqs (s : State) (p handle : Nat) : Nat → State
  | 0 => s
  | fuel + 1 =>
    match (s.openWindows p handle).head?, s.reqs.find? (fun r => r.part = p && r.pk.key.toNat = handle) with
    | some x, some r => (s.matchOne r x).matchReqs p handle fuel
    | _, _ => s

/-- SEND_REQ. -/
def State.reqIn (s : State) (die : Nat) (pk : Packet) : State :=
  let p := pk.destPart
  if s.snapRequest pk then
    match s.snapWindow pk with
    | some x => ({ s with xfers := s.xfers ++ [x] }).answer pk pkSEND_CLEAR
    | none => s.answer pk pkSEND_REJECT
  else if 1024 ≤ (s.reqs.filter (fun r => r.part = p)).length then s.answer pk pkSEND_BUSY
  else
    let r : ReqX := { part := p, die := die, pk := pk }
    let s := { s with reqs := s.reqs ++ [r] }
    s.matchReqs p pk.key.toNat (s.reqs.length + 1)

/-- LINK_RECV starts: its window opens. -/
def State.recvStart (s : State) (q : Nat) (c : Cmd) : State :=
  let t := (Form.ofCmd c q false).td 2
  let x : XferX := { part := c.part, q := q, slot := c.slot, snap := false, send := false, handle := sendHandle c.desc, mod := 0, peerPart := 0,
                     len := t.streamLen, got := 0, fmt := t.fmt, phase := 1, startT := s.timeNow, retryT := 0, src := [], base := 0 }
  let s := { s with xfers := s.xfers ++ [x] }
  s.matchReqs c.part x.handle (s.reqs.length + 1)

/-- The matched window that data or a cancel from the sender concerns. -/
def State.windowOf (s : State) (pk : Packet) : Option XferX :=
  s.xfers.find? (fun x => !x.send && x.phase = 2 && x.part = pk.destPart && x.mod = pk.srcMod && x.handle = pk.key.toNat)

/-- SEND_DATA lands at its POS; the window closes when LENGTH bytes have arrived. -/
def State.dataIn (s : State) (pk : Packet) : State :=
  match s.windowOf pk with
  | none => s
  | some x =>
    let y := { x with got := x.got + pk.data.length }
    let s := s.putXfer x y
    if x.snap then s.snapData y pk
    else match s.cmd? x.q x.slot with
      | none => s
      | some c =>
        let s := (s.putAt x.part ((Form.ofCmd c x.q false).td 2) pk.pos.toNat pk.data).meter x.part R.METER_HBM_BYTES pk.data.length
        let s := (s.updCmd x.q x.slot (fun c => { c with wrote := true, pos := y.got })).progressed x.q c.task
        if x.len ≤ y.got then
          ({ s with xfers := s.xfers.filter (fun z => z ≠ y) }).finish x.q x.slot 0 0 y.got
        else s

/-- SEND_CANCEL (R252): ends the peer's side; after closure it is discarded. -/
def State.cancelIn (s : State) (pk : Packet) : State :=
  match s.windowOf pk with
  | some x => s.xferFail x 5
  | none =>
    match s.xfers.find? (fun x => x.send && x.part = pk.destPart && x.mod = pk.srcMod && x.handle = pk.key.toNat) with
    | some x => s.xferFail x 5
    | none => { s with reqs := s.reqs.filter (fun r => !(r.part = pk.destPart && r.pk.srcMod = pk.srcMod && r.pk.key = pk.key)) }

/-- SEND_REJECT ends the LINK_SEND; the reason is not in the packet's stated fields (DESIGN CHOICE log 58). -/
def State.rejectIn (s : State) (pk : Packet) : State :=
  match s.xfers.find? (fun x => x.send && x.part = pk.destPart && x.mod = pk.srcMod && x.handle = pk.key.toNat) with
  | some x => s.freshen.xferFail x (2 + s.freeVal.toNat % 3)
  | none => s

/-- SEND_BUSY: the request is repeated after 10 µs; so is a COLL_READY (R255). -/
def State.busyIn (s : State) (pk : Packet) : State :=
  match s.sendOf pk 1 with
  | some x => s.putXfer x { x with phase := 3, retryT := s.timeNow + 10000 }
  | none => { s with colls := s.colls.map (fun (c : CollX) =>
      let rank := c.members.findIdx (fun w => memMod w = pk.srcMod)
      if c.part = pk.destPart && c.key = pk.key.toNat && decide (rank < c.members.length) then
        { c with retry := dedup (c.retry ++ [rank]), retryT := s.timeNow + 10000 }
      else c) }

/-- COLL_READY to one rank, with the checksum of the member list (R253). -/
def State.sendReady (s : State) (c : CollX) (rank : Nat) : State :=
  s.collTo c 0 rank (fun p => { p with aux := BitVec.ofNat 32 (crc32c (c.members.flatMap (fun w => leBytes w 4))), len := c.len, fmt := c.kind })
    pkCOLL_READY

/-- SEND_RETRY: every refused request or READY of a partition whose 10 µs have passed is sent again. -/
def State.retrySends (s : State) (p : Nat) : State :=
  let due := s.xfers.filter (fun x => x.part = p && x.send && x.phase = 3 && decide (x.retryT ≤ s.timeNow))
  let s := due.foldl (fun s x => (s.putXfer x { x with phase := 1 }).sendPk p 0 (s.sendReqPacket x) none) s
  let cs := s.colls.filter (fun c => c.part = p && !c.retry.isEmpty && decide (c.retryT ≤ s.timeNow))
  cs.foldl (fun s c =>
    let s := { s with colls := s.colls.map (fun (d : CollX) => if d = c then { d with retry := [] } else d) }
    c.retry.foldl (fun s r => s.sendReady c r) s) s

/-- RECV_TIMEOUT (R252). -/
def State.recvTimeout (s : State) (q slot : Nat) : State :=
  match s.cmd? q slot with
  | none => s
  | some c =>
    let us := dField c.desc 0x60 32
    if dOpcode c.desc = opLINK_RECV && us ≠ 0 && !c.done && (match c.startT with | some t => decide (t + 1000 * us ≤ s.timeNow) | none => false) then
      let mod := match s.xfers.find? (fun x => x.q = q && x.slot = slot) with
        | some x => x.mod
        | none => 0
      (s.linkErr mod c.part 6).abortCmd q slot 0x10 0x0D
    else s

def execLinkSend (q slot : Nat) (s : State) : Result :=
  .next (s.startCmd q slot (fun op => op = opLINK_SEND) (fun _ _ => true) (fun s c => s.sendStart q c))
def execLinkRecv (q slot : Nat) (s : State) : Result :=
  .next (s.startCmd q slot (fun op => op = opLINK_RECV) (fun _ _ => true) (fun s c => s.recvStart q c))
def execSendReq (die : Nat) (pk : Packet) (s : State) : Result := .next (s.deliver die pk (fun s => s.reqIn die pk))
def execSendClear (die : Nat) (pk : Packet) (s : State) : Result := .next (s.deliver die pk (fun s => s.clearIn pk))
def execSendData (die : Nat) (pk : Packet) (s : State) : Result := .next (s.deliver die pk (fun s => s.dataIn pk))
def execSendCancel (die : Nat) (pk : Packet) (s : State) : Result := .next (s.deliver die pk (fun s => s.cancelIn pk))
def execSendReject (die : Nat) (pk : Packet) (s : State) : Result := .next (s.deliver die pk (fun s => s.rejectIn pk))
def execSendBusy (die : Nat) (pk : Packet) (s : State) : Result := .next (s.deliver die pk (fun s => s.busyIn pk))
def execSendRetry (part : Nat) (s : State) : Result := .next (s.retrySends part)
def execRecvTimeout (q slot : Nat) (s : State) : Result := .next (s.recvTimeout q slot)

end Sys2Proof.Machine
end

