-- ==== Sys2Proof/Machine/Collective.lean ====
section
/-! DEFINITION. Collectives (R253 to R259) and the closing of a step (R166 to R172): groups, ring and tree, wire chunks, verdict words,
acknowledgements, the seal and the timer. A chunk's index counts chunks of 1,024 elements of the full tensor (DESIGN CHOICE log 59). -/

namespace Sys2Proof.Machine

/-! ### Wire chunks (R256, R161) -/

/-- The format of the elements on the wire. -/
def wireFmt (wire fmt : Nat) : Nat :=
  match wire with
  | 1 => fmtFB8E4
  | 2 => fmtFB8E5
  | 3 => fmtFB4
  | 4 => fmtG16
  | 5 => fmtBF16
  | _ => fmt

/-- ⌈log2⌉ of a non-zero magnitude. -/
def ceilLog2 (q : Q) : Int := if (Q.dyadic false 1 q.log2).eq q.abs then q.log2 else q.log2 + 1

/-- The chunk scale of FB8 and FB4: 2^⌈log2(a / EMAX)⌉ within 2^-126 to 2^127, 1.0 for a = 0. -/
def chunkScale (f : Nat) (vals : List Val) : Q :=
  let a := maxAbs (vals.filterMap (fun v => match v with | .fin q => some q | _ => none))
  if a.num = 0 then Q.one else Q.dyadic false 1 (max (-126) (min 127 (ceilLog2 (a.div (fmtEmax f)))))

/-- The code s that the engine gives a G16 block (R161). -/
def g16Scale (vals : List Val) : Int :=
  let a := maxAbs (vals.map Val.q)
  if a.num = 0 then 0
  else ((List.range 201).map (fun (i : Nat) => Int.ofNat i - 100)).find? (fun s =>
    (fFP16.decode (fFP16.ieee .rne (a.mul (Q.dyadic false 1 (-s)))).1).isFin) |>.getD 100

/-- A chunk as encoded: bytes behind the header, chunk scale where the format has one, conversion counts, verdict flags of R257. -/
structure Enc where
  bytes : List Byte
  scale : Option Nat
  cvt : Cvt
  flags : Nat

def encodeWire (f : Nat) (vals : List Val) : Enc :=
  if f = fmtG16 then
    let bs := (cutAt 256 5 0 vals).map (fun b => encodeG16 (g16Scale b.2) (fun _ => .rne) b.2)
    { bytes := packCodes 16 (bs.flatMap (fun b => b.1.codes)) ++ bs.map (fun b => BitVec.ofNat 8 b.1.scale), scale := none,
      cvt := bs.foldl (fun c b => c.add b.1.cvt) {},
      flags := (if bs.any (fun b => b.1.kind = .nonfinite) then vNONFINITE else 0) + (if bs.any (fun b => b.2) then vOVERFLOW_BLOCK else 0) }
  else if fmtBlock f then
    let t := chunkScale f vals
    let bs := (cutAt 16 65 0 vals).map (fun b => encodeBlock f t (fun _ => .rne) b.2)
    { bytes := packCodes (fmtBits f) (bs.flatMap (·.codes)) ++ bs.map (fun b => BitVec.ofNat 8 b.scale), scale := some (qF32 t),
      cvt := bs.foldl (fun c b => c.add b.cvt) {}, flags := if bs.any (fun b => b.kind = .nonfinite) then vNONFINITE else 0 }
  else
    let es := vals.map (narrowElem f Q.one .rne)
    { bytes := packCodes (fmtBits f) (es.map (·.1)), scale := none, cvt := es.foldl (fun c e => c.add e.2) {}, flags := 0 }

/-- The chunk header: element count, chunk scale (free where the encoding has none, DESIGN CHOICE log 59), zeros. -/
def chunkHeader (n scale : Nat) : List Byte := leBytes n 4 ++ leBytes scale 4 ++ leBytes 0 8

/-- Elements of a chunk as they came: code and scale byte. -/
def chunkCodes (f : Nat) (l : List Byte) : List (Nat × Nat) :=
  let n := leNat (l.take 4)
  let body := l.drop 16
  let eb := ceilDiv (n * fmtBits f) 8
  let el := (body.take eb).map (·.toNat)
  let sc := (body.drop eb).map (·.toNat)
  let code := fun (i : Nat) => if 8 ≤ fmtBits f then
      (List.range (fmtBits f / 8)).foldl (fun a k => a + el.getD (i * (fmtBits f / 8) + k) 0 * 2 ^ (8 * k)) 0
    else bitsOf (el.getD (i * fmtBits f / 8) 0) (i * fmtBits f % 8 + fmtBits f - 1) (i * fmtBits f % 8)
  (List.range n).map (fun i => (code i, sc.getD (i / fmtBlockLen f) 0))

/-- Values of a chunk, each with its count of flushes on reading. -/
def decodeWire (f : Nat) (l : List Byte) : List (Val × Nat) :=
  let t := if fmtBlock f then f32Q (leNat ((l.drop 4).take 4)) else Q.one
  (chunkCodes f l).map (fun c => let v := scaledVal f c.1 c.2; (v.1.mulQ t, v.2))

/-! ### The shape of a collective -/

/-- A collective's tensor of slot n. -/
def State.collTd (s : State) (c : CollX) (n : Nat) : TD :=
  match s.cmd? c.q c.slot with
  | some k => (Form.ofCmd k c.q false).td n
  | none => tdOf 0 0

def CollX.n (c : CollX) : Nat := c.members.length
def CollX.chunks (c : CollX) : Nat := ceilDiv c.len 1024
def CollX.count (c : CollX) (ch : Nat) : Nat := min 1024 (c.len - 1024 * ch)
def CollX.shard (c : CollX) (ch : Nat) : Nat := 1024 * ch / max 1 (shardLen c.len c.n)
def CollX.ofShard (c : CollX) (r : Nat) : List Nat := (List.range c.chunks).filter (fun ch => c.shard ch = r)
def CollX.pred (c : CollX) : Nat := (c.me + c.n - 1) % c.n
def CollX.succ (c : CollX) : Nat := (c.me + 1) % c.n
def CollX.kids (c : CollX) : List Nat := treeChildren c.n c.me

/-- Ranks this member sends data to, and ranks that send data to it. -/
def CollX.dests (c : CollX) : List Nat :=
  if c.len = 0 || c.n ≤ 1 then [] else if c.tree then (treeParent c.me).toList ++ c.kids else [c.succ]
def CollX.sources (c : CollX) : List Nat :=
  if c.len = 0 || c.n ≤ 1 then [] else if c.tree then (treeParent c.me).toList ++ c.kids else [c.pred]

def State.coll? (s : State) (q slot : Nat) : Option CollX := s.colls.find? (fun c => c.q = q && c.slot = slot)

/-- Store a collective, and show its state in COLL_STATE. -/
def State.putColl (s : State) (c : CollX) : State :=
  let ph := if c.phase = 3 || c.phase = 4 then c.phase else if c.dests.all (fun r => c.ready.contains r) then 2 else 1
  let c := { c with phase := ph }
  ({ s with colls := s.colls.map (fun (d : CollX) => if d.q = c.q && d.slot = c.slot then c else d) }).setReg (pgColl 8) c.part
    R.COLLECTIVE_COLL_STATE (ph + 2 ^ 16 * (c.group % 2 ^ 16))

def State.collErr (s : State) (c : CollX) (code : Nat) : State :=
  s.setReg (pgColl 8) c.part R.COLLECTIVE_COLL_LAST_ERR (code + 256 * (c.seq % 2 ^ 24))

/-- A collective fails: COLL_LAST_ERR, and ABORT_FAULT with cause LINK. -/
def State.collFail (s : State) (c : CollX) (code : Nat) : State :=
  ((s.collErr c code).setFld (pgColl 8) c.part F.COLLECTIVE_COLL_STATE_STATE 0).abortCmd c.q c.slot 0x10 0x0D

/-- OR an incoming verdict word into the engine's own (R166, R257). -/
def orVerdict (own v : Nat) : Nat :=
  own ||| (v % 16) ||| (if bitsOf own 31 16 = bitsOf v 31 16 then 0 else vSTEP_MISMATCH)

/-! ### Contributions and results -/

/-- Counters of the COLLECTIVE page. -/
def State.countColl (s : State) (k : Cvt) (flushIn elems : Nat) : State :=
  let add := fun (s : State) (off n : Nat) => if n = 0 then s else s.bump (pgColl 8) 0 off n
  add (add (add (add (add s R.COLLECTIVE_FLUSH_IN (k.flushIn + flushIn)) R.COLLECTIVE_FLUSH_OUT k.flushOut) R.COLLECTIVE_CVT_SAT k.sat)
    R.COLLECTIVE_CVT_NAN k.nanw) R.COLLECTIVE_COLL_ELEMS elems

/-- A tensor whose G16 blocks are those of the chunks: whole blocks in every row, or one row (DEDUCED log 61). -/
def TD.chunkBlocks (t : TD) : Bool := t.fmt ≠ fmtG16 || t.e 0 % 256 = 0 || t.rows = 1

/-- Element number of slot 0 at which a chunk begins: the slot holds the whole tensor, or this rank's shard. -/
def CollX.srcAt (c : CollX) (ch : Nat) : Nat := 1024 * ch - (if c.kind = 2 then c.me * shardLen c.len c.n else 0)
def CollX.dstAt (c : CollX) (ch : Nat) : Nat := 1024 * ch - (if c.kind = 1 then c.me * shardLen c.len c.n else 0)

/-- This member's own contribution to a chunk. -/
def State.ownVals (s : State) (c : CollX) (ch : Nat) : List (Val × Nat) :=
  let t := s.collTd c 0
  (List.range (c.count ch)).map (fun i => s.elem c.part t (unravel t.ext (c.srcAt ch + i)))

/-- Encode a chunk's values; the collective takes the verdict flags. -/
def State.chunkOf (s : State) (c : CollX) (vals : List Val) : State × CollX × List Byte :=
  let e := encodeWire (wireFmt c.wire (s.collTd c 0).fmt) vals
  let k := match e.scale with
    | some t => t
    | none => s.freeVal.toNat % 2 ^ 32
  (s.freshen.countColl e.cvt 0 0, { c with verdict := c.verdict ||| e.flags }, chunkHeader vals.length k ++ e.bytes)

/-- The own contribution to a chunk on the wire: unchanged where memory and wire are both G16 (R255), encoded otherwise. -/
def State.ownChunk (s : State) (c : CollX) (ch : Nat) : State × CollX × List Byte :=
  let t := s.collTd c 0
  if t.fmt = fmtG16 && t.chunkBlocks then
    let idx := (List.range (c.count ch)).map (fun i => unravel t.ext (c.srcAt ch + i))
    let sc := (idx.zipIdx.filter (fun x => x.2 % 256 = 0)).map (fun x => s.elemScale c.part t x.1)
    (s.freshen, { c with verdict := c.verdict ||| (if sc.any (fun k => (g16Code k).isNone) then vNONFINITE else 0) },
      chunkHeader idx.length (s.freeVal.toNat % 2 ^ 32) ++ packCodes 16 (idx.map (s.elemCode c.part t)) ++ sc.map (BitVec.ofNat 8))
  else
    let v := s.ownVals c ch
    (s.countColl {} (v.map (·.2)).sum 0).chunkOf c (v.map (·.1))

/-- Add lists of FP32 codes element by element, counting flushed sums. -/
def addCodes (a b : List Nat) : List Nat × Nat :=
  let r := (a.zip b).map (fun x => addF32 .rne x.1 x.2)
  (r.map (·.1), (r.filter (fun x => x.2 &&& dfUFL_FLUSH ≠ 0)).length)

def codesOf (l : List (Val × Nat)) : List Nat := l.map (fun v => (fFP32.ofVal .rne v.1).1)

/-- Block classes of a final image (R126; DEDUCED log 60): non-zero, zero, saturated, non-finite. -/
def imageClasses (f : Nat) (l : List Byte) : Nat × Nat × Nat × Nat :=
  let gs := cutAt (fmtBlockLen f) 65 0 ((chunkCodes f l).zip (decodeWire f l))
  gs.foldl (fun a g =>
    let vs := g.2.map (fun x => x.2.1)
    if vs.any (fun v => !v.isFin) then (a.1, a.2.1, a.2.2.1, a.2.2.2 + 1)
    else if vs.all (fun v => v.q.num = 0) then (a.1, a.2.1 + 1, a.2.2.1, a.2.2.2)
    else
      let sat := f = fmtG16 && g.2.any (fun x => g16Code x.1.2 = some 100 && x.1.1 % 2 ^ 15 = 0x7BFF)
      (a.1 + 1, a.2.1, a.2.2.1 + (if sat then 1 else 0), a.2.2.2)) (0, 0, 0, 0)

/-- Write a chunk of D from its final image (R256): verbatim between G16, by R71 with RNE otherwise. Where D's blocks are not the chunk's, what is
written is open (DEDUCED log 61). -/
def State.writeFinal (s : State) (c : CollX) (ch : Nat) (l : List Byte) : State × CollX :=
  let t := s.collTd c 2
  let f := wireFmt c.wire t.fmt
  let p := c.part
  let at_ := fun (i : Nat) => unravel t.ext (c.dstAt ch + i)
  let s := s.updCmd c.q c.slot (fun k => { k with wrote := true })
  let s := if t.fmt = fmtG16 then
      if t.chunkBlocks then
        (chunkCodes f l).zipIdx.foldl (fun s x =>
          let s := s.putElem p t (at_ x.2) x.1.1
          if x.2 % 256 = 0 then (s.wrLE p (t.scaleAddr (at_ x.2)) 1 x.1.2).padScale p t (0 :: (at_ x.2).drop 1) ((at_ x.2).headD 0 + 256) else s) s
      else (chunkCodes f l).zipIdx.foldl (fun s x => (s.putElem p t (at_ x.2) (s.freeVal.toNat % 2 ^ 16)).freshen) s
    else
      let vs := decodeWire f l
      let es := vs.map (fun v => narrowElem t.fmt Q.one .rne v.1)
      (es.zipIdx.foldl (fun s e => s.putElem p t (at_ e.2) e.1.1) s).countColl (es.foldl (fun k e => k.add e.2) {}) (vs.map (·.2)).sum 0
  let s := match s.cmd? c.q c.slot with
    | none => s
    | some k => match s.entryOf p (dMeltOut k.desc) with
      | none => s
      | some x =>
        let b := imageClasses f l
        s.recordBlocks p x b.1 b.2.1 0 b.2.2.1 b.2.2.2
  (s, { c with finals := ch :: c.finals })

/-! ### Sending -/

/-- Send a chunk to a rank, or keep it until the rank is ready. -/
def State.collSend (s : State) (c : CollX) (rank ch : Nat) (l : List Byte) : State × CollX :=
  let f := fun (p : Packet) => { p with pos := BitVec.ofNat 64 ch, aux := BitVec.ofNat 32 l.length, len := c.len, fmt := c.kind, data := l,
                                        verdict := BitVec.ofNat 32 c.verdict }
  if c.ready.contains rank then (s.collTo c c.sent rank f pkCOLL_DATA, { c with sent := c.sent + 1 })
  else (s, { c with outq := c.outq ++ [(rank, f (s.mkPacket c.part pkCOLL_DATA 0 0 c.key))] })

/-- Send what waited for a rank that has become ready. -/
def State.collRelease (s : State) (c : CollX) (rank : Nat) : State × CollX :=
  let mine := c.outq.filter (fun o => o.1 = rank)
  let c := { c with ready := dedup (c.ready ++ [rank]), outq := c.outq.filter (fun o => o.1 ≠ rank) }
  mine.foldl (fun (r : State × CollX) o => r.1.collSend r.2 rank o.2.pos.toNat o.2.data) (s, c)

def State.sendAll (s : State) (c : CollX) (ch : Nat) (l : List Byte) (ranks : List Nat) : State × CollX :=
  ranks.foldl (fun (r : State × CollX) k => r.1.collSend r.2 k ch l) (s, c)

/-- A chunk's final image is formed here: written where D holds it, and sent on. -/
def State.finalHere (s : State) (c : CollX) (ch : Nat) (l : List Byte) : State × CollX :=
  let r := s.writeFinal c ch l
  if c.n ≤ 1 || c.kind = 1 then r else r.1.sendAll r.2 ch l (if c.tree then c.kids else [c.succ])

/-- What a member does for one chunk when its collective starts (R255). -/
def State.collBegin (s : State) (c : CollX) (ch : Nat) : State × CollX :=
  if c.n ≤ 1 || (c.kind = 2 && c.shard ch = c.me) then
    let e := s.ownChunk c ch
    e.1.finalHere e.2.1 ch e.2.2
  else if c.tree then
    if c.kids.isEmpty then
      let e := s.ownChunk c ch
      e.1.sendAll e.2.1 ch e.2.2 (treeParent c.me).toList
    else (s, c)
  else if c.kind ≠ 2 && c.shard ch = c.pred then
    let e := s.ownChunk c ch
    e.1.collSend e.2.1 c.succ ch e.2.2
  else (s, c)

/-! ### Receiving a chunk (R255) -/

/-- Running sum arrived by the ring: add the own contribution after it. -/
def State.ringSum (s : State) (c : CollX) (ch : Nat) (l : List Byte) : State × CollX :=
  let a := decodeWire (wireFmt c.wire (s.collTd c 0).fmt) l
  let b := s.ownVals c ch
  let r := addCodes (codesOf a) (codesOf b)
  let s := s.countColl { flushOut := r.2 } ((a.map (·.2)).sum + (b.map (·.2)).sum) (c.count ch)
  let e := s.chunkOf c (r.1.map (fun x => (fFP32.read x).1))
  if c.shard ch = c.me then e.1.finalHere e.2.1 ch e.2.2 else e.1.collSend e.2.1 c.succ ch e.2.2

/-- A chunk of the ring. -/
def State.ringIn (s : State) (c : CollX) (ch : Nat) (l : List Byte) : State × CollX :=
  let k := (sget c.counts ch).getD 0
  let c := { c with counts := sset c.counts ch (k + 1) }
  if c.kind ≠ 2 && c.shard ch ≠ c.pred && k = 0 then s.ringSum c ch l
  else if c.kind = 1 || c.finals.contains ch then (s, c)
  else
    let r := s.writeFinal c ch l
    if c.succ = c.shard ch then r else r.1.collSend r.2 c.succ ch l

/-- A chunk of the tree: a child's sum or the parent's final image. -/
def State.treeIn (s : State) (c : CollX) (ch mod : Nat) (l : List Byte) : State × CollX :=
  let isKid := fun (i : Nat) => match c.kids[i]? with
    | some r => memMod (c.members.getD r 0) = mod && (sget c.parts (2 * ch + i)).isNone
    | none => false
  match [0, 1].find? isKid with
  | some i =>
    let a := decodeWire (wireFmt c.wire (s.collTd c 0).fmt) l
    let s := s.countColl {} (a.map (·.2)).sum 0
    let c := { c with parts := sset c.parts (2 * ch + i) (codesOf a) }
    if (List.range c.kids.length).all (fun i => (sget c.parts (2 * ch + i)).isSome) then
      let own := s.ownVals c ch
      let r := (List.range c.kids.length).foldl (fun (r : List Nat × Nat) i =>
        let x := addCodes r.1 ((sget c.parts (2 * ch + i)).getD [])
        (x.1, r.2 + x.2)) (codesOf own, 0)
      let s := s.countColl { flushOut := r.2 } (own.map (·.2)).sum (c.kids.length * c.count ch)
      let e := s.chunkOf c (r.1.map (fun x => (fFP32.read x).1))
      if c.me = 0 then e.1.finalHere e.2.1 ch e.2.2 else e.1.sendAll e.2.1 ch e.2.2 (treeParent c.me).toList
    else (s, c)
  | none =>
    if c.finals.contains ch || c.me = 0 then (s, c)
    else
      let r := s.writeFinal c ch l
      r.1.sendAll r.2 ch l c.kids

/-- The data phase of this member is complete. -/
def CollX.dataDone (c : CollX) : Bool :=
  let need := if c.kind = 1 then c.ofShard c.me else List.range c.chunks
  need.all (fun ch => c.finals.contains ch) && c.outq.isEmpty &&
    (c.kind ≠ 1 || c.n ≤ 1 || (List.range c.chunks).all (fun ch => c.shard ch = c.pred || (sget c.counts ch).isSome))

/-! ### Acknowledgement and seal (R168 to R172, R257, R259) -/

/-- Nanoseconds of a collective's timeout that remain (R258). -/
def CollX.remaining (c : CollX) (now : Nat) : Nat :=
  1000 * c.timeout + (c.heldNs - (c.heldTo - now)) - (now - c.startT)

def State.dropColl (s : State) (c : CollX) : State :=
  ({ s with colls := s.colls.filter (fun (d : CollX) => !(d.q = c.q && d.slot = c.slot)) }).setFld (pgColl 8) c.part F.COLLECTIVE_COLL_STATE_STATE 0

/-- A CLOSING collective ends: its outcome settles the step. -/
def State.closeStep (s : State) (c : CollX) (outcome v : Nat) : State :=
  let s := (s.dropColl c).bump pgJobRunner c.part R.JOB_RUNNER_VERDICT_WAIT_NS (s.timeNow - c.startT)
  let s := s.finish c.q c.slot (if outcome = soAborted then 0x13 else 0) 0 c.len
  (s.applySeal c.part outcome v).runBars c.part

/-- The first copy of a seal: forwarded to every neighbour, then the step settles. -/
def State.sealed (s : State) (c : CollX) (v : Nat) : State :=
  let s := c.neighbours.foldl (fun s r => s.collTo c 0 r (fun p => { p with verdict := BitVec.ofNat 32 v }) pkCOLL_SEAL) s
  (s.bump (pgColl 8) 0 R.COLLECTIVE_COLL_DONE 1).closeStep c (sealOutcome v) v

/-- Acknowledge once this member's completion and its children's acknowledgements are here; the root seals with time to spare. -/
def State.tryAck (s : State) (c : CollX) : State :=
  if c.phase ≠ 3 || !(c.kids.all (fun r => c.acks.any (fun (a : AckX) => a.rank = r))) then s
  else
    let us := c.acks.foldl (fun m (a : AckX) => min m (a.left - (s.timeNow - a.time) / 1000)) (c.remaining s.timeNow / 1000)
    match treeParent c.me with
    | some r =>
      let s := s.collTo c 0 r (fun p => { p with verdict := BitVec.ofNat 32 c.verdict, aux := BitVec.ofNat 32 us }) pkCOLL_ACK
      s.putColl { c with phase := 4, acked := true }
    | none => if 1000 ≤ us then s.sealed c c.verdict else s.putColl { c with phase := 4, acked := true }

/-- Store a collective after an event, and go on where its data phase is complete. -/
def State.collGoOn (s : State) (c : CollX) : State :=
  let s := s.putColl c
  if c.phase = 3 || c.phase = 4 || !c.dataDone then s
  else if c.closing then
    let c := { c with phase := 3 }
    (s.putColl c).tryAck c
  else
    let d := (s.collTd c 2)
    let s := if c.len = 0 then s else s.meter c.part R.METER_HBM_BYTES (d.elemBytes + d.scaleBytes)
    ((s.dropColl c).bump (pgColl 8) 0 R.COLLECTIVE_COLL_DONE 1).finish c.q c.slot 0 0 c.len

/-! ### Packets -/

/-- The collective of a partition that a packet's KEY names. -/
def State.collOf (s : State) (pk : Packet) : Option CollX :=
  s.colls.find? (fun c => c.part = pk.destPart && c.key = pk.key.toNat)

def keyGroup (pk : Packet) : Nat := pk.key.toNat % 2 ^ 16
def keySeq (pk : Packet) : Nat := bitsOf pk.key.toNat 47 16

/-- A packet of a collective that this member has not started. -/
def State.isEarly (s : State) (pk : Packet) : Bool := decide ((sget (s.part pk.destPart).collSeq (keyGroup pk)).getD 0 ≤ keySeq pk)

def groupCrc (members : List Nat) : Nat := crc32c (members.flatMap (fun w => leBytes w 4))

/-- A packet that disagrees: COLL_CANCEL answers it, and this side ends (R253). -/
def State.collRefuse (s : State) (c : CollX) (pk : Packet) (code : Nat) : State := (s.answer pk pkCOLL_CANCEL).collFail c code

/-- The rank among `ranks` that a packet comes from: the header names the sender's module only. -/
def CollX.from (c : CollX) (ranks : List Nat) (mod : Nat) : Option Nat := ranks.find? (fun r => memMod (c.members.getD r 0) = mod)

/-- COLL_READY for a started collective. -/
def State.readyFor (s : State) (c : CollX) (pk : Packet) : State :=
  if pk.aux.toNat ≠ groupCrc c.members then s.collRefuse c pk 2
  else match c.from (c.dests.filter (fun r => !c.ready.contains r)) pk.srcMod with
    | none => s
    | some r =>
      let x := s.collRelease c r
      x.1.collGoOn x.2

/-- COLL_ACK for a started collective. -/
def State.ackFor (s : State) (c : CollX) (pk : Packet) : State :=
  match c.from (c.kids.filter (fun r => !(c.acks.any (fun (a : AckX) => a.rank = r)))) pk.srcMod with
  | none => s
  | some r =>
    let a : AckX := { rank := r, left := pk.aux.toNat, time := s.timeNow }
    let c := { c with acks := c.acks ++ [a], verdict := orVerdict c.verdict pk.verdict.toNat }
    (s.putColl c).tryAck c

/-- COLL_READY (R255). -/
def State.readyIn (s : State) (die : Nat) (pk : Packet) : State :=
  match s.collOf pk with
  | some c => s.readyFor c pk
  | none =>
    if !s.isEarly pk then s
    else if 256 ≤ (s.earlyReady.filter (fun r => r.part = pk.destPart && r.pk.kind = pkCOLL_READY)).length then s.answer pk pkSEND_BUSY
    else
      let r : ReqX := { part := pk.destPart, die := die, pk := pk }
      { s with earlyReady := s.earlyReady ++ [r] }

/-- COLL_DATA (R253, R255 to R257). -/
def State.collDataIn (s : State) (pk : Packet) : State :=
  match s.collOf pk with
  | none =>
    match s.colls.find? (fun c => c.part = pk.destPart && c.group = keyGroup pk) with
    | some c => s.collRefuse c pk 3
    | none => s
  | some c =>
    let ch := pk.pos.toNat
    if pk.fmt ≠ c.kind || pk.len ≠ c.len then s.collRefuse c pk 3
    else if c.chunks ≤ ch || (c.from c.sources pk.srcMod).isNone then s
    else
      let c := { c with verdict := orVerdict c.verdict pk.verdict.toNat }
      let r := if c.tree then s.treeIn c ch pk.srcMod pk.data else s.ringIn c ch pk.data
      let s := match s.cmd? c.q c.slot with
        | some k => r.1.progressed c.q k.task
        | none => r.1
      let s := s.updCmd c.q c.slot (fun k => { k with pos := min c.len (1024 * r.2.finals.length) })
      s.collGoOn r.2

/-- COLL_ACK (R257, R259). -/
def State.ackIn (s : State) (die : Nat) (pk : Packet) : State :=
  match s.collOf pk with
  | some c => if c.closing then s.ackFor c pk else s
  | none =>
    if !s.isEarly pk then s
    else
      let r : ReqX := { part := pk.destPart, die := die, pk := pk }
      { s with earlyReady := s.earlyReady ++ [r] }

/-- COLL_SEAL (R169): the first copy settles the step; any other finds no collective. -/
def State.sealIn (s : State) (pk : Packet) : State :=
  match s.collOf pk with
  | some c => if c.closing then s.sealed c pk.verdict.toNat else s
  | none => s

/-- COLL_CANCEL: this side ends the same way (R253, R258). The packet names no reason (DESIGN CHOICE log 58). -/
def State.collCancelIn (s : State) (pk : Packet) : State :=
  match s.collOf pk with
  | some c => s.freshen.collFail c ([2, 3, 4, 5, 6].getD (s.freeVal.toNat % 5) 5)
  | none => s

/-! ### Start and timeout -/

/-- Early packets of a collective that has just started. -/
def State.takeEarly (s : State) (q slot : Nat) : State :=
  match s.coll? q slot with
  | none => s
  | some c0 =>
    let mine := s.earlyReady.filter (fun r => r.part = c0.part && r.pk.key.toNat = c0.key)
    let s := { s with earlyReady := s.earlyReady.filter (fun r => !(r.part = c0.part && r.pk.key.toNat = c0.key)) }
    mine.foldl (fun s r => match s.coll? q slot with
      | none => s
      | some c => if r.pk.kind = pkCOLL_READY then s.readyFor c r.pk else if c.closing then s.ackFor c r.pk else s) s

/-- The collective that a command starts. Its group entry is read at the start (DEDUCED log 65). -/
def State.newColl (s : State) (q : Nat) (c : Cmd) : CollX :=
  let g := s.groupOf c.part (collGroup c.desc)
  let e := collLen c.desc
  let seq := (sget (s.part c.part).collSeq (collGroup c.desc)).getD 0
  let us := dField c.desc 0x60 32
  { part := c.part, q := q, slot := c.slot, group := collGroup c.desc, seq := seq, kind := collKind c.desc,
    tree := collKind c.desc = 3 && (collAlgo c.desc = 2 || (collAlgo c.desc = 0 && decide (shardLen e g.n ≤ 4096))), wire := collWire c.desc,
    closing := dFlag c.desc flCLOSING, members := g.members, me := g.rank, len := e,
    timeout := if us = 0 then s.reg (pgColl 8) c.part R.COLLECTIVE_COLL_TIMEOUT_US else us, ready := [], retryT := 0, retry := [], outq := [],
    counts := [], parts := [], finals := [], sent := 0,
    verdict := s.reg pgJobRunner c.part R.JOB_RUNNER_VERDICT_ACC % 16 + 2 ^ 16 * (s.reg pgJobRunner c.part R.JOB_RUNNER_STEP_INDEX % 2 ^ 16),
    acks := [], acked := false, startT := s.timeNow, heldNs := 0, heldTo := s.timeNow, phase := 1 }

/-- Notices received within the last millisecond hold the timer from its start (R258). -/
def State.holdStart (s : State) (c : CollX) : CollX := s.notices.foldl (fun c n => s.holdColl n c) c

/-- COLLECTIVE starts. A CLOSING one of an abandoned step completes without contributing (R205). -/
def State.collStart (s : State) (q : Nat) (k : Cmd) : State :=
  let c := s.newColl q k
  let p := k.part
  if c.closing && (s.part p).abandoned then s.finish q k.slot 0x13 0 0
  else
    let s := s.updPart p (fun x => { x with collSeq := sset x.collSeq c.group ((c.seq + 1) % 2 ^ 32) })
    if !(c.neighbours.all (fun r => s.reaches (memMod (c.members.getD r 0)))) then s.collFail c 1
    else
      let s := if c.closing then
          (s.updPart p (fun x => { x with closing := some (q, k.slot) })).setReg pgJobRunner p R.JOB_RUNNER_VERDICT_ACC 0
        else s
      let c := s.holdStart c
      let s := { s with colls := s.colls ++ [c] }
      let s := c.sources.foldl (fun s r => s.sendReady c r) s
      let d := s.collTd c 0
      let s := if c.len = 0 then s else s.meter p R.METER_HBM_BYTES (d.elemBytes + d.scaleBytes)
      let r := (List.range c.chunks).foldl (fun (r : State × CollX) ch => r.1.collBegin r.2 ch) (s, c)
      (r.1.collGoOn r.2).takeEarly q k.slot

/-- COLLECTIVE_TIMEOUT (R258, R170). -/
def State.collTimeout (s : State) (q slot : Nat) : State :=
  match s.coll? q slot with
  | none => s
  | some c =>
    if 0 < c.remaining s.timeNow then s
    else
      let s := s.bump (pgColl 8) 0 R.COLLECTIVE_COLL_TIMEOUTS 1
      if c.closing then s.closeStep c soAborted 0 else s.collFail c 4

def execCollective (q slot : Nat) (s : State) : Result :=
  .next (s.startCmd q slot (fun op => op = opCOLLECTIVE) (fun _ _ => true) (fun s c => s.collStart q c))
def execCollReady (die : Nat) (pk : Packet) (s : State) : Result := .next (s.deliver die pk (fun s => s.readyIn die pk))
def execCollData (die : Nat) (pk : Packet) (s : State) : Result := .next (s.deliver die pk (fun s => s.collDataIn pk))
def execCollAck (die : Nat) (pk : Packet) (s : State) : Result := .next (s.deliver die pk (fun s => s.ackIn die pk))
def execCollSeal (die : Nat) (pk : Packet) (s : State) : Result := .next (s.deliver die pk (fun s => s.sealIn pk))
def execCollCancel (die : Nat) (pk : Packet) (s : State) : Result := .next (s.deliver die pk (fun s => s.collCancelIn pk))
def execCollectiveTimeout (q slot : Nat) (s : State) : Result := .next (s.collTimeout q slot)

end Sys2Proof.Machine
end

