-- ==== Sys2Proof/Machine/Health.lean ====
section
/-! DEFINITION. The health of cores and memories (R321 to R330): assays, lasting-fault thresholds, fencing, row retirement, ECC errors
of HBM, SRAM and held state; and what happens to a partition at rest (R46, R271). -/

namespace Sys2Proof.Machine

/-! ### Lasting faults (R321) -/

/-- Keys of the sources that R321 judges: an HBM row or cluster SRAM line by KEY; a core's assays; a core's local SRAM. -/
def fkKey (page key : Nat) : Nat := page * 2 ^ 32 + key
def fkAssay (page : Nat) : Nat := page * 2 ^ 32 + 2 ^ 31
def fkCoreSram (page : Nat) : Nat := page * 2 ^ 32 + 2 ^ 31 + 1

/-- The most keys a table keeps on a page; the one whose latest event is oldest is dropped for a further one. -/
def State.dropTracked (s : State) (page k limit : Nat) : State :=
  let here := s.faultTimes.filter (fun e => e.1 / 2 ^ 32 = page)
  if here.any (fun e => e.1 = k) || decide (here.length < limit) then s
  else
    match sortOn (fun (e : Nat × List Nat) => e.2.foldl max 0) here with
    | e :: _ => { s with faultTimes := sdel s.faultTimes e.1 }
    | [] => s

/-- Count an event of a source within a sliding window of `w` seconds. When the threshold is reached the counted events are cleared and
the answer is true. -/
def State.countFault (s : State) (k w thr : Nat) : State × Bool :=
  let ts := s.timeNow :: ((sget s.faultTimes k).getD []).filter (fun t => s.timeNow ≤ t + w * 1000000000)
  if thr ≤ ts.length then ({ s with faultTimes := sdel s.faultTimes k }, true)
  else ({ s with faultTimes := sset s.faultTimes k ts }, false)

def State.errThr (s : State) (off : Nat) : Nat := s.reg pgPkgErr 0 off

/-- Fence a core at once (R329). -/
def State.fenceCore (s : State) (page : Nat) : State :=
  (s.updCore page (fun c => { c with fenced := true })).notice page caCORE_FENCED 0

/-! ### Assays (R327, R328) -/

/-- A command that runs on a core: queue and slot. -/
def State.onCore (s : State) (page : Nat) : Option (Nat × Nat) :=
  (s.queues.flatMap (fun e => (e.2.cmds.filter (fun c => !c.recorded && c.startT.isSome && c.members.contains page)).map
    (fun c => (e.1, c.slot)))).head?

/-- Partitions with a command on a core now. -/
def State.partsOn (s : State) (page : Nat) : List Nat :=
  dedup (s.queues.flatMap (fun e => (e.2.cmds.filter (fun c => !c.recorded && c.startT.isSome && c.members.contains page)).map (·.part)))

/-- An assay's array cycles count in CNT_BUSY: at most 400, the number free (R327). -/
def State.assayBusy (s : State) (page : Nat) : State := (s.bump page 0 R.HDR_CNT_BUSY (s.freeVal.toNat % 401)).freshen

/-- A failed assay: the record, CHECK_FAIL in every partition whose commands ran on the core since it last passed, another assay, and the
fence at the threshold (R328, R329). -/
def State.assayFailed (s : State) (page : Nat) : State :=
  let hit := s.onCore page
  let parts := (s.core page).usedBy
  let fenced := (s.core page).fenced
  let s := s.raiseErr (s.srcOf page 0) caASSAY_FAIL 0 hit 0x02
  let s := parts.foldl (fun s p => s.verdict p vCHECK_FAIL) s
  let s := s.updCore page (fun c => { c with assayDue := true })
  if fenced then s
  else
    let r := s.countFault (fkAssay page) (s.errThr R.ERR_ASSAY_WINDOW_S) (s.errThr R.ERR_ASSAY_FAILS)
    if r.2 then r.1.fenceCore page else r.1

/-- The spare core of a cluster is assayed under the page of its control core, having no logical number (DEDUCED log 70). -/
def State.assaySpare (s : State) (page : Nat) (ok : Bool) : State :=
  let g := globalCluster page
  if (s.cluster g).spare ≠ 1 || ok then s
  else
    let s := s.raiseErr (s.srcOf page 0) caASSAY_FAIL 0 none 0x02
    let r := s.countFault (fkAssay page) (s.errThr R.ERR_ASSAY_WINDOW_S) (s.errThr R.ERR_ASSAY_FAILS)
    if r.2 then (r.1.updCluster g (fun c => { c with spare := 3 })).notice page caCORE_FENCED 0 else r.1

/-- ASSAY: a core that is idle, or is due for a forced one, runs its known-answer check. Barriers that waited for it may release. -/
def State.assay (s : State) (page : Nat) (ok : Bool) : State :=
  if s.pageType page = .clusterCtrl then s.assaySpare page ok
  else if s.pageType page ≠ .core || s.islHalted page || (!(s.core page).assayDue && !s.assayFirst page && (s.onCore page).isSome) then s
  else
    let s := s.assayBusy page
    let p := s.pagePart page
    let s := s.updCore page (fun c => { c with assayT := s.timeNow, assayDue := false, assayFirst := false })
    let s := if ok then s.updCore page (fun c => { c with usedBy := s.partsOn page }) else s.assayFailed page
    s.runBars p

/-- ASSAY_DUE: a core whose last assay is 9 s old is assayed at its next layer barrier, and held from 10 s on (R327). -/
def State.markDue (s : State) (page : Nat) : State :=
  if s.pageType page = .core && decide (s.assayTime page + 9000000000 ≤ s.timeNow) then
    s.updCore page (fun c => { c with assayDue := true })
  else s

/-! ### HBM (R322, R326) -/

/-- Retire a row: repaired with a spare, or out of repair resources; which of the two holds is the stack's (DESIGN CHOICE log 71). -/
def State.retireRow (s : State) (page key a : Nat) : State :=
  let out := s.freeVal.toNat % 2 = 1
  let s := s.freshen
  let src := s.hbmSrc page key a
  if out then
    ({ s.logErr src caRETIRE_FAIL a with retireFailed := fkKey page key :: s.retireFailed }).bump page 0 R.HBM_CTRL_RETIRE_FAILS 1
  else
    ((s.logErr src caROW_RETIRED a).bump page 0 R.HBM_CTRL_ROWS_RETIRED 1).setReg page 0 R.HBM_CTRL_RETIRE_LAST a

/-- A corrected error of a row, and its retirement at the threshold. -/
def State.hbmCorrected (s : State) (page key a : Nat) (hit : Option (Nat × Nat)) : State :=
  let s := (s.raisePage page 3).bump page 0 R.HBM_CTRL_HBM_CE 1
  let s := s.raiseErr (s.hbmSrc page key a) caHBM_CE a hit 0x02
  if s.retireFailed.contains (fkKey page key) then s
  else
    let s := s.dropTracked page (fkKey page key) 64
    let r := s.countFault (fkKey page key) (s.errThr R.ERR_ERR_WINDOW_S) (s.errThr R.ERR_HBM_ROW_CE)
    if r.2 then r.1.retireRow page key a else r.1

/-- HBM_ECC_ERROR (R322): a corrected read counts; an uncorrected one leaves its 64-byte block uncorrectable until it is written whole. -/
def State.hbmError (s : State) (page key a : Nat) (uc : Bool) (hit : Option (Nat × Nat)) : State :=
  if s.pageType page ≠ .hbmCtrl then s
  else if uc then
    let s := (s.raisePage page 4).bump page 0 R.HBM_CTRL_HBM_UC 1
    let s := { s with hbmBad := sset s.hbmBad (a / 64) (fkKey page key) }
    s.raiseErr (s.hbmSrc page key a) caHBM_UC a hit 0x02
  else s.hbmCorrected page key a hit

/-! ### SRAM and held state (R323) -/

/-- Registers of an entry or context that an uncorrected word leaves unpredictable take free values. -/
def State.havocRegs (s : State) (page bank : Nat) : List Nat → State
  | [] => s
  | o :: r => ((s.setReg page bank o (s.freeVal.toNat % 2 ^ 32)).freshen).havocRegs page bank r

/-- The source of an uncorrected word of held state: a melt sheet entry's or a queue context's holder, else the page (R313). -/
def State.heldSrc (s : State) (page word off : Nat) : ErrSrc :=
  match assignedType page with
  | .meltShard => s.entSrc (16384 * pageDie page + off / 128 % 16384) word
  | .queueCtx => { s.srcOf page word with part := s.queueOwner (firstQueue page + off / 48 % 64) }
  | _ => s.srcOf page word

/-- What an uncorrected word of held state spoils: the entry, the context, the route entry or the admission state that it belongs to
(R323). -/
def State.heldSpoiled (s : State) (page off : Nat) : State :=
  match assignedType page with
  | .meltShard => s.havocRegs pgEntry (16384 * pageDie page + off / 128 % 16384) ((List.range 32).map (4 * ·))
  | .queueCtx => s.havocRegs page 0 ((List.range 12).map (fun i => queueOff (firstQueue page + off / 48 % 64) + 4 * i))
  | .router => s.havocRegs page off [R.ROUTER_ROUTE_DATA]
  | .admission =>
    { s with
      adm := { s.adm with cursors := (List.range 4).map (fun i => (Config.free (s.fresh + i)).toNat % 256) }
      fresh := s.fresh + 4 }
  | _ => s

/-- An uncorrected or corrected error in cluster SRAM, `off` its byte offset. -/
def State.clusterSram (s : State) (page word off : Nat) (uc : Bool) (hit : Option (Nat × Nat)) : State :=
  let s := s.setReg page 0 R.CLUSTER_SRAM_SRAM_LAST off
  if uc then
    (((s.raisePage page 4).bump page 0 R.CLUSTER_SRAM_SRAM_UC 1)).raiseErr (s.srcOf page word) caSRAM_UC off hit 0x02
  else
    let s := (s.raisePage page 3).bump page 0 R.CLUSTER_SRAM_SRAM_CE 1
    let s := s.raiseErr (s.srcOf page word) caSRAM_CE off hit 0x02
    let r := s.countFault (fkKey page (off / 64)) (s.errThr R.ERR_ERR_WINDOW_S) (s.errThr R.ERR_SRAM_LINE_CE)
    if r.2 then ((r.1.logErr (r.1.srcOf page word) caSRAM_LASTING off).bump page 0 R.CLUSTER_SRAM_LINES_LASTING 1) else r.1

/-- An uncorrected or corrected error in a core's local SRAM. -/
def State.coreSram (s : State) (page word off : Nat) (uc : Bool) (hit : Option (Nat × Nat)) : State :=
  if uc then (s.raisePage page 4).raiseErr (s.srcOf page word) caSRAM_UC off hit 0x02
  else
    let s := (s.raisePage page 3).bump (clusterPage (globalCluster page) uSram) 0 R.CLUSTER_SRAM_CORE_SRAM_CE 1
    let s := s.raiseErr (s.srcOf page word) caSRAM_CE off hit 0x02
    if (s.core page).fenced then s
    else
      let r := s.countFault (fkCoreSram page) (s.errThr R.ERR_ERR_WINDOW_S) (s.errThr R.ERR_SRAM_CORE_CE)
      if r.2 then r.1.fenceCore page else r.1

/-- SRAM_ECC_ERROR (R323). Corrected words of die-manager and package SRAM leave no record: R323 states none. -/
def State.sramError (s : State) (page word off : Nat) (uc held : Bool) (hit : Option (Nat × Nat)) : State :=
  match s.pageType page with
  | .absent | .entry => s
  | .core => s.coreSram page word off uc hit
  | .clusterSram => s.clusterSram page word off uc hit
  | _ =>
    if uc && held then
      ((s.heldSpoiled page off).raisePage page 4).raiseErr (s.heldSrc page word off) caSTATE_UC off hit 0x02
    else s

/-! ### A partition at rest (R46, R271) -/

/-- IDLE_STAGE_APPLY: an idle partition's pages pass a pass boundary, a layer barrier and a step boundary, which apply staged values and
nothing else; fenced cores are replaced and pages change hands (R46, R48, R329). -/
def State.idleApply (s : State) (p : Nat) : State :=
  if !s.ready || (s.part p).state = 0 || !s.partIdle p || s.pkgStopped then s
  else
    let s := ((s.applyPart .pass p).applyPart .layer p).applyPart .step p
    let s := (s.clustersOf p).foldl (fun s g => s.replaceFenced g) s
    s.tryContract p

def execAssay (page : Nat) (ok : Bool) (s : State) : Result := .next (s.assay page ok)
def execAssayDue (page : Nat) (s : State) : Result := .next (s.markDue page)
def execHbmEccError (page : Nat) (key : W32) (addr : Nat) (uc : Bool) (reader : Option (Nat × Nat)) (s : State) : Result :=
  .next (s.hbmError page key.toNat addr uc reader)
def execSramEccError (page word off : Nat) (uc held : Bool) (reader : Option (Nat × Nat)) (s : State) : Result :=
  .next (s.sramError page word off uc held reader)
def execIdleStageApply (part : Nat) (s : State) : Result := .next (s.idleApply part)
def execZeroingDone (part : Nat) (s : State) : Result := .next (s.endZeroing part)

end Sys2Proof.Machine
end

