-- ==== Sys2Proof/Machine/JobRunner.lean ====
section
/-! DEFINITION. The job runner (R178 to R180, R183, R210, R333, R341 to R344): starting a plan, submitting segments with bubble filling,
the weight guard, snapshot and checkpoint points, and the step boundary. -/

namespace Sys2Proof.Machine

def State.jr (s : State) (p : Nat) : JrX := (s.part p).jr
def State.updJr (s : State) (p : Nat) (f : JrX → JrX) : State := s.updPart p (fun x => { x with jr := f x.jr })
def State.jrState (s : State) (p : Nat) : Nat := s.fld pgJobRunner p F.JOB_RUNNER_JR_STATUS_STATE
def State.setJrState (s : State) (p v : Nat) : State := s.setFld pgJobRunner p F.JOB_RUNNER_JR_STATUS_STATE v

/-- A little-endian field of bytes. -/
def fieldOf (l : List Byte) (off n : Nat) : Nat := leNat ((l.drop off).take n)

def JrX.queues (j : JrX) : Nat := fieldOf j.plan 0x3A 2
def JrX.stepCount (j : JrX) : Nat := fieldOf j.plan 0x10 4

/-- The global queues that the runner submits to; none where the plan names a queue outside the partition's holding. -/
def State.jrQueues (s : State) (p : Nat) (plan : List Byte) : Option (List Nat) :=
  ((List.range (fieldOf plan 0x3A 2)).map (fun i => s.globalQueue p (fieldOf plan 0x3C 4 + i))).foldr
    (fun q r => match q, r with | some q, some r => some (q :: r) | _, _ => none) (some [])

/-- The header keeps the rules of R179. -/
def State.planOk (s : State) (p base : Nat) (h : List Byte) : Bool :=
  decide (base % 64 = 0) && !isHost base && s.inReservation p base (base + 127) &&
  fieldOf h 0x00 4 = 1 && decide (fieldOf h 0x04 4 < 4) && decide (1 ≤ fieldOf h 0x14 2) && decide (1 ≤ fieldOf h 0x17 1) &&
  decide (fieldOf h 0x17 1 ≤ 8) && decide (1 ≤ fieldOf h 0x1C 4) && decide (fieldOf h 0x38 1 ≤ 8) && fieldOf h 0x39 1 = 0 &&
  (h.drop 0x40).all (fun b => b = 0) && decide (1 ≤ fieldOf h 0x3A 2) && (s.jrQueues p h).isSome

/-- The runner stops (R180, R183). -/
def State.jrStop (s : State) (p cause : Nat) : State :=
  let s := (s.setJrState p 4).setFld pgJobRunner p F.JOB_RUNNER_JR_STATUS_CAUSE cause
  s.updJr p (fun j => { j with phase := 0, todo := [], stopReq := false, waitT := none })

/-- Stage a value as software does (R41). -/
def State.stageReg (s : State) (page bank off v : Nat) : State :=
  { s with shadows := sset s.shadows (rkey page bank off) (BitVec.ofNat 64 v) }

/-- JR_CTRL.START (R179, R183): the header is checked, JOB_SEED is copied, and SNAP_INTERVAL, CKPT_INTERVAL and the flags are staged. A START
while a plan runs is ignored; a partition that does not exist has no runner. -/
def State.jrStart (s : State) (p : Nat) : State :=
  if (s.part p).state = 0 || (s.part p).pfFrozen || (s.jrState p ≠ 0 && s.jrState p ≠ 4) then s
  else
    let s := s.wake
    let base := s.reg pgJobRunner p R.JOB_RUNNER_PLAN_BASE
    let h := s.rdBytes p base 128
    if s.planOk p base h then
      let s := s.updJr p (fun j => { JrX.init with
        plan := h, base := base, seed := fieldOf h 0x08 8, startStep := s.reg pgJobRunner p R.JOB_RUNNER_STEP_INDEX,
        ckptT := s.timeNow, ckptNow := j.ckptNow })
      let s := (s.setReg pgJobRunner p R.JOB_RUNNER_JR_STATUS 1).meter p R.METER_HBM_BYTES 128
      ((s.stageReg pgJobRunner p R.JOB_RUNNER_SNAP_INTERVAL (fieldOf h 0x14 2)).stageReg pgJobRunner p R.JOB_RUNNER_CKPT_INTERVAL
        (fieldOf h 0x18 4)).stageReg pgJobRunner p R.JOB_RUNNER_JR_FLAGS (fieldOf h 0x04 4)
    else (s.jrStop p 4).raisePage pgJobRunner 8

/-- JR_CTRL.STOP (R180, R183): takes effect at the next step boundary. -/
def State.jrStopReq (s : State) (p : Nat) : State :=
  if s.jrState p = 0 || s.jrState p = 4 then s else s.updJr p (fun j => { j with stopReq := true })

/-! ### Submitting -/

/-- Submission entries from position a up to position b of a ring. -/
def ringDist (n a b : Nat) : Nat := (b + n - a) % n

/-- Whether a submitted slot still waits to be read or to complete. -/
def State.slotOpen (s : State) (q slot : Nat) : Bool :=
  let x := s.queue q
  let n := s.qSize q
  (s.cmd? q slot).isSome || decide (ringDist n x.rd slot < ringDist n x.rd x.tail)

/-- A submitted segment has completed; the last one is open while descriptors of it wait. -/
def State.useDone (s : State) (p : Nat) (u : JrUse) : Bool :=
  u.slots.all (fun k => !s.slotOpen u.q k) && !((s.jr p).todo ≠ [] && (s.jr p).uses.getLast? = some u)

/-- Write waiting descriptors to their submission rings in order, while the ring of the next one is enabled and has room, and ring the
doorbell of each (R180, R185). -/
def State.jrPut (s : State) (p : Nat) : List (Nat × BitVec 1024) → State
  | [] => s.updJr p (fun j => { j with todo := [] })
  | (q, d) :: r =>
    let x := s.queue q
    let n := s.qSize q
    if !s.qEnabled q || decide (n ≤ ringDist n x.sqHead x.tail + 1) then s.updJr p (fun j => { j with todo := (q, d) :: r })
    else
      let s := s.putRecord p (s.qreg q R.QCTX_SQ_BASE + 128 * x.tail) (leBytes d.toNat 128)
      let s := s.updQueue q (fun y => { y with tail := (x.tail + 1) % n, state := if y.state = 0 then 1 else y.state })
      let s := s.updJr p (fun j => { j with
        uses := j.uses.dropLast ++ (match j.uses.getLast? with | some u => [{ u with slots := u.slots ++ [x.tail] }] | none => []) })
      (if s.adm.fifo.contains q then s else s.enqueue q).jrPut p r

/-- Submit what waits. -/
def State.jrSubmit (s : State) (p : Nat) : State := s.jrPut p (s.jr p).todo

/-! ### Segments (R179) -/

def State.segAddr (s : State) (p seg : Nat) : Nat := s.rdLE p (fieldOf (s.jr p).plan 0x28 8 + 8 * seg) 8

/-- The segment's header keeps the rules of R179. -/
def State.segOk (s : State) (p a : Nat) (h : List Byte) : Bool :=
  decide (a % 64 = 0) && !isHost a && s.inReservation p a (a + 64 + 128 * fieldOf h 0x00 4 - 1) && decide (1 ≤ fieldOf h 0x00 4) &&
  (fieldOf h 0x06 1 = 0xFF || decide (fieldOf h 0x06 1 < fieldOf (s.jr p).plan 0x38 1)) && fieldOf h 0x07 1 = 0 &&
  (h.drop 0x10).all (fun b => b = 0)

/-- A descriptor of a segment as submitted: the micro-batch index, then the stride on masked words, then the ring entry's host
address. -/
def patchDesc (h : List Byte) (mb : Nat) (entry : Option Nat) (l : List Byte) : BitVec 1024 :=
  let l := l.take 0x3E ++ [BitVec.ofNat 8 mb] ++ l.drop 0x3F
  let words := (List.range 16).map (fun w =>
    let v := fieldOf l (8 * w) 8
    let v := if (fieldOf h 0x04 2).testBit w then (v + mb * fieldOf h 0x08 8) % 2 ^ 64 else v
    match entry with
    | some a => if w = 1 then 2 ^ 63 + a % 2 ^ 63 else v
    | none => v)
  BitVec.ofNat 1024 (leNat (words.flatMap (fun v => leBytes v 8)))

/-- Read a producer index: with CXL.cache the line is kept, and a held line is a hit (R300, R308, R312). The index is 4 bytes (DEDUCED log 68). -/
def State.readProducer (s : State) (p a : Nat) : Nat × State :=
  let line := hostKey p a / 64
  let s :=
    if !s.cxl.cxlMode then (s.bump pgCxl 0 R.CXL_CXL_RX_BYTES 4).meter p R.METER_HOST_BYTES 4
    else if s.cxl.cache.contains line then s.bump pgCxl 0 R.CXL_CACHE_HITS 1
    else
      let s := (s.bump pgCxl 0 R.CXL_CXL_RX_BYTES 64).meter p R.METER_HOST_BYTES 64
      { s with cxl := { s.cxl with cache := if s.cxl.cache.length < 32768 then line :: s.cxl.cache else line :: s.cxl.cache.dropLast } }
  (s.rdLE p (2 ^ 63 + a % 2 ^ 63) 4, s)

/-- Ring table entry r: BASE, ENTRY_BYTES, ENTRIES, PROD_ADDR, CONS_ADDR. -/
def State.ringEntry (s : State) (p r : Nat) : List Byte := s.rdBytes p (fieldOf (s.jr p).plan 0x30 8 + 64 * r) 64

def State.issuedOf (s : State) (p r : Nat) : Nat := (sget (s.jr p).rings r).getD 0

/-- The host address of the next entry of a data ring; none while the producer index has not passed it. -/
def State.nextEntry (s : State) (p r : Nat) : Option Nat × State :=
  let e := s.ringEntry p r
  let k := s.issuedOf p r
  let pr := s.readProducer p (fieldOf e 0x10 8)
  (if pr.1 = k % 2 ^ 32 then none else some (fieldOf e 0 8 + fieldOf e 0x08 4 * (k % fieldOf e 0x0C 4)), pr.2)

/-- The wait for a ring entry ends: its time counts in DATA_WAIT_NS. -/
def State.endWait (s : State) (p : Nat) : State :=
  match (s.jr p).waitT with
  | some t => ((s.bump pgJobRunner p R.JOB_RUNNER_DATA_WAIT_NS (s.timeNow - t)).updJr p (fun j => { j with waitT := none })).setJrState p 1
  | none => s

/-- The wait for a ring entry begins or goes on. -/
def State.dataWait (s : State) (p : Nat) : State :=
  let s := if (s.jr p).waitT.isNone then s.updJr p (fun j => { j with waitT := some s.timeNow }) else s
  (s.setJrState p 2).progress pgJobRunner p 2 0 (s.reg pgJobRunner p R.JOB_RUNNER_STEP_INDEX)

/-- ALIVE of a descriptor that the runner makes itself, where its queue demands one (R198, R212). -/
def State.aliveBits (s : State) (q : Nat) : Nat :=
  if (s.qcfg q).testBit 23 then 2 ^ (16 + flALIVE_EN) + 2 ^ (8 * 0x46) * (s.qreg q R.QCTX_ALIVE_NEXT % 65536) else 0

/-- A descriptor that the runner makes itself: opcode, flags, TASK_ID, ADDR_0 and the words at 0x54, 0x58 and 0x60; no melt sheet entry. -/
def State.ownDesc (s : State) (q op flags task addr w54 w58 w60 : Nat) : BitVec 1024 :=
  BitVec.ofNat 1024 (op + 2 ^ 16 * flags + 2 ^ 32 * task + 2 ^ 64 * addr + 2 ^ (8 * 0x38) * (2 ^ 48 - 1) +
    2 ^ (8 * 0x54) * w54 + 2 ^ (8 * 0x58) * w58 + 2 ^ (8 * 0x60) * w60 + s.aliveBits q)

/-- Weight guard entries: base, length, CRC (R333). -/
def State.guardTable (s : State) (p : Nat) : List (Nat × Nat × Nat) :=
  let a := s.snapReg p R.SNAPSHOT_WGUARD_BASE
  (List.range (s.snapFld p F.SNAPSHOT_WGUARD_COUNT_WGUARD_COUNT)).map (fun i =>
    (s.rdLE p (a + 32 * i) 8, s.rdLE p (a + 32 * i + 8) 8, s.rdLE p (a + 32 * i + 16) 8))

/-- The guard's scans go immediately before the CLOSING collective (R333). -/
def State.withGuard (s : State) (p q : Nat) (l : List (BitVec 1024)) : List (BitVec 1024) :=
  if !(s.jr p).guard then l
  else l.flatMap (fun d =>
    if dOpcode d = opCOLLECTIVE && dFlag d flCLOSING then
      (s.guardTable p).map (fun g => s.ownDesc q opCHECK_SCAN (2 ^ flVERDICT) (dTaskId d) g.1 0 g.2.1 g.2.2) ++ [d]
    else [d])

/-- After the UPDATEs of a clean step the check engines compute every guard entry's CRC into the entry (R333). -/
def State.computeGuard (s : State) (p : Nat) : State :=
  let a := s.snapReg p R.SNAPSHOT_WGUARD_BASE
  let m := diePage ((s.clustersOf p).headD 0 / 40) 20
  let l := s.guardTable p
  let s := l.zipIdx.foldl (fun s g =>
    let crc := crc64 (s.rdBytes p g.1.1 g.1.2.1)
    let s := (s.wrLE p (a + 32 * g.2 + 16) 8 crc).meter p R.METER_HBM_BYTES (g.1.2.1 + 40)
    ((s.setReg m 0 R.CHECK_CHECK_LAST_CRC crc).bump m 0 R.CHECK_CHECK_BYTES g.1.2.1).bump m 0 R.CHECK_CHECK_SCANS 1) s
  s.updJr p (fun j => { j with guard := !l.isEmpty })

/-- The queue that takes the next segment: the spec leaves the choice open (DESIGN CHOICE log 67). -/
def State.pickQueue (s : State) (p : Nat) : Nat :=
  let qs := (s.jrQueues p (s.jr p).plan).getD []
  qs.getD (s.freeVal.toNat % qs.length) 0

/-- Run a segment: none while its ring has no entry. `item` is its place in the slot list. -/
def State.runSegment (s : State) (p seg mb : Nat) (item : Option Nat) : Bool × State :=
  let a := s.segAddr p seg
  let h := s.rdBytes p a 64
  if !s.segOk p a h then (false, s.jrStop p 4)
  else
    let ring := if fieldOf h 0x06 1 = 0xFF then none else some (fieldOf h 0x06 1)
    let got : Option (Option Nat) × State := match ring with
      | none => (some none, s)
      | some r => let e := s.nextEntry p r; (e.1.map some, e.2)
    match got with
    | (none, s) => (false, s.dataWait p)
    | (some entry, s) =>
      let s := s.endWait p
      let q := s.pickQueue p
      let s := s.freshen
      let n := fieldOf h 0x00 4
      let ds := (List.range n).map (fun i => patchDesc h mb entry (s.rdBytes p (a + 64 + 128 * i) 128))
      let ds := if (s.jr p).phase = 3 then s.withGuard p q ds else ds
      let s := s.meter p R.METER_HBM_BYTES (64 + 128 * n)
      let u : JrUse := { item := item, ring := ring, q := q, slots := [] }
      let s := s.updJr p (fun j => { j with
        todo := ds.map (fun d => (q, d))
        uses := j.uses ++ [u]
        rings := match ring with | some r => sset j.rings r ((sget j.rings r).getD 0 + 1) | none => j.rings })
      (true, s.jrSubmit p)

/-! ### Schedule (R178) -/

/-- The step table entry of the running step. -/
def State.stepEntry (s : State) (p : Nat) : List Byte :=
  let j := s.jr p
  let k := min (s.reg pgJobRunner p R.JOB_RUNNER_STEP_INDEX - j.startStep) (fieldOf j.plan 0x1C 4 - 1)
  s.rdBytes p (fieldOf j.plan 0x20 8 + 16 * k) 16

def State.slotWord (s : State) (p i : Nat) : Nat := s.rdLE p ((s.jr p).base + fieldOf (s.stepEntry p) 8 4 + 4 * i) 4
def slotMb (w : Nat) : Nat := bitsOf w 7 0
def slotSeg (w : Nat) : Nat := bitsOf w 31 16

/-- Every EVENT_WAIT at the head of a segment is satisfied. -/
def State.segReady (s : State) (p mb seg : Nat) : Bool :=
  let a := s.segAddr p seg
  let h := s.rdBytes p a 64
  let ds := (List.range (fieldOf h 0x00 4)).map (fun i => patchDesc h mb none (s.rdBytes p (a + 64 + 128 * i) 128))
  (ds.takeWhile (fun d => dOpcode d = opEVENT_WAIT)).all (fun d => decide (dField d 0x58 64 ≤ s.rdLE p (dAddr d 0) 8))

/-- The next slot to start: the first that has not, or the earliest later ready FILLER whose predecessor in its stage and direction has
started. -/
def State.chooseSlot (s : State) (p : Nat) : Option Nat :=
  let n := fieldOf (s.stepEntry p) 0x0C 2
  let words := (List.range n).map (s.slotWord p)
  let started := (s.jr p).started
  let left := (List.range n).filter (fun i => !started.contains i)
  match left with
  | [] => none
  | i :: later =>
    let ready := fun (k : Nat) => s.segReady p (slotMb (words.getD k 0)) (slotSeg (words.getD k 0))
    if ready i then some i
    else later.find? (fun k =>
      let w := words.getD k 0
      let same := (List.range n).filter (fun m =>
        bitsOf (words.getD m 0) 11 8 = bitsOf w 11 8 && decide (slotMb (words.getD m 0) < slotMb w))
      let top := same.foldl (fun t m => max t (slotMb (words.getD m 0))) 0
      w.testBit 12 && ready k && same.all (fun m => slotMb (words.getD m 0) ≠ top || started.contains m))

/-! ### The step's end -/

/-- Every queue of the runner is read out and holds no unrecorded command. -/
def State.jrDrained (s : State) (p : Nat) : Bool :=
  (s.jr p).todo.isEmpty && ((s.jrQueues p (s.jr p).plan).getD []).all (fun q =>
    (s.queue q).rd = (s.queue q).tail && (s.queue q).cmds.all (fun c => c.recorded))

/-- Submit a descriptor of the runner's own. -/
def State.jrOwn (s : State) (p q : Nat) (d : BitVec 1024) : State :=
  let u : JrUse := { item := none, ring := none, q := q, slots := [] }
  (s.updJr p (fun j => { j with todo := j.todo ++ [(q, d)], uses := j.uses ++ [u] })).jrSubmit p

/-- A snapshot point (R341, R342): LOCAL_STAGE, or DIRECT while the stage is busy and SNAP_BW is set, or skipped. A partition
without a valid pair captures with NONE (DEDUCED log 69). -/
def State.snapPoint (s : State) (p : Nat) : State :=
  let q := ((s.jrQueues p (s.jr p).plan).getD []).headD 0
  let valid := s.snapFld p F.SNAPSHOT_PAIR_STATE_VALID = 1
  let partner := if valid then s.pairMod p + 2 ^ 16 * s.pairPart p else 2 ^ 63
  let t := s.freeVal.toNat % 2 ^ 32
  let s := (s.freshen).updJr p (fun j => { j with phase := 5, endTask := t })
  if !s.stageBusy p then s.jrOwn p q (s.ownDesc q opSNAPSHOT 0 t 0 1 partner 0)
  else if valid && s.snapReg p R.SNAPSHOT_SNAP_BW ≠ 0 then s.jrOwn p q (s.ownDesc q opSNAPSHOT 0 t 0 2 partner 0)
  else s.bump pgSnapshot 0 R.SNAPSHOT_SNAP_SKIPPED 1

/-- Whether a checkpoint is due (R344). -/
def State.ckptDue (s : State) (p : Nat) : Bool :=
  let k := s.reg pgJobRunner p R.JOB_RUNNER_CKPT_INTERVAL
  (s.jr p).ckptNow || (k ≠ 0 && decide (k * 1000000000 ≤ s.timeNow - (s.jr p).ckptT))

/-- A due checkpoint at a step's end (R344): this step's LOCAL_STAGE capture is used where there is one; a busy stage defers it. -/
def State.ckptPoint (s : State) (p : Nat) : State :=
  if !s.ckptDue p then s
  else
    let x := (s.part p).snap
    let mine := x.stageOk && x.stageStep = s.resumeStep p && !x.pushing && !x.held
    if s.stageBusy p && !mine then s.bump pgSnapshot 0 R.SNAPSHOT_CKPT_DEFERRED 1
    else
      let img := s.image p true
      let small := !mine && decide (s.snapReg p R.SNAPSHOT_SNAP_STAGE_BYTES < img.length)
      let s := s.updJr p (fun j => { j with ckptT := s.timeNow, ckptNow := false })
      if small then s.snapErr p 5
      else if s.snapReg p R.SNAPSHOT_CKPT_CFG % 2 = 1 && !s.cxl.cxlMode then s.ckptErr p 1
      else (if mine then s else s.fillStage p true img).ckptOut p

/-- A barrier ID that no barrier of the partition uses (DESIGN CHOICE log 67). -/
def State.freeBar (s : State) (p : Nat) : Nat :=
  let k := s.freeVal.toNat % 65535
  ((List.range (s.bars.length + 1)).map (fun i => 1 + (k + i) % 65535)).find? (fun b => (s.bar? p b).isNone) |>.getD (1 + k)

/-- STEP_BOUNDARY on every queue of the runner, BAR_COUNT being their number (R205; DESIGN CHOICE log 67). -/
def State.boundaryPoint (s : State) (p : Nat) : State :=
  let qs := (s.jrQueues p (s.jr p).plan).getD []
  let b := s.freeBar p
  let s := s.freshen
  let s := s.updJr p (fun j => { j with phase := 6, todo := [] })
  qs.foldl (fun s q =>
    let t := match (s.queue q).tasks.getLast? with
      | some t => if t.closed then (s.jr p).endTask else t.id
      | none => (s.jr p).endTask
    s.jrOwn p q (s.ownDesc q opSTEP_BOUNDARY 0 t 0 (b + 65536 * (qs.length % 65536)) 0 0)) s

/-! ### One activation of the runner -/

/-- Completion entries of the runner's queues are consumed by the runner itself (DEDUCED log 66). -/
def State.jrConsume (s : State) (qs : List Nat) : State :=
  qs.foldl (fun s q => if (s.queue q).cqHead = (s.queue q).cqTail then s
    else (s.updQueue q (fun x => { x with cqHead := x.cqTail })).enqueue q) s

/-- Paused queues: a task is restarted at most twice; then, or where IN_PLACE is set, it is skipped and the step has failed (R210). -/
def State.jrPaused (s : State) (p : Nat) (qs : List Nat) : State :=
  qs.foldl (fun s q =>
    let x := s.queue q
    if x.state ≠ 3 || x.frozen then s
    else match x.aborted? with
      | none => s
      | some t =>
        if x.restarts < 2 && !t.inPlace then s.restartTask q
        else (s.skipTask q).updJr p (fun j => { j with failed := true })) s

/-- Advance consumer indices past ring entries whose commands have all completed, in order (R179). -/
def State.jrRelease (s : State) (p : Nat) : State :=
  let uses := (s.jr p).uses
  let open_ := uses.filter (fun u => !s.useDone p u)
  let s := (List.range 8).foldl (fun s r =>
    let mine := uses.filter (fun u => u.ring = some r)
    let done := (mine.takeWhile (fun u => s.useDone p u)).length
    if done = 0 then s
    else s.wrLE p (2 ^ 63 + fieldOf (s.ringEntry p r) 0x18 8 % 2 ^ 63) 4 ((s.issuedOf p r - (mine.length - done)) % 2 ^ 32)) s
  let blocked := fun (u : JrUse) => open_.contains u || (u.ring.isSome &&
    (uses.takeWhile (fun v => v ≠ u)).any (fun v => v.ring = u.ring && open_.contains v))
  let s := s.updJr p (fun j => { j with uses := j.uses.filter blocked })
  let n := fieldOf (s.stepEntry p) 0x0C 2
  let run := ((s.jr p).started.filter (fun i => !(s.jr p).uses.any (fun u => u.item = some i))).length
  if (s.jr p).phase = 2 then s.progress pgJobRunner p 1 (if n = 0 then 0 else 9999 * run / n) run else s

/-- One move of the runner; false where it must wait. -/
def State.jrMove (s : State) (p : Nat) : Bool × State :=
  let j := s.jr p
  let e := s.stepEntry p
  if !j.todo.isEmpty && (!j.failed || j.phase = 6) then (let s' := s.jrSubmit p; ((s'.jr p).todo.isEmpty, s'))
  else if j.failed && decide (1 ≤ j.phase) && decide (j.phase ≤ 5) then (true, s.boundaryPoint p)
  else match j.phase with
    | 0 =>
      if j.stopReq then (false, s.jrStop p 1)
      else if j.stepCount ≠ 0 && decide (j.stepCount ≤ j.stepsRun) then (false, s.jrStop p 2)
      else
        let t := s.freeVal.toNat % 2 ^ 32
        (true, ((s.freshen).updJr p (fun j => { j with
          phase := 1, started := [], failed := false, endTask := t, lrMult := fieldOf e 4 4 })).progress pgJobRunner p 1 0 0)
    | 1 => let r := s.runSegment p (fieldOf e 0 2) 0 none; (r.1, if r.1 then r.2.updJr p (fun j => { j with phase := 2 }) else r.2)
    | 2 =>
      if fieldOf e 0x0C 2 ≤ j.started.length then (true, s.updJr p (fun j => { j with phase := 3 }))
      else match s.chooseSlot p with
        | none => (false, s)
        | some i =>
          let w := s.slotWord p i
          let r := s.runSegment p (slotSeg w) (slotMb w) (some i)
          (r.1, if r.1 then r.2.updJr p (fun j => { j with started := j.started ++ [i] }) else r.2)
    | 3 => let r := s.runSegment p (fieldOf e 2 2) 0 none; (r.1, if r.1 then r.2.updJr p (fun j => { j with phase := 4 }) else r.2)
    | 4 =>
      if !s.jrDrained p then
        (false, if s.sealOpen p then (s.setJrState p 3).progress pgJobRunner p 3 0 (s.reg pgJobRunner p R.JOB_RUNNER_STEP_INDEX) else s)
      else
        let s := s.setJrState p 1
        let x := s.part p
        let s := if x.sealOut = soClean then s.computeGuard p else s
        if (x.sealOut = soClean || x.sealOut = soSkip) && !x.abandoned &&
            s.reg pgJobRunner p R.JOB_RUNNER_STEP_INDEX % s.fld pgJobRunner p F.JOB_RUNNER_SNAP_INTERVAL_SNAP_INTERVAL = 0 then
          (true, s.snapPoint p)
        else (true, s.updJr p (fun j => { j with phase := 5 }))
    | 5 => if s.jrDrained p then (true, (s.ckptPoint p).boundaryPoint p) else (false, s)
    | _ => (false, s)

/-- Moves until the runner must wait; `fuel` bounds them. -/
def State.jrMoves (s : State) (p : Nat) : Nat → State
  | 0 => s
  | k + 1 => if s.jrState p = 0 || s.jrState p = 4 then s
    else match s.jrMove p with
      | (true, s) => s.jrMoves p k
      | (false, s) => s

/-- JOB_STEP: the runner of a running plan goes as far as it can; a parked module returns to Ready first, what the runner submits being
doorbells (R405). -/
def State.jobStep (s : State) (p : Nat) : State :=
  if s.jrState p = 0 || s.jrState p = 4 || !s.ready then s
  else if s.power.state ≠ 3 then s.wake
  else
    let qs := (s.jrQueues p (s.jr p).plan).getD []
    let s := (s.jrConsume qs).jrPaused p qs
    let s := s.jrRelease p
    s.jrMoves p (fieldOf (s.stepEntry p) 0x0C 2 + 16)

/-- RING_POLL (R308): without CXL.cache a producer index is polled, and a runner that waits for that ring goes on. -/
def State.ringPoll (s : State) (p r : Nat) : State :=
  if s.cxl.cxlMode || s.jrState p = 0 || s.jrState p = 4 || fieldOf (s.jr p).plan 0x38 1 ≤ r then s
  else if s.jrState p = 2 then s.jobStep p
  else (s.readProducer p (fieldOf (s.ringEntry p r) 0x10 8)).2

def execJobStep (part : Nat) (s : State) : Result := .next (s.jobStep part)
def execRingPoll (part ring : Nat) (s : State) : Result := .next (s.ringPoll part ring)

end Sys2Proof.Machine
end

