-- ==== Sys2Proof/Machine/RegView.lean ====
section
/-! DEFINITION. What a read of a register returns (R26 to R54 and the registers of every chapter): the bank a requester reaches, the
registers that show other state, group pages, and the windows that show melt sheet entries, error records and trace records. -/

namespace Sys2Proof.Machine

/-- The model's page for copies behind MELT_SEL windows: bank (die × 256 + partition) × 8 + window (R153). -/
def pgWin : Nat := 0x20003
def winBank (page p n : Nat) : Nat := (pageDie page * 256 + p) * 8 + n
/-- The model's page for the copy that a TRACE_RD_SEL write takes: bank = partition, one 4-byte word every 4 bytes (R386). -/
def pgTraceWin : Nat := 0x20004
/-- Bank of the METER page that holds a reader's latch (R289). -/
def latchBank (p : Nat) : Nat := 0x1000 + p

/-! ### Banks -/

/-- The bank of a register that a requester's access reaches (R42, R183, R264, R265, R289 to R292, R347, R351, R386). -/
def State.bankOf (s : State) (p page off : Nat) : Nat :=
  match assignedType page with
  | .partition =>
    if off = R.HDR_STAGE_CTRL || off = R.HDR_STAGE_EPOCH || (decide (0x104 ≤ off) && decide (off < 0x160)) then
      s.reg page p R.PARTITION_PART_SEL
    else if off = R.PARTITION_PART_SEL then p else 0
  | .admission =>
    if off = R.ADMISSION_ADM_VIEW then p else if 0x104 ≤ off && off ≠ R.ADMISSION_CURSORS then s.reg page p R.ADMISSION_ADM_VIEW else 0
  | .meter => if off = R.METER_METER_SEL then p else if 0x108 ≤ off then latchBank p else 0
  | .jobRunner =>
    if off = R.JOB_RUNNER_JR_STATUS || (decide (R.JOB_RUNNER_STEP_INDEX ≤ off) && off ≠ R.JOB_RUNNER_JR_VIEW) then
      s.reg page p R.JOB_RUNNER_JR_VIEW
    else if 0x100 ≤ off || (decide (R.HDR_STAGE_CTRL ≤ off) && decide (off < 0x30)) then p else 0
  | .snapshot =>
    if (decide (R.SNAPSHOT_SNAP_STATUS ≤ off) && decide (off < R.SNAPSHOT_CKPT_CFG)) || off = R.SNAPSHOT_CKPT_STATUS ||
        off = R.SNAPSHOT_CKPT_LAST_STEP then s.reg page p R.SNAPSHOT_SNAP_VIEW
    else if 0x100 ≤ off || (decide (R.HDR_STAGE_CTRL ≤ off) && decide (off < 0x30)) then p else 0
  | .collective =>
    if off = R.COLLECTIVE_COLL_STATE || off = R.COLLECTIVE_COLL_LAST_ERR then s.reg page p R.COLLECTIVE_COLL_VIEW
    else if 0x100 ≤ off then p else 0
  | .router =>
    if off = R.ROUTER_ROUTE_DATA then s.reg page 0 R.ROUTER_ROUTE_SEL
    else if R.ROUTER_AUTH_TAG ≤ off then s.reg page 0 R.ROUTER_AUTH_SEL else 0
  | .packageGroup =>
    if 0x200 ≤ off || off = R.HDR_PAGE_CTRL || off = R.HDR_PAGE_ERR || off = R.HDR_PAGE_ERR_MASK || off = R.HDR_STAGE_CTRL then p else 0
  | .meltShard => if off = R.HDR_STAGE_CTRL || off = R.HDR_STAGE_EPOCH || 0x100 ≤ off && off < 0x120 then p else 0
  | .pkgErr | .dieErr => if off = R.ERR_ERR_SEL then p else 0
  | .rootOfTrust => if off = R.ROOT_OF_TRUST_FETTLE_SEL then p else 0
  | .pkgMgr => if off = R.PKG_MGR_FW_PART_SEL then p else 0
  | .power => if off = R.POWER_THERM_SEL then p else 0
  | _ => 0

/-- The page whose registers an access reaches: writes and reads of any TIME page reach IO0's time unit (R266). -/
def homePage (page : Nat) : Nat := if assignedType page = .time then diePage 8 2 else page

/-! ### Members of group pages (R12, R34, R50) -/

/-- Cores of a cluster that are present and unfenced. -/
def State.goodCores (s : State) (g : Nat) : List Nat :=
  if s.clusterPresent g then
    ((List.range 64).map (fun u => clusterPage g u)).filter (fun c => s.pageType c ≠ .absent && !(s.core c).fenced)
  else []

/-- Clusters of a compute die that are present. -/
def State.dieClusters (s : State) (d : Nat) : List Nat := ((List.range 40).map (fun c => 40 * d + c)).filter s.clusterPresent

/-- Clusters that a group page of a requester covers: the partition's own on a tenant's group page (R52, R274). -/
def State.groupClusters (s : State) (p page : Nat) : List Nat :=
  match assignedType page with
  | .clusterGroup => (if s.clusterPresent (globalCluster page) then [globalCluster page] else [])
  | .dieGroup => if pageDie page < 4 then s.dieClusters (pageDie page) else []
  | .packageGroup => if p = 0 then (List.range 160).filter s.clusterPresent else s.clustersOf p
  | _ => []

/-- The leaf pages under a group page: its cores; the links on an I/O die's page; both on the package page (R12). -/
def State.leaves (s : State) (p page : Nat) : List Nat :=
  let cores := (s.groupClusters p page).flatMap s.goodCores
  match assignedType page with
  | .dieGroup => if pageDie page < 4 then cores else (List.range 16).map (fun i => pageNum (pageDie page) 0 i)
  | .packageGroup => if p = 0 then cores ++ (List.range s.linkCount).map linkPage else cores
  | _ => cores

/-- PAGE_CAP.MEMBERS (R34). -/
def State.memberCount (s : State) (p page : Nat) : Nat :=
  match assignedType page with
  | .clusterGroup => ((s.groupClusters p page).flatMap s.goodCores).length
  | .dieGroup => if pageDie page < 4 then (s.groupClusters p page).length else 16
  | .packageGroup => ((s.groupClusters p page).flatMap s.goodCores).length
  | _ => 0

/-- PAGE_CAP.CAP of a page type (R34; each chapter's own rule). -/
def pageCap : PageType → Nat
  | .core => 1296 | .meltShard => 0x40 | .temper => 64 | .jobRunner => 256 | .queueCtx => 64 | .barrier => 64 | .ladle => 128
  | .link => 48 | .partition => 256 | .cxl => 16 | .dieErr => 512 | .pkgErr => 256 | .hbmCtrl => 72 | .clusterSram => 4096
  | .check => 200 | .snapshot => 256 | .clusterCtrl | .dieMgr | .ioCtrl => 8 | .power => 4000 | .sideband => 40
  | _ => 0

def isGroup (t : PageType) : Bool := t = .clusterGroup || t = .dieGroup || t = .packageGroup

/-! ### Header registers -/

/-- An unrecorded started command holds the page. -/
def State.holdsWork (s : State) (page : Nat) : Bool :=
  s.queues.any (fun e => e.2.cmds.any (fun c => !c.recorded && c.startT.isSome && c.members.contains page))

/-- BUSY of a page that is no group page (R35, R212, R375). -/
def State.leafBusy (s : State) (page : Nat) : Bool :=
  match assignedType page with
  | .queueCtx => s.queues.any (fun e => queuePage e.1 = page && decide (2 ≤ e.2.state))
  | .partition => s.parts.any (fun e => !e.2.zeroing.isEmpty)
  | .jobRunner => s.parts.any (fun e => e.2.jr.phase ≠ 0)
  | .pkgMgr => page = pgPkgMgr && decide (1 ≤ s.fld pgPkgMgr 0 F.PKG_MGR_FW_STATUS_STATE) &&
      decide (s.fld pgPkgMgr 0 F.PKG_MGR_FW_STATUS_STATE ≤ 3)
  | _ => s.holdsWork page

/-- PAGE_STATUS.BUSY (R12, R35). -/
def State.pageBusy (s : State) (p page : Nat) : Bool :=
  if isGroup (assignedType page) then (s.leaves p page).any s.leafBusy else s.leafBusy page

/-- BUSY for the test of R40: a queue context is busy by its own STATE (R212). -/
def State.busyFor (s : State) (p page off : Nat) : Bool :=
  if assignedType page = .queueCtx && 0x100 ≤ off then decide (2 ≤ (s.queue (firstQueue page + (off - 0x100) / 0x30)).state)
  else s.pageBusy p page

/-- A pending shadow of a page as the requester sees it, of one kind or of any (R41, R154). -/
def State.pendOf (s : State) (p page : Nat) (k : Option Kind) : Bool :=
  s.shadows.any (fun e =>
    s.epochOf e.1 = (page, if assignedType page = .partition || assignedType page = .meltShard || assignedType page = .jobRunner ||
      assignedType page = .snapshot then s.bankOf p page R.HDR_STAGE_CTRL else keyBank e.1) &&
    (match k with
      | none => true
      | some k => regKind (keyPage e.1) (keyOff e.1) = some k))

def b2n (b : Bool) (i : Nat) : Nat := if b then 2 ^ i else 0

/-- PAGE_STATUS (R35). HELD is the stored bit (R35); the others show other state. -/
def State.statusOf (s : State) (p page : Nat) : Nat :=
  let t := assignedType page
  let frozen := match t with
    | .queueCtx => (List.range 64).any (fun i => (s.queue (firstQueue page + i)).frozen)
    | .packageGroup => (s.part p).hostFrozen
    | _ => (s.dbgOf page).frozen
  let halted := match t with
    | .core => s.islHalted page
    | _ => s.coreHalted page
  b2n (s.pageBusy p page) 0 + b2n ((s.reg page 0 R.HDR_PAGE_STATUS).testBit 1) 1 + b2n frozen 2 + b2n halted 3 +
    b2n (t = .core && (s.core page).fenced) 4 + b2n (s.pendOf p page none) 5 + b2n (t = .packageGroup && !s.refPresent) 6 +
    b2n (s.reg page (s.bankOf p page R.HDR_PAGE_ERR) R.HDR_PAGE_ERR -
      (s.reg page (s.bankOf p page R.HDR_PAGE_ERR) R.HDR_PAGE_ERR &&& s.reg page (s.bankOf p page R.HDR_PAGE_ERR) R.HDR_PAGE_ERR_MASK) ≠ 0) 7

/-- PAGE_OWNER (R37). -/
def State.ownerOf (s : State) (page : Nat) : Nat :=
  let idle := s.isPool page && (s.poolRunner (globalCluster page)).isNone
  s.pagePart page + b2n (s.isPool page) 8 + b2n idle 9 + b2n (isInfra (assignedType page)) 10

/-- The step index at the last step boundary that a page passed (R41). -/
def State.epochStep (s : State) (p page : Nat) : Nat :=
  if isClusterPage page then (s.cluster (globalCluster page)).stepAt % 65536
  else s.reg pgJobRunner (s.bankOf p page R.HDR_STAGE_EPOCH) R.JOB_RUNNER_STEP_INDEX % 65536

/-- The page whose configuration fields a read of a page's header shows: a group page's lowest-numbered present member, where it has one
(R50). -/
def State.cfgPage (s : State) (p page : Nat) : Nat := if isGroup (assignedType page) then ((s.leaves p page).head?).getD page else page

/-- A header register (R32 to R41). -/
def State.viewHeader (s : State) (p page0 off : Nat) : Nat :=
  let page := if off = R.HDR_PAGE_CTRL || off = R.HDR_PAGE_ERR_MASK || off = R.HDR_STAGE_CTRL then s.cfgPage p page0 else page0
  let t := assignedType page
  let bank := s.bankOf p page off
  if off = R.HDR_PAGE_ID then
    t.code * 2 ^ 24 + (pageDie page % 16) * 2 ^ 20 + pageCluster page * 2 ^ 14 + pageUnit page * 2 ^ 7 + 1
  else if off = R.HDR_PAGE_CAP then pageCap t + 65536 * s.memberCount p page
  else if off = R.HDR_PAGE_STATUS then s.statusOf p page
  else if off = R.HDR_STAGE_CTRL then
    b2n (s.pendOf p page (some .step)) 8 + b2n (s.pendOf p page (some .layer)) 9 + b2n (s.pendOf p page (some .pass)) 10 +
      b2n ((s.reg page bank off).testBit 16) 16
  else if off = R.HDR_STAGE_EPOCH then s.reg page bank off % 65536 + 65536 * s.epochStep p page
  else if off = R.HDR_PAGE_OWNER then s.ownerOf page
  else s.reg page bank off

/-- A counter of a group page: the sum over its members (R12). Block-specific offsets are summed over cores only. -/
def State.groupCounter (s : State) (p page off : Nat) : Nat :=
  ((s.leaves p page).map (fun m => if off < 0x098 || assignedType m = .core then s.counterAt m off else 0)).sum

/-! ### Registers that show other state -/

/-- Capacities of a group page (R51). -/
def State.viewCapacity (s : State) (p page off : Nat) : Nat :=
  let cl := s.groupClusters p page
  let cores := (cl.flatMap s.goodCores).length
  let whole := assignedType page = .packageGroup
  if off = R.GRP_GRP_CORES then cores
  else if off = R.GRP_GRP_CLUSTERS then (cl.filter (fun g => !(s.goodCores g).isEmpty)).length
  else if off = R.GRP_GRP_CELLS then 1296 * cores
  else if off = R.GRP_GRP_SRAM then 196608 * cores + 4194304 * cl.length
  else if off = R.GRP_GRP_HBM then
    (if whole then (if p = 0 then hbmBytes s.n8 else s.hbmSize p)
     else if assignedType page = .dieGroup && pageDie page < 4 then hbmSlots s.n8 * 72 * gib else 0)
  else if off = R.GRP_GRP_LINKS then
    (if whole then s.linkCount else if assignedType page = .dieGroup && 8 ≤ pageDie page then 16 else 0)
  else if off = R.GRP_GRP_QUEUES then
    (if whole then s.queuesHeld p else 0)
  else if off = R.GRP_GRP_MELT then
    (if whole then (if p = 0 then 65536 - ((s.partNums.filter (· ≠ 0)).map (fun t => (s.meltRange t).2)).sum else (s.meltRange p).2) else 0)
  else 0

/-- Masters of a partition now frozen (R290). -/
def State.frozenCount (s : State) (p : Nat) : Nat :=
  min 65535 <| ((s.queuesOf p).filter (fun q => (s.queue q).frozen)).length + (if (s.part p).pfFrozen || s.dfOn then s.otherQueues p else 0) + (if (s.part p).hostFrozen then 1 else 0) +
    ((s.clustersOf p).filter (fun g => (s.dbgOf (clusterPage g uCtrl)).frozen)).length

/-- PART_STATUS of a bank (R290). -/
def State.partStatus (s : State) (p : Nat) : Nat :=
  let x := s.part p
  (if p = 0 && x.state = 0 then 2 else x.state) + b2n (s.partIdle p) 2 + b2n x.waitRes 3 + b2n (!x.zeroing.isEmpty) 4 +
    256 * (s.poolHeld p) + 65536 * (s.clustersOf p).length

/-- Registers of the PARTITION page that show other state (R290). -/
def State.viewPartition (s : State) (bank off : Nat) : Option Nat :=
  if off = R.PARTITION_PART_STATUS then some (s.partStatus bank)
  else if off = R.PARTITION_POOL_USED_MS then some ((s.part bank).usedNs / 1000000 % 2 ^ 32)
  else if off = R.PARTITION_FROZEN_MASTERS then some (s.frozenCount bank)
  else if off = R.PARTITION_POOL_STATE then
    some (s.poolClusters.length + 256 * (s.poolClusters.filter (fun g => (s.cluster g).runQ.isNone)).length +
      65536 * (s.poolClusters.filter (fun g => (s.cluster g).marked)).length)
  else if bank = 0 && (off = R.PARTITION_QUEUE_RANGE || off = R.PARTITION_MELT_RANGE) then some 0
  else none

/-- A queue context's registers that show other state (R212). -/
def State.viewQueue (s : State) (q off : Nat) : Option Nat :=
  let x := s.queue q
  if off = R.QCTX_QPTR then some (x.sqHead % 65536 + 65536 * (x.cqTail % 65536))
  else if off = R.QCTX_QSTATUS then
    some (x.state % 4 + b2n x.frozen 2 + b2n (!x.tasks.isEmpty) 3 + b2n (x.state = 3) 4 + 256 * (x.lastReason % 256) + 65536 * x.outstanding)
  else if off = R.QCTX_TASK_START then some ((x.tasks.head?.map (·.first)).getD 0)
  else none

/-- The VERSION a control core runs (R371, R396). -/
def State.coreVersion (s : State) (page : Nat) : Nat :=
  if isClusterPage page then (s.part (s.pagePart page)).fwVersion
  else if pageDie page < 4 then (s.part 0).fwVersion
  else s.reg pgPkgMgr 0 R.PKG_MGR_FW_RUNNING_PKG

/-- Temperature read by THERM_SEL (R426). -/
def State.viewTherm (s : State) (sel : Nat) : Nat :=
  match sget s.power.temps sel with
  | some t => (BitVec.ofInt 16 t).toNat + 65536
  | none => 0

/-- ALERT# is asserted while an event is not accepted, and in Aux while the shutdown cause is not none (R418). -/
def State.alertLow (s : State) : Bool := !s.sb.events.isEmpty || (s.power.state = 1 && s.power.cause ≠ 0)

/-- Block registers that show other state; none for a register that is stored. -/
def State.viewBlock (s : State) (p page off : Nat) : Option Nat :=
  let bank := s.bankOf p page off
  match assignedType page with
  | .core =>
    let x := Config.transient page off s.timeNow
    let v := s.reg page 0 off
    if off = R.CORE_ARRAY_STATE then some (putBits (putBits v 13 8 (x % 37)) 31 16 (bitsOf v 31 16 - x / 64 % 65536))
    else if off = R.CORE_PAT_STATE then
      some (putBits (putBits (putBits (putBits v 2 2 x) 6 4 (x / 2)) 14 8 (x / 16 % 65)) 26 16 (x / 2048 % 1025))
    else none
  | .partition => s.viewPartition bank off
  | .admission =>
    if off = R.ADMISSION_ADM_WAITING then some (s.delayedTasks bank)
    else if R.ADMISSION_DEFICIT_0 ≤ off && off ≤ R.ADMISSION_DEFICIT_3 then
      some (BitVec.ofInt 64 ((s.part bank).deficit.getD ((off - R.ADMISSION_DEFICIT_0) / 8) 0)).toNat
    else if off = R.ADMISSION_CURSORS then some ((s.adm.cursors.zipIdx.map (fun c => (c.1 % 256) * 2 ^ (8 * c.2))).sum)
    else none
  | .queueCtx => if 0x100 ≤ off && off < 0xD00 then s.viewQueue (firstQueue page + (off - 0x100) / 0x30) ((off - 0x100) % 0x30) else none
  | .time => if off = R.TIME_TIME_NOW then some (s.timeNow % 2 ^ 64) else none
  | .meltShard =>
    if off = R.MELT_SHARD_SHARD_STATE then
      some ((List.range 16384).filter (fun i => s.entRole (16384 * pageDie page + i) ≠ 0)).length
    else none
  | .hbmCtrl =>
    if off = R.HBM_CTRL_HBM_STATE then
      some (s.reg page 0 off % 4 + 4 * (min 64 (s.faultTimes.filter (fun e => e.1 / 2 ^ 32 = page)).length))
    else none
  | .pkgErr | .dieErr =>
    if page ≠ pgPkgErr && 0x140 ≤ off && off < 0x200 then some 0
    else if off = R.ERR_ERR_NEXT_SEQ then some ((s.ring page).next % 2 ^ 32)
    else if off = R.ERR_ERR_STATE then
      some ((((svals (s.ring page).slots).filter (·.opened)).length % 1024) + (if page = pgPkgErr then s.reg page 0 off &&& 0x400 else 0))
    else none
  | .rootOfTrust =>
    if off = R.ROOT_OF_TRUST_FUSE_STATE then some (s.boot.minSvn % 64 + 64 * (s.boot.revoked % 16))
    else if off = R.ROOT_OF_TRUST_FETTLE_CLUSTER then
      some ((sget s.boot.goodInfo (s.reg page p R.ROOT_OF_TRUST_FETTLE_SEL)).getD 0)
    else none
  | .pkgMgr =>
    if page = pgPkgMgr then
      let b := s.reg page p R.PKG_MGR_FW_PART_SEL
      if off = R.PKG_MGR_FW_PART_VERSION then some (s.part b).fwVersion
      else if off = R.PKG_MGR_FW_PART_STATE then some (b2n (s.part b).fwPending 0)
      else none
    else if off < 0x130 && 0x100 ≤ off then some 0 else if off = R.DBG_DBG_NOTICE_TTL then some 0 else none
  | .identity => if off = R.IDENTITY_ID_SERIAL then some s.boot.cfgSerial else none
  | .cxl => if off = R.CXL_CACHE_STATE then some (s.cxl.cache.length % 65536) else none
  | .sideband =>
    if off = R.SIDEBAND_SB_PINS then
      some (b2n (!s.power.perst) 0 + b2n (!s.power.leak) 1 + b2n (!s.alertLow) 2 + b2n (decide (2 ≤ s.power.state)) 3 +
        16 * (s.sb.feedPins % 64) + b2n s.refPresent 10)
    else if off = R.SIDEBAND_MCTP_STATE then some (s.sb.eid % 256 + b2n s.sb.i3c 8 + 512 * (s.sb.dynAddr % 128))
    else none
  | .power =>
    if off = R.POWER_THERM_DATA then some (s.viewTherm (s.reg page p R.POWER_THERM_SEL))
    else if off = R.POWER_POWER_STATUS then some (putBits (s.reg page 0 off) 8 8 (b2n s.power.leak 0))
    else none
  | .clusterCtrl | .dieMgr | .ioCtrl =>
    if off = R.DBG_CC_VERSION then some (s.coreVersion page)
    else if off = R.DBG_TRACE_FIFO then some (Config.transient page off s.timeNow % 257)
    else if off = R.DBG_DBG_NOTICE_TTL then some 0
    else if off = R.DBG_DBG_STATUS then
      some (s.reg page 0 off % 256 + b2n (assignedType page = .clusterCtrl && s.reg page 0 R.DBG_ISL_HALT ≠ 0) 8)
    else none
  | .clusterGroup | .dieGroup => if 0x100 ≤ off then some (s.viewCapacity p page off) else none
  | .packageGroup => if 0x100 ≤ off && off < 0x200 then some (s.viewCapacity p page off) else none
  | .collective =>
    if off = R.COLLECTIVE_COLL_STATE then
      some (putBits (s.reg page bank off) 3 3
        (if s.colls.any (fun (c : CollX) => c.part = bank && decide (s.timeNow < c.heldTo)) then 1 else 0))
    else none
  | _ => none

/-! ### Melt sheet entries behind windows (R129, R153, R157) -/

/-- A configuration register of an entry, or its shadow. -/
def State.entCfg (s : State) (x off : Nat) (shadow : Bool) : Nat :=
  if shadow then (s.shadow? pgEntry x off).getD (s.entReg x off) else s.entReg x off

/-- One 32-bit word of an entry as its role lays it out (R129, R157). -/
def State.entWord (s : State) (x off : Nat) (shadow : Bool) : Nat :=
  let role := s.entCfg x R.ENT_ENT_CTRL shadow % 16
  let grad := isGrad role
  let half := fun (o : Nat) => if off = o then s.entCfg x o shadow % 2 ^ 32 else s.entCfg x o shadow / 2 ^ 32
  if off = 0x08 || off = 0x0C then (if grad then half 0x08 else s.entCfg x off shadow)
  else if off = 0x18 || off = 0x1C then half 0x18
  else if off = 0x70 || off = 0x74 then (if grad then half 0x70 else 0)
  else if off = 0x20 || off = 0x24 then (if grad then 0 else s.entCfg x off shadow)
  else if off = 0x64 || off = 0x68 then (if grad then s.entCfg x off shadow else 0)
  else if 0x30 ≤ off && off < 0x40 then s.entReg x off % 65536 + 65536 * (s.entReg x (off + 2) % 65536)
  else s.entCfg x off shadow % 2 ^ 32

/-- A word of a shard page's window for a requester (R153). -/
def State.winWord (s : State) (p page off : Nat) : Nat :=
  let n := (off - 0x200) / 0x80
  let o := (off - 0x200) % 0x80
  let sel := s.reg page p (R.MELT_SHARD_MELT_SEL_0 + 4 * n)
  let x := sel % 65536
  if shardPage x ≠ page then 0
  else if sel.testBit 16 then s.entWord x o ((s.reg page p R.HDR_STAGE_CTRL).testBit 16)
  else s.reg pgWin (winBank page p n) o

/-- A write dropped by R40: the offset and the writing master, the partition's host function, stand in DETAIL (DEDUCED log 83). -/
def State.busyDrop (s : State) (p page off : Nat) : State :=
  ((s.raisePage page 0).bump page 0 R.HDR_CNT_BUSY_WRITE 1).notice page caBUSY_WRITE (off + 2 ^ 32 * p)

/-! ### Error records (R314, R315, R319) -/

def ErrRec.bytes (e : ErrRec) : List Byte :=
  leBytes e.seq 4 ++
  leBytes (e.sev % 4 + b2n e.esc 2 + b2n e.notice 3 + 256 * (e.cause % 256) + 65536 * (e.part % 256) + b2n e.infra 24) 4 ++
  leBytes (e.page % 2 ^ 17 + 2 ^ 17 * (e.count % 2 ^ 15)) 4 ++ leBytes e.key 4 ++ leBytes e.time 8 ++ leBytes e.detail 8

/-- The record with a SEQ, where its slot holds it. -/
def Ring.find (r : Ring) (size seq : Nat) : Option ErrRec := (sget r.slots (seq % size)).filter (fun e => e.seq = seq)

/-- FIRST_ERR of a severity: the oldest open record (R319). -/
def Ring.first (r : Ring) (sev : Nat) : Option ErrRec := oldestRec ((svals r.slots).filter (fun e => e.opened && e.sev = sev))

/-- A word of ERR_REC or of a FIRST_ERR register. -/
def State.errWord (s : State) (p page off : Nat) : Nat :=
  let r := s.ring page
  let rec? := if off < 0x140 then r.find (ringSize page) (s.reg page p R.ERR_ERR_SEL) else r.first ((off - 0x200) / 32)
  match rec? with
  | some e => leNat ((e.bytes.drop (off % 32)).take 4)
  | none => 0

/-! ### Reads -/

/-- What a requester may read of a page: all of it, or the header and counters (R53). Partition 0 and owners read all; pages that the spec
opens to every partition are read whole (R1, R154, R183, R265, R289, R315, R351, R376). -/
def State.mayRead (s : State) (p page off : Nat) : Bool :=
  let t := assignedType page
  p = 0 || decide (off < 0x100) || t = .packageGroup || (isClusterPage page && s.pagePart page = p && !s.isPool page) ||
    (t = .queueCtx && s.pagePart page = p) ||
    t = .partition || t = .admission || t = .meter || t = .jobRunner || t = .snapshot || t = .collective || t = .meltShard ||
    t = .pkgErr || t = .dieErr || t = .identity ||
    (t = .barrier && (off = R.BARRIER_BAR_STATE || off = R.BARRIER_BAR_LAST_NS)) ||
    ((t = .clusterCtrl || t = .dieMgr || t = .ioCtrl || t = .pkgMgr) && (decide (0x204 ≤ off) && decide (off < 0x218)))

/-- The value of a whole register for a requester: RWS fields show their shadow while SHADOW_VIEW is set (R41). -/
def State.viewReg (s : State) (p page0 off : Nat) : Nat :=
  let page := homePage page0
  let t := s.pageType page
  if t = .absent then 0
  else if !s.mayRead p page off then 0
  else if isGroup t && 0x040 ≤ off && off < 0x100 then s.groupCounter p page off
  else if off < 0x040 then s.viewHeader p page0 off
  else match s.viewBlock p page off with
    | some v => v
    | none =>
      match regDesc? t off with
      | none => 0
      | some r =>
        let bank := s.bankOf p page off
        let v := if timedCounter page off then s.counterAt page off else s.reg page bank off
        let v := v - (v &&& r.mask (fun a => a = .wo))
        if (s.reg page (s.bankOf p page R.HDR_STAGE_CTRL) R.HDR_STAGE_CTRL).testBit 16 then
          mergeStaged (stagedMask page off) v ((s.shadow? page bank off).getD v)
        else v

/-- Page operands from here up name pages of the requester's own register view (R52), those below pages of the register window (R26). -/
def viewBase : Nat := 0x40000

/-- The page of the register window that a page operand shows: the partition's group page, its clusters' group pages by local index, or the
target of an aperture (R52, R53); the rest of the view is absent. -/
def State.viaView (s : State) (p page : Nat) : Nat :=
  if page < viewBase then page
  else
    let n := page - viewBase
    let none_ := pageNum 14 0 0
    if n = 0 then pgPackage
    else if n ≤ 160 then
      match (s.clustersOf p)[n - 1]? with
      | some g => clusterPage g uGroup
      | none => none_
    else if 192 ≤ n && n ≤ 223 then s.reg pgPackage p (R.GRP_APT_SEL_0 + 4 * (n - 192)) % 0x20000
    else none_

/-- The PUF helper data in flash (R353). -/
def State.helperData (s : State) : List Byte := mgetBytes 0xFF s.flash 0x20000 4096

/-- A 4-byte read (R29): a register, a half of a 64-bit register, or a word of a window. -/
def State.readWord (s : State) (p page off : Nat) : Nat :=
  let t := s.pageType (homePage page)
  if (t = .pkgErr || t = .dieErr) && ((0x120 ≤ off && off < 0x140) || (0x200 ≤ off && off < 0x280)) then s.errWord p page off
  else if t = .meltShard && 0x200 ≤ off && off < 0x600 then s.winWord p page off
  else if t = .packageGroup && 0x800 ≤ off then s.reg pgTraceWin p (off - 0x800)
  else if t = .identity && 0x140 ≤ off && off < 0x180 then
    ((Config.identityFingerprint s.helperData).extractLsb' (8 * (off - 0x140)) 32).toNat
  else match (if t = .absent then none else regDesc? t off) with
    | some r => if r.width = 64 then s.viewReg p page off % 2 ^ 32 else s.viewReg p page off % 2 ^ 32
    | none =>
      match (if t = .absent || off % 8 = 0 then none else regDesc? t (off - 4)) with
      | some r => if r.width = 64 then s.viewReg p page (off - 4) / 2 ^ 32 % 2 ^ 32 else 0
      | none => 0

/-- Key of a requester's latched high half or PROGRESS_POS (R29, R39). -/
def latchKey (p page off : Nat) : Nat := rkey page p off

/-- A 4-byte read as the requester sees it: through its register view a cluster's group page carries its partition-local path (R52). -/
def State.readView (s : State) (p page off : Nat) : Nat :=
  let w := s.viaView p page
  if off = R.HDR_PAGE_ID && decide (viewBase < page) && s.pageType w = .clusterGroup && decide (page ≤ viewBase + 160) then
    PageType.clusterGroup.code * 2 ^ 24 + ((page - viewBase - 1) / 40) * 2 ^ 20 + ((page - viewBase - 1) % 40) * 2 ^ 14 + 127 * 2 ^ 7 + 1
  else s.readWord p w off

/-- A read of PROGRESS latches PROGRESS_POS for the same requester (R39). -/
def State.progressRead (s : State) (p page : Nat) : State :=
  let w := s.viaView p page
  let s := s.emit .readData [p, page, R.HDR_PROGRESS, s.readWord p w R.HDR_PROGRESS]
  { s with latches := sset s.latches (latchKey p w R.HDR_PROGRESS_POS) (BitVec.ofNat 64 (s.viewReg p w R.HDR_PROGRESS_POS)) }

/-- A 4-byte read (R29, R39). A latched value is returned once, the low half of a latched PROGRESS_POS leaving its high half latched; else the
register's word is returned, and a low half latches the high half. A read of PROGRESS latches PROGRESS_POS. A read that is not aligned
returns zero and is logged. -/
def State.lowHalfRead (s : State) (p page off : Nat) : State :=
  let w := s.viaView p page
  if off % 4 ≠ 0 then
    let s := s.emit .readData [p, page, off, 0]
    if s.pageType (homePage w) = .absent then s else ((s.raisePage w 1).notice w caACCESS (off + 2 ^ 32 * p))
  else if off = R.HDR_PROGRESS then s.progressRead p page
  else match sget s.latches (latchKey p w off) with
    | some x =>
      let s := s.emit .readData [p, page, off, x.toNat % 2 ^ 32]
      if off % 8 = 0 then
        { s with latches := sset (sdel s.latches (latchKey p w off)) (latchKey p w (off + 4)) (BitVec.ofNat 64 (x.toNat / 2 ^ 32)) }
      else { s with latches := sdel s.latches (latchKey p w off) }
    | none =>
      let s := s.emit .readData [p, page, off, s.readView p page off]
      match regDesc? (s.pageType (homePage w)) off with
      | some r =>
        if r.width = 64 && off % 8 = 0 then
          { s with latches := sset s.latches (latchKey p w (off + 4)) (BitVec.ofNat 64 (s.readView p page (off + 4))) }
        else s
      | none => s

/-- A read of SPRUE_STATUS returns it and resets MIN_LEVEL to 16 (R104). A requester that may not read it resets nothing. -/
def State.sprueRead (s : State) (p page : Nat) : State :=
  let s := s.emit .readData [p, page, R.CORE_SPRUE_STATUS, s.readWord p page R.CORE_SPRUE_STATUS]
  if s.pageType page = .core && s.mayRead p page R.CORE_SPRUE_STATUS then s.setFld page 0 F.CORE_SPRUE_STATUS_MIN_LEVEL 16 else s

def execLowHalfRead (p page off : Nat) (s : State) : Result := .next (s.lowHalfRead p page off)
def execProgressRead (p page : Nat) (s : State) : Result := .next (s.progressRead p page)
def execSprueStatusRead (p page : Nat) (s : State) : Result := .next (s.sprueRead p page)

end Sys2Proof.Machine
end

