-- ==== Sys2Proof/Machine/Sideband.lean ====
section
/-! DEFINITION. The management sideband (R416 to R418, R427): its address and endpoint ID, PLDM for platform monitoring and control, and
the events that it sends. The two effecters act on power and stand in `Power.lean`. -/

namespace Sys2Proof.Machine

/-! ### Messages -/

/-- A message is served from Aux upward; it and its response count on the sideband (R416, R427). -/
def State.pldm (s : State) (f : State → State) : State :=
  if s.power.inputOn then f ((s.bump pgSideband 0 R.SIDEBAND_MCTP_RX 1).bump pgSideband 0 R.SIDEBAND_MCTP_TX 1) else s

def State.say (s : State) (l : List Nat) : State := s.emit .pldm l

/-- Commands of PLDM type 2 as outputs name them. -/
def pmRECEIVER : Nat := 0x204
def pmEVENT : Nat := 0x20A
def pmSENSOR : Nat := 0x211
def pmSTATE : Nat := 0x221
def pmSETNUM : Nat := 0x231
def pmGETNUM : Nat := 0x232
def pmSETSTATE : Nat := 0x239
def pmINFO : Nat := 0x250
def pmPDR : Nat := 0x251

/-! ### Sensors (R417) -/

/-- Warning and critical thresholds of a numeric sensor, in mW, mV, mA, 1/16 °C or mL/min; those of sensor 6 are lower ones (DEDUCED log 81). -/
def State.thresholds (s : State) (id : Nat) : Option Nat × Option Nat :=
  if id = 1 then (some (1000 * s.reg pgPower 0 R.POWER_CAP_W), some 4000000)
  else if id = 2 then (some 67000, some 68500)
  else if id = 3 then (some 62500, some 69000)
  else if id = 4 then (some 640, none)
  else if id = 5 then (some 832, none)
  else if id = 6 then (some 5000, some 3000)
  else if id = 7 then (some 1520, some 1680)
  else if id = 8 then (some 1440, some 1600)
  else (none, none)

/-- A signed 16-bit half of a register. -/
def half16 (v hi lo : Nat) : Int := (BitVec.ofNat 16 (bitsOf v hi lo)).toInt

/-- The value of a numeric sensor. -/
def State.sensorValue (s : State) (id : Nat) : Int :=
  let r := s.reg pgPower 0
  if id = 1 then Int.ofNat (r R.POWER_INPUT_MW)
  else if id = 2 then Int.ofNat (r R.POWER_INPUT_MV)
  else if id = 3 then Int.ofNat (r R.POWER_INPUT_MA)
  else if id = 4 then half16 (r R.POWER_COOL_STATE) 15 0
  else if id = 5 then half16 (r R.POWER_COOL_STATE) 31 16
  else if id = 6 then Int.ofNat (r R.POWER_FLOW)
  else if id = 7 then half16 (r R.POWER_TEMP_HOT) 15 0
  else if id = 8 then half16 (r R.POWER_TEMP_HOT) 31 16
  else Int.ofNat (s.reg pgMeter 0 R.METER_ENERGY_TOTAL_MJ)

/-- Which sensors read valid: in Aux only 2, 3, 11 and 12. -/
def State.sensorValid (s : State) (id : Nat) : Bool := decide (2 ≤ s.power.state) || id = 2 || id = 3 || id = 11 || id = 12

/-- Level of a numeric sensor: 0 normal, 1 warning, 2 critical. -/
def State.sensorLevel (s : State) (id : Nat) : Nat :=
  let v := s.sensorValue id
  let past := fun (t : Option Nat) => match t with
    | some t => if id = 6 then decide (v < Int.ofNat t) else decide (Int.ofNat t ≤ v)
    | none => false
  let th := s.thresholds id
  if past th.2 then 2 else if past th.1 then 1 else 0

/-- State of a state sensor: 10 power state (0 Aux, 1 Booting, 2 Ready, 3 Parked), 11 leak, 12 shutdown cause. -/
def State.stateSensor (s : State) (id : Nat) : Nat :=
  let w := s.power
  if id = 10 then (if w.state ≤ 1 then 0 else if w.state = 2 then 1 else if w.state = 4 || w.state = 5 then 3 else 2)
  else if id = 11 then b2n w.leak 0
  else w.cause

/-! ### Events (R417, R418) -/

/-- A sensor that has changed sends an event to the receiver, where one is set, and asserts ALERT#. -/
def State.sbEvent (s : State) (id v : Nat) : State :=
  if (sget s.sb.shown id).getD 0 = v then s
  else
    let s := { s with sb := { s.sb with shown := sset s.sb.shown id v } }
    if s.sb.receiver = 0 || !s.power.inputOn then s
    else
      let low := s.alertLow
      let s := { s with sb := { s.sb with events := s.sb.events ++ [(id, v)] } }
      let s := ((s.bump pgSideband 0 R.SIDEBAND_PLDM_EVENTS 1).bump pgSideband 0 R.SIDEBAND_MCTP_TX 1).say [pmEVENT, s.sb.receiver, id, v]
      if low then s else s.bump pgSideband 0 R.SIDEBAND_ALERTS 1

/-- The state sensors after a change of power state, leak pin or shutdown cause. -/
def State.sbEvents (s : State) : State := [10, 11, 12].foldl (fun s id => s.sbEvent id (s.stateSensor id)) s

/-- The numeric sensors after a sample. -/
def State.sbLevels (s : State) : State :=
  ([1, 2, 3, 4, 5, 6, 7, 8].filter s.sensorValid).foldl (fun s id => s.sbEvent id (s.sensorLevel id)) s

/-- PLATFORM_EVENT_ACCEPTED: the oldest event is accepted. -/
def State.eventAccepted (s : State) : State :=
  match s.sb.events with
  | [] => s
  | _ :: r => { s with sb := { s.sb with events := r } }

/-! ### Addresses (R416, R418) -/

/-- ENTDAA: a module without a dynamic address takes one; its provisioned ID carries bits [47:0] of the serial number. -/
def State.takeAddress (s : State) (addr : Nat) : State :=
  if !s.power.inputOn || s.sb.i3c then s
  else
    let s := { s with sb := { s.sb with dynAddr := addr % 128, i3c := true } }
    s.emit .i3c [s.boot.cfgSerial % 2 ^ 48]

/-- RSTDAA: SMBus operation again. -/
def State.dropAddress (s : State) : State := { s with sb := { s.sb with dynAddr := 0, i3c := false } }

/-- Set Endpoint ID; 0 and 255 are no endpoint IDs and are refused (PRESUMED log 82). -/
def State.setEid (s : State) (eid : Nat) : State :=
  s.pldm (fun s =>
    if 1 ≤ eid ∧ eid ≤ 254 then { s with sb := { s.sb with eid := eid } }.emit .mctp [1, 0, eid] else s.emit .mctp [1, 2, s.sb.eid])

/-- The Alert Response Address in SMBus operation: answered with 0x62 while ALERT# is asserted. -/
def State.alertResponse (s : State) : State :=
  if s.power.inputOn && !s.sb.i3c && s.alertLow then s.emit .i3c [0x62] else s

/-! ### Monitoring (R417): handles 1 to 12 are the sensors, 13 and 14 the effecters (DEDUCED log 81) -/

def State.pdrInfo (s : State) : State := s.pldm (fun s => s.say [pmINFO, 0, 14])

/-- One descriptor record: handle (0 names the first), the next handle, sensor or effecter, its ID and thresholds. -/
def State.getPdr (s : State) (handle : Nat) : State :=
  s.pldm (fun s =>
    let h := if handle = 0 then 1 else handle
    if 14 < h then s.say [pmPDR, 2]
    else
      let th := s.thresholds h
      s.say [pmPDR, 0, h, if h = 14 then 0 else h + 1, b2n (decide (12 < h)) 0, if 12 < h then h - 12 else h, th.1.getD 0, th.2.getD 0])

def State.sensorReading (s : State) (id : Nat) : State :=
  s.pldm (fun s =>
    if 1 ≤ id ∧ id ≤ 9 then
      (if s.sensorValid id then s.say [pmSENSOR, 0, id, 1, (BitVec.ofInt 64 (s.sensorValue id)).toNat, s.sensorLevel id]
       else s.say [pmSENSOR, 0, id, 0])
    else s.say [pmSENSOR, 2])

def State.stateReadings (s : State) (id : Nat) : State :=
  s.pldm (fun s =>
    if 10 ≤ id ∧ id ≤ 12 then
      (if s.sensorValid id then s.say [pmSTATE, 0, id, 1, s.stateSensor id] else s.say [pmSTATE, 0, id, 0])
    else s.say [pmSTATE, 2])

/-- SetEventReceiver. -/
def State.setReceiver (s : State) (eid : Nat) : State :=
  s.pldm (fun s => { s with sb := { s.sb with receiver := eid } }.say [pmRECEIVER, 0])

def execEntdaa (addr : Nat) (s : State) : Result := .next (s.takeAddress addr)
def execRstdaa (s : State) : Result := .next s.dropAddress
def execSetEndpointId (eid : Nat) (s : State) : Result := .next (s.setEid eid)
def execAlertResponseAddress (s : State) : Result := .next s.alertResponse
def execGetPdrRepositoryInfo (s : State) : Result := .next s.pdrInfo
def execGetPdr (handle : Nat) (s : State) : Result := .next (s.getPdr handle)
def execGetSensorReading (id : Nat) (s : State) : Result := .next (s.sensorReading id)
def execGetStateSensorReadings (id : Nat) (s : State) : Result := .next (s.stateReadings id)
def execSetEventReceiver (eid : Nat) (s : State) : Result := .next (s.setReceiver eid)
def execPlatformEventAccepted (s : State) : Result := .next s.eventAccepted

end Sys2Proof.Machine
end

