-- ==== Sys2Proof/Machine/Boot.lean ====
section
/-! DEFINITION. Resets, boot and the image checks (R353 to R364, R309, R310, R356 to R359): what PERST#, a loss of main conversion, the
boot phases, hot reset and FLR do. -/

namespace Sys2Proof.Machine

/-! ### Flash (R353) and the image (R354, R355) -/

def flConfig : Nat := 0
def flCert : Nat := 0x10000
def flImage : Nat := 0x100000
def imageMax : Nat := 100663296

def State.flashByte (s : State) (a : Nat) : Byte := mget 0xFF s.flash a
def State.flashBytes (s : State) (a n : Nat) : List Byte := mgetBytes 0xFF s.flash a n
def State.flashWrite (s : State) (a : Nat) (l : List Byte) : State := { s with flash := msetBytes 0xFF s.flash a l }

/-- Erase a range of flash: every byte reads 0xFF. -/
def State.flashErase (s : State) (a n : Nat) : State := { s with flash := s.flash.filter (fun c => !(a ≤ c.1 && c.1 < a + n)) }

/-- A number of `n` bytes at an offset of an image, least significant first. -/
def imgLE (src : Nat → Byte) (off n : Nat) : Nat := leNat ((List.range n).map (fun i => src (off + i)))
def imgBytes (src : Nat → Byte) (off n : Nat) : List Byte := (List.range n).map (fun i => src (off + i))

/-- A number of bytes, most significant first. -/
def beNat (l : List Byte) : Nat := leNat l.reverse

/-- Sections of an image: type, offset, length (R354). -/
def imgSections (src : Nat → Byte) : List (Nat × Nat × Nat) :=
  (List.range (imgLE src 0x14 4)).map (fun i => (imgLE src (0x20 + 32 * i) 4, imgLE src (0x24 + 32 * i) 4, imgLE src (0x28 + 32 * i) 4))

def sectionsApart : List (Nat × Nat × Nat) → Bool
  | [] => true
  | x :: r => r.all (fun y => decide (x.2.1 + x.2.2 ≤ y.2.1) || decide (y.2.1 + y.2.2 ≤ x.2.1)) && sectionsApart r

/-- R355's check 2: IMAGE_BYTES in range; sections inside the image, apart, exactly one of each type. -/
def imgSizeOk (src : Nat → Byte) : Bool :=
  let n := imgLE src 8 4
  let k := imgLE src 0x14 4
  let secs := imgSections src
  decide (8192 ≤ n ∧ n ≤ imageMax) && decide (1 ≤ k ∧ k ≤ 16) &&
    secs.all (fun x => decide (x.2.1 + x.2.2 ≤ n) && decide (1 ≤ x.1 ∧ x.1 ≤ 5)) && sectionsApart secs &&
    (List.range 5).all (fun t => (secs.filter (fun x => x.1 = t + 1)).length = 1)

/-- The signed bytes of an image: all but offsets 0xE00 to 0xFFF (R354). -/
def imgSigned (src : Nat → Byte) : List Byte :=
  imgBytes src 0 0xE00 ++ imgBytes src 0x1000 (imgLE src 8 4 - 0x1000)

/-- R355: the first check that fails, 0 where all pass. -/
def imageCheck (minSvn revoked : Nat) (src : Nat → Byte) : Nat :=
  let k := imgLE src 0x12 1
  let key := imgBytes src 0x220 516
  if imgLE src 0 4 ≠ 0x45554C55 || imgLE src 4 4 ≠ 1 then 1
  else if !imgSizeOk src then 2
  else if revoked.testBit k then 3
  else if 4 ≤ k || Config.sha512 key ≠ Config.romKeyHash k then 4
  else if !Config.pssVerify (BitVec.ofNat 4096 (beNat (key.take 512))) (BitVec.ofNat 32 (leNat (key.drop 512)))
      (Config.sha512 (imgSigned src)) (BitVec.ofNat 4096 (beNat (imgBytes src 0xE00 512))) then 5
  else if imgLE src 0x10 2 < minSvn then 6
  else if !(imgLE src 0x13 1).testBit 0 then 7
  else 0

def imgVersion (src : Nat → Byte) : Nat := imgLE src 0x0C 4
def State.flashSrc (s : State) (i : Nat) : Byte := s.flashByte (flImage + i)

/-- The check of the flash image (R356, R359). -/
def State.checkFlash (s : State) : Nat := imageCheck s.boot.minSvn s.boot.revoked s.flashSrc

/-! ### Losing power or reset (R309, R402, R403) -/

/-- A firmware write that a reset or a loss of input interrupts leaves an image in flash that R355 refuses: part of the new image, how
much is free (R373). -/
def State.spoilFlash (s : State) : State :=
  let st := s.fld pgPkgMgr 0 F.PKG_MGR_FW_STATUS_STATE
  if st = 2 || st = 3 then
    let n := s.freeVal.toNat % max 1 (s.reg pgPkgMgr 0 R.PKG_MGR_FW_LEN)
    let img := s.rdBytes 0 (s.reg pgPkgMgr 0 R.PKG_MGR_FW_SRC) n
    ((s.flashErase flImage imageMax).flashWrite flImage img).freshen
  else s

/-- What survives a loss of main conversion: flash, fuses, host memory, the pins, the input monitor's readings (R417) and what has left the
block. -/
def State.mainOff (s0 : State) : State :=
  let s := s0.spoilFlash
  { State.reset with
    n8 := s.n8
    timeNow := s.timeNow
    refPresent := s.refPresent
    flash := s.flash
    host := s.host
    regs := s.regs.filter (fun e => keyPage e.1 = pgPower && (keyOff e.1 = R.POWER_INPUT_MV || keyOff e.1 = R.POWER_INPUT_MA))
    boot := { BootX.init with minSvn := s.boot.minSvn, revoked := s.boot.revoked }
    power := { PowerX.init with
      inputOn := s.power.inputOn, perst := s.power.perst, bootWait := s.power.bootWait, cause := s.power.cause, leak := s.power.leak,
      temps := s.power.temps, state := if s.power.inputOn then 1 else 0 }
    sb := { SbX.init with feedPins := s.sb.feedPins }
    out := s.out
    fresh := s.fresh
    pending := s.pending }

/-- Whether main conversion is on (R402). -/
def State.mainOn (s : State) : Bool := decide (2 ≤ s.power.state)

/-- The module enters Aux by command or shutdown (R403): every task ends without a record, and all but flash, fuses and the sideband is
lost. A shutdown that coincides with PERST# records its cause (R415). -/
def State.enterAux (s : State) (cause : Nat) : State :=
  if !s.mainOn then
    (if s.power.fromMain && s.power.perst && s.power.cause = 0 && s.power.inputOn then { s with power := { s.power with cause := cause } }
     else s)
  else
    let sb := s.sb
    let t := s.mainOff
    let low := s.alertLow
    let t := { t with sb := sb, power := { t.power with cause := cause, bootWait := false } }
    if low || cause = 0 then t else t.bump pgSideband 0 R.SIDEBAND_ALERTS 1

/-- PERST# asserted (R309): a full reset into Aux. The shutdown cause is held until the release. -/
def State.perstAssert (s : State) : State :=
  if s.power.perst then s
  else
    let t := s.mainOff
    { t with power := { t.power with perst := true, fromMain := s.mainOn, bootWait := false } }

/-! ### Boot (R356) -/

/-- Start values of PCT by phase, and 100 after the last. -/
def pctAt (phase : Nat) : Nat := [0, 0, 5, 10, 25, 95, 100].getD phase 100

/-- Enter a boot phase. -/
def State.bootPhase (s : State) (n : Nat) : State :=
  let s := { s with boot := { s.boot with phase := n, state := 1 }, power := { s.power with state := 2, bootWait := false } }
  let s := (s.setFld pgRot 0 F.ROOT_OF_TRUST_BOOT_STATE_STATE 1).setFld pgRot 0 F.ROOT_OF_TRUST_BOOT_STATE_PCT (pctAt n)
  s.progress pgRot 0 n 0 0

/-- The pages of the populated HBM stacks. -/
def hbmPages (n8 : Bool) : List Nat := (List.range 4).flatMap (fun d => (List.range (hbmSlots n8)).map (fun i => diePage d (8 + i)))

/-- The boot begins once PERST# is released, the input is up and the reference present (R21, R356, R399, R403). -/
def State.tryBoot (s : State) : State :=
  if s.power.bootWait && !s.power.perst && s.power.inputOn && s.refPresent && s.power.state = 1 then
    (s.bootPhase 1).bump pgRot 0 R.ROOT_OF_TRUST_BOOTS 1
  else s

/-- PERST# released (R20, R356, R421): TIME_NOW is 0, FEED_ID is read, the shutdown cause goes. -/
def State.perstRelease (s : State) : State :=
  if !s.power.perst then s
  else
    let s := { s with timeNow := 0, power := { s.power with perst := false, fromMain := false, bootWait := true, cause := 0 } }
    (s.setReg pgSideband 0 R.SIDEBAND_FEED_ID s.sb.feedPins).tryBoot

/-- BOOT_ERR and the state that a failure leads to: 3 RECOVERY or 4 HALTED, in Aux power (R358, R359). -/
def State.bootFail (s : State) (code unit st : Nat) : State :=
  let s := s.setReg pgRot 0 R.ROOT_OF_TRUST_BOOT_ERR (code + 256 * s.boot.phase + 65536 * (unit / 2))
  let s := s.setFld pgRot 0 F.ROOT_OF_TRUST_BOOT_STATE_STATE st
  { s with boot := { s.boot with state := st, pushAt := none }, power := { s.power with state := 1 } }

/-- A failure of shared infrastructure: HALTED and a DF record in the package ring. The spec names no cause but a port's for it; the cause
of the others is free (DESIGN CHOICE log 73). -/
def State.bootHalt (s : State) (code page : Nat) : State :=
  let ring := s.ring pgPkgErr
  let cause := if assignedType page = .d2d then caD2D_FAIL else s.freeVal.toNat % 256
  let e : ErrRec :=
    { seq := ring.next, sev := sevDF, esc := false, notice := false, cause := cause, part := 0, infra := true, page := page, count := 1,
      key := 0, time := s.timeNow, detail := 0, opened := true }
  let s := s.freshen.setRing pgPkgErr { next := ring.next + 1, slots := sset ring.slots (ring.next % 256) e }
  let s := (s.setFld pgPkgErr 0 F.ERR_ERR_STATE_DF 1).bump page 0 R.HDR_CNT_ERR_DF 1
  let s := s.signalErr { page := page, key := 0, part := 0, infra := true, pkg := true } sevDF
  s.bootFail code page 4

/-- The end of phase 1: the key, the configuration record and the certificate chain (R362, R365, R366). -/
def State.bootIdentity (s : State) : State :=
  let fp := Config.identityFingerprint s.helperData
  let rec_ := s.flashBytes flConfig 0x10000
  let chain := s.flashBytes flCert 0x10000
  let chk := (Config.recordCheck rec_ fp).val
  let s := s.setReg pgIdentity 0 R.IDENTITY_ID_STATUS
    (b2n (Config.keyOk s.helperData) 0 + b2n (Config.certOk chain fp) 1 + b2n (chk = 0) 2)
  if chk ≠ 0 then s.bootFail (7 + chk) 0 3
  else
    let s := { s with boot := { s.boot with
      cfgSerial := Config.recordField 0 rec_ % 2 ^ 64
      cfgClass := Config.recordField 1 rec_ % 65536
      cfgSnap := Config.recordField 2 rec_ % 2 ^ 32 } }
    let s := s.setReg pgIdentity 0 R.IDENTITY_ID_CLASS (s.boot.cfgClass + 65536 * 0xB0)
    (s.setReg pgIdentity 0 R.IDENTITY_ID_SNAPFMT s.boot.cfgSnap).bootPhase 2

/-- SHA-512 of the signed bytes of the flash image (R368 index 3). -/
def State.measured (s : State) : State :=
  { s with boot := { s.boot with measImage := (Config.sha512 (imgSigned s.flashSrc)).toNat } }

/-- Bytes of the sections of a type (R354). -/
def imgSection (src : Nat → Byte) (t : Nat) : List Byte :=
  ((imgSections src).filter (fun x => x.1 = t)).flatMap (fun x => imgBytes src x.2.1 x.2.2)

/-- The end of phase 2: the image of flash is checked; a failure leads to RECOVERY (R355, R359). -/
def State.bootImage (s0 : State) : State :=
  let s := s0.measured
  match s.checkFlash with
  | 0 =>
    let s := (s.setReg pgPkgMgr 0 R.PKG_MGR_FW_FLASH (imgVersion s.flashSrc)).bootPhase 3
    (hbmPages s.n8).foldl (fun s h => s.setReg h 0 R.HBM_CTRL_HBM_STATE 1) s
  | k => (s.bump pgRot 0 R.ROOT_OF_TRUST_IMAGE_FAILS 1).bootFail k 0 3

/-- What fettling finds of one cluster: logical numbers, spare, absence, FETTLE_CLUSTER (R363, R364). -/
def State.fettleCluster (s : State) (g : Nat) (good : List Nat) (dead : Bool) : State :=
  let n := (dedup (good.filter (fun i => decide (i < 65)))).length
  let gone := dead || decide (n = 0)
  let s := s.setCluster g { ClusterX.init with good := min 64 n, spare := if 65 ≤ n && !gone then 1 else 0, dead := dead }
  let s := ((List.range 64).filter (fun u => decide (n ≤ u))).foldl (fun s u =>
    s.updCore (clusterPage g u) (fun c => { c with absent := true })) s
  { s with boot := { s.boot with goodInfo := sset s.boot.goodInfo g (n + b2n (65 ≤ n && !gone) 7 + b2n gone 8) } }

/-- The fettling pass (R363, R364): clusters not listed have 65 good cores; HBM is written with zeros. -/
def State.fettle (s : State) (good : List (Nat × List Nat)) (dead : List Nat) : State :=
  let s := (List.range 160).foldl (fun s g =>
    s.fettleCluster g ((good.find? (fun e => e.1 = g)).map (·.2) |>.getD (List.range 65)) (dead.contains g)) s
  let present := (List.range 160).filter s.clusterPresent
  let active := (present.map (fun g => (s.cluster g).good)).sum
  let spares := (present.filter (fun g => (s.cluster g).spare = 1)).length
  let s := s.setReg pgRot 0 R.ROOT_OF_TRUST_FETTLE_SUMMARY (active + 2 ^ 14 * spares + 2 ^ 22 * (160 - present.length))
  let s := s.setFld pgRot 0 F.ROOT_OF_TRUST_BOOT_STATE_DEGRADED (if active < 10240 then 1 else 0)
  { s with hbm := [], hbmBad := [], retireFailed := [] }

/-- Ready (R357): partition 0 owns every present cluster; the image that runs; fuses advanced (R355). -/
def State.bootReady (s : State) : State :=
  let v := imgVersion s.flashSrc
  let svn := imgLE s.flashSrc 0x10 2
  let adv := (imgLE s.flashSrc 0x18 4).testBit 0
  let rev := (Config.imageRevokes (imgBytes s.flashSrc 0 (imgLE s.flashSrc 8 4))).toNat
  let s := { s with
    boot := { s.boot with phase := 5, state := 2, readyT := s.timeNow, minSvn := if adv then max s.boot.minSvn svn else s.boot.minSvn,
                          revoked := s.boot.revoked ||| rev,
                          measRun := (Config.sha512 (imgSection s.flashSrc 1 ++ imgSection s.flashSrc 4)).toNat }
    power := { s.power with state := 3, idleSince := s.timeNow }
    parts := [(0, { PartX.init with state := 2, fwVersion := v })] }
  let s := (List.range 5).foldl (fun s n =>
    s.setReg pgPartition 0 (R.PARTITION_CLUSTER_MASK_0 + 4 * n)
      (((List.range 32).filter (fun j => s.clusterPresent (32 * n + j))).map (2 ^ ·)).sum) s
  let s := (s.setReg pgPkgMgr 0 R.PKG_MGR_FW_RUNNING_PKG v).setReg pgRot 0 R.ROOT_OF_TRUST_BOOT_LAST_NS s.timeNow
  let s := (s.setFld pgRot 0 F.ROOT_OF_TRUST_BOOT_STATE_STATE 2).setFld pgRot 0 F.ROOT_OF_TRUST_BOOT_STATE_PCT 100
  (s.setFld pgPower 0 F.POWER_POWER_STATUS_STATE 2).progress pgRot 0 5 10000 0

/-- BOOT_PHASE_END: the present phase's work is done, or a unit has failed (R356, R358). -/
def State.bootEnd (s : State) (r : BootOutcome) : State :=
  if s.boot.state ≠ 1 || s.power.state ≠ 2 then s
  else match r with
    | .infraFail page => s.bootHalt 10 page
    | .hbmTrain page => if s.boot.phase = 3 then s.bootHalt 11 page else s
    | .fettled good dead => if s.boot.phase = 4 then (s.fettle good dead).bootPhase 5 else s
    | .done =>
      if s.boot.phase = 1 then s.bootIdentity
      else if s.boot.phase = 2 then s.bootImage
      else if s.boot.phase = 3 then ((hbmPages s.n8).foldl (fun s h => s.setReg h 0 R.HBM_CTRL_HBM_STATE 2) s).bootPhase 4
      else if s.boot.phase = 5 then s.bootReady
      else s

/-! ### Host resets (R309, R310) -/

/-- A queue's part of an FLR: its tasks abort with HOST_ABORT, and its ENABLE is cleared. -/
def State.flrQueue (s : State) (q : Nat) : State :=
  let s := ((s.queue q).tasks.map (·.id)).foldl (fun s t => s.abortWhole q t 0x0E) s
  let s := (s.queue q).tasks.foldl (fun s t => s.releaseCluster q t false) s
  let s := s.setQreg q R.QCTX_QCFG (putBits (s.qcfg q) 0 0 0)
  let s := { s with adm := { s.adm with fifo := s.adm.fifo.filter (· ≠ q) } }
  s.updQueue q (fun x => { x with tasks := [], cmds := [], state := 0 })

/-- The FLR effects for a partition. The runner's CAUSE is free: the spec gives none (DESIGN CHOICE log 74). -/
def State.flrPart (s : State) (p : Nat) : State :=
  let s := (s.queuesOf p).foldl (fun s q => s.flrQueue q) s
  let s := if s.jrState p = 0 then s else (s.jrStop p (s.freeVal.toNat % 5)).freshen
  let s := { s with cxl := { s.cxl with
    ringWait := s.cxl.ringWait.filter (fun t => s.queueOwner t.1 ≠ p)
    cache := s.cxl.cache.filter (fun l => l / 2 ^ 58 ≠ p) } }
  let s := (s.setReg pgPackage p R.GRP_HOST_CFG 0).setReg pgPackage p R.GRP_HOST_PASID 0
  (s.bump pgCxl 0 R.CXL_FLR_COUNT 1).progress pgCxl 0 2 10000 p

/-- The partitions that are reset with every function: those of enabled VFs, then partition 0. -/
def State.flrAll (s : State) : State :=
  let vfs := if s.cxl.vfEnable then s.partNums.filter (· ≠ 0) else []
  (vfs ++ [0]).foldl (fun s p => s.flrPart p) s

/-- FLR of VF n; a VF that does not exist cannot be reset. -/
def State.flr (s : State) (n : Nat) : State :=
  if s.ready && s.cxl.vfEnable && n ≠ 0 && decide (n < 256) then s.flrPart n else s

/-- FLR of the PF: VF Enable goes, every VF and then partition 0 undergo the FLR effects; the PF's own ATS Enable is configuration space. -/
def State.pfFlr (s : State) : State :=
  if !s.ready then s
  else
    let s := s.flrAll
    { s with cxl := { s.cxl with vfEnable := false, ats := [] } }

/-- Hot reset, link disable or link down: configuration space, HOST_CFG and HOST_PASID return to reset, and the FLR effects follow; the link
is down until it trains again. -/
def State.hotReset (s : State) : State :=
  let s := if s.ready then s.flrAll else s
  let s := { s with cxl := { s.cxl with vfEnable := false, ats := [], linkUp := false, cxlMode := false, cache := [], ringWait := [] } }
  let s := { s with regs := s.regs.filter (fun e =>
    !(keyPage e.1 = pgPackage && (keyOff e.1 = R.GRP_HOST_CFG || keyOff e.1 = R.GRP_HOST_PASID))) }
  s.setReg pgCxl 0 R.CXL_LINK_STATUS 0

def execPerstAssert (s : State) : Result := .next s.perstAssert.sbEvents
def execPerstRelease (s : State) : Result := .next s.perstRelease.sbEvents
def execBootPhaseEnd (r : BootOutcome) (s : State) : Result := .next (s.bootEnd r).sbEvents
def execHotReset (s : State) : Result := .next s.hotReset
def execFlr (fn : Nat) (s : State) : Result := .next (s.flr fn)
def execPfFlr (s : State) : Result := .next s.pfFlr

end Sys2Proof.Machine
end

