-- ==== Sys2Proof/Machine/Power.lean ====
section
/-! DEFINITION. Power states, parking, the cap loop, cooling and the input (R398 to R415, R421), the reference clock (R21), the
PLDM effecters (R417), a die-to-die port that fails (R316), and the meters that time drives (R281, R282, R288). -/

namespace Sys2Proof.Machine

def State.setPower (s : State) (f : Fld) (v : Nat) : State := s.setFld pgPower 0 f v

/-! ### Shown state (R426) -/

/-- Whether the flow throttle applies, for lost flow or for a leak (R413, R414). -/
def State.throttled (s : State) : Bool := s.power.throttle || s.power.leakThrottle

/-- The effective cap in W (R407, R412). -/
def State.effectiveCap (s : State) : Nat :=
  min (s.reg pgPower 0 R.POWER_CAP_W) (min (if s.power.hotJ then s.power.capJ else 4000) (if s.power.hotH then s.power.capH else 4000))

/-- Stage 1 and the duty in effect: the more restrictive of the loop's settings and the throttle's (R413, R415). -/
def State.stage1Now (s : State) : Nat := if s.throttled then 64 else s.power.stage1
def State.dutyNow (s : State) : Nat := if s.throttled then 4 else s.power.duty

/-- CAP_STATE and the status bits that show the loops. -/
def State.showPower (s : State) : State :=
  let d := s.dutyNow
  let s := s.setReg pgPower 0 R.POWER_CAP_STATE (b2n (decide (0 < s.stage1Now)) 0 + b2n (decide (d < 64)) 1 + 4 * d + 65536 * s.effectiveCap)
  (s.setPower F.POWER_POWER_STATUS_FLOW_THROTTLE (b2n s.throttled 0)).setPower F.POWER_POWER_STATUS_THERMAL_CAP
    (b2n (s.power.hotJ || s.power.hotH) 0)

/-! ### Parking (R404 to R406) -/

/-- Some halt is in effect (R389). -/
def State.anyHalt (s : State) : Bool :=
  s.dbg.any (fun e => e.2.halted || e.2.wantHalt) ||
    s.regs.any (fun e => keyOff e.1 = R.DBG_ISL_HALT && assignedType (keyPage e.1) = .clusterCtrl && e.2 ≠ 0)

/-- A snapshot, a stream, a push or a hold is under way (R404). -/
def State.snapBusy (s : State) : Bool :=
  s.parts.any (fun e => e.2.snap.pushing || e.2.snap.held || e.2.snap.fetch.isSome || e.2.snap.pairCmd.isSome) ||
    s.xfers.any (fun x => x.snap)

/-- The conditions of R404. -/
def State.parkOk (s : State) : Bool :=
  let fw := s.fld pgPkgMgr 0 F.PKG_MGR_FW_STATUS_STATE
  s.partNums.all s.partIdle && !s.snapBusy && !(decide (1 ≤ fw) && decide (fw ≤ 3)) && !s.anyHalt && !s.throttled

/-- Parking begins. -/
def State.parkBegin (s : State) : State :=
  let s := { s with power := { s.power with state := 6, since := s.timeNow, parkWait := false } }
  ((s.setPower F.POWER_POWER_STATUS_STATE 3).setPower F.POWER_POWER_STATUS_PARK_WAIT 0).progress pgPower 0 1 0 4

/-- A PARK waits. -/
def State.parkLater (s : State) : State :=
  { (s.setPower F.POWER_POWER_STATUS_PARK_WAIT 1) with power := { s.power with parkWait := true } }

/-- PARK: at once where the conditions hold; during a return it is judged when the return completes (R404, R405). -/
def State.park (s : State) : State :=
  if s.power.state = 3 then (if s.parkOk then s.parkBegin else s.parkLater)
  else if s.power.state = 5 then s.parkLater
  else s

/-- HBM_STATE.STATE of every populated stack. -/
def State.setHbmState (s : State) (v : Nat) : State :=
  (hbmPages s.n8).foldl (fun s h => s.setFld h 0 F.HBM_CTRL_HBM_STATE_STATE v) s

/-- PARK_ENTRY: a module that is parking, or waits to, enters Parked once the conditions hold. -/
def State.parkEntry (s : State) : State :=
  if (s.power.state = 6 || (s.power.state = 3 && s.power.parkWait)) && s.parkOk then
    let s := s.parkBegin
    let s := { s with power := { s.power with state := 4, hbmUsed := none, linksUsed := none } }
    let s := (s.setPower F.POWER_POWER_STATUS_STATE 4).setPower F.POWER_POWER_STATUS_LINKS_LP 1
    ((s.setHbmState 3).bump pgPower 0 R.POWER_PARK_ENTRIES 1).progress pgPower 0 1 10000 4
  else s

/-- AUTO_PARK: the conditions have held without a break for AUTO_PARK_MS. -/
def State.autoPark (s : State) : State :=
  if s.power.state = 3 && s.fld pgPower 0 F.POWER_POWER_CFG_AUTO_PARK = 1 && s.parkOk &&
      decide (s.power.idleSince + 1000000 * s.reg pgPower 0 R.POWER_AUTO_PARK_MS ≤ s.timeNow) then s.parkBegin
  else s

/-- UNPARK: a waiting PARK is cancelled; a parked or parking module returns to Ready. -/
def State.unpark (s : State) : State :=
  if s.power.state = 4 || s.power.state = 6 then s.wake
  else if s.ready then { (s.setPower F.POWER_POWER_STATUS_PARK_WAIT 0) with power := { s.power with parkWait := false } }
  else s

/-- READY_RETURN_DONE: Ready is reached; a waiting PARK is evaluated afresh. -/
def State.returnDone (s : State) : State :=
  if s.power.state ≠ 5 then s
  else
    let wait := s.power.parkWait
    let s := { s with power := { s.power with state := 3, returnT := s.timeNow, idleSince := s.timeNow, hbmUsed := none, linksUsed := none } }
    let s := (s.setPower F.POWER_POWER_STATUS_STATE 2).setPower F.POWER_POWER_STATUS_LINKS_LP 0
    let s := (s.setHbmState 2).progress pgPower 0 2 10000 2
    if wait then s.park else s

/-- HBM_SELF_REFRESH_RETURN: 10 ms after the last CXL.mem access (R405). -/
def State.hbmSleeps (s : State) : State :=
  match s.power.hbmUsed with
  | some t =>
    if s.power.state = 4 && decide (t + 10000000 ≤ s.timeNow) then
      { (s.setHbmState 3) with power := { s.power with hbmUsed := none } }
    else s
  | none => s

/-- LINK_LOW_POWER_RETURN: 10 ms after the last traffic (R405). -/
def State.linksSleep (s : State) : State :=
  match s.power.linksUsed with
  | some t =>
    if s.power.state = 4 && decide (t + 10000000 ≤ s.timeNow) then
      { (s.setPower F.POWER_POWER_STATUS_LINKS_LP 1) with power := { s.power with linksUsed := none } }
    else s
  | none => s

/-! ### The cap (R407 to R409) -/

/-- A cap of 2,000 to 4,000 W takes effect; another is dropped as BUSY_WRITE (R408). -/
def State.setCap (s : State) (p v : Nat) : State :=
  if 2000 ≤ v ∧ v ≤ 4000 then (s.setReg pgPower 0 R.POWER_CAP_W v).showPower else s.busyDrop p pgPower R.POWER_CAP_W

/-- One step tighter: stage 1 first, then the duty; by how much is free (DESIGN CHOICE log 84). -/
def State.capTighten (s : State) : State :=
  let k := 1 + s.freeVal.toNat % 64
  let w := s.power
  let w := if w.stage1 < 64 then { w with stage1 := min 64 (w.stage1 + k) } else { w with duty := max 4 (w.duty - k) }
  { s with power := w }.freshen

/-- One step looser: the duty first, then stage 1. -/
def State.capRelease (s : State) : State :=
  let k := 1 + s.freeVal.toNat % 64
  let w := s.power
  let w := if w.duty < 64 then { w with duty := min 64 (w.duty + k) } else { w with stage1 := w.stage1 - k }
  { s with power := w }.freshen

/-- The cap cannot hold the input (R409). -/
def State.capFloor (s : State) (low : Bool) : State :=
  let was := s.fld pgPower 0 F.POWER_POWER_STATUS_CAP_FLOOR
  let s := s.setPower F.POWER_POWER_STATUS_CAP_FLOOR (b2n low 0)
  if low && was = 0 then (s.raisePage pgPower 8).pkgNotice pgPower caCAP_FLOOR s.effectiveCap else s

/-- CAP_CONTROL_TICK: means of the input power in mW over the last 100 µs and 1 ms. -/
def State.capTick (s : State) (m100 m1000 : Nat) : State :=
  if !s.ready then s
  else
    let cap := 1000 * s.effectiveCap
    let below := if 100 * m1000 < 98 * cap then some (s.power.below.getD s.timeNow) else none
    let s := { s with power := { s.power with below := below } }
    let rel := match below with
      | some t => decide (t + 1000000 ≤ s.timeNow)
      | none => false
    let s := if cap < m100 then s.capTighten else if rel then s.capRelease else s
    (s.capFloor (decide (s.dutyNow = 4) && decide (cap < m1000))).showPower

/-! ### Cooling (R411 to R414) -/

def isHbmSel (sel : Nat) : Bool := decide (176 ≤ sel)

/-- The hottest of some readings; none without one. -/
def hottest (l : List (Nat × Int)) : Option Int :=
  match l with
  | [] => none
  | x :: r => some (r.foldl (fun m y => max m y.2) x.2)

/-- A response's cap falls while a reading stands above the level at which it stops; by how much is free (DESIGN CHOICE log 84). -/
def State.lowerCap (s : State) (cap : Nat) : Nat := cap - (1 + s.freeVal.toNat % 64)

/-- The junctions' response: begins at 95 °C, holds its cap once all are at or below 94 °C. -/
def State.junctionRule (s : State) (t : Int) : State :=
  let w := s.power
  if 1520 ≤ t then
    let s' := { s with power := { w with hotJ := true, capJ := s.lowerCap w.capJ, coolJ := 0 } }.freshen
    if w.hotJ then s' else (s'.raisePage pgPower 10).pkgNotice pgPower caTHERMAL_CAP 0
  else if w.hotJ then
    let w := { w with coolJ := if w.coolJ = 0 then s.timeNow else w.coolJ }
    if 1504 < t then { s with power := { w with capJ := s.lowerCap w.capJ } }.freshen else { s with power := w }
  else s

/-- The stacks' response: begins at 90 °C, holds its cap once all are at or below 88 °C. -/
def State.stackRule (s : State) (t : Int) : State :=
  let w := s.power
  if 1440 ≤ t then
    let s' := { s with power := { w with hotH := true, capH := s.lowerCap w.capH, coolH := 0 } }.freshen
    if w.hotH then s' else s'.pkgNotice pgPower caHBM_HOT 0
  else if w.hotH then
    let w := { w with coolH := if w.coolH = 0 then s.timeNow else w.coolH }
    if 1408 < t then { s with power := { w with capH := s.lowerCap w.capH } }.freshen else { s with power := w }
  else s

/-- Inlet outside 15 to 40 °C: a notice per excursion. -/
def State.inletRule (s : State) (t : Int) : State :=
  let bad := decide (t < 240) || decide (640 < t)
  let was := s.power.inletBad
  let s := { s with power := { s.power with inletBad := bad } }
  if bad && !was then s.pkgNotice pgPower caINLET_RANGE (BitVec.ofInt 16 t).toNat else s

/-- A span that runs while its condition holds. -/
def spanOf (o : Option Nat) (c : Bool) (now : Nat) : Option Nat := if c then some (o.getD now) else none

def spanFor (o : Option Nat) (now ns : Nat) : Bool :=
  match o with
  | some t => decide (t + ns ≤ now)
  | none => false

/-- Low and lost flow (R412, R413). -/
def State.flowRule (s : State) (flow : Nat) (rise : Int) : State :=
  let now := s.timeNow
  let w := s.power
  let f3 := spanOf w.flow3 (decide (flow < 3000)) now
  let f5 := spanOf w.flow5 (decide (flow < 5000)) now
  let ok := spanOf w.flowOk (decide (5500 ≤ flow) && decide (rise ≤ 240)) now
  let low := spanFor f5 now 100000000
  let lost := spanFor f3 now 2000000 || decide (240 < rise)
  let s := { s with power := { w with flow3 := f3, flow5 := f5, flowOk := ok, flowNoted := low, throttle := w.throttle || lost } }
  let s := if low && !w.flowNoted then s.pkgNotice pgPower caFLOW_LOW flow else s
  if lost && !w.throttle then (s.raisePage pgPower 9).pkgNotice pgPower caFLOW_LOST flow else s

/-- The input and temperature registers (R401, R411, R426). -/
def State.showSample (s : State) (r : Sensors) : State :=
  let s := { s with power := { s.power with temps := r.temps.foldl (fun (m : Store Int) (e : Nat × Int) => sset m e.1 e.2) s.power.temps } }
  let s := ((s.setReg pgPower 0 R.POWER_INPUT_MW (r.mw % 2 ^ 32)).setReg pgPower 0 R.POWER_INPUT_MV (r.mv % 2 ^ 32)).setReg pgPower 0
    R.POWER_INPUT_MA (r.ma % 2 ^ 32)
  let h16 := fun (t : Int) => (BitVec.ofInt 16 t).toNat
  let hj := (hottest (s.power.temps.filter (fun (e : Nat × Int) => !isHbmSel e.1))).getD 0
  let hh := (hottest (s.power.temps.filter (fun (e : Nat × Int) => isHbmSel e.1))).getD 0
  let s := s.setReg pgPower 0 R.POWER_COOL_STATE (h16 r.inlet + 65536 * h16 r.outlet)
  let s := s.setReg pgPower 0 R.POWER_FLOW (min 65535 r.flow)
  let s := s.setReg pgPower 0 R.POWER_TEMP_HOT (h16 hj + 65536 * h16 hh)
  if 58000 ≤ r.mv ∧ r.mv ≤ 67000 then s.setPower F.POWER_POWER_STATUS_INPUT_RANGE 0 else s

/-- SENSOR_SAMPLE (R412): a shutdown condition overrides every other response (R415). -/
def State.sample (s : State) (r : Sensors) : State :=
  let s := s.showSample r
  let hj := (hottest (s.power.temps.filter (fun (e : Nat × Int) => !isHbmSel e.1))).getD 0
  let hh := (hottest (s.power.temps.filter (fun (e : Nat × Int) => isHbmSel e.1))).getD 0
  if !s.mainOn then s
  else if 1680 ≤ hj then s.enterAux 4
  else if 1600 ≤ hh then s.enterAux 5
  else ((((s.junctionRule hj).stackRule hh).inletRule r.inlet).flowRule r.flow (r.outlet - r.inlet)).showPower

/-- THERMAL_RELEASE: a thermal response ends once its condition has been absent for 1 s. -/
def State.thermalRelease (s : State) : State :=
  let w := s.power
  let w := if w.hotJ && w.coolJ ≠ 0 && decide (w.coolJ + 1000000000 ≤ s.timeNow) then { w with hotJ := false, capJ := 4000, coolJ := 0 } else w
  let w := if w.hotH && w.coolH ≠ 0 && decide (w.coolH + 1000000000 ≤ s.timeNow) then { w with hotH := false, capH := 4000, coolH := 0 } else w
  if s.mainOn then { s with power := w }.showPower else s

/-- FLOW_THROTTLE_END (R413). -/
def State.throttleEnd (s : State) : State :=
  if s.power.throttle && spanFor s.power.flowOk s.timeNow 1000000000 then
    { s with power := { s.power with throttle := false } }.showPower
  else s

/-- LEAK: LEAK_DET# has been low for 1 ms (R414). -/
def State.leakOn (s : State) : State :=
  let s := { s with power := { s.power with leak := true } }
  if s.fld pgPower 0 F.POWER_POWER_CFG_LEAK_SHUTDOWN = 1 || !s.mainOn then s.enterAux 6
  else { s with power := { s.power with leakThrottle := true } }.showPower

/-- LEAK_CLEAR. -/
def State.leakOff (s : State) : State :=
  let s := { s with power := { s.power with leak := false, leakThrottle := false } }
  if s.mainOn then s.showPower else s

/-! ### The input (R398 to R403) -/

/-- INPUT_RISE: an Off module enters Aux; the boot that a released PERST# awaits begins once the input stands in range. -/
def State.inputRise (s : State) : State :=
  (if s.power.inputOn then s else { s with power := { s.power with inputOn := true, state := 1 } }).tryBoot

/-- INPUT_RANGE: a notice once per excursion (R400). -/
def State.inputRange (s : State) : State :=
  if !s.mainOn || s.fld pgPower 0 F.POWER_POWER_STATUS_INPUT_RANGE = 1 then s
  else (s.setPower F.POWER_POWER_STATUS_INPUT_RANGE 1).pkgNotice pgPower caINPUT_RANGE (s.reg pgPower 0 R.POWER_INPUT_MV)

/-- INPUT_OFF: everything but flash, fuses, pins and what lies outside is lost. -/
def State.inputOff (s : State) : State :=
  let t := { s with power := { s.power with inputOn := false } }.mainOff
  { t with
    regs := []
    timeNow := 0
    power := { t.power with cause := 0, fromMain := false, temps := [] } }

/-- FEED_CHANGED (R421). -/
def State.feedChanged (s : State) (pins : Nat) : State :=
  let was := s.sb.feedPins
  let s := { s with sb := { s.sb with feedPins := pins % 64 } }
  if was = pins % 64 || s.power.perst || !s.mainOn then s
  else (s.raisePage pgSideband 8).pkgNotice pgSideband caFEED_CHANGED (pins % 64)

/-! ### The reference (R21) -/

/-- REF_LOST: TIME_NOW goes on from the holdover oscillator; alignment is invalid and a record goes to the package ring. -/
def State.refLost (s : State) : State :=
  if !s.refPresent then s
  else
    let s := { s with refPresent := false, timeX := { s.timeX with lostT := s.timeNow } }
    if !s.mainOn then s
    else (s.raiseErr { s.srcOf (diePage 8 2) 0 with pkg := true } caREF_LOST 0 none 0).timeInvalid

/-- REF_RETURN: the difference that the holdover has gathered, free within ±50 ppm, is spread over the following 10 ms (DESIGN CHOICE log 85). -/
def State.refReturn (s : State) : State :=
  if s.refPresent then s
  else
    let s := { s with refPresent := true }
    if !s.mainOn then s.tryBoot
    else
      let bound := (s.timeNow - s.timeX.lostT) / 20000
      let d : Int := Int.ofNat (s.freeVal.toNat % (2 * bound + 1)) - Int.ofNat bound
      { s with holdover := s.holdover + d, timeX := { s.timeX with relockT := s.timeNow + 10000000 } }.freshen

/-! ### D2D_FAIL (R316, R349) -/

/-- A die-to-die port fails in service. -/
def State.d2dFails (s : State) (page : Nat) : State :=
  if s.pageType page ≠ .d2d then s
  else (s.setReg page 0 R.D2D_D2D_STATE 0).raiseErr (s.srcOf page 0) caD2D_FAIL 0 none 0

/-! ### PLDM effecters (R417): they act as their register counterparts -/

/-- SetStateEffecterStates: 0 PARK, 1 UNPARK, 2 AUX (DEDUCED log 81). -/
def State.setStateEffecter (s : State) (id st : Nat) : State :=
  s.pldm (fun s =>
    if id = 1 ∧ st ≤ 2 then
      let s := s.say [pmSETSTATE, 0]
      if st = 0 then s.park else if st = 1 then s.unpark else s.enterAux 7
    else s.say [pmSETSTATE, 2])

/-- SetNumericEffecterValue. -/
def State.setNumEffecter (s : State) (id v : Nat) : State :=
  s.pldm (fun s => if id = 2 ∧ s.ready then (s.say [pmSETNUM, 0]).setCap 0 v else s.say [pmSETNUM, 2])

/-- GetNumericEffecterValue. -/
def State.getNumEffecter (s : State) (id : Nat) : State :=
  s.pldm (fun s => if id = 2 then s.say [pmGETNUM, 0, s.reg pgPower 0 R.POWER_CAP_W] else s.say [pmGETNUM, 2])

/-! ### Meters that time drives (R281, R282, R288) -/

/-- BUDGET_WINDOW: at a new window POOL_USED_MS reads 0, and partitions that were held back may take free clusters. -/
def State.budgetWindow (s : State) : State :=
  let len := 1000000000 * max 1 (s.reg pgPartition 0 R.PARTITION_BUDGET_WINDOW_S)
  let n := s.timeNow / len
  if !s.ready || n = s.adm.window then s
  else
    let s := { s with
      adm := { s.adm with window := n }
      parts := s.parts.map (fun (e : Nat × PartX) => (e.1, { e.2 with usedNs := 0 }))
      queues := s.queues.map (fun (e : Nat × QueueX) => (e.1, { e.2 with tasks := e.2.tasks.map (fun (t : Task) =>
        if t.cluster.isSome then { t with poolMark := max t.poolMark (n * len) } else t) })) }
    s.freePool.foldl (fun s g => s.poolGrant g) s

/-- Held nanoseconds of a partition's pool tasks until now. -/
def State.poolNsNow (s : State) (p : Nat) : Nat :=
  s.reg pgMeter p R.METER_POOL_NS + ((s.queuesOf p).flatMap (fun q => (s.queue q).tasks.filterMap (fun t =>
    t.cluster.map (fun _ => s.timeNow - t.startT)))).sum

/-- What stands for a partition's activity: its busy cores, cells, memory, link and host traffic. -/
def State.activity (s : State) (p : Nat) : Nat :=
  ([R.METER_CORE_BUSY_NS, R.METER_CELL_ACTIVE, R.METER_HBM_BYTES, R.METER_LINK_BYTES, R.METER_HOST_BYTES].map (fun o => s.reg pgMeter p o)).sum

/-- Dynamic energies in nJ: free where there was activity, together at most what was measured (DESIGN CHOICE log 9). -/
def dynShares (fresh : Nat) : List (Nat × Bool) → Nat → List (Nat × Nat)
  | [], _ => []
  | (p, active) :: r, left =>
    let d := if active then (Config.free fresh).toNat % (left + 1) else 0
    (p, d) :: dynShares (fresh + 1) r (left - d)

/-- A partition's static share in nJ of `st` nJ over `dt` nanoseconds (R288). -/
def State.staticShare (s : State) (p st dt links : Nat) : Nat :=
  let pool := s.poolNsNow p - (s.part p).poolNsMark
  let c := if dt = 0 then 0 else st * 60 * ((s.clustersOf p).length * dt + pool) / (16000 * dt)
  let h := st * 25 * s.hbmSize p / (100 * hbmBytes s.n8)
  let l := if links = 0 then 0 else st * 15 * (s.reg pgMeter p R.METER_LINK_BYTES - (s.part p).linkMark) / (100 * links)
  c + h + l

/-- Credit a partition with an interval's energy in nJ; below a millijoule it is carried. -/
def State.creditEnergy (s : State) (p nj : Nat) : State :=
  let t := nj + (s.part p).energyRem
  (s.meter p R.METER_ENERGY_MJ (t / 1000000)).updPart p (fun x => { x with
    energyRem := t % 1000000
    poolNsMark := s.poolNsNow p
    linkMark := s.reg pgMeter p R.METER_LINK_BYTES
    actMark := s.activity p })

/-- ENERGY_ATTRIBUTION of `mj` measured millijoules; a halted package manager delays it (R390). Idle pool clusters, unreserved HBM and
the links' share of a quiet interval fall to partition 0, which takes all that no tenant receives. -/
def State.attribute (s0 : State) (mj : Nat) : State :=
  let s := s0.bump pgMeter 0 R.METER_ENERGY_TOTAL_MJ mj
  if !s.ready then s0
  else if s.pkgStopped then { s with adm := { s.adm with energyOwed := s.adm.energyOwed + mj } }
  else
    let e := 1000000 * (mj + s.adm.energyOwed)
    let dt := s.timeNow - s.adm.energyT
    let ps := s.partNums
    let dyn := dynShares s.fresh (ps.map (fun p => (p, decide (s.activity p ≠ (s.part p).actMark)))) e
    let st := e - (dyn.map (·.2)).sum
    let links := (ps.map (fun p => s.reg pgMeter p R.METER_LINK_BYTES - (s.part p).linkMark)).sum
    let own := (dyn.filter (fun d => d.1 ≠ 0)).map (fun d => (d.1, d.2 + s.staticShare d.1 st dt links))
    let rest := e - (own.map (·.2)).sum
    let s := ((0, rest) :: own).foldl (fun s d => s.creditEnergy d.1 d.2) s
    { s with fresh := s.fresh + ps.length, adm := { s.adm with energyT := s.timeNow, energyOwed := 0 } }

/-- BANDWIDTH_INTERVAL: shares are enforced by slowing traffic, which is timing only (R282); no state of the block changes. -/
def State.bandwidth (s : State) : State := s

def execParkEntry (s : State) : Result := .next s.parkEntry.sbEvents
def execAutoPark (s : State) : Result := .next s.autoPark
def execHbmSelfRefreshReturn (s : State) : Result := .next s.hbmSleeps
def execLinkLowPowerReturn (s : State) : Result := .next s.linksSleep
def execReadyReturnDone (s : State) : Result := .next s.returnDone.sbEvents
def execCapControlTick (mean100us mean1ms : Nat) (s : State) : Result := .next (s.capTick mean100us mean1ms)
def execInputTrip (s : State) : Result := .next (s.enterAux 3).sbEvents
def execSensorSample (r : Sensors) (s : State) : Result := .next (if s.power.inputOn then (s.sample r).sbEvents.sbLevels else s)
def execThermalRelease (s : State) : Result := .next s.thermalRelease
def execFlowThrottleEnd (s : State) : Result := .next s.throttleEnd
def execInputRise (s : State) : Result := .next s.inputRise.sbEvents
def execInputRange (s : State) : Result := .next s.inputRange
def execUndervoltage (s : State) : Result := .next (s.enterAux 1).sbEvents
def execOvervoltage (s : State) : Result := .next (s.enterAux 2).sbEvents
def execInputOff (s : State) : Result := .next s.inputOff
def execLeak (s : State) : Result := .next s.leakOn.sbEvents
def execLeakClear (s : State) : Result := .next s.leakOff.sbEvents
def execFeedChanged (pins : Nat) (s : State) : Result := .next (s.feedChanged pins)
def execRefLost (s : State) : Result := .next s.refLost
def execRefReturn (s : State) : Result := .next s.refReturn.sbEvents
def execD2dFail (page : Nat) (s : State) : Result := .next (s.d2dFails page)
def execSetStateEffecterStates (id st : Nat) (s : State) : Result := .next (s.setStateEffecter id st).sbEvents
def execSetNumericEffecterValue (id value : Nat) (s : State) : Result := .next (s.setNumEffecter id value)
def execGetNumericEffecterValue (id : Nat) (s : State) : Result := .next (s.getNumEffecter id)
def execBudgetWindow (s : State) : Result := .next s.budgetWindow
def execEnergyAttribution (mj : Nat) (s : State) : Result := .next (s.attribute mj)
def execBandwidthInterval (s : State) : Result := .next s.bandwidth

end Sys2Proof.Machine
end

