-- ==== Sys2Proof/Machine/Debug.lean ====
section
/-! DEFINITION. Halting (R387, R389 to R395): halts of control cores and arithmetic islands, resuming, stepping, and HALT_NOTICE. Who may
cause them is checked where the register is written (`Access.lean`). -/

namespace Sys2Proof.Machine

/-- An instruction trace frame with one SYNC packet, where the core's trace is on (R387). -/
def State.itraceSync (s : State) (page reason : Nat) : State :=
  if !(s.reg page 0 R.DBG_ITRACE_CTRL).testBit 0 then s
  else
    let d := s.dbgOf page
    let frame := leBytes (page % 2 ^ 17) 4 ++ leBytes d.itraceSeq 2 ++ leBytes 10 2 ++ leBytes s.timeNow 8 ++
      (leBytes 1 1 ++ leBytes d.pc 8 ++ leBytes reason 1 ++ List.replicate 38 0)
    ((s.tracePut (s.pagePart page) true frame).updDbg page (fun d => { d with itraceSeq := (d.itraceSeq + 1) % 65536 })).bump page 0
      R.DBG_ITRACE_FRAMES 1

/-- Whether a page carries the debug block (R396). -/
def isDebugPage (page : Nat) : Bool :=
  match assignedType page with
  | .clusterCtrl | .dieMgr | .ioCtrl | .pkgMgr => true
  | _ => false

/-- Every partition's barriers are judged again. -/
def State.runAllBars (s : State) : State := s.partNums.foldl (fun s p => s.runBars p) s

/-- DBG_CTRL.HALT. -/
def State.haltReq (s : State) (page : Nat) : State := s.haltCore page 1 0

/-- HALT_DRAINED: the engines of a draining core are idle or wait on other modules. -/
def State.drained (s : State) (page : Nat) : State :=
  let d := s.dbgOf page
  if !d.wantHalt || s.busyEngines page ≠ 0 then s
  else
    let s := s.setDbg page { d with wantHalt := false, halted := true }
    (if d.frozen then s else s.setFld page 0 F.DBG_DBG_STATUS_STATE 2).progress page 0 1 10000 0

/-- The HALT record of a halted control core, in the buffer of the partition that holds it (R384). -/
def State.haltRecord (s : State) (page : Nat) : State :=
  s.traceHalt (s.pagePart page) page (s.reg page 0 R.DBG_HALT_BEGIN) (s.reg page 0 R.DBG_DBG_PC) (s.fld page 0 F.DBG_DBG_STATUS_CAUSE)
    (s.fld page 0 F.DBG_DBG_STATUS_BP)

/-- DBG_CTRL.RESUME: dropped unless the core is halted and not frozen (R394). -/
def State.resume (s : State) (page : Nat) : State :=
  let d := s.dbgOf page
  if !d.halted || d.frozen then s
  else
    let s := s.haltRecord page
    let s := s.setDbg page { d with halted := false, stepping := false, pass := s.fld page 0 F.DBG_DBG_STATUS_CAUSE = 2 && !d.pcHit }
    ((s.setFld page 0 F.DBG_DBG_STATUS_STATE 0).itraceSync page 3).runAllBars

/-- DBG_CTRL.STEP: one instruction runs and the core halts again with CAUSE = 3; where it then stands is free, and a command that the
instruction dispatches is accepted (R394; DESIGN CHOICE log 6). -/
def State.stepCore (s : State) (page : Nat) : State :=
  let d := s.dbgOf page
  if !d.halted || d.frozen then s
  else
    let s := s.haltRecord page
    let pc := 2 * (s.freeVal.toNat % 2 ^ 47)
    let s := s.freshen.setDbg page { d with stepping := true, pass := s.fld page 0 F.DBG_DBG_STATUS_CAUSE = 2 && !d.pcHit, pc := pc, since := s.timeNow }
    let s := (s.setFld page 0 F.DBG_DBG_STATUS_STATE 2).setFld page 0 F.DBG_DBG_STATUS_CAUSE 3
    let s := (s.setReg page 0 R.DBG_DBG_PC pc).setReg page 0 R.DBG_HALT_BEGIN s.timeNow
    (s.bump page 0 R.DBG_HALTS 1).itraceSync page 3

/-- One bit of ISL_HALT: core c's island halts, or resumes with its HALT record; an overdue core is assayed first (R391). -/
def State.islBit (s : State) (page c : Nat) (was now : Bool) : State :=
  let core := pageNum (pageDie page) (pageCluster page) c
  if was = now then s
  else if now then s.updDbg core (fun d => { d with since := s.timeNow })
  else
    let s := s.traceHalt (s.pagePart page) core (s.dbgOf core).since 0 1 0
    if s.assayTime core + 9000000000 < s.timeNow then s.updCore core (fun x => { x with assayFirst := true }) else s

/-- A write of ISL_HALT. -/
def State.islWrite (s : State) (page v : Nat) : State :=
  let old := s.reg page 0 R.DBG_ISL_HALT
  let s := s.setReg page 0 R.DBG_ISL_HALT v
  ((List.range 64).foldl (fun s c => s.islBit page c (old.testBit c) (v.testBit c)) s).runAllBars

/-- Units under a halt, as HALT_NOTICE names them: partition and INFRA (R393). -/
def State.haltedUnits (s : State) : List (Nat × Bool) :=
  let cores := (s.dbg.filter (fun e => e.2.halted || e.2.wantHalt)).map (·.1)
  let isl := (s.regs.filter (fun e => keyOff e.1 = R.DBG_ISL_HALT && assignedType (keyPage e.1) = .clusterCtrl && e.2 ≠ 0)).map
    (fun e => keyPage e.1)
  dedup ((cores ++ isl).map (fun page => if isClusterPage page then (s.pagePart page, false) else (0, true)))

/-- One notice on every UP link, treated as held here too. -/
def State.sendNotice (s : State) (u : Nat × Bool) : State :=
  let seq := s.noticeSeq
  let ttl := s.reg pgPkgMgr 0 R.DBG_DBG_NOTICE_TTL
  let s := s.upLinks.foldl (fun s n => s.ctrlMsg n [mHALT_NOTICE, s.moduleId, u.1, b2n u.2 0, seq, ttl]) s
  { s with noticeSeq := (seq + 1) % 65536 }.takeNotice { module := s.moduleId, seq := seq, part := u.1, infra := u.2, time := s.timeNow }

/-- HALT_NOTICE_SEND: every 250 µs while any halt is in effect. -/
def State.noticeTick (s : State) : State :=
  let us := s.haltedUnits
  if us.isEmpty || !s.ready || (s.noticeT ≠ 0 && decide (s.timeNow < s.noticeT + 250000)) then s
  else { us.foldl (fun s u => s.sendNotice u) s with noticeT := s.timeNow }

def execHaltDrained (page : Nat) (s : State) : Result := .next (s.drained page)
def execHaltNoticeSend (s : State) : Result := .next s.noticeTick

end Sys2Proof.Machine
end

