-- ==== Sys2Proof/Machine/Cxl.lean ====
section
/-! DEFINITION. The host link (R294 to R308, R311, R312): training, host lines, memory through CXL.mem, data object exchange and errors of the
link. -/

namespace Sys2Proof.Machine

/-! ### Training (R307) -/

/-- The host link can train: PERST# is released, and the module is not in Aux but for RECOVERY (R307, R359, R403). -/
def State.linkCanTrain (s : State) : Bool := !s.power.perst && (s.mainOn || s.boot.state = 3)

/-- A link that trains below 32 GT/s or x16 (R307). -/
def downtrained (speed width : Nat) : Bool := decide (speed < 5) || decide (width < 16)

/-- LINK_STATUS of a trained link. -/
def linkStatus (cxl : Bool) (speed width retimers : Nat) (sris : Bool) : Nat :=
  speed + 8 * width + b2n true 8 + b2n cxl 9 + b2n cxl 10 + 2 ^ 11 * (retimers % 4) + b2n sris 14

/-- CXL_LINK_TRAINING: `cxl` says whether the partner offers CXL 2.0, `speed` is 1 to 5. MODE = 3 is reserved and taken as automatic (DEDUCED log 75).
A trained link stands for the host's configuration of the functions (DESIGN CHOICE log 44). -/
def State.trainHost (s : State) (cxl : Bool) (speed width retimers : Nat) (sris : Bool) : State :=
  let mode := s.fld pgCxl 0 F.CXL_CXL_CFG_MODE
  if !s.linkCanTrain || speed = 0 || decide (5 < speed) || !([1, 4, 8, 16].contains width) || decide (2 < retimers) then s
  else if mode = 1 && !cxl then
    let s := { s with cxl := { s.cxl with linkUp := false, cxlMode := false, cache := [] } }
    s.setReg pgCxl 0 R.CXL_LINK_STATUS (b2n true 13)
  else
    let asCxl := cxl && mode ≠ 2
    let s := { s with cxl := { s.cxl with
      linkUp := true, cxlMode := asCxl, cache := [], vfEnable := true, ats := List.range 256 } }
    let s := s.setReg pgCxl 0 R.CXL_LINK_STATUS (linkStatus asCxl speed width retimers sris)
    let s := (s.progress pgCxl 0 1 10000 (s.freeVal.toNat % 2 ^ 32)).freshen
    if downtrained speed width then s.raisePage pgCxl 10 else s

/-! ### Host lines (R300) -/

/-- H2D_SNOOP: a held line is invalidated and answered RspIHitSE, else RspIHitI. -/
def State.snoop (s : State) (addr : Nat) : State :=
  if !s.cxl.linkUp || !s.cxl.cxlMode then s
  else
    let hit := s.cxl.cache.any (fun l => l % 2 ^ 58 = addr / 64)
    let s := { s with cxl := { s.cxl with cache := s.cxl.cache.filter (fun l => l % 2 ^ 58 ≠ addr / 64) } }
    (s.bump pgCxl 0 R.CXL_CACHE_SNOOPS 1).emit .snoopResponse [addr, b2n hit 0]

/-! ### HDM decoders (R303) -/

def dBase (l : List Nat) : Nat := l.getD 0 0
def dSize (l : List Nat) : Nat := l.getD 1 0
def dSkip (l : List Nat) : Nat := l.getD 2 0
def dWays (l : List Nat) : Nat := max 1 (l.getD 3 1)
def dGran (l : List Nat) : Nat := max 1 (l.getD 4 256)

/-- Device bytes that the decoders before a number take, skips included (CXL 2.0; DEDUCED log 76). -/
def State.dpaBefore (s : State) (n : Nat) : Nat :=
  ((s.cxl.decoders.filter (fun e => decide (e.1 < n))).map (fun e => dSkip e.2 + dSize e.2 / dWays e.2)).sum

/-- The DPA of a host physical address; none outside every committed decoder. -/
def State.dpa (s : State) (hpa : Nat) : Option Nat :=
  (s.cxl.decoders.find? (fun e => decide (dBase e.2 ≤ hpa) && decide (hpa < dBase e.2 + dSize e.2))).map (fun e =>
    let off := hpa - dBase e.2
    s.dpaBefore e.1 + dSkip e.2 + off / (dGran e.2 * dWays e.2) * dGran e.2 + off % dGran e.2)

/-- HDM_DECODER_COMMIT: a decoder committed with lock keeps its values; a range that does not fit, or that moves a committed
one beyond HBM (DEDUCED log 76), fails with Commit Error. -/
def State.commitDecoder (s : State) (dec base size skip ways gran : Nat) (lock : Bool) : State :=
  if !s.cxl.cxlMode || !s.ready || decide (4 ≤ dec) || ((sget s.cxl.decoders dec).map (fun d => d.getD 5 0)) = some 1 then s
  else
    let others := s.cxl.decoders.filter (fun e => e.1 ≠ dec)
    let good := base % seg256M = 0 && size % seg256M = 0 && decide (0 < size) && [1, 2, 4, 8].contains ways &&
      [256, 512, 1024, 2048, 4096, 8192, 16384].contains gran &&
      decide ((others.map (fun e => dSkip e.2 + dSize e.2 / dWays e.2)).sum + skip + size / ways ≤ hbmBytes s.n8) &&
      others.all (fun e => decide (base + size ≤ dBase e.2) || decide (dBase e.2 + dSize e.2 ≤ base))
    if good then
      { s with cxl := { s.cxl with
        decoders := sset s.cxl.decoders dec [base, size, skip, ways, gran, b2n lock 0]
        commitErr := s.cxl.commitErr.filter (· ≠ dec) } }
    else { s with cxl := { s.cxl with commitErr := dec :: s.cxl.commitErr.filter (· ≠ dec) } }

/-! ### CXL.mem (R304, R305, R405) -/

/-- Count bytes of HBM that the host reads or writes, for the partitions that hold them (R305). -/
def State.countMem (s : State) : List Nat → State
  | [] => s
  | a :: r =>
    let p := (s.reservedBy a).getD 0
    ((s.meter p R.METER_HOST_BYTES 1).meter p R.METER_HBM_BYTES 1).countMem r

/-- An access to HBM of a parked module takes HBM out of self-refresh (R405). -/
def State.hbmWake (s : State) : State :=
  if s.power.state = 4 then
    let s := { s with power := { s.power with hbmUsed := some s.timeNow } }
    (hbmPages s.n8).foldl (fun s h => s.setReg h 0 R.HBM_CTRL_HBM_STATE 2) s
  else s

/-- CXL_MEM_READ: bytes of HBM; poisoned where a block holds an uncorrected error (R311, R322). -/
def State.memRead (s : State) (hpa n : Nat) : State :=
  let as_ := (List.range n).filterMap (fun i => s.dpa (hpa + i))
  if !s.ready || !s.cxl.linkUp || !s.cxl.cxlMode || as_.length ≠ n || n = 0 then s
  else
    let s := ((s.hbmWake.countMem as_).bump pgCxl 0 R.CXL_MEM_RD_BYTES n).bump pgCxl 0 R.CXL_CXL_TX_BYTES n
    match as_.findSome? (fun a => (s.hbmBad.find? (fun b => b.1 = a / 64))) with
    | none => s.emit .memData [hpa, 0] (as_.map s.hbmByte)
    | some b =>
      let s := (s.bump pgCxl 0 R.CXL_MEM_POISON 1).raisePage pgCxl 8
      let s := s.raiseErr (s.hbmSrc (b.2 / 2 ^ 32) (b.2 % 2 ^ 32) (64 * b.1)) caMEM_POISON (64 * b.1) none 0x02
      { s.emit .memData [hpa, 1] (freeBytes s.fresh n) with fresh := s.fresh + n }

/-- The address that a partition uses for a physical byte of its reservation. -/
def State.partAddr (s : State) (p a : Nat) : Option Nat :=
  if p = 0 then some a
  else
    ((s.segments p).zipIdx.find? (fun g => decide (g.1.1 ≤ a) && decide (a < g.1.1 + g.1.2))).map (fun g =>
      (((s.segments p).take g.2).map (·.2)).sum + (a - g.1.1))

/-- Whether a running command reads or writes a physical byte (R305); an EVENT_WAIT watches its word and is no such command (R204). -/
def State.memRaces (s : State) (a : Nat) : Bool :=
  let p := (s.reservedBy a).getD 0
  match s.partAddr p a with
  | none => false
  | some x => s.queues.any (fun e => e.2.cmds.any (fun c => c.part = p && c.startT.isSome && !c.done && !c.recorded &&
      dOpcode c.desc ≠ opEVENT_WAIT && (c.ins ++ c.outs ++ c.inpl).any (fun r => !r.host && decide (r.lo ≤ x) && decide (x ≤ r.hi))))

/-- Every started EVENT_WAIT tests its word again (R204). -/
def State.retestWaits (s : State) : State :=
  (s.queues.flatMap (fun e => (e.2.cmds.filter (fun c => dOpcode c.desc = opEVENT_WAIT && c.startT.isSome && !c.done && !c.recorded)).map
    (fun c => (e.1, c.slot)))).foldl (fun s h => s.endWaits h.1 h.2) s

/-- CXL_MEM_WRITE: bytes to HBM, blocks written whole lose an uncorrected error (R305, R322). -/
def State.memWrite (s : State) (hpa : Nat) (data : List Byte) : State :=
  let n := data.length
  let as_ := (List.range n).filterMap (fun i => s.dpa (hpa + i))
  if !s.ready || !s.cxl.linkUp || !s.cxl.cxlMode || as_.length ≠ n || n = 0 then s
  else
    let s := ((s.hbmWake.countMem as_).bump pgCxl 0 R.CXL_MEM_WR_BYTES n).bump pgCxl 0 R.CXL_CXL_RX_BYTES n
    let s := (as_.zip data).foldl (fun s e =>
      if s.memRaces e.1 then (s.hbmSet e.1 (s.freeVal.truncate 8)).freshen else s.hbmSet e.1 e.2) s
    let s := { s with hbmBad := s.hbmBad.filter (fun b => !(List.range 64).all (fun i => as_.contains (64 * b.1 + i))) }
    s.retestWaits.emit .memDone [hpa]

/-! ### Data object exchange (R306) -/

/-- The protocols that DOE Discovery lists: vendor and type (R306, R308). -/
def State.doeProtocols (s : State) : List (Nat × Nat) :=
  [(0x0001, 0), (0x0001, 1)] ++ (if s.cxl.cxlMode then [(0x1E98, 2)] else []) ++ [(0x1F6E, 1)]

/-- The DOE error response. -/
def State.doeError (s : State) (vendor ptype : Nat) : State := s.emit .doe [0, vendor, ptype]

/-- DOE_DISCOVERY: the protocol of an index and the index that follows, 0 after the last. The answer to an index beyond the list is open
(DESIGN CHOICE log 77). -/
def State.doeDiscovery (s : State) (i : Nat) : State :=
  if !s.cxl.linkUp then s
  else match s.doeProtocols[i]? with
    | some x => s.emit .doe [1, x.1, x.2, if i + 1 < s.doeProtocols.length then i + 1 else 0]
    | none => (s.emit .doe [1, s.freeVal.toNat % 65536, (Config.free (s.fresh + 1)).toNat % 256, 0]).freshen.freshen

/-- CDAT_TABLE_ACCESS: one DSMAS over populated HBM, and its latencies and bandwidth (R306). -/
def State.cdat (s : State) (handle : Nat) : State :=
  if !s.cxl.linkUp then s
  else if !s.cxl.cxlMode then s.doeError 0x1E98 2
  else s.emit .doe [2, handle, 0, hbmBytes s.n8, 650, 600, 55]

/-- UNKNOWN_DOE_PROTOCOL. A request for a protocol of the list has its own command. -/
def State.doeUnknown (s : State) (vendor ptype : Nat) : State :=
  if !s.cxl.linkUp || s.doeProtocols.contains (vendor, ptype) then s else s.doeError vendor ptype

/-! ### Errors of the link (R311) -/

/-- An AER message of the PF: 0 correctable, 1 uncorrectable. -/
def State.aer (s : State) (k : Nat) : State := (s.emit .aer [k]).bump pgCxl 0 R.CXL_AER_MSGS 1

def State.hostLinkError (s : State) (k : HostLinkError) : State :=
  if !s.cxl.linkUp then s
  else match k with
    | .protocol => if s.cxl.cxlMode then { s with cxl := { s.cxl with rasError := true } }.aer 1 else s
    | .correctable => s.aer 0
    | .uncorrectable => s.aer 1
    | .recovery => s.bump pgCxl 0 R.CXL_LINK_RECOVERY 1
    | .badTlp => s.emit .urResponse []

def execCxlLinkTraining (cxl : Bool) (speed width retimers : Nat) (sris : Bool) (s : State) : Result :=
  .next (s.trainHost cxl speed width retimers sris)
def execH2dSnoop (addr : Nat) (s : State) : Result := .next (s.snoop addr)
def execCxlMemRead (hpa len : Nat) (s : State) : Result := .next (s.memRead hpa len)
def execCxlMemWrite (hpa : Nat) (data : List Byte) (s : State) : Result := .next (s.memWrite hpa data)
def execHdmDecoderCommit (dec base size skip ways gran : Nat) (lock : Bool) (s : State) : Result :=
  .next (s.commitDecoder dec base size skip ways gran lock)
def execDoeDiscovery (index : Nat) (s : State) : Result := .next (s.doeDiscovery index)
def execCdatTableAccess (handle : Nat) (s : State) : Result := .next (s.cdat handle)
def execUnknownDoeProtocol (vendor ptype : Nat) (s : State) : Result := .next (s.doeUnknown vendor ptype)
def execHostLinkError (k : HostLinkError) (s : State) : Result := .next (s.hostLinkError k)

end Sys2Proof.Machine
end

