-- ==== Sys2Proof/Machine/Firmware.lean ====
section
/-! DEFINITION. Firmware (R359 to R361, R367 to R373, R377): image push, SPDM, PLDM for firmware update, and an update in service. -/

namespace Sys2Proof.Machine

/-! ### An update in service (R369 to R373) -/

def State.fwState (s : State) : Nat := s.fld pgPkgMgr 0 F.PKG_MGR_FW_STATUS_STATE
def State.setFwState (s : State) (v : Nat) : State := s.setFld pgPkgMgr 0 F.PKG_MGR_FW_STATUS_STATE v

/-- FW_STATUS.ERR, with UPDATE_FAILED on the page and in the package ring (R377, R428). -/
def State.fwErr (s : State) (e : Nat) : State :=
  ((s.setFld pgPkgMgr 0 F.PKG_MGR_FW_STATUS_ERR e).raisePage pgPkgMgr 8).pkgNotice pgPkgMgr caUPDATE_FAILED e

/-- An update ends with an error. -/
def State.fwFail (s : State) (e : Nat) : State :=
  { ((s.setFwState 0).fwErr e) with fw := { s.fw with byPldm := false, pldmState := if s.fw.byPldm then 0 else s.fw.pldmState, second := false } }

def State.fwSrc (s : State) (i : Nat) : Byte := s.rd1 0 (s.reg pgPkgMgr 0 R.PKG_MGR_FW_SRC + i)

/-- An update begins: checking (R369), unless one runs or awaits activation (R373), or its source is outside HBM. -/
def State.fwStart (s : State) (byPldm : Bool) : State :=
  let st := s.fwState
  let src := s.reg pgPkgMgr 0 R.PKG_MGR_FW_SRC
  let n := s.reg pgPkgMgr 0 R.PKG_MGR_FW_LEN
  if decide (1 ≤ st ∧ st ≤ 3) then s.fwErr 8
  else if s.reg pgPkgMgr 0 R.PKG_MGR_FW_PENDING ≠ 0 then s.fwErr 9
  else if n = 0 || isHost src || !s.inReservation 0 src (src + n - 1) then s.fwErr 12
  else
    let s := (s.setFwState 1).setFld pgPkgMgr 0 F.PKG_MGR_FW_STATUS_ERR 0
    let s := (s.bump pgPkgMgr 0 R.PKG_MGR_FW_UPDATES 1).progress pgPkgMgr 0 1 0 0
    { s with fw := { s.fw with byPldm := byPldm, second := false } }

/-- FW_CTRL.CANCEL: ends an update that is still checking (R369). -/
def State.fwCancel (s : State) : State := if s.fwState = 1 then s.fwFail 11 else s

/-- FW_CHECK_DONE: the staged copy fails a check, or flash writing begins with an erase (R369, R370). -/
def State.fwChecked (s : State) : State :=
  if s.fwState ≠ 1 || s.pkgStopped then s
  else match imageCheck s.boot.minSvn s.boot.revoked s.fwSrc with
    | 0 => (((s.setFwState 2).setFld pgPkgMgr 0 F.PKG_MGR_FW_STATUS_FLASH_VALID 0).flashErase flImage imageMax).progress pgPkgMgr 0 2 0 0
    | k => s.fwFail k

/-- Activation begins: every existing partition awaits its move (R371). -/
def State.fwActivate (s : State) : State :=
  let v := s.reg pgPkgMgr 0 R.PKG_MGR_FW_FLASH
  let s := (s.setReg pgPkgMgr 0 R.PKG_MGR_FW_PENDING v).progress pgPkgMgr 0 4 0 0
  let s := { s with fw := { s.fw with byPldm := false } }
  s.partNums.foldl (fun s p => s.updPart p (fun x => { x with fwPending := true })) s

/-- FW_FLASH_WRITE_DONE: the region is written and compared by CRC-64; a mismatch writes it once more, a second ends the update (R370).
`ok` says whether the flash took what was written. -/
def State.fwWritten (s : State) (ok : Bool) : State :=
  if s.fwState ≠ 2 then s
  else
    let n := s.reg pgPkgMgr 0 R.PKG_MGR_FW_LEN
    if ok then
      let img := imgBytes s.fwSrc 0 n
      let s := ((s.flashErase flImage imageMax).flashWrite flImage img).measured
      let s := s.setFld pgPkgMgr 0 F.PKG_MGR_FW_STATUS_FLASH_VALID 1
      let s := (s.setReg pgPkgMgr 0 R.PKG_MGR_FW_FLASH (imgVersion s.flashSrc)).setFwState 4
      if s.fw.byPldm then s else s.fwActivate
    else
      let s := { (s.flashErase flImage imageMax).flashWrite flImage (freeBytes s.fresh n) with fresh := s.fresh + n }
      if s.fw.second then s.fwFail 10 else { s with fw := { s.fw with second := true } }

/-- FW_PARTITION_MOVE: an idle partition moves to the new slot, and the control cores of its clusters reload (R371). -/
def State.fwMove (s : State) (p : Nat) : State :=
  let x := s.part p
  if x.state = 0 || !x.fwPending || !s.partIdle p || s.pkgStopped then s
  else
    let s := s.updPart p (fun x => { x with fwPending := false, fwVersion := s.reg pgPkgMgr 0 R.PKG_MGR_FW_FLASH })
    let s := (s.bump pgPkgMgr 0 R.PKG_MGR_FW_RELOADS 1).bump pgPkgMgr 0 R.HDR_PROGRESS_POS 1
    s.fwSettle

/-! ### Recovery (R359, R360) -/

/-- RECOVERY was entered for the configuration record: only a record push ends it (R359). -/
def State.configBad (s : State) : Bool :=
  s.fld pgRot 0 F.ROOT_OF_TRUST_BOOT_ERR_CODE = 8 || s.fld pgRot 0 F.ROOT_OF_TRUST_BOOT_ERR_CODE = 9

/-- Bytes of a transfer in RECOVERY reach flash; the first erases the region (R359). -/
def State.recoverWrite (s : State) (off : Nat) (data : List Byte) : State :=
  let s := if off = 0 then s.flashErase flImage imageMax else s
  let s := (s.flashWrite (flImage + off) data).progress pgRot 0 0x10 0 (off + data.length)
  { s with boot := { s.boot with pushAt := some (off + data.length) } }

/-- A transfer in RECOVERY ends: the check of R355, and the boot goes on at phase 2 or stays with the new error. -/
def State.recoverEnd (s0 : State) : Nat × State :=
  let s := { (s0.measured.bump pgRot 0 R.ROOT_OF_TRUST_RECOVERY_PUSHES 1) with boot := { s0.measured.boot with pushAt := none } }
  let k := s.checkFlash
  if s.configBad then (k, s)
  else if k = 0 then (0, s.bootPhase 2)
  else (k, (s.bump pgRot 0 R.ROOT_OF_TRUST_IMAGE_FAILS 1).setReg pgRot 0 R.ROOT_OF_TRUST_BOOT_ERR (k + 512))

/-- IMAGE_PUSH (R360): a request with data, or with none for the end of the transfer. A LENGTH that R360 does not allow is answered with an
open status (DESIGN CHOICE log 78). -/
def State.imagePush (s : State) (off : Nat) (data : List Byte) : State :=
  let at_ := s.boot.pushAt.getD 0
  let say := fun (s : State) (st : Nat) => s.emit .doe [3, st]
  if !s.cxl.linkUp then s
  else if s.boot.state ≠ 3 then say s 2
  else if data.isEmpty then
    let r := s.recoverEnd
    say r.2 (0x100 + r.1)
  else if data.length % 4 ≠ 0 || decide (992 < data.length) then (say s (s.freeVal.toNat % 2 ^ 32)).freshen
  else if off ≠ at_ then say s 1
  else if imageMax < off + data.length then say s 3
  else say (s.recoverWrite off data) 0

/-! ### SPDM (R366 to R368): responses 0 VERSION, 1 CAPABILITIES, 2 ALGORITHMS, 3 DIGESTS, 4 CERTIFICATE, 5 CHALLENGE_AUTH, 6 MEASUREMENTS, 7 ERROR -/

/-- One request is served: the root of trust runs from Aux upward (R367, R402). -/
def State.spdm (s : State) (f : State → State) : State :=
  if s.power.inputOn then f (s.bump pgRot 0 R.ROOT_OF_TRUST_SPDM_MSGS 1) else s

/-- The chain of slot 0. -/
def State.chain (s : State) : List Byte :=
  let r := s.flashBytes flCert 0x10000
  r.take (Config.chainLen r)

def bytes64 (d : BitVec 512) : List Byte := leBytes d.toNat 64
def bytes512 (d : BitVec 4096) : List Byte := leBytes d.toNat 512

def State.getCertificate (s : State) (slot off len : Nat) : State :=
  s.spdm (fun s => if slot = 0 then s.emit .spdm [4, slot, off] ((s.chain.drop off).take len) else s.emit .spdm [7])

def State.challenge (s : State) (slot : Nat) (nonce : List Byte) : State :=
  s.spdm (fun s =>
    if slot = 0 then
      s.emit .spdm [5, slot] (bytes64 (Config.sha512 s.chain) ++
        bytes512 (Config.pssSign s.helperData (Config.spdmDigest [s.chain, nonce])))
    else s.emit .spdm [7])

/-- The value of a measurement (R368). The byte order within 5, 6 and 7 is not stated: little-endian words (DEDUCED log 79). -/
def State.measurement (s : State) (i : Nat) : List Byte :=
  if i = 1 then bytes64 Config.bootRomDigest
  else if i = 2 then bytes64 (Config.sha512 (s.flashBytes flConfig 0x10000))
  else if i = 3 then leBytes s.boot.measImage 64
  else if i = 4 then leBytes s.boot.measRun 64
  else if i = 5 then (List.range 256).flatMap (fun p => leBytes (s.part p).fwVersion 4)
  else if i = 6 then bytes64 (Config.sha512 ((List.range 160).flatMap (fun g => leBytes ((sget s.boot.goodInfo g).getD 0) 4)))
  else leBytes (s.boot.minSvn % 64 + 64 * (s.boot.revoked % 16)) 4

/-- GET_MEASUREMENTS: one block, or all of them (index 0xFF), or their number (index 0); available from the end of phase 2. -/
def State.measurements (s : State) (i : Nat) (signed : Bool) (nonce : List Byte) : State :=
  s.spdm (fun s =>
    if s.boot.phase < 3 || (8 ≤ i && i ≠ 0xFF) then s.emit .spdm [7]
    else
      let body := if i = 0 then [] else if i = 0xFF then (List.range 7).flatMap (fun k => s.measurement (k + 1)) else s.measurement i
      let sig := if signed then bytes512 (Config.pssSign s.helperData (Config.spdmDigest [body, nonce])) else []
      s.emit .spdm [6, i, if i = 0 then 7 else b2n signed 0] (body ++ sig))

/-! ### PLDM for firmware update (R361): responses name the command, then 0 for success or an error -/

def puQUERY : Nat := 1
def puPARAMS : Nat := 2
def puREQUEST : Nat := 3
def puTABLE : Nat := 4
def puUPDATE : Nat := 5
def puDATA : Nat := 6
def puTRANSFER : Nat := 7
def puVERIFY : Nat := 8
def puAPPLY : Nat := 9
def puACTIVATE : Nat := 10
def puSTATUS : Nat := 11
def puCANCELCOMP : Nat := 12
def puCANCEL : Nat := 13

/-- Refusals of PLDM commands: ALREADY_IN_UPDATE_MODE (R373), and a command that the present state does not admit (DEDUCED log 80). -/
def puBusy : Nat := 1
def puState : Nat := 2

def State.setPldm (s : State) (n : Nat) : State := { s with fw := { s.fw with pldmState := n } }

def State.queryIds (s : State) : State := s.pldm (fun s => s.say [puQUERY, 0, 0x1F6E, if s.n8 then 0x1261 else 0x1260])
def State.fwParams (s : State) : State :=
  s.pldm (fun s => s.say [puPARAMS, 0, s.reg pgPkgMgr 0 R.PKG_MGR_FW_RUNNING_PKG, s.reg pgPkgMgr 0 R.PKG_MGR_FW_FLASH])

/-- RequestUpdate: refused while an update runs (R373). -/
def State.requestUpdate (s : State) : State :=
  s.pldm (fun s =>
    if s.fw.pldmState ≠ 0 || decide (1 ≤ s.fwState ∧ s.fwState ≤ 3) then s.say [puREQUEST, puBusy]
    else (s.setPldm 1).say [puREQUEST, 0])

def State.passTable (s : State) (comp : Nat) : State :=
  s.pldm (fun s =>
    if (s.fw.pldmState = 1 || s.fw.pldmState = 2) && decide (1 ≤ comp ∧ comp ≤ 3) then (s.setPldm 2).say [puTABLE, 0, comp]
    else s.say [puTABLE, puState])

/-- Largest size of a component: the image, the configuration record, the chain (R353, R361). -/
def compMax (comp : Nat) : Nat := if comp = 1 then imageMax else 0x10000

/-- Whether a component may be transferred now: an image in RECOVERY or in service, a record or chain always (R361). -/
def State.compOk (s : State) (comp : Nat) : Bool := comp = 2 || comp = 3 || (comp = 1 && (s.boot.state = 3 || s.ready))

/-- UpdateComponent: the transfer begins, and the module asks for the first chunk of at most 1,024 bytes. -/
def State.updateComponent (s : State) (comp size : Nat) : State :=
  s.pldm (fun s =>
    if s.fw.pldmState = 2 && s.compOk comp && decide (0 < size ∧ size ≤ compMax comp) then
      let s := { s with fw := { s.fw with pldmState := 3, pldmComp := comp, pldmSize := size, pldmGot := 0, pldmData := [] } }
      (s.say [puUPDATE, 0]).say [puDATA, 0, min 1024 size]
    else s.say [puUPDATE, puState])

/-- A chunk that the module has asked for: an image goes to flash in RECOVERY and to partition 0's HBM in service (R359, R369). -/
def State.firmwareData (s : State) (off : Nat) (data : List Byte) : State :=
  s.pldm (fun s =>
    let w := s.fw
    if w.pldmState ≠ 3 || off ≠ w.pldmGot || data.length ≠ min 1024 (w.pldmSize - w.pldmGot) || data.isEmpty then s
    else
      let s := if w.pldmComp = 1 then
          (if s.boot.state = 3 then s.recoverWrite off data
           else s.wrBytes 0 (s.reg pgPkgMgr 0 R.PKG_MGR_FW_SRC + off) data)
        else { s with fw := { s.fw with pldmData := s.fw.pldmData ++ data } }
      let got := off + data.length
      let s := { s with fw := { s.fw with pldmGot := got } }
      if got < w.pldmSize then s.say [puDATA, got, min 1024 (w.pldmSize - got)] else s.say [puTRANSFER, 0])

/-- TransferComplete: in RECOVERY the image is checked and the boot goes on (R359); in service checking begins (R369). -/
def State.transferComplete (s : State) : State :=
  s.pldm (fun s =>
    let w := s.fw
    if w.pldmState ≠ 3 || w.pldmGot ≠ w.pldmSize then s.say [puTRANSFER, puState]
    else if w.pldmComp = 1 && s.boot.state = 3 then
      let r := s.recoverEnd
      (r.2.setPldm 0).say [puVERIFY, r.1]
    else if w.pldmComp = 1 then
      let s := ((s.setPldm 4).setReg pgPkgMgr 0 R.PKG_MGR_FW_LEN w.pldmSize).fwStart true
      if s.fwState = 1 then s.say [puTRANSFER, 0] else (s.setPldm 0).say [puTRANSFER, puState]
    else (s.setPldm 4).say [puTRANSFER, 0])

/-- VerifyComplete: an image in service is verified once its checks have passed; records and chains are judged at the next boot. -/
def State.verifyComplete (s : State) : State :=
  s.pldm (fun s =>
    if s.fw.pldmState = 4 && (s.fw.pldmComp ≠ 1 || decide (2 ≤ s.fwState)) then (s.setPldm 5).say [puVERIFY, 0] else s.say [puVERIFY, puState])

/-- ApplyComplete: an image is applied once it is in flash; a record or chain is written to its region now. A record push ends the RECOVERY
that the record caused (R359). -/
def State.applyComplete (s : State) : State :=
  s.pldm (fun s =>
    let w := s.fw
    if w.pldmState ≠ 5 then s.say [puAPPLY, puState]
    else if w.pldmComp = 1 then (if s.fwState = 4 then (s.setPldm 6).say [puAPPLY, 0] else s.say [puAPPLY, puState])
    else
      let base := if w.pldmComp = 2 then flConfig else flCert
      let s := ((s.flashErase base 0x10000).flashWrite base w.pldmData).setPldm 6
      let s := s.say [puAPPLY, 0]
      if w.pldmComp = 2 && s.boot.state = 3 && s.configBad then (s.setPldm 0).bootPhase 1 else s)

/-- ActivateFirmware: activation begins; the package-manager sections await a reboot (R361, R371). -/
def State.activate (s : State) : State :=
  s.pldm (fun s =>
    if s.fw.pldmState ≠ 6 && s.fw.pldmState ≠ 2 then s.say [puACTIVATE, puState]
    else
      let s := if s.fw.byPldm && s.fwState = 4 then s.fwActivate else s
      (s.setPldm 0).say [puACTIVATE, 0, 1])

def State.fwStatus (s : State) : State := s.pldm (fun s => s.say [puSTATUS, 0, s.fw.pldmState])

/-- CancelUpdateComponent and CancelUpdate: a transfer ends, and with it an update that is still checking (R361, R369). -/
def State.cancelPldm (s : State) (cmd dest : Nat) : State :=
  s.pldm (fun s =>
    if s.fw.pldmState = 0 then s.say [cmd, puState]
    else if s.fw.byPldm && decide (2 ≤ s.fwState ∧ s.fwState ≤ 3) then s.say [cmd, puState]
    else
      let s := if s.fw.byPldm then s.fwCancel else s
      let s := { s with boot := { s.boot with pushAt := none } }
      (s.setPldm dest).say [cmd, 0])

def execFwCheckDone (s : State) : Result := .next s.fwChecked
def execFwFlashWriteDone (writeOk : Bool) (s : State) : Result := .next (s.fwWritten writeOk)
def execFwPartitionMove (part : Nat) (s : State) : Result := .next (s.fwMove part)
def execImagePush (off : W32) (data : List Byte) (s : State) : Result := .next (s.imagePush off.toNat data).sbEvents
def execGetVersion (s : State) : Result := .next (s.spdm (fun s => s.emit .spdm [0, 0x12]))
def execGetCapabilities (s : State) : Result := .next (s.spdm (fun s => s.emit .spdm [1, 1, 1, 2]))
def execNegotiateAlgorithms (s : State) : Result := .next (s.spdm (fun s => s.emit .spdm [2, 4096, 512]))
def execGetDigests (s : State) : Result := .next (s.spdm (fun s => s.emit .spdm [3, 1] (bytes64 (Config.sha512 s.chain))))
def execGetCertificate (slot off len : Nat) (s : State) : Result := .next (s.getCertificate slot off len)
def execChallenge (slot : Nat) (nonce : List Byte) (s : State) : Result := .next (s.challenge slot nonce)
def execGetMeasurements (index : Nat) (signed : Bool) (nonce : List Byte) (s : State) : Result := .next (s.measurements index signed nonce)
def execQueryDeviceIdentifiers (s : State) : Result := .next s.queryIds
def execGetFirmwareParameters (s : State) : Result := .next s.fwParams
def execRequestUpdate (s : State) : Result := .next s.requestUpdate
def execPassComponentTable (component : Nat) (s : State) : Result := .next (s.passTable component)
def execUpdateComponent (component size : Nat) (s : State) : Result := .next (s.updateComponent component size)
def execRequestFirmwareData (off : Nat) (data : List Byte) (s : State) : Result := .next (s.firmwareData off data)
def execTransferComplete (s : State) : Result := .next s.transferComplete.sbEvents
def execVerifyComplete (s : State) : Result := .next s.verifyComplete
def execApplyComplete (s : State) : Result := .next s.applyComplete.sbEvents
def execActivateFirmware (s : State) : Result := .next s.activate
def execGetStatus (s : State) : Result := .next s.fwStatus
def execCancelUpdateComponent (s : State) : Result := .next (s.cancelPldm puCANCELCOMP 2)
def execCancelUpdate (s : State) : Result := .next (s.cancelPldm puCANCEL 0)

end Sys2Proof.Machine
end

