-- ==== Sys2Proof/Machine/Access.lean ====
section
/-! DEFINITION. Register writes (R9, R27, R29, R30, R40 to R42, R50, R53, R283): who may write, what is dropped, what is staged, and what a
write of each register does. -/

namespace Sys2Proof.Machine

/-! ### Who may write -/

/-- The melt sheet entry that a window of a shard page shows a requester (R153). -/
def State.winEntry (s : State) (p page off : Nat) : Option Nat :=
  let x := s.reg page p (R.MELT_SHARD_MELT_SEL_0 + 4 * ((off - 0x200) / 0x80)) % 65536
  if shardPage x = page then some x else none

def isWindow (page off : Nat) : Bool := assignedType page = .meltShard && decide (0x200 ≤ off) && decide (off < 0x600)

/-- Registers of a cluster control core's page that cause halts (R389). -/
def haltsCore (off : Nat) : Bool :=
  off = R.DBG_ISL_HALT || off = R.DBG_ISL_HALT + 4 || off = R.DBG_DBG_CTRL || (decide (R.DBG_BP_CFG_0 ≤ off) && decide (off < 0x280))

/-- Kind of the violation that a tenant's write is (R1, R42, R53, R264, R283); none where it may write. -/
def State.tenantKind (s : State) (p page off : Nat) : Option Nat :=
  let own := fun (ok : Bool) (k : Nat) => if ok then none else some k
  match assignedType page with
  | .core | .ladle | .temper | .clusterCtrl | .barrier | .clusterSram | .clusterGroup => own (s.pagePart page = p && !s.isPool page) 4
  | .queueCtx => own (s.pagePart page = p) 4
  | .packageGroup => none
  | .partition => own (off = R.PARTITION_PART_SEL) (if 0x104 ≤ off || off = R.HDR_STAGE_CTRL then 5 else 4)
  | .admission => own (off = R.ADMISSION_ADM_VIEW) 4
  | .meter => own (off = R.METER_METER_SEL) 4
  | .jobRunner | .snapshot => own (decide (0x100 ≤ off) || off = R.HDR_STAGE_CTRL) 4
  | .collective => own (decide (0x100 ≤ off)) 4
  | .meltShard => own ((decide (0x100 ≤ off) && decide (off < 0x120)) || off = R.HDR_STAGE_CTRL) 4
  | .pkgErr => own (off = R.ERR_ERR_SEL || off = R.ERR_ERR_ACK || off = R.ERR_ERR_ACK_THROUGH) (if off = R.ERR_PF_RELEASE then 5 else 4)
  | .dieErr => own (off = R.ERR_ERR_SEL || off = R.ERR_ERR_ACK || off = R.ERR_ERR_ACK_THROUGH) 4
  | .rootOfTrust => own (off = R.ROOT_OF_TRUST_FETTLE_SEL) 4
  | .router | .cxl | .power | .pkgMgr => some 5
  | _ => some 4

/-- Kind of the violation that a write is; none where the requester may write. Through a melt sheet window only the entry's holder
writes (R154); the halts of a tenant's cluster are the tenant's alone (R389). -/
def State.writeKind (s : State) (p page off : Nat) : Option Nat :=
  if isWindow page off then
    match s.winEntry p page off with
    | some x => if s.meltOwner x = p then none else some 4
    | none => some 4
  else if p = 0 then
    if assignedType page = .clusterCtrl && s.pagePart page ≠ 0 && !s.isPool page && haltsCore off then some 4 else none
  else s.tenantKind p page off

/-- Offsets that a type's map gives but that this page of the type does not have (R347, R373, R396). -/
def reservedOff (page off : Nat) : Bool :=
  match assignedType page with
  | .dieErr => decide (0x140 ≤ off) && decide (off < 0x200)
  | .dieMgr | .ioCtrl => off = R.DBG_ISL_HALT || off = R.DBG_DBG_NOTICE_TTL
  | .clusterCtrl => off = R.DBG_DBG_NOTICE_TTL
  | .pkgMgr => page ≠ pgPkgMgr && ((decide (0x100 ≤ off) && decide (off < 0x130)) || off = R.DBG_DBG_NOTICE_TTL)
  | _ => false

/-! ### Values that are checked -/

/-- FP32 codes: positive and normal; not negative and finite; in [0, 1). -/
def posNormal (v : Nat) : Bool := decide (0x00800000 ≤ v) && decide (v < 0x7F800000)
def notNegative (v : Nat) : Bool := decide (v < 0x7F800000) || v = 0x80000000
def unitBelow (v : Nat) : Bool := decide (v < 0x3F800000) || v = 0x80000000

/-- A staged hyperparameter is valid (R182). -/
def hyperOk (off v : Nat) : Bool :=
  if off = R.TEMPER_OPT_CFG then v % 4 ≠ 3
  else if off = R.TEMPER_LR || off = R.TEMPER_WDECAY then notNegative v
  else if off = R.TEMPER_BETA1 || off = R.TEMPER_BETA2 then unitBelow v
  else if off = R.TEMPER_EPS || off = R.TEMPER_TRUST_MAX || off = R.TEMPER_GRAD_SCALE then posNormal v
  else true

/-- Two segments, first unit and size, share a unit. -/
def segsMeet (a b : Nat × Nat) : Bool := decide (a.1 < b.1 + b.2) && decide (b.1 < a.1 + a.2)

def segsApart : List (Nat × Nat) → Bool
  | [] => true
  | a :: r => r.all (fun b => !segsMeet a b) && segsApart r

/-- A staged contract value of bank p is valid beside what the bank holds or has staged (R269). -/
def State.contractFits (s : State) (p off v : Nat) : Bool :=
  let f := fun (o : Nat) => if o = off then v else s.newContract p o
  if R.PARTITION_HBM_SEG_0 ≤ off && off ≤ R.PARTITION_HBM_SEG_3 then
    let segs := ((List.range 4).map (fun n => (bitsOf (f (R.PARTITION_HBM_SEG_0 + 4 * n)) 15 0, bitsOf (f (R.PARTITION_HBM_SEG_0 + 4 * n)) 31 16))).filter
      (fun (g : Nat × Nat) => g.2 ≠ 0)
    p = 0 || (segs.all (fun (g : Nat × Nat) => decide ((g.1 + g.2) * seg256M ≤ hbmBytes s.n8)) && segsApart segs)
  else if off = R.PARTITION_QUEUE_RANGE then decide (bitsOf v 20 10 ≤ 256) && decide (bitsOf v 9 0 + bitsOf v 20 10 ≤ 1024)
  else if off = R.PARTITION_MELT_RANGE then decide (bitsOf v 9 0 + bitsOf v 20 10 ≤ 1024)
  else if off = R.PARTITION_POOL_CFG then
    let q := bitsOf v 31 16
    decide (bitsOf v 15 8 ≤ 160) &&
      (q = 0xFFFF || (if p = 0 then s.queueOwner q = 0 else decide (q < 64 * bitsOf (s.newContract p R.PARTITION_QUEUE_RANGE) 20 10)))
  else if off = R.PARTITION_BW_CFG then
    let others := (((List.range 256).filter (fun t => t ≠ p)).map (fun t => bitsOf (s.newContract t R.PARTITION_BW_CFG) 31 16)).sum
    decide (others + bitsOf v 31 16 ≤ if s.n8 then 4147 else 2764)
  else true

/-- Field of a queue context at an offset of its page (R212). -/
def ctxField (off : Nat) : Nat := (off - 0x100) % 0x30
def ctxQueue (page off : Nat) : Nat := firstQueue page + (off - 0x100) / 0x30

/-- A trace buffer of a partition, with an offset of TRACE_BASE, TRACE_LOG2, ITRACE_BASE or ITRACE_LOG2 written, is within the rules of
R397: a log2 of 16 to 32 or 0, an aligned base, and a ring inside the reservation. -/
def State.traceFits (s : State) (p off v : Nat) : Bool :=
  let it := decide (R.GRP_ITRACE_BASE ≤ off)
  let base := if off = regTraceBase it then v else s.reg pgPackage p (regTraceBase it)
  let l := if off = regTraceLog2 it then v else s.reg pgPackage p (regTraceLog2 it)
  base % 4096 = 0 && (l = 0 || (decide (16 ≤ l) && decide (l ≤ 32) && !isHost base && s.inReservation p base (base + 2 ^ l - 1)))

def isTraceCfg (off : Nat) : Bool :=
  off = R.GRP_TRACE_BASE || off = R.GRP_TRACE_LOG2 || off = R.GRP_ITRACE_BASE || off = R.GRP_ITRACE_LOG2

/-- What happens to a write whose value the register does not take: nothing is stored. None where the value is taken. `v` is the
register's whole new value, at `off` of bank `bank`. -/
def State.rejects (s : State) (p page bank off v : Nat) : Option State :=
  let busy := some (s.busyDrop p page off)
  match assignedType page with
  | .temper => if hyperOk off v then none else some ((s.raisePage page 8).notice page caBAD_HYPER off)
  | .barrier => if off = R.BARRIER_BAR_TIMEOUT && v = 0 then some ((s.raisePage page 9).notice page caBAD_TIMEOUT off) else none
  | .partition =>
    if off = R.PARTITION_QUANTUM_NS then (if v < 1000 then busy else none)
    else if off = R.PARTITION_BUDGET_WINDOW_S then (if v = 0 then busy else none)
    else if bank = 0 && (off = R.PARTITION_QUEUE_RANGE || off = R.PARTITION_MELT_RANGE) then some s
    else if contractOffs.contains off && !s.contractFits bank off v then some ((s.raisePage page 8).notice page caBAD_CONTRACT off)
    else none
  | .queueCtx =>
    if 0x100 ≤ off && off < 0xD00 && ctxField off = R.QCTX_QCFG then
      if bitsOf v 8 4 < 4 || 16 < bitsOf v 8 4 then busy
      else if bitsOf v 10 9 = 3 && s.queueOwner (ctxQueue page off) ≠ 0 then some (s.violation p 5 (.host p) (page * 1024 + off / 4))
      else if (s.qcfg (ctxQueue page off)).testBit 0 && !v.testBit 0 && (s.queue (ctxQueue page off)).state ≠ 1 then busy
      else none
    else none
  | .jobRunner => if off = R.JOB_RUNNER_SNAP_INTERVAL && v % 65536 = 0 then some s else none
  | .pkgErr =>
    if R.ERR_HBM_ROW_CE ≤ off && off ≤ R.ERR_LINK_RETRY_PPT && v = 0 then busy else none
  | .pkgMgr => if off = R.DBG_DBG_NOTICE_TTL && v % 64 = 0 then some s else none
  | .router => if off = R.ROUTER_ROUTER_ID && !s.upLinks.isEmpty then busy else none
  | .packageGroup => if isTraceCfg off && !s.traceFits p off v then busy else none
  | .power => if off = R.POWER_CAP_W then some (s.setCap p v) else none
  | _ => none

/-! ### Melt sheet entries (R63, R129, R130, R134, R142, R157, R164) -/

/-- A word of an entry is staged. -/
def State.stageEnt (s : State) (x off v : Nat) : State := s.stageReg pgEntry x off v

/-- Half of a 64-bit field of an entry is staged. -/
def State.stageHalf (s : State) (x base : Nat) (high : Bool) (v : Nat) : State :=
  let old := s.entCfg x base true
  s.stageEnt x base (if high then old % 2 ^ 32 + 2 ^ 32 * v else old / 2 ^ 32 * 2 ^ 32 + v)

/-- ENT_CTRL keeps the rules of R130 and R142. -/
def ctrlOk (v : Nat) : Bool :=
  let ovr := bitsOf v 20 17
  decide (v % 16 ≤ 5) && (decide (bitsOf v 7 4 ≤ 0xA) || bitsOf v 7 4 = 0xF) && bitsOf v 9 8 ≠ 3 && decide (ctrlFloor v ≤ ctrlTop v) &&
    (ovr = 0 || (List.range 4).any (fun r => rungFmt v r = ovr))

/-- A staged write of ENT_CTRL: between a gradient role and another, fields staged before it under the old role are forgotten (R129). -/
def State.entCtrlWrite (s : State) (x v : Nat) : State :=
  let v := v % 2 ^ 21
  if !ctrlOk v then s.raisePage (shardPage x) 10
  else
    let was := isGrad (s.entCfg x R.ENT_ENT_CTRL true % 16)
    let s := if was ≠ isGrad (v % 16) then
        { s with shadows := s.shadows.filter (fun e => !(rkey pgEntry x 0x08 ≤ e.1 && e.1 ≤ rkey pgEntry x 0x23)) }
      else s
    s.stageEnt x R.ENT_ENT_CTRL v

/-- A refused value of an entry that is logged. -/
def State.entBad (s : State) (x bit cause : Nat) : State := (s.raisePage (shardPage x) bit).logErr (s.entSrc x 0) cause x

/-- A write of one word of an entry, taken under the role that its shadow holds. -/
def State.entWrite (s : State) (x off v : Nat) : State :=
  let grad := isGrad (s.entCfg x R.ENT_ENT_CTRL true % 16)
  if off = R.ENT_ENT_CTRL then s.entCtrlWrite x v
  else if off = R.ENT_ENT_RULES || off = R.ENT_CMP_PAGE then s.stageEnt x off v
  else if off = R.ENT_DEAD_CFG then
    (if 1 ≤ v % 8192 ∧ v % 8192 ≤ 4096 then s.stageEnt x off (v % 8192) else s.entBad x 10 caBAD_DEAD_CFG)
  else if off = 0x18 || off = 0x1C then s.stageHalf x 0x18 (off = 0x1C) v
  else if grad then
    if off = 0x08 || off = 0x0C then s.stageHalf x 0x08 (off = 0x0C) v
    else if off = 0x14 then (if v % 64 = 0 then s.raisePage (shardPage x) 10 else s.stageEnt x off (v % 64))
    else s
  else if off = R.ENT_TSCALE then (if posNormal v then s.stageEnt x off v else s.entBad x 8 caBAD_TSCALE)
  else if off = R.ENT_CEIL then (if 0x3F800000 ≤ v ∧ v ≤ 0x47800000 then s.stageEnt x off v else s.entBad x 9 caBAD_CEIL)
  else if off = R.ENT_RISER_CAP then s.stageEnt x off v
  else s

/-! ### What commands in registers do -/

/-- A copy of the selected partition's meters with METER_TIME, for one reader (R289). -/
def State.meterLatch (s : State) (p t : Nat) : State :=
  let s := (List.range 12).foldl (fun s j => s.setReg pgMeter (latchBank p) (0x110 + 8 * j) (s.reg pgMeter t (0x110 + 8 * j))) s
  (s.setReg pgMeter (latchBank p) R.METER_METER_TIME s.timeNow).bump pgMeter 0 R.METER_METER_LATCHES 1

/-- Bytes of record i of a trace buffer; zeros where it is not in the buffer (R386). -/
def State.traceRecord (s : State) (t : Nat) (it : Bool) (i : Nat) : List Byte :=
  let next := s.reg pgPackage t (regTraceNext it)
  if s.reg pgPackage t (regTraceFirst it) ≤ i ∧ next ≤ i + s.traceCap t it ∧ i < next then
    s.rdBytes t (s.traceAddr t it i) (traceUnit it)
  else List.replicate (traceUnit it) 0

/-- The copy that a write of TRACE_RD_SEL takes (R386). -/
def State.traceCopy (s : State) (p v : Nat) : State :=
  let t := v % 256
  let it := v.testBit 8
  let l := (List.range (2048 / traceUnit it)).flatMap (fun k => s.traceRecord t it (v / 512 + k))
  let next := s.reg pgPackage t (regTraceNext it)
  let first := s.reg pgPackage t (regTraceFirst it)
  let s := (List.range 512).foldl (fun s w => s.setReg pgTraceWin p (4 * w) (leNat ((l.drop (4 * w)).take 4))) s
  (s.setReg pgPackage p R.GRP_TRACE_RD_NEXT next).setReg pgPackage p R.GRP_TRACE_RD_FIRST first

/-- The copy of an entry that a write of MELT_SEL_n with LIVE = 0 takes (R153). -/
def State.meltCopy (s : State) (p page n v : Nat) : State :=
  if v.testBit 16 then s
  else
    let shadow := (s.reg page p R.HDR_STAGE_CTRL).testBit 16
    (List.range 32).foldl (fun s k => s.setReg pgWin (winBank page p n) (4 * k) (s.entWord (v % 65536) (4 * k) shadow)) s

/-- PART_CTRL.CREATE (R273, R371). -/
def State.createPart (s : State) (b : Nat) : State :=
  if b = 0 || (s.part b).state ≠ 0 then s
  else (s.setPart b { PartX.init with state := 1, stageCreate := true, fwVersion := s.reg pgPkgMgr 0 R.PKG_MGR_FW_FLASH }).clearRegs pgMeter b
    0x110 0x16F

/-- PART_CTRL.DELETE (R273). -/
def State.deletePart (s : State) (b : Nat) : State :=
  if b = 0 || (s.part b).state = 0 then s else (s.updPart b (fun x => { x with state := 3 })).jrStopReq b

/-- PART_CTRL.ABORT_ALL: every running and delayed task ends as QCMD.ABORT ends one (R210, R273). -/
def State.abortAllTasks (s : State) (b : Nat) : State :=
  (s.queuesOf b).foldl (fun s q =>
    ((s.queue q).tasks.filter (fun (t : Task) => !t.aborted && !t.refused)).foldl (fun s t => s.abortWhole q t.id 0x0E) s) s

/-- An unfrozen queue is paused when it holds an aborted task, else idle (R285). A device-fatal error's freeze lasts until PERST# (R313). -/
def State.thawQueue (s : State) (q : Nat) : State :=
  if !(s.queue q).frozen || s.dfOn then s
  else
    let on := s.qEnabled q
    s.updQueue q (fun x => { x with
      frozen := false
      pfFrozen := false
      state := if !on then 0 else if x.tasks.any (fun (t : Task) => t.aborted) then 3 else 1 })

/-- The page of a control core by its number in MASTER (DEDUCED log 21). -/
def corePage (i : Nat) : Nat :=
  if i < 160 then clusterPage i uCtrl
  else
    let d := (i - 160) / 8
    if d = 8 then diePage 8 (32 + (i - 160) % 8) else diePage d ((i - 160) % 8)

/-- An unfrozen control core goes on, or stands halted (R285, R395). -/
def State.thawCore (s : State) (page : Nat) : State :=
  let d := s.dbgOf page
  if !d.frozen then s
  else
    let s := s.setDbg page { d with frozen := false }
    let s := s.setFld page 0 F.DBG_DBG_STATUS_STATE (if d.halted then 2 else if d.wantHalt then 1 else 0)
    (if s.isPool page then s.poolGrant (globalCluster page) else s).runAllBars

/-- A write of UNFREEZE (R285). -/
def State.thaw (s : State) (v : Nat) : State :=
  let n := v % 65536
  match bitsOf v 17 16 with
  | 0 => s.thawQueue n
  | 1 => if (s.part n).hostFrozen then s.updPart n (fun x => { x with hostFrozen := false }) else s
  | 2 => s.thawCore (corePage n)
  | _ => s

/-- A write of PF_RELEASE (R320). -/
def State.pfThaw (s : State) (t : Nat) : State :=
  let s := ((s.queuesOf t).filter (fun q => (s.queue q).pfFrozen)).foldl (fun s q => s.thawQueue q) s
  if (s.part t).pfFrozen then s.updPart t (fun x => { x with pfFrozen := false }) else s

/-- Close the open records that satisfy a test. -/
def Ring.closeIf (r : Ring) (f : ErrRec → Bool) : Ring :=
  { r with slots := r.slots.map (fun (e : Nat × ErrRec) => if e.2.opened && f e.2 then (e.1, { e.2 with opened := false }) else e) }

/-- Whether a partition acknowledges a record (R317). -/
def mayAck (p : Nat) (e : ErrRec) : Bool := p = 0 || (e.part = p && !e.infra)

/-- ERR_ACK: one record closes; a refused acknowledgement is counted. -/
def State.errAck (s : State) (p page seq : Nat) : State :=
  let r := s.ring page
  match (svals r.slots).find? (fun e => e.seq % 2 ^ 32 = seq && e.opened) with
  | none => s
  | some e =>
    if mayAck p e then s.setRing page (r.closeIf (fun x => x.seq % 2 ^ 32 = seq)) else s.bump page 0 R.ERR_ACK_REJECTS 1

/-- ERR_ACK_THROUGH: every record of the writer up to a SEQ closes. -/
def State.errAckThrough (s : State) (p page seq : Nat) : State :=
  s.setRing page ((s.ring page).closeIf (fun e => decide (e.seq ≤ seq) && mayAck p e))

/-- The shadows of a page, as its writer sees them, of the kinds that a STAGE_CTRL write names (R41). -/
def State.discard (s : State) (p page v : Nat) : State :=
  let bank := s.bankOf p page R.HDR_STAGE_CTRL
  let hit := fun (k : Nat) =>
    s.epochOf k = (page, bank) && (match regKind (keyPage k) (keyOff k) with
      | some .step => v.testBit 0 | some .layer => v.testBit 1 | some .pass => v.testBit 2 | none => false)
  { s with shadows := s.shadows.filter (fun e => !hit e.1) }

/-- STAGE_CTRL: discards, then SHADOW_VIEW. -/
def State.stageCtrl (s : State) (p page v : Nat) : State :=
  (s.discard p page v).setReg page (s.bankOf p page R.HDR_STAGE_CTRL) R.HDR_STAGE_CTRL (v &&& 0x10000)

/-- PAGE_CTRL is stored; HELD ends with HOLD (R35). -/
def State.pageCtrl (s : State) (p page v : Nat) : State :=
  let s := s.setReg page (s.bankOf p page R.HDR_PAGE_CTRL) R.HDR_PAGE_CTRL v
  if v.testBit 0 then s else s.setFld page 0 F.HDR_PAGE_STATUS_HELD 0

/-- Number of the link of a LINK page (R237). -/
def linkOf (page : Nat) : Nat := 16 * (pageDie page - 8) + pageUnit page

/-- POWER_CTRL (R403 to R405). -/
def State.powerCtrl (s : State) (v : Nat) : State :=
  let s := if v.testBit 0 then s.park else s
  let s := if v.testBit 1 then s.unpark else s
  (if v.testBit 2 then s.enterAux 7 else s).sbEvents

/-- DBG_CTRL (R389, R394). -/
def State.dbgCtrl (s : State) (page v : Nat) : State :=
  let s := if v.testBit 0 then s.haltReq page else s
  let s := if v.testBit 1 then s.resume page else s
  if v.testBit 2 then s.stepCore page else s

/-- A queue whose ENABLE rises starts at index 0 with nothing in it, and its host pages are translated; one whose ENABLE falls is disabled
(R185, R212, R302). -/
def State.enableQueue (s : State) (q old new : Nat) : State :=
  if new.testBit 0 && !old.testBit 0 then
    let s := s.updQueue q (fun x => { QueueX.init with
      state := 1, frozen := x.frozen, pfFrozen := x.pfFrozen, lastReason := x.lastReason, restarts := x.restarts })
    (s.ringPages q).foldl (fun s pg => s.ringAsk q pg) s
  else if !new.testBit 0 && old.testBit 0 then s.updQueue q (fun x => { x with state := 0 })
  else s

/-- What storing a register brings about: `old` and `new` are its stored values. -/
def State.afterWrite (s : State) (p page off old new : Nat) : State :=
  match assignedType page with
  | .queueCtx => if 0x100 ≤ off && off < 0xD00 && ctxField off = R.QCTX_QCFG then s.enableQueue (ctxQueue page off) old new else s
  | .packageGroup =>
    if isTraceCfg off then
      let it := decide (R.GRP_ITRACE_BASE ≤ off)
      s.setReg pgPackage p (regTraceFirst it) (s.reg pgPackage p (regTraceNext it))
    else if off = R.GRP_TRACE_RD_SEL then s.traceCopy p new
    else s
  | .meter => if off = R.METER_METER_SEL then s.meterLatch p (new % 256) else s
  | .meltShard =>
    if 0x100 ≤ off && off < 0x120 then s.meltCopy p page ((off - 0x100) / 4) new else s
  | .clusterCtrl | .dieMgr | .ioCtrl | .pkgMgr =>
    if off = R.DBG_ITRACE_CTRL && new.testBit 0 && !old.testBit 0 then s.itraceSync page 0 else s
  | .router =>
    if off = R.ROUTER_ROUTER_ID then
      (List.range (ioDies s.n8)).foldl (fun s i => s.setReg (pgRouter (8 + i)) 0 R.ROUTER_ROUTER_ID new) s
    else s
  | .link => if off = R.LINK_LINK_CFG then s.linkEnable (linkOf page) (new.testBit 0) else s
  | .time => if off = R.TIME_TIME_ROOT && s.isRoot then s.alignRoot else s
  | _ => s

/-- What a write to a register that holds nothing does: the bits written act, and read zero afterwards (R9). JR_CTRL is one too (R183). -/
def State.acts (s : State) (p page off v : Nat) : State :=
  match assignedType page with
  | .partition =>
    if off = R.PARTITION_PART_CTRL then
      let b := s.reg pgPartition p R.PARTITION_PART_SEL
      let s := if v.testBit 0 then s.createPart b else s
      let s := if v.testBit 1 then s.deletePart b else s
      if v.testBit 2 then s.abortAllTasks b else s
    else if off = R.PARTITION_UNFREEZE then s.thaw v
    else s
  | .pkgErr | .dieErr =>
    if off = R.ERR_ERR_ACK then s.errAck p page v
    else if off = R.ERR_ERR_ACK_THROUGH then s.errAckThrough p page v
    else if off = R.ERR_PF_RELEASE then s.pfThaw (v % 256)
    else s
  | .link =>
    let s := if v.testBit 0 then s.startTraining (linkOf page) else s
    if v.testBit 1 && (s.linkSt (linkOf page) = 4 || s.linkSt (linkOf page) = 5) then s.startProbes (linkOf page) 0 else s
  | .time => if v.testBit 0 then s.remeasureTime else s
  | .snapshot =>
    let s := if v.testBit 0 then s.ckptFree p else s
    if v.testBit 1 then s.updJr p (fun j => { j with ckptNow := true }) else s
  | .pkgMgr =>
    if off = R.PKG_MGR_FW_CTRL then
      let s := if v.testBit 0 then s.fwStart false else s
      if v.testBit 1 then s.fwCancel else s
    else s.dbgCtrl page v
  | .clusterCtrl | .dieMgr | .ioCtrl => s.dbgCtrl page v
  | .power => s.powerCtrl v
  | .jobRunner =>
    let s := if v.testBit 0 then s.jrStart p else s
    if v.testBit 1 then s.jrStopReq p else s
  | _ => s

/-! ### A write -/

/-- Bits of a register with an access code. -/
def accMask (r : RegDesc) (a : Acc) : Nat := r.mask (fun b => b = a)

/-- A write of PAGE_CTRL, PAGE_ERR_MASK or STAGE_CTRL of a group page reaches every present member and the page itself (R50). -/
def State.groupWrite (s : State) (p page : Nat) (f : State → Nat → State) : State :=
  if isGroup (assignedType page) then (page :: s.leaves p page).foldl f s else f s page

/-- A write of the bits `mask` of the register at `off` of a page (R9, R30, R40, R41). -/
def State.writeAt (s : State) (p page off mask v : Nat) : State :=
  match regDesc? (s.pageType page) off with
  | none => s
  | some r =>
    let bank := s.bankOf p page off
    let staged := stagedMask page off &&& mask
    let rw := accMask r .rw &&& mask
    let live := accMask r .rwl &&& mask
    let clear := accMask r .rw1c &&& mask
    let old := s.reg page bank off
    if off = R.HDR_PAGE_CTRL then s.groupWrite p page (fun s m => s.pageCtrl p m (v &&& live))
    else if off = R.HDR_PAGE_ERR_MASK then
      s.groupWrite p page (fun s m => s.setReg m (s.bankOf p m off) off (v &&& live))
    else if off = R.HDR_STAGE_CTRL then s.groupWrite p page (fun s m => s.stageCtrl p m (v &&& mask))
    else if clear ≠ 0 then s.setReg page bank off (old - (old &&& (v &&& clear)))
    else if page ≠ pgEntry && staged ≠ 0 then
      let new := mergeStaged staged ((s.shadow? page bank off).getD old) v
      match s.rejects p page bank off new with
      | some s' => s'
      | none => s.stageReg page bank off new
    else if rw ≠ 0 && s.busyFor p page off then s.busyDrop p page off
    else if (accMask r .wo &&& mask) ≠ 0 then s.acts p page off (v &&& mask &&& accMask r .wo)
    else if off = R.JOB_RUNNER_JR_CTRL && assignedType page = .jobRunner then s.acts p page off (v &&& live)
    else if (rw ||| live) = 0 then s
    else
      let new := mergeStaged (rw ||| live) old v
      match s.rejects p page bank off new with
      | some s' => s'
      | none =>
        if assignedType page = .clusterCtrl && off = R.DBG_ISL_HALT then s.islWrite page new
        else (s.setReg page bank off new).afterWrite p page off old new

/-- A 4-byte write: a melt sheet window's word, a 32-bit register or a half of a 64-bit one. -/
def State.writeWord (s : State) (p page off v : Nat) : State :=
  if reservedOff page off then s
  else if isWindow page off then
    match s.winEntry p page off with
    | some x => s.entWrite x ((off - 0x200) % 0x80) v
    | none => s
  else match regDesc? (s.pageType page) off with
    | some _ => s.writeAt p page off (2 ^ 32 - 1) v
    | none =>
      if off % 8 = 0 then s
      else match regDesc? (s.pageType page) (off - 4) with
        | some r => if r.width = 64 && !reservedOff page (off - 4) then s.writeAt p page (off - 4) ((2 ^ 32 - 1) * 2 ^ 32) (v * 2 ^ 32) else s
        | none => s

/-- An 8-byte write: a 64-bit register at once, or two words (R29). -/
def State.writeLong (s : State) (p page off v : Nat) : State :=
  let wide := match regDesc? (s.pageType page) off with
    | some r => r.width = 64
    | none => false
  if wide && !reservedOff page off && !isWindow page off then s.writeAt p page off (2 ^ 64 - 1) v
  else (s.writeWord p page off (v % 2 ^ 32)).writeWord p page (off + 4) (v / 2 ^ 32)

/-- The block takes register writes: it is not in Off, and outside Ready and recovery only with main conversion on (R309, R399). -/
def State.takesWrites (s : State) (p : Nat) : Bool :=
  !s.power.perst && s.power.inputOn && (s.mainOn || s.boot.state = 3) && (p = 0 || (s.part p).state ≠ 0)

/-- A register write of a requester (R26 to R31, R40 to R42, R53, R283, R284). -/
def State.writeReg (s : State) (p page0 off size v : Nat) : State :=
  let page := homePage page0
  if !s.takesWrites p then s
  else if (s.part p).hostFrozen then s.meter p R.METER_VIOLATIONS 1
  else if s.pageType page = .absent then
    if p = 0 then s.pkgNotice page caABSENT_WRITE (page * 4096 + off) else s.violation p 4 (.host p) (page * 1024 + off / 4)
  else match s.writeKind p page off with
    | some k => s.violation p k (.host p) (page * 1024 + off / 4)
    | none =>
      if (size = 4 && off % 4 = 0) || (size = 8 && off % 8 = 0) then
        if size = 8 then s.writeLong p page off (v % 2 ^ 64) else s.writeWord p page off (v % 2 ^ 32)
      else (s.raisePage page 1).notice page caACCESS (off + 2 ^ 32 * p)

/-- HOLD_DRAINED: HOLD is set and the block holds nothing in flight (R35). -/
def State.holdDrained (s : State) (page : Nat) : State :=
  if s.pageType page ≠ .absent && s.fld page (hdrBank page 0) F.HDR_PAGE_CTRL_HOLD = 1 && !s.pageBusy 0 page then
    s.setFld page 0 F.HDR_PAGE_STATUS_HELD 1
  else s

/-! ### Commands -/

def execRegisterWrite (p page off size : Nat) (v : W64) (s : State) : Result := .next (s.writeReg p (s.viaView p page) off size v.toNat)

/-- A staged write is a register write to a register that holds staged fields; a window word counts as one. -/
def execStagedWrite (p page off size : Nat) (v : W64) (s : State) : Result :=
  let w := s.viaView p page
  .next (if isWindow w off || stagedMask w off ≠ 0 || (off % 8 = 4 && stagedMask w (off - 4) ≠ 0) then
    s.writeReg p w off size v.toNat else s)

/-- STAGE_CTRL with one discard bit, SHADOW_VIEW left as the writer has it. -/
def State.discardWrite (s : State) (p page bit : Nat) : State :=
  s.writeReg p page R.HDR_STAGE_CTRL 4
    (2 ^ bit + (s.reg page (s.bankOf p page R.HDR_STAGE_CTRL) R.HDR_STAGE_CTRL &&& 0x10000))

def execDiscardStep (p page : Nat) (s : State) : Result := .next (s.discardWrite p page 0)
def execDiscardLayer (p page : Nat) (s : State) : Result := .next (s.discardWrite p page 1)
def execDiscardPass (p page : Nat) (s : State) : Result := .next (s.discardWrite p page 2)
def execHold (p page : Nat) (s : State) : Result :=
  .next (s.writeReg p page R.HDR_PAGE_CTRL 4 (s.reg page (s.bankOf p page R.HDR_PAGE_CTRL) R.HDR_PAGE_CTRL ||| 1))
def execHoldDrained (page : Nat) (s : State) : Result := .next (s.holdDrained page)
def execMeterSel (p : Nat) (v : W32) (s : State) : Result := .next (s.writeReg p pgMeter R.METER_METER_SEL 4 v.toNat)
def execTraceRdSel (p : Nat) (v : W64) (s : State) : Result := .next (s.writeReg p pgPackage R.GRP_TRACE_RD_SEL 8 v.toNat)
def execMeltSel (p die win : Nat) (v : W32) (s : State) : Result :=
  .next (if win < 8 then s.writeReg p (diePage die 16) (R.MELT_SHARD_MELT_SEL_0 + 4 * win) 4 v.toNat else s)
def execTraceBaseWrite (p off : Nat) (v : W64) (s : State) : Result :=
  .next (if isTraceCfg off then s.writeReg p pgPackage off (if off % 16 = 0 then 8 else 4) v.toNat else s)
def execItraceEnable (p page : Nat) (v : W32) (s : State) : Result :=
  .next (if isDebugPage page then s.writeReg p page R.DBG_ITRACE_CTRL 4 v.toNat else s)
def execRouterIdWrite (p die : Nat) (v : W32) (s : State) : Result := .next (s.writeReg p (pgRouter die) R.ROUTER_ROUTER_ID 4 v.toNat)
def execRouteDataWrite (p die : Nat) (v : W32) (s : State) : Result := .next (s.writeReg p (pgRouter die) R.ROUTER_ROUTE_DATA 4 v.toNat)
def execCreate (p : Nat) (s : State) : Result := .next (s.writeReg p pgPartition R.PARTITION_PART_CTRL 4 1)
def execDelete (p : Nat) (s : State) : Result := .next (s.writeReg p pgPartition R.PARTITION_PART_CTRL 4 2)
def execAbortAll (p : Nat) (s : State) : Result := .next (s.writeReg p pgPartition R.PARTITION_PART_CTRL 4 4)
def execUnfreeze (p : Nat) (v : W32) (s : State) : Result := .next (s.writeReg p pgPartition R.PARTITION_UNFREEZE 4 v.toNat)
def execPfRelease (p : Nat) (v : W32) (s : State) : Result := .next (s.writeReg p pgPkgErr R.ERR_PF_RELEASE 4 v.toNat)

/-- An error ring's page (R315). -/
def isRingPage (page : Nat) : Bool := assignedType page = .pkgErr || assignedType page = .dieErr

def execErrAck (p page : Nat) (v : W32) (s : State) : Result :=
  .next (if isRingPage page then s.writeReg p page R.ERR_ERR_ACK 4 v.toNat else s)
def execErrAckThrough (p page : Nat) (v : W32) (s : State) : Result :=
  .next (if isRingPage page then s.writeReg p page R.ERR_ERR_ACK_THROUGH 4 v.toNat else s)
def execRetrain (p n : Nat) (s : State) : Result := .next (s.writeReg p (linkPage n) R.LINK_LINK_CTRL 4 1)
def execLinkCtrlProbe (p n : Nat) (s : State) : Result := .next (s.writeReg p (linkPage n) R.LINK_LINK_CTRL 4 2)
def execRemeasure (p : Nat) (s : State) : Result := .next (s.writeReg p (pgTime 8) R.TIME_TIME_CTRL 4 1)
def execCkptRelease (p : Nat) (s : State) : Result := .next (s.writeReg p pgSnapshot R.SNAPSHOT_CKPT_CTRL 4 1)
def execCkptNow (p : Nat) (s : State) : Result := .next (s.writeReg p pgSnapshot R.SNAPSHOT_CKPT_CTRL 4 2)
def execFwUpdate (p : Nat) (s : State) : Result := .next (s.writeReg p pgPkgMgr R.PKG_MGR_FW_CTRL 4 1)
def execCancel (p : Nat) (s : State) : Result := .next (s.writeReg p pgPkgMgr R.PKG_MGR_FW_CTRL 4 2)
def execPark (p : Nat) (s : State) : Result := .next (s.writeReg p pgPower R.POWER_POWER_CTRL 4 1)
def execUnpark (p : Nat) (s : State) : Result := .next (s.writeReg p pgPower R.POWER_POWER_CTRL 4 2)
def execAux (p : Nat) (s : State) : Result := .next (s.writeReg p pgPower R.POWER_POWER_CTRL 4 4)
def execCapWWrite (p : Nat) (v : W32) (s : State) : Result := .next (s.writeReg p pgPower R.POWER_CAP_W 4 v.toNat)
def execHalt (p page : Nat) (s : State) : Result := .next (if isDebugPage page then s.writeReg p page R.DBG_DBG_CTRL 4 1 else s)
def execResume (p page : Nat) (s : State) : Result := .next (if isDebugPage page then s.writeReg p page R.DBG_DBG_CTRL 4 2 else s)
def execStep (p page : Nat) (s : State) : Result := .next (if isDebugPage page then s.writeReg p page R.DBG_DBG_CTRL 4 4 else s)
def execIslHalt (p page : Nat) (v : W64) (s : State) : Result :=
  .next (if assignedType page = .clusterCtrl then s.writeReg p page R.DBG_ISL_HALT 8 v.toNat else s)
def execStart (p : Nat) (s : State) : Result := .next (s.writeReg p pgJobRunner R.JOB_RUNNER_JR_CTRL 4 1)
def execStop (p : Nat) (s : State) : Result := .next (s.writeReg p pgJobRunner R.JOB_RUNNER_JR_CTRL 4 2)

end Sys2Proof.Machine
end

