-- ==== Sys2Proof/Machine/Dispatch.lean ====
section
/-! DEFINITION. The dispatch: one arm per command, one direct call of its meaning per arm. -/

namespace Sys2Proof.Machine

/-- The effect of a command on everything but the queue of waiting commands. -/
def exec (i : Instr) (s : State) : Host.Outcome State Fault Refusal :=
  match i with
  | .sqTail p q v => Sys2Proof.Machine.execSqTail p q v s
  | .cqHead p q v => Sys2Proof.Machine.execCqHead p q v s
  | .restart p q v => Sys2Proof.Machine.execRestart p q v s
  | .skip p q v => Sys2Proof.Machine.execSkip p q v s
  | .abort p q v => Sys2Proof.Machine.execAbort p q v s
  | .admissionTurn => Sys2Proof.Machine.execAdmissionTurn s
  | .gemm q slot => Sys2Proof.Machine.execGemm q slot s
  | .gemmPattern q slot => Sys2Proof.Machine.execGemmPattern q slot s
  | .vector q slot => Sys2Proof.Machine.execVector q slot s
  | .copy q slot => Sys2Proof.Machine.execCopy q slot s
  | .gather q slot => Sys2Proof.Machine.execGather q slot s
  | .scatter q slot => Sys2Proof.Machine.execScatter q slot s
  | .scatterAdd q slot => Sys2Proof.Machine.execScatterAdd q slot s
  | .checkScan q slot => Sys2Proof.Machine.execCheckScan q slot s
  | .collective q slot => Sys2Proof.Machine.execCollective q slot s
  | .update q slot => Sys2Proof.Machine.execUpdate q slot s
  | .barrier q slot => Sys2Proof.Machine.execBarrier q slot s
  | .localStage q slot => Sys2Proof.Machine.execLocalStage q slot s
  | .direct q slot => Sys2Proof.Machine.execDirect q slot s
  | .restore q slot => Sys2Proof.Machine.execRestore q slot s
  | .pair q slot => Sys2Proof.Machine.execPair q slot s
  | .fetch q slot => Sys2Proof.Machine.execFetch q slot s
  | .statsRead q slot => Sys2Proof.Machine.execStatsRead q slot s
  | .eventSignal q slot => Sys2Proof.Machine.execEventSignal q slot s
  | .eventWait q slot => Sys2Proof.Machine.execEventWait q slot s
  | .stepBoundary q slot => Sys2Proof.Machine.execStepBoundary q slot s
  | .traceMark q slot => Sys2Proof.Machine.execTraceMark q slot s
  | .linkSend q slot => Sys2Proof.Machine.execLinkSend q slot s
  | .linkRecv q slot => Sys2Proof.Machine.execLinkRecv q slot s
  | .commandComplete q slot => Sys2Proof.Machine.execCommandComplete q slot s
  | .arrayPassStart page need tileAt sprueMin actEnd => Sys2Proof.Machine.execArrayPassStart page need tileAt sprueMin actEnd s
  | .arrayPassEnd page => Sys2Proof.Machine.execArrayPassEnd page s
  | .tileRelease page => Sys2Proof.Machine.execTileRelease page s
  | .rerun part => Sys2Proof.Machine.execRerun part s
  | .assay page ok => Sys2Proof.Machine.execAssay page ok s
  | .assayDue page => Sys2Proof.Machine.execAssayDue page s
  | .hbmEccError page key addr uc reader => Sys2Proof.Machine.execHbmEccError page key addr uc reader s
  | .sramEccError page word off uc held reader => Sys2Proof.Machine.execSramEccError page word off uc held reader s
  | .barrierTimeout part id => Sys2Proof.Machine.execBarrierTimeout part id s
  | .stall q => Sys2Proof.Machine.execStall q s
  | .deadline q slot => Sys2Proof.Machine.execDeadline q slot s
  | .eventTimeout q slot => Sys2Proof.Machine.execEventTimeout q slot s
  | .jobStep part => Sys2Proof.Machine.execJobStep part s
  | .start p => Sys2Proof.Machine.execStart p s
  | .stop p => Sys2Proof.Machine.execStop p s
  | .idleStageApply part => Sys2Proof.Machine.execIdleStageApply part s
  | .zeroingDone part => Sys2Proof.Machine.execZeroingDone part s
  | .stagedWrite p page off size v => Sys2Proof.Machine.execStagedWrite p page off size v s
  | .discardStep p page => Sys2Proof.Machine.execDiscardStep p page s
  | .discardLayer p page => Sys2Proof.Machine.execDiscardLayer p page s
  | .discardPass p page => Sys2Proof.Machine.execDiscardPass p page s
  | .registerWrite p page off size v => Sys2Proof.Machine.execRegisterWrite p page off size v s
  | .lowHalfRead p page off => Sys2Proof.Machine.execLowHalfRead p page off s
  | .progressRead p page => Sys2Proof.Machine.execProgressRead p page s
  | .sprueStatusRead p page => Sys2Proof.Machine.execSprueStatusRead p page s
  | .hold p page => Sys2Proof.Machine.execHold p page s
  | .holdDrained page => Sys2Proof.Machine.execHoldDrained page s
  | .meterSel p v => Sys2Proof.Machine.execMeterSel p v s
  | .traceRdSel p v => Sys2Proof.Machine.execTraceRdSel p v s
  | .meltSel p die win v => Sys2Proof.Machine.execMeltSel p die win v s
  | .traceBaseWrite p off v => Sys2Proof.Machine.execTraceBaseWrite p off v s
  | .itraceEnable p page v => Sys2Proof.Machine.execItraceEnable p page v s
  | .routerIdWrite p die v => Sys2Proof.Machine.execRouterIdWrite p die v s
  | .routeDataWrite p die v => Sys2Proof.Machine.execRouteDataWrite p die v s
  | .create p => Sys2Proof.Machine.execCreate p s
  | .delete p => Sys2Proof.Machine.execDelete p s
  | .abortAll p => Sys2Proof.Machine.execAbortAll p s
  | .unfreeze p v => Sys2Proof.Machine.execUnfreeze p v s
  | .pfRelease p v => Sys2Proof.Machine.execPfRelease p v s
  | .errAck p page v => Sys2Proof.Machine.execErrAck p page v s
  | .errAckThrough p page v => Sys2Proof.Machine.execErrAckThrough p page v s
  | .retrain p n => Sys2Proof.Machine.execRetrain p n s
  | .linkCtrlProbe p n => Sys2Proof.Machine.execLinkCtrlProbe p n s
  | .remeasure p => Sys2Proof.Machine.execRemeasure p s
  | .ckptRelease p => Sys2Proof.Machine.execCkptRelease p s
  | .ckptNow p => Sys2Proof.Machine.execCkptNow p s
  | .fwUpdate p => Sys2Proof.Machine.execFwUpdate p s
  | .cancel p => Sys2Proof.Machine.execCancel p s
  | .fwCheckDone => Sys2Proof.Machine.execFwCheckDone s
  | .fwFlashWriteDone writeOk => Sys2Proof.Machine.execFwFlashWriteDone writeOk s
  | .fwPartitionMove part => Sys2Proof.Machine.execFwPartitionMove part s
  | .park p => Sys2Proof.Machine.execPark p s
  | .unpark p => Sys2Proof.Machine.execUnpark p s
  | .aux p => Sys2Proof.Machine.execAux p s
  | .parkEntry => Sys2Proof.Machine.execParkEntry s
  | .autoPark => Sys2Proof.Machine.execAutoPark s
  | .hbmSelfRefreshReturn => Sys2Proof.Machine.execHbmSelfRefreshReturn s
  | .linkLowPowerReturn => Sys2Proof.Machine.execLinkLowPowerReturn s
  | .capWWrite p v => Sys2Proof.Machine.execCapWWrite p v s
  | .halt p page => Sys2Proof.Machine.execHalt p page s
  | .haltDrained page => Sys2Proof.Machine.execHaltDrained page s
  | .resume p page => Sys2Proof.Machine.execResume p page s
  | .step p page => Sys2Proof.Machine.execStep p page s
  | .islHalt p page v => Sys2Proof.Machine.execIslHalt p page v s
  | .haltNoticeSend => Sys2Proof.Machine.execHaltNoticeSend s
  | .perstAssert => Sys2Proof.Machine.execPerstAssert s
  | .perstRelease => Sys2Proof.Machine.execPerstRelease s
  | .bootPhaseEnd r => Sys2Proof.Machine.execBootPhaseEnd r s
  | .hotReset => Sys2Proof.Machine.execHotReset s
  | .flr fn => Sys2Proof.Machine.execFlr fn s
  | .pfFlr => Sys2Proof.Machine.execPfFlr s
  | .cxlLinkTraining cxl speed width retimers sris => Sys2Proof.Machine.execCxlLinkTraining cxl speed width retimers sris s
  | .h2dSnoop addr => Sys2Proof.Machine.execH2dSnoop addr s
  | .ringPoll part ring => Sys2Proof.Machine.execRingPoll part ring s
  | .cxlMemRead hpa len => Sys2Proof.Machine.execCxlMemRead hpa len s
  | .cxlMemWrite hpa data => Sys2Proof.Machine.execCxlMemWrite hpa data s
  | .atsTranslationResponse q slot vpage ok => Sys2Proof.Machine.execAtsTranslationResponse q slot vpage ok s
  | .priResponse q slot success => Sys2Proof.Machine.execPriResponse q slot success s
  | .atsInvalidation part vpage => Sys2Proof.Machine.execAtsInvalidation part vpage s
  | .doeDiscovery index => Sys2Proof.Machine.execDoeDiscovery index s
  | .cdatTableAccess handle => Sys2Proof.Machine.execCdatTableAccess handle s
  | .imagePush off data => Sys2Proof.Machine.execImagePush off data s
  | .getVersion => Sys2Proof.Machine.execGetVersion s
  | .getCapabilities => Sys2Proof.Machine.execGetCapabilities s
  | .negotiateAlgorithms => Sys2Proof.Machine.execNegotiateAlgorithms s
  | .getDigests => Sys2Proof.Machine.execGetDigests s
  | .getCertificate slot off len => Sys2Proof.Machine.execGetCertificate slot off len s
  | .challenge slot nonce => Sys2Proof.Machine.execChallenge slot nonce s
  | .getMeasurements index signed nonce => Sys2Proof.Machine.execGetMeasurements index signed nonce s
  | .entdaa addr => Sys2Proof.Machine.execEntdaa addr s
  | .rstdaa => Sys2Proof.Machine.execRstdaa s
  | .setEndpointId eid => Sys2Proof.Machine.execSetEndpointId eid s
  | .alertResponseAddress => Sys2Proof.Machine.execAlertResponseAddress s
  | .queryDeviceIdentifiers => Sys2Proof.Machine.execQueryDeviceIdentifiers s
  | .getFirmwareParameters => Sys2Proof.Machine.execGetFirmwareParameters s
  | .requestUpdate => Sys2Proof.Machine.execRequestUpdate s
  | .passComponentTable component => Sys2Proof.Machine.execPassComponentTable component s
  | .updateComponent component size => Sys2Proof.Machine.execUpdateComponent component size s
  | .requestFirmwareData off data => Sys2Proof.Machine.execRequestFirmwareData off data s
  | .transferComplete => Sys2Proof.Machine.execTransferComplete s
  | .verifyComplete => Sys2Proof.Machine.execVerifyComplete s
  | .applyComplete => Sys2Proof.Machine.execApplyComplete s
  | .activateFirmware => Sys2Proof.Machine.execActivateFirmware s
  | .getStatus => Sys2Proof.Machine.execGetStatus s
  | .cancelUpdateComponent => Sys2Proof.Machine.execCancelUpdateComponent s
  | .cancelUpdate => Sys2Proof.Machine.execCancelUpdate s
  | .getPdrRepositoryInfo => Sys2Proof.Machine.execGetPdrRepositoryInfo s
  | .getPdr handle => Sys2Proof.Machine.execGetPdr handle s
  | .getSensorReading id => Sys2Proof.Machine.execGetSensorReading id s
  | .getStateSensorReadings id => Sys2Proof.Machine.execGetStateSensorReadings id s
  | .setStateEffecterStates id st => Sys2Proof.Machine.execSetStateEffecterStates id st s
  | .setNumericEffecterValue id value => Sys2Proof.Machine.execSetNumericEffecterValue id value s
  | .getNumericEffecterValue id => Sys2Proof.Machine.execGetNumericEffecterValue id s
  | .setEventReceiver eid => Sys2Proof.Machine.execSetEventReceiver eid s
  | .platformEventAccepted => Sys2Proof.Machine.execPlatformEventAccepted s
  | .partnerDetect n => Sys2Proof.Machine.execPartnerDetect n s
  | .trainConverge n lanes lowLoss => Sys2Proof.Machine.execTrainConverge n lanes lowLoss s
  | .alignLock n => Sys2Proof.Machine.execAlignLock n s
  | .trainingTimeout n => Sys2Proof.Machine.execTrainingTimeout n s
  | .flitReceived n f => Sys2Proof.Machine.execFlitReceived n f s
  | .laneSignalLoss n lane => Sys2Proof.Machine.execLaneSignalLoss n lane s
  | .linkWindowEval page => Sys2Proof.Machine.execLinkWindowEval page s
  | .ident n peer peerLink variant lanes => Sys2Proof.Machine.execIdent n peer peerLink variant lanes s
  | .probe n num t1 => Sys2Proof.Machine.execProbe n num t1 s
  | .probeResp n num t1 t2 t3 => Sys2Proof.Machine.execProbeResp n num t1 t2 t3 s
  | .probeTick n => Sys2Proof.Machine.execProbeTick n s
  | .timeTree n root hops off => Sys2Proof.Machine.execTimeTree n root hops off s
  | .driftProbe => Sys2Proof.Machine.execDriftProbe s
  | .narrow n upper => Sys2Proof.Machine.execNarrow n upper s
  | .haltNotice n module part infra seq ttl => Sys2Proof.Machine.execHaltNotice n module part infra seq ttl s
  | .packetForward die pk => Sys2Proof.Machine.execPacketForward die pk s
  | .routeStuck die => Sys2Proof.Machine.execRouteStuck die s
  | .sendReq die pk => Sys2Proof.Machine.execSendReq die pk s
  | .sendClear die pk => Sys2Proof.Machine.execSendClear die pk s
  | .sendData die pk => Sys2Proof.Machine.execSendData die pk s
  | .sendCancel die pk => Sys2Proof.Machine.execSendCancel die pk s
  | .sendReject die pk => Sys2Proof.Machine.execSendReject die pk s
  | .sendBusy die pk => Sys2Proof.Machine.execSendBusy die pk s
  | .sendRetry part => Sys2Proof.Machine.execSendRetry part s
  | .recvTimeout q slot => Sys2Proof.Machine.execRecvTimeout q slot s
  | .collReady die pk => Sys2Proof.Machine.execCollReady die pk s
  | .collData die pk => Sys2Proof.Machine.execCollData die pk s
  | .collAck die pk => Sys2Proof.Machine.execCollAck die pk s
  | .collSeal die pk => Sys2Proof.Machine.execCollSeal die pk s
  | .collCancel die pk => Sys2Proof.Machine.execCollCancel die pk s
  | .collectiveTimeout q slot => Sys2Proof.Machine.execCollectiveTimeout q slot s
  | .snapStreamDone part => Sys2Proof.Machine.execSnapStreamDone part s
  | .ckptPushDone part => Sys2Proof.Machine.execCkptPushDone part s
  | .budgetWindow => Sys2Proof.Machine.execBudgetWindow s
  | .energyAttribution mj => Sys2Proof.Machine.execEnergyAttribution mj s
  | .bandwidthInterval => Sys2Proof.Machine.execBandwidthInterval s
  | .capControlTick mean100us mean1ms => Sys2Proof.Machine.execCapControlTick mean100us mean1ms s
  | .inputTrip => Sys2Proof.Machine.execInputTrip s
  | .sensorSample r => Sys2Proof.Machine.execSensorSample r s
  | .thermalRelease => Sys2Proof.Machine.execThermalRelease s
  | .flowThrottleEnd => Sys2Proof.Machine.execFlowThrottleEnd s
  | .inputRise => Sys2Proof.Machine.execInputRise s
  | .inputRange => Sys2Proof.Machine.execInputRange s
  | .undervoltage => Sys2Proof.Machine.execUndervoltage s
  | .overvoltage => Sys2Proof.Machine.execOvervoltage s
  | .inputOff => Sys2Proof.Machine.execInputOff s
  | .leak => Sys2Proof.Machine.execLeak s
  | .feedChanged pins => Sys2Proof.Machine.execFeedChanged pins s
  | .refLost => Sys2Proof.Machine.execRefLost s
  | .refReturn => Sys2Proof.Machine.execRefReturn s
  | .readyReturnDone => Sys2Proof.Machine.execReadyReturnDone s
  | .d2dFail page => Sys2Proof.Machine.execD2dFail page s
  | .leakClear => Sys2Proof.Machine.execLeakClear s
  | .hostLinkError k => Sys2Proof.Machine.execHostLinkError k s
  | .hdmDecoderCommit dec base size skip ways gran lock => Sys2Proof.Machine.execHdmDecoderCommit dec base size skip ways gran lock s
  | .unknownDoeProtocol vendor ptype => Sys2Proof.Machine.execUnknownDoeProtocol vendor ptype s

end Sys2Proof.Machine
end

