-- ==== Sys2Proof/Machine/Tick.lean ====
section
/-! DEFINITION. One edge of the 100 MHz reference (R20): the time count and what counts nanoseconds or cycles (R21, R287, R378, R381,
R392, R404, R426). -/

namespace Sys2Proof.Machine

/-- The time count runs from the release of PERST#, from the reference or, once main conversion is on, from the holdover oscillator (R20,
R21). -/
def State.timeRuns (s : State) : Bool := s.power.inputOn && !s.power.perst && (s.refPresent || s.mainOn)

/-- How far TIME_NOW is ahead or behind that this edge makes up for: an even part of what is left, never a step backwards (R21; DESIGN CHOICE log 85). -/
def State.relockStep (s : State) : Int :=
  if s.holdover = 0 || !s.refPresent then 0
  else max (-10) (s.holdover.tdiv (Int.ofNat (max 1 ((s.timeX.relockT - s.timeNow) / 10))))

/-- Count some cycles or nanoseconds on pages. -/
def State.bumpAll (s : State) (pages : List Nat) (off : Nat) (n : Nat → Nat) : State :=
  pages.foldl (fun s page => s.bump page 0 off (n page)) s

/-- Pages of the engines that hold started commands. -/
def State.workPages (s : State) : List Nat :=
  dedup (s.queues.flatMap (fun e => (e.2.cmds.filter (fun c => !c.recorded && c.startT.isSome)).flatMap (·.members)))

/-- Pages whose island a halt stops (R378, R390, R391). -/
def State.haltPages (s : State) : List Nat :=
  let cores := (s.dbg.filter (fun e => e.2.halted || e.2.wantHalt)).map (·.1)
  let isl := (s.regs.filter (fun e => keyOff e.1 = R.DBG_ISL_HALT && assignedType (keyPage e.1) = .clusterCtrl)).flatMap (fun e =>
    ((List.range 64).filter (fun c => e.2.toNat.testBit c)).map (fun c => pageNum (pageDie (keyPage e.1)) (pageCluster (keyPage e.1)) c))
  dedup (cores ++ isl)

/-- CNT_BUSY of the pages at work, in cycles of their islands (R378). -/
def State.countBusy (s : State) : State :=
  s.bumpAll (s.workPages.filter (fun page => !s.islHalted page)) R.HDR_CNT_BUSY (fun page => clockMHz page / 100)

/-- Whether a halt stops an engine of a command or the core that issues to it (R381, R392). -/
def haltedBy (halts : List Nat) (m : Nat) : Bool := halts.contains m || halts.contains (issuingCore m)

/-- A partition's timers stand still while a halt is in effect on a unit that runs or issues its commands; an infrastructure core's halt
holds those of every partition (R392). -/
def State.holdTimers (s : State) (halts : List Nat) (p : Nat) : State :=
  let infra := halts.any (fun page => !isClusterPage page)
  let mine := s.queues.any (fun e => s.queueOwner e.1 = p && e.2.cmds.any (fun c => !c.recorded && c.members.any (haltedBy halts)))
  if infra || mine then
    let s := s.updPart p (fun x => { x with heldNs := x.heldNs + 10 })
    { s with
      bars := s.bars.map (fun b => if b.part = p then { b with first := b.first + 10 } else b)
      queues := s.queues.map (fun (e : Nat × QueueX) =>
        if s.queueOwner e.1 = p then (e.1, { e.2 with tasks := e.2.tasks.map (fun (t : Task) => { t with lastProg := t.lastProg + 10 }) }) else e) }
  else s

/-- What a halt counts: CNT_HALTED, the halted time of commands in flight, and held timers. -/
def State.countHalts (s : State) : State :=
  let halts := s.haltPages
  if halts.isEmpty then s
  else
    let s := s.bumpAll halts R.HDR_CNT_HALTED (fun _ => 10)
    let s := { s with queues := s.queues.map (fun (e : Nat × QueueX) => (e.1, { e.2 with cmds := e.2.cmds.map (fun (c : Cmd) =>
      if c.startT.isSome && !c.recorded then
        { c with haltNs := (c.members.zip c.haltNs).map (fun (m : Nat × Nat) => if haltedBy halts m.1 then m.2 + 10 else m.2) }
      else c) })) }
    s.partNums.foldl (fun s p => s.holdTimers halts p) s

/-- The counters of the POWER page, and the span for automatic parking (R404, R426). -/
def State.countPower (s : State) : State :=
  if !s.ready then s
  else
    let duty := decide (s.dutyNow < 64)
    let s := if duty || decide (0 < s.stage1Now) then s.bump pgPower 0 R.POWER_CAP_NS 10 else s
    let s := if duty then s.bump pgPower 0 R.POWER_DUTY_NS 10 else s
    let s := if s.throttled then s.bump pgPower 0 R.POWER_FLOW_THROTTLE_NS 10 else s
    let s := if s.power.hotJ || s.power.hotH then s.bump pgPower 0 R.POWER_THERMAL_CAP_NS 10 else s
    if s.power.state = 3 && !s.parkOk then { s with power := { s.power with idleSince := s.timeNow } } else s

/-- TIME_NOW advances by 10 (R20), modulo its 64 bits, and the counters with it. -/
def State.tick (s : State) : State :=
  if s.timeRuns then
    let d := s.relockStep
    let s := { s with timeNow := (Int.ofNat s.timeNow + 10 + d).toNat % 2 ^ 64, holdover := s.holdover - d }
    s.countBusy.countHalts.countPower
  else s

end Sys2Proof.Machine
end

