-- ==== Sys2Proof/Safety.lean ====
section
/-! DEFINITION. What a sound state of the block is, in the terms the statements use. -/

namespace Sys2Proof.Machine

/-- Every memory and table is in its canonical form: addresses strictly rising, and no entry of a memory equal to what
an unlisted address reads as. -/
def State.stored (s : State) : Bool :=
  Memory.wf 0 s.hbm && Memory.wf 0 s.host && Memory.wf 0xFF s.flash && rising s.regs && rising s.shadows &&
  rising s.latches

/-- A register write of partition `p` to a present page reaches the register port: the page takes writes, the partition's host is not
frozen, and the write is no violation (R15, R27, R282). -/
def State.accepts (s : State) (p page off : Nat) : Bool :=
  s.takesWrites p && !(s.part p).hostFrozen && decide (s.pageType page ≠ .absent) && (s.writeKind p page off).isNone

/-- A register without a rule of its own. -/
def ordinary (page off : Nat) : Bool :=
  off ≠ R.HDR_PAGE_CTRL && off ≠ R.HDR_PAGE_ERR_MASK && off ≠ R.HDR_STAGE_CTRL && page ≠ pgEntry &&
    !(off = R.JOB_RUNNER_JR_CTRL && assignedType page = .jobRunner) && !(off = R.DBG_ISL_HALT && assignedType page = .clusterCtrl)

/-- A 4-byte write of partition `p` to this offset reaches a register that has no rule of its own. -/
def State.takesWord (s : State) (p page off : Nat) : Bool :=
  s.accepts p page off && homePage page = page && off % 4 = 0 && !reservedOff page off && !isWindow page off && ordinary page off &&
    (regDesc? (assignedType page) off).isSome

/-- The bits of a register with an access code. -/
def bitsWith (page off : Nat) (a : Acc) : Nat :=
  match regDesc? (assignedType page) off with
  | none => 0
  | some r => accMask r a

/-- A packet for this module with the job tag of its partition is taken (R245). -/
def State.takesPacket (s : State) (die : Nat) (pk : Packet) : Bool :=
  s.ready && pk.destMod = s.moduleId && (s.wake.bump (pgRouter die) 0 R.ROUTER_ROUTE_LOCAL_FLITS (packetFlits pk)).tagOk pk

/-- The state in which a taken packet's effect begins: the module awake, the packet's flits and bytes counted. -/
def State.arrived (s : State) (die : Nat) (pk : Packet) : State :=
  (s.wake.bump (pgRouter die) 0 R.ROUTER_ROUTE_LOCAL_FLITS (packetFlits pk)).bump pgMeter pk.destPart R.METER_LINK_BYTES (32 + pk.data.length)

/-- The waiting command of a queue's slot, of this opcode, starts when its row comes: nothing keeps it (R202), no breakpoint stands at its dispatch (R389),
and its operands hold no uncorrectable error (R322). -/
abbrev State.starts (s : State) (q slot op : Nat) (c : Cmd) (t : Task) : Prop :=
  s.cmd? q slot = some c ∧ findTask (s.queue q).tasks c.task = some t ∧ dOpcode c.desc = op ∧ s.startsNow q c t = true ∧
    s.startBp q c t = none ∧ (s.begun q c t).badInput c = none

/-- A request, message or read that changes nothing but registers, the sideband and what is sent. -/
def isMessage (c : Instr) : Bool :=
  match c with
  | .sprueStatusRead .. | .holdDrained .. | .doeDiscovery .. | .cdatTableAccess .. | .getVersion .. | .getCapabilities ..
  | .negotiateAlgorithms .. | .getDigests .. | .getCertificate .. | .challenge .. | .getMeasurements .. | .entdaa .. | .rstdaa ..
  | .setEndpointId .. | .alertResponseAddress .. | .queryDeviceIdentifiers .. | .getFirmwareParameters .. | .getStatus ..
  | .getPdrRepositoryInfo .. | .getPdr .. | .getSensorReading .. | .getStateSensorReadings .. | .getNumericEffecterValue ..
  | .setEventReceiver .. | .platformEventAccepted .. | .bandwidthInterval .. | .unknownDoeProtocol .. => true
  | _ => false

/-- A command of a queue, an engine, a transfer or a link, and what befalls them. -/
def isWork (c : Instr) : Bool :=
  match c with
  | .sqTail .. | .cqHead .. | .restart .. | .skip .. | .abort .. | .admissionTurn .. | .gemm .. | .gemmPattern .. | .vector .. | .copy ..
  | .gather .. | .scatter .. | .scatterAdd .. | .checkScan .. | .collective .. | .update .. | .barrier .. | .localStage .. | .direct ..
  | .restore .. | .pair .. | .fetch .. | .statsRead .. | .eventSignal .. | .eventWait .. | .stepBoundary .. | .traceMark .. | .linkSend ..
  | .linkRecv .. | .commandComplete .. | .arrayPassStart .. | .arrayPassEnd .. | .tileRelease .. | .rerun .. | .assay .. | .assayDue ..
  | .hbmEccError .. | .sramEccError .. | .barrierTimeout .. | .stall .. | .deadline .. | .eventTimeout .. | .jobStep .. | .idleStageApply ..
  | .zeroingDone .. | .sprueStatusRead .. | .holdDrained .. | .fwPartitionMove .. | .autoPark .. | .hbmSelfRefreshReturn ..
  | .linkLowPowerReturn .. | .haltDrained .. | .hotReset .. | .flr .. | .pfFlr .. | .cxlLinkTraining .. | .h2dSnoop .. | .ringPoll ..
  | .cxlMemRead .. | .cxlMemWrite .. | .atsTranslationResponse .. | .priResponse .. | .atsInvalidation .. | .doeDiscovery ..
  | .cdatTableAccess .. | .getVersion .. | .getCapabilities .. | .negotiateAlgorithms .. | .getDigests .. | .getCertificate .. | .challenge ..
  | .getMeasurements .. | .alertResponseAddress .. | .queryDeviceIdentifiers .. | .getFirmwareParameters .. | .getStatus ..
  | .getPdrRepositoryInfo .. | .getPdr .. | .getSensorReading .. | .getStateSensorReadings .. | .setNumericEffecterValue ..
  | .getNumericEffecterValue .. | .partnerDetect .. | .trainConverge .. | .alignLock .. | .trainingTimeout .. | .flitReceived ..
  | .laneSignalLoss .. | .linkWindowEval .. | .ident .. | .probe .. | .probeResp .. | .probeTick .. | .timeTree .. | .driftProbe .. | .narrow ..
  | .packetForward .. | .routeStuck .. | .sendReq .. | .sendClear .. | .sendData .. | .sendCancel .. | .sendReject .. | .sendBusy ..
  | .sendRetry .. | .recvTimeout .. | .collReady .. | .collData .. | .collAck .. | .collSeal .. | .collCancel .. | .collectiveTimeout ..
  | .snapStreamDone .. | .ckptPushDone .. | .budgetWindow .. | .energyAttribution .. | .bandwidthInterval .. | .capControlTick ..
  | .thermalRelease .. | .flowThrottleEnd .. | .inputRange .. | .d2dFail .. | .hostLinkError .. | .hdmDecoderCommit .. | .unknownDoeProtocol .. => true
  | _ => false

/-- A command that stores nothing in any memory. -/
def sparesMemory (c : Instr) : Bool :=
  match c with
  | .arrayPassEnd .. | .assayDue .. | .zeroingDone .. | .lowHalfRead .. | .progressRead .. | .sprueStatusRead .. | .holdDrained ..
  | .fwPartitionMove .. | .parkEntry .. | .autoPark .. | .hbmSelfRefreshReturn .. | .linkLowPowerReturn .. | .haltDrained ..
  | .haltNoticeSend .. | .perstRelease .. | .cxlLinkTraining .. | .h2dSnoop .. | .doeDiscovery .. | .cdatTableAccess .. | .getVersion ..
  | .getCapabilities .. | .negotiateAlgorithms .. | .getDigests .. | .getCertificate .. | .challenge .. | .getMeasurements .. | .entdaa ..
  | .rstdaa .. | .setEndpointId .. | .alertResponseAddress .. | .queryDeviceIdentifiers .. | .getFirmwareParameters .. | .requestUpdate ..
  | .passComponentTable .. | .updateComponent .. | .transferComplete .. | .verifyComplete .. | .activateFirmware .. | .getStatus ..
  | .cancelUpdateComponent .. | .cancelUpdate .. | .getPdrRepositoryInfo .. | .getPdr .. | .getSensorReading .. | .getStateSensorReadings ..
  | .setNumericEffecterValue .. | .getNumericEffecterValue .. | .setEventReceiver .. | .platformEventAccepted .. | .partnerDetect ..
  | .alignLock .. | .probe .. | .probeTick .. | .driftProbe .. | .haltNotice .. | .packetForward .. | .routeStuck .. | .sendReq ..
  | .sendClear .. | .sendBusy .. | .sendRetry .. | .snapStreamDone .. | .energyAttribution .. | .bandwidthInterval .. | .capControlTick ..
  | .thermalRelease .. | .flowThrottleEnd .. | .inputRise .. | .inputRange .. | .feedChanged .. | .refReturn .. | .readyReturnDone ..
  | .leakClear .. | .hostLinkError .. | .hdmDecoderCommit .. | .unknownDoeProtocol .. => true
  | _ => false

/-- A command that leaves the queues, the barriers, the tiles and the transfers alone. -/
def sparesQueues (c : Instr) : Bool :=
  match c with
  | .assayDue .. | .zeroingDone .. | .lowHalfRead .. | .progressRead .. | .sprueStatusRead .. | .holdDrained .. | .fwCheckDone ..
  | .fwFlashWriteDone .. | .fwPartitionMove .. | .parkEntry .. | .autoPark .. | .hbmSelfRefreshReturn .. | .linkLowPowerReturn ..
  | .haltDrained .. | .perstRelease .. | .bootPhaseEnd .. | .cxlLinkTraining .. | .h2dSnoop .. | .doeDiscovery .. | .cdatTableAccess ..
  | .imagePush .. | .getVersion .. | .getCapabilities .. | .negotiateAlgorithms .. | .getDigests .. | .getCertificate .. | .challenge ..
  | .getMeasurements .. | .entdaa .. | .rstdaa .. | .setEndpointId .. | .alertResponseAddress .. | .queryDeviceIdentifiers ..
  | .getFirmwareParameters .. | .requestUpdate .. | .passComponentTable .. | .updateComponent .. | .requestFirmwareData ..
  | .transferComplete .. | .verifyComplete .. | .applyComplete .. | .activateFirmware .. | .getStatus .. | .cancelUpdateComponent ..
  | .cancelUpdate .. | .getPdrRepositoryInfo .. | .getPdr .. | .getSensorReading .. | .getStateSensorReadings .. | .setNumericEffecterValue ..
  | .getNumericEffecterValue .. | .setEventReceiver .. | .platformEventAccepted .. | .partnerDetect .. | .alignLock .. | .probe ..
  | .probeResp .. | .probeTick .. | .timeTree .. | .driftProbe .. | .packetForward .. | .routeStuck .. | .ckptPushDone ..
  | .bandwidthInterval .. | .capControlTick .. | .thermalRelease .. | .flowThrottleEnd .. | .inputRise .. | .inputRange .. | .feedChanged ..
  | .refReturn .. | .readyReturnDone .. | .leakClear .. | .hostLinkError .. | .hdmDecoderCommit .. | .unknownDoeProtocol .. => true
  | _ => false

/-- No step of a run of `k` steps stops. -/
def runsOn (k : Nat) (s : State) : Prop :=
  match k with
  | 0 => True
  | k + 1 => ∃ t, step s = .next t ∧ runsOn k t

end Sys2Proof.Machine
end

