-- ==== Sys2Proof/Certificates/Slice0/Obligations.lean ====
section
/-! DEFINITION. The statements about the block: what each command does, what it leaves unchanged, the invariant every step keeps,
and the rules of numbers, shares, ranges and memory. Each docstring names the rules of spec/ it formalises and, where a statement
rests on a choice of the model, the log entry. -/

open Sys2Proof Sys2Proof.Machine

/-- The rules of access codes for an aligned word write that the register port takes (R29, R36, R40, R41): ones clear the bits that are cleared by
writing ones, and no other bit of the register; a staged field's new value goes to its shadow copy, and no register changes; a static field of a busy
page makes the write drop (BUSY_WRITE). -/
def Obligations.RegisterWriteFollowsAccessCode : Prop :=
  ∀ (s : State) (p page off : Nat) (v : W64), s.takesWord p page off = true →
    let b := s.bankOf p page off
    let old := s.reg page b off
    (bitsWith page off .rw1c &&& (2 ^ 32 - 1) ≠ 0 →
      ∃ t, exec (.registerWrite p page off 4 v) s = .next t ∧
        t.reg page b off = (old - (old &&& (v.toNat % 2 ^ 32 &&& (bitsWith page off .rw1c &&& (2 ^ 32 - 1))))) % 2 ^ 64 ∧
        (∀ x c o, rkey x c o ≠ rkey page b off → t.reg x c o = s.reg x c o) ∧ t.shadows = s.shadows) ∧
    (bitsWith page off .rw1c &&& (2 ^ 32 - 1) = 0 → stagedMask page off &&& (2 ^ 32 - 1) ≠ 0 →
      let new := mergeStaged (stagedMask page off &&& (2 ^ 32 - 1)) ((s.shadow? page b off).getD old) (v.toNat % 2 ^ 32)
      s.rejects p page b off new = none →
      ∃ t, exec (.registerWrite p page off 4 v) s = .next t ∧ exec (.stagedWrite p page off 4 v) s = .next t ∧
        t.shadow? page b off = some (new % 2 ^ 64) ∧ t.regs = s.regs) ∧
    (bitsWith page off .rw1c &&& (2 ^ 32 - 1) = 0 → stagedMask page off &&& (2 ^ 32 - 1) = 0 → bitsWith page off .rw &&& (2 ^ 32 - 1) ≠ 0 →
      s.busyFor p page off = true → exec (.registerWrite p page off 4 v) s = .next (s.busyDrop p page off))

/-- DISCARD of one kind drops every pending value of that kind on the page's own bank and no other (R41). -/
def Obligations.DiscardDropsItsKind : Prop :=
  ∀ (s : State) (p page : Nat), s.accepts p page R.HDR_STAGE_CTRL = true → homePage page = page → isGroup (assignedType page) = false →
    assignedType page ≠ .entry →
    ∀ (c : Instr) (k : Kind), (c, k) ∈ [(Instr.discardStep p page, Kind.step), (.discardLayer p page, .layer), (.discardPass p page, .pass)] →
      ∃ t, exec c s = .next t ∧
        t.shadows = s.shadows.filter (fun e => !(decide (s.epochOf e.1 = (page, s.bankOf p page R.HDR_STAGE_CTRL)) &&
          decide (regKind (keyPage e.1) (keyOff e.1) = some k))) ∧
        (∀ x b o, rkey x b o ≠ rkey page (s.bankOf p page R.HDR_STAGE_CTRL) R.HDR_STAGE_CTRL → t.reg x b o = s.reg x b o)

/-- A write of METER_SEL latches twelve meters of the selected partition and the time for the writer (R153, R289, R386); a write of MELT_SEL_n
copies the selected entry's words into the writer's window (R153). -/
def Obligations.SelectsLatchWhatTheyShow : Prop :=
  (∀ (s : State) (p : Nat) (v : W32), p < 256 → s.takesWord p pgMeter R.METER_METER_SEL = true →
    ∃ t, exec (.meterSel p v) s = .next t ∧
      (∀ j, j < 12 → t.reg pgMeter (latchBank p) (0x110 + 8 * j) = s.reg pgMeter (v.toNat % 256) (0x110 + 8 * j) % 2 ^ 64) ∧
      t.reg pgMeter (latchBank p) R.METER_METER_TIME = s.timeNow % 2 ^ 64 ∧ t.hbm = s.hbm ∧ t.parts = s.parts) ∧
  (∀ (s : State) (p die win : Nat) (v : W32), win < 8 → die < 4 → s.takesWord p (diePage die 16) (R.MELT_SHARD_MELT_SEL_0 + 4 * win) = true →
    let old := s.reg (diePage die 16) p (R.MELT_SHARD_MELT_SEL_0 + 4 * win)
    exec (.meltSel p die win v) s = .next ((s.setReg (diePage die 16) p (R.MELT_SHARD_MELT_SEL_0 + 4 * win)
      (old - old % 2 ^ 17 + v.toNat % 2 ^ 17)).meltCopy p (diePage die 16) win (old - old % 2 ^ 17 + v.toNat % 2 ^ 17))) ∧
  (∀ (s : State) (p : Nat) (v : W64), p < 256 → s.takesWord p pgPackage R.GRP_TRACE_RD_SEL = true →
    ∃ t, exec (.traceRdSel p v) s = .next t ∧
      t.reg pgPackage p R.GRP_TRACE_RD_NEXT = s.reg pgPackage (v.toNat % 256) (regTraceNext (v.toNat.testBit 8)) % 2 ^ 64 ∧
      t.reg pgPackage p R.GRP_TRACE_RD_FIRST = s.reg pgPackage (v.toNat % 256) (regTraceFirst (v.toNat.testBit 8)) % 2 ^ 64)

/-- The partition commands of the PARTITION page (R273, R285): CREATE makes the selected partition, with nothing of a former one; DELETE begins its
deletion; ABORT_ALL aborts every task of it that is not yet ending; a freeze of a partition's host is thawed by UNFREEZE alone, on the partition named. -/
def Obligations.PartitionCommandsAct : Prop :=
  ∀ (s : State), s.takesWord 0 pgPartition R.PARTITION_PART_CTRL = true → s.takesWord 0 pgPartition R.PARTITION_UNFREEZE = true →
    let b := s.reg pgPartition 0 R.PARTITION_PART_SEL
    (b ≠ 0 → (s.part b).state = 0 → ∃ t, exec (.create 0) s = .next t ∧
      (t.part b).state = 1 ∧ (t.part b).stageCreate = true ∧ (t.part b).claims = [] ∧ ∀ x, x ≠ b → t.part x = s.part x) ∧
    (b ≠ 0 → (s.part b).state ≠ 0 → ∃ t, exec (.delete 0) s = .next t ∧ (t.part b).state = 3 ∧ t.queues = s.queues ∧ t.hbm = s.hbm) ∧
    exec (.abortAll 0) s = .next (s.abortAllTasks b) ∧
    (∀ n, n < 256 → (s.part n).hostFrozen = true → ∃ t, exec (.unfreeze 0 (BitVec.ofNat 32 (0x10000 + n))) s = .next t ∧
      (t.part n).hostFrozen = false ∧ (∀ x, x ≠ n → t.part x = s.part x) ∧ t.queues = s.queues)

/-- Acknowledging records and memory errors (R317, R320, R322, R327): ERR_ACK closes the open record of that sequence number and no other; ERR_ACK_THROUGH
closes every open record up to its number; an uncorrectable HBM error poisons its 64-byte block and raises HBM_UC at its row; the assay of a core becomes due
after nine seconds. -/
def Obligations.ErrorRecordsAndMemoryErrors : Prop :=
  ∀ (s : State),
    (∀ (page : Nat) (v : W32) (e : ErrRec), isRingPage page = true → s.takesWord 0 page R.ERR_ERR_ACK = true →
      (svals (s.ring page).slots).find? (fun e => e.seq % 2 ^ 32 = v.toNat && e.opened) = some e →
      exec (.errAck 0 page v) s = .next (s.setRing page ((s.ring page).closeIf (fun x => x.seq % 2 ^ 32 = v.toNat)))) ∧
    (∀ (page : Nat) (v : W32), isRingPage page = true → s.takesWord 0 page R.ERR_ERR_ACK_THROUGH = true →
      exec (.errAckThrough 0 page v) s = .next (s.setRing page ((s.ring page).closeIf (fun e => decide (e.seq ≤ v.toNat))))) ∧
    (∀ (n : Nat), n < 256 → s.takesWord 0 pgPkgErr R.ERR_PF_RELEASE = true → (s.part n).pfFrozen = true →
      ∃ t, exec (.pfRelease 0 (BitVec.ofNat 32 n)) s = .next t ∧ (t.part n).pfFrozen = false ∧ t.hbm = s.hbm) ∧
    (∀ (page a : Nat) (key : W32) (hit : Option (Nat × Nat)), s.pageType page = .hbmCtrl →
      let u := (s.raisePage page 4).bump page 0 R.HBM_CTRL_HBM_UC 1
      let w := { u with hbmBad := sset u.hbmBad (a / 64) (fkKey page key.toNat) }
      exec (.hbmEccError page key a true hit) s = .next (w.raiseErr (w.hbmSrc page key.toNat a) caHBM_UC a hit 0x02)) ∧
    (∀ (page : Nat), s.pageType page = .core → s.assayTime page + 9000000000 ≤ s.timeNow →
      ∃ t, exec (.assayDue page) s = .next t ∧ (t.core page).assayDue = true ∧ ∀ x, x ≠ page → t.core x = s.core x)

/-- Link training goes through its states (R240): DETECT to TRAIN on a partner's pulse; TRAIN to ALIGN when all four lanes have converged, at full width and not
narrowed; ALIGN to SYNC, where the link sends IDENT and its first probe; a state that lasts past its limit is a failed attempt, and fewer than three failures
in a row return the link to DETECT. -/
def Obligations.LinkTrainingAdvances : Prop :=
  ∀ (s : State) (n : Nat),
    (s.ready = true → n < s.linkCount → s.linkSt n = 1 →
      ∃ t, exec (.partnerDetect n) s = .next t ∧ t.linkSt n = 2 ∧ (t.link n).phaseT = s.timeNow ∧ t.hbm = s.hbm) ∧
    (∀ (low : Bool), s.linkSt n = 2 →
      ∃ t, exec (.trainConverge n 0xF low) s = .next t ∧ t.linkSt n = 3 ∧ t.fld (linkPage n) 0 F.LINK_LINK_STAT_WIDTH = 2 ∧
        t.fld (linkPage n) 0 F.LINK_LINK_STAT_LANES = 0xF ∧ t.fld (linkPage n) 0 F.LINK_LINK_STAT_NARROWED = 0) ∧
    (s.linkSt n = 3 → exec (.alignLock n) s = .next (((s.setLinkSt n 4).ctrlMsg n [mIDENT, s.moduleId, n, s.variantCode,
      s.fld (linkPage n) 0 F.LINK_LINK_STAT_LANES]).startProbes n 0)) ∧
    (∀ (lim : Nat), s.trainLimit n = some lim → (s.link n).phaseT + lim ≤ s.timeNow → s.fld (linkPage n) 0 F.LINK_LINK_STAT_FAILS < 2 →
      ∃ t, exec (.trainingTimeout n) s = .next t ∧ t.linkSt n = 1 ∧
        t.fld (linkPage n) 0 F.LINK_LINK_STAT_FAILS = s.fld (linkPage n) 0 F.LINK_LINK_STAT_FAILS + 1 ∧ (t.link n).phaseT = s.timeNow)

/-- A link in use (R242, R244, R321): the symbols corrected in a flit count on their lanes; a damaged flit is counted and answered by a NAK, and reaches no further; an intact one is acknowledged, gives back its
credits and is delivered in order; a lane lost at full width narrows the link to its other pair and tells the peer, whose own link narrows alike; a window
without too many retries ends with its counts cleared. -/
def Obligations.LinkInUse : Prop :=
  ∀ (s : State) (n : Nat),
    (∀ (f : Flit), n < s.linkCount → (s.linkSt n = 4 ∨ s.linkSt n = 5) → f.fecOk = false →
      ∃ t, exec (.flitReceived n f) s = .next t ∧
        t.reg (linkPage n) 0 R.LINK_LINK_FEC_UNCORR = (s.reg (linkPage n) 0 R.LINK_LINK_FEC_UNCORR + 1) % 2 ^ 64 ∧
        (∀ i, i < 4 → t.reg (linkPage n) 0 (R.LINK_LANE_SYM_0 + 4 * i) =
          (s.reg (linkPage n) 0 (R.LINK_LANE_SYM_0 + 4 * i) + f.symbols.getD i 0) % 2 ^ 64) ∧
        t.reg (linkPage n) 0 R.LINK_LINK_FEC_CORR = (s.reg (linkPage n) 0 R.LINK_LINK_FEC_CORR + (f.symbols.take 4).sum) % 2 ^ 64 ∧
        t.links = s.links ∧ t.xfers = s.xfers ∧ t.hbm = s.hbm ∧
        t.out = .flit n ((s.link n).mkFlit 0 0 0 false false true []) :: s.out) ∧
    (∀ (f : Flit), n < s.linkCount → (s.linkSt n = 4 ∨ s.linkSt n = 5) → f.fecOk = true → f.crc.toNat = crc32c (flitBytes f) →
      f.ackValid = false → f.nak = false → (f.ftype = 1 ∨ f.ftype = 2) → f.seq = (((s.countSymbols n f.symbols).creditIn n f).link n).rxSeq →
      exec (.flitReceived n f) s = .next (((((s.countSymbols n f.symbols).creditIn n f).deliverFlit n f).pump n).endSends)) ∧
    (∀ (lane : Nat), s.linkUp n = true → lane < 4 → (s.fld (linkPage n) 0 F.LINK_LINK_STAT_LANES).testBit lane = true →
      s.fld (linkPage n) 0 F.LINK_LINK_STAT_NARROWED ≠ 1 →
      exec (.laneSignalLoss n lane) s = .next ((s.ctrlMsg n [mNARROW, if lane < 2 then 1 else 0]).linkNarrow n (decide (lane < 2)))) ∧
    (∀ (upper : Bool), s.linkUp n = true → s.fld (linkPage n) 0 F.LINK_LINK_STAT_LANES = 0xF →
      exec (.narrow n upper) s = .next (s.linkNarrow n upper)) ∧
    (∀ (page : Nat), assignedType page = .link → n = 16 * (pageDie page - 8) + pageUnit page → s.linkUp n = true →
      (s.link n).winT + s.reg pgPkgErr 0 R.ERR_ERR_WINDOW_S * 1000000000 ≤ s.timeNow → 1000000000 ≤ (s.link n).winFlits →
      (s.link n).winRetries * 1000000000000 ≤ s.reg pgPkgErr 0 R.ERR_LINK_RETRY_PPT * (s.link n).winFlits →
      exec (.linkWindowEval page) s = .next (s.setLink n { s.link n with winT := s.timeNow, winFlits := 0, winRetries := 0 }))

/-- Link time (R240, R260, R261, R262): a probe is answered with its own time and the two times of the answer; an answer to a probe that waits counts, and keeps the
smallest round trip with its offset; the next probe follows after 10 µs; IDENT from another module records the peer. -/
def Obligations.LinkTimeIsMeasured : Prop :=
  ∀ (s : State) (n : Nat),
    (∀ (num : Nat) (t1 : W64), (s.linkSt n = 4 ∨ s.linkSt n = 5) →
      exec (.probe n num t1) s = .next (s.linksWake.ctrlMsg n [mPROBE_RESP, num, t1.toNat, s.timeNow, s.timeNow])) ∧
    (∀ (num : Nat) (t1 t2 t3 : W64), (s.linkSt n = 4 ∨ s.linkSt n = 5) → (num, t1.toNat) ∈ (s.link n).probes → (s.link n).answers < 15 →
      let rtt := ((s.timeNow : Int) - t1.toNat - (t3.toNat - t2.toNat)).toNat
      ∃ t, exec (.probeResp n num t1 t2 t3) s = .next t ∧ (t.link n).answers = (s.link n).answers + 1 ∧ (num, t1.toNat) ∉ (t.link n).probes ∧
        (((s.link n).answers = 0 ∨ rtt < (s.link n).bestRtt) → (t.link n).bestRtt = rtt ∧
          (t.link n).bestOff = ((t2.toNat - t1.toNat : Int) + (t3.toNat - s.timeNow)).tdiv 2) ∧
        (¬ ((s.link n).answers = 0 ∨ rtt < (s.link n).bestRtt) → (t.link n).bestRtt = (s.link n).bestRtt ∧ (t.link n).bestOff = (s.link n).bestOff) ∧
        t.regs = s.regs) ∧
    ((s.linkSt n = 4 ∨ s.linkSt n = 5) → 0 < (s.link n).probeNum → (s.link n).probeNum < 16 → (s.link n).probeT + 10000 ≤ s.timeNow →
      exec (.probeTick n) s = .next (s.sendProbe n)) ∧
    (∀ (peer peerLink variant : Nat), s.linkSt n = 4 → peer ≠ s.moduleId → s.fld (linkPage n) 0 F.LINK_LINK_STAT_LANES ≠ 0xF →
      exec (.ident n peer peerLink variant 0xF) s = .next (((s.setReg (linkPage n) 0 R.LINK_PEER_ID
        (peer % 2 ^ 14 + 2 ^ 14 * (peerLink % 128) + 2 ^ 31)).updLink n (fun l => { l with identDone := true })).tryUp n)) ∧
    (∀ (root hops : Nat) (off : W64), s.linkUp n = true → s.isRoot = true →
      ∃ t, exec (.timeTree n root hops off) s = .next t ∧ (t.link n).tree = some (root, hops, off.toInt) ∧ t.regs = s.regs) ∧
    (s.isRoot = false → s.timeFld F.TIME_TIME_STATUS_EPOCH ≠ 0 → s.linkUp s.timeParent = true → s.timeX.lastT + 1000000000 ≤ s.timeNow →
      exec .driftProbe s = .next (s.startProbes s.timeParent 1))

/-- Halting (R387, R389, R390, R391, R394): HALT of a control core whose engines are idle halts it at once, and of one whose engines work lets them drain; when they have drained it
is halted; RESUME lets it run on; STEP lets it dispatch one command and halt again; an island's halt bits go to ISL_HALT. -/
def Obligations.HaltingStopsAndResumes : Prop :=
  ∀ (s : State) (page : Nat), isDebugPage page = true →
    (s.takesWord 0 page R.DBG_DBG_CTRL = true → s.coreStopped page = false →
      ∃ t, exec (.halt 0 page) s = .next t ∧ (t.dbgOf page).halted = decide (s.busyEngines page = 0) ∧
        (t.dbgOf page).wantHalt = decide (s.busyEngines page ≠ 0) ∧ (t.dbgOf page).since = s.timeNow ∧
        (∀ x, x ≠ page → t.dbgOf x = s.dbgOf x) ∧ t.queues = s.queues ∧ t.hbm = s.hbm) ∧
    (s.takesWord 0 page R.DBG_DBG_CTRL = true → (s.dbgOf page).halted = true → (s.dbgOf page).frozen = false →
      exec (.resume 0 page) s = .next (s.resume page) ∧
      ∃ t, exec (.step 0 page) s = .next t ∧ (t.dbgOf page).stepping = true ∧ t.queues = s.queues ∧ t.parts = s.parts) ∧
    (assignedType page = .clusterCtrl → ∀ (v : W64), s.accepts 0 page R.DBG_ISL_HALT = true →
      exec (.islHalt 0 page v) s = .next (s.islWrite page v.toNat)) ∧
    ((s.dbgOf page).wantHalt = true → s.busyEngines page = 0 → (s.dbgOf page).frozen = false →
      ∃ t, exec (.haltDrained page) s = .next t ∧ (t.dbgOf page).halted = true ∧ (t.dbgOf page).wantHalt = false ∧
        t.fld page 0 F.DBG_DBG_STATUS_STATE = 2 ∧ t.queues = s.queues ∧ t.hbm = s.hbm) ∧
    (s.takesWord 0 page R.DBG_ITRACE_CTRL = true → s.reg page 0 R.DBG_ITRACE_CTRL = 0 →
      exec (.itraceEnable 0 page 1) s = .next ((s.setReg page 0 R.DBG_ITRACE_CTRL 1).itraceSync page 0))

/-- Forwarding and notices (R247, R393): a packet for another module goes on its route, its flits counted; a held packet that has waited past ROUTE_STUCK_US
is marked; a halted module sends its notices at most every 250 µs; a notice that is new and may still travel is taken and passed on. -/
def Obligations.PacketsAndNoticesTravel : Prop :=
  ∀ (s : State),
    (∀ (die : Nat) (pk : Packet), s.ready = true → pk.destMod ≠ s.moduleId → 8 ≤ die → die < 8 + ioDies s.n8 →
      exec (.packetForward die pk) s =
        .next ((s.linksWake.bump (pgRouter die) 0 R.ROUTER_ROUTE_FWD_FLITS (packetFlits pk)).routeAt die pk none)) ∧
    (∀ (die : Nat) (h : RouteHold), h ∈ s.routed → h.die = die → h.stuck = false →
      h.since + 1000 * s.reg (pgRouter die) 0 R.ROUTER_ROUTE_STUCK_US < s.timeNow →
      ∃ t, exec (.routeStuck die) s = .next t ∧ { h with stuck := true } ∈ t.routed ∧ t.routed.length = s.routed.length ∧ t.links = s.links) ∧
    (s.haltedUnits ≠ [] → s.ready = true → s.noticeT + 250000 ≤ s.timeNow →
      ∃ t, exec .haltNoticeSend s = .next t ∧ t.noticeT = s.timeNow ∧ t.queues = s.queues ∧ t.hbm = s.hbm) ∧
    (∀ (n module part seq ttl : Nat) (infra : Bool), s.linkUp n = true → 0 < ttl →
      (∀ x ∈ s.notices, ¬ (x.module = module ∧ x.seq = seq ∧ s.timeNow < x.time + 10000000)) →
      exec (.haltNotice n module part infra seq ttl) s = .next ((s.upLinks.filter (· ≠ n)).foldl
        (fun s k => s.ctrlMsg k [mHALT_NOTICE, module, part, if infra then 1 else 0, seq, ttl - 1])
        (s.takeNotice { module := module, seq := seq, part := part, infra := infra, time := s.timeNow })))

/-- LINK_SEND and LINK_RECV at the packet (R251, R252): a request with no window waits for one; a clear starts the data; data goes to its window; a cancel
takes a waiting request away; a busy answer makes the sender wait 10 µs. -/
def Obligations.TransferPacketsAct : Prop :=
  ∀ (s : State) (die : Nat) (pk : Packet), s.takesPacket die pk = true →
    let w := s.arrived die pk
    (w.snapRequest pk = false → (w.reqs.filter (fun r => r.part = pk.destPart)).length < 1024 → w.openWindows pk.destPart pk.key.toNat = [] →
      ∃ t, exec (.sendReq die pk) s = .next t ∧ t.reqs = s.reqs ++ [{ part := pk.destPart, die := die, pk := pk }] ∧ t.out = s.out ∧
        t.queues = s.queues ∧ t.hbm = s.hbm) ∧
    (∀ x, w.sendOf pk 1 = some x → exec (.sendClear die pk) s = .next (w.sendData x)) ∧
    (∀ x, w.windowOf pk = some x → x.snap = false → w.cmd? x.q x.slot = none →
      ∃ t, exec (.sendData die pk) s = .next t ∧ { x with got := x.got + pk.data.length } ∈ t.xfers ∧ t.hbm = s.hbm) ∧
    (∀ x c, w.windowOf pk = some x → x.snap = false → w.cmd? x.q x.slot = some c → x.got + pk.data.length < x.len →
      let y := { x with got := x.got + pk.data.length }
      exec (.sendData die pk) s = .next (((((w.putXfer x y).putAt x.part ((Form.ofCmd c x.q false).td 2) pk.pos.toNat pk.data).meter x.part
        R.METER_HBM_BYTES pk.data.length).updCmd x.q x.slot (fun c => { c with wrote := true, pos := y.got })).progressed x.q c.task)) ∧
    (w.windowOf pk = none → (∀ x ∈ s.xfers, ¬ (x.send = true ∧ x.part = pk.destPart ∧ x.mod = pk.srcMod ∧ x.handle = pk.key.toNat)) →
      ∃ t, exec (.sendCancel die pk) s = .next t ∧
        (∀ r ∈ t.reqs, ¬ (r.part = pk.destPart ∧ r.pk.srcMod = pk.srcMod ∧ r.pk.key = pk.key)) ∧ t.queues = s.queues ∧ t.hbm = s.hbm) ∧
    (∀ x, w.xfers.find? (fun x => x.send && x.part = pk.destPart && x.mod = pk.srcMod && x.handle = pk.key.toNat) = some x →
      exec (.sendReject die pk) s = .next (w.freshen.xferFail x (2 + w.freeVal.toNat % 3))) ∧
    (∀ x, w.sendOf pk 1 = some x →
      ∃ t, exec (.sendBusy die pk) s = .next t ∧ { x with phase := 3, retryT := s.timeNow + 10000 } ∈ t.xfers ∧ t.queues = s.queues)

/-- Movement and checking commands start (R221, R224, R227, R228, R332): their start is on record with the time, one run more and their engines, and their
effect follows from there: an overlapping or plain copy, the list of a gather or scatter, the scan. -/
def Obligations.MovementCommandsStart : Prop :=
  ∀ (s : State) (q slot : Nat) (c : Cmd) (t : Task),
    let u := s.begun q c t
    let k := s.begunCmd q c t
    (s.starts q slot opCOPY c t → s.sramFree q c = true → exec (.copy q slot) s = .next (u.copyStart q k)) ∧
    (s.starts q slot opGATHER c t → s.sramFree q c = true → exec (.gather q slot) s = .next (u.listStart q k)) ∧
    (s.starts q slot opSCATTER c t → s.sramFree q c = true → exec (.scatter q slot) s = .next (u.listStart q k)) ∧
    (s.starts q slot opSCATTER_ADD c t → s.sramFree q c = true → exec (.scatterAdd q slot) s = .next (u.listStart q k)) ∧
    (s.starts q slot opCHECK_SCAN c t → exec (.checkScan q slot) s = .next (u.scanStart q k)) ∧
    (s.cmd? q slot = some c → u.cmd? q slot = some k ∧ k.startT = some s.timeNow ∧ k.runs = c.runs + 1 ∧ k.members = s.startMembers q c t ∧
      u.hbm = s.hbm ∧ u.regs = s.regs)

/-- Arithmetic commands start (R80, R112, R173, R174): GEMM and GEMM_PATTERN form their tiles when no operand plane lies outside the reservation; VECTOR runs
whole and is done; UPDATE holds its temper units until the step is sealed. -/
def Obligations.ArithmeticCommandsStart : Prop :=
  ∀ (s : State) (q slot : Nat) (c : Cmd) (t : Task),
    let u := s.begun q c t
    let k := s.begunCmd q c t
    (s.starts q slot opGEMM c t → s.fedReady q c = true → exec (.gemm q slot) s = .next (u.gemmStart q k)) ∧
    (s.starts q slot opGEMM_PATTERN c t → s.fedReady q c = true → exec (.gemmPattern q slot) s = .next (u.gemmStart q k)) ∧
    (s.starts q slot opVECTOR c t → s.fedReady q c = true → exec (.vector q slot) s = .next (u.gemmStart q k)) ∧
    (s.starts q slot opUPDATE c t → u.updBad q k = false → (u.part k.part).sealOut = soNone →
      ∃ v, exec (.update q slot) s = .next v ∧ v.cmd? q slot = some k ∧ (∀ m ∈ k.members, v.reg m 0 R.HDR_PROGRESS = 1) ∧
        v.hbm = s.hbm ∧ v.parts = s.parts) ∧
    (s.cmd? q slot = some c → u.planeOut q k = none →
      let w := u.updPart k.part (fun y => { y with rerunCmds := y.rerunCmds ++ [(q, slot)] })
      u.gemmStart q k = if dOpcode c.desc = opVECTOR then (w.vectorRun q k).gemmEnd q slot else w.launch q k)

/-- Ordering commands start (R194, R199, R204, R205, R383): TRACE_MARK is done at once; EVENT_SIGNAL adds to its counter and is done; EVENT_WAIT is done once its counter
has the value it waits for, and waits until then; BARRIER and STEP_BOUNDARY arrive at their barrier; STATS_READ copies the entries' images and is done. -/
def Obligations.OrderingCommandsStart : Prop :=
  ∀ (s : State) (q slot : Nat) (c : Cmd) (t : Task),
    let u := s.begun q c t
    let k := s.begunCmd q c t
    let a := dAddr c.desc 0
    (s.starts q slot opTRACE_MARK c t → s.reached q c = true →
      ∃ v, exec (.traceMark q slot) s = .next v ∧ v.hbm = s.hbm ∧ v.regs = s.regs ∧
        v.cmd? q slot = some { k with done := true, code := 0, count := 0, pos := 0, wrote := true }) ∧
    (s.starts q slot opEVENT_SIGNAL c t → s.reached q c = true → u.eventIn k = true →
      exec (.eventSignal q slot) s = .next ((u.wrLE c.part a 8 ((u.rdLE c.part a 8 + dField c.desc 0x58 64) % 2 ^ 64)).finish q slot 0 0 0)) ∧
    (s.starts q slot opEVENT_WAIT c t → u.eventIn k = true → c.done = false → dField c.desc 0x58 64 ≤ u.rdLE c.part a 8 →
      ∃ v, exec (.eventWait q slot) s = .next v ∧ v.hbm = s.hbm ∧
        v.cmd? q slot = some { k with done := true, code := 0, count := 0, pos := 0, wrote := true }) ∧
    (s.starts q slot opEVENT_WAIT c t → u.eventIn k = true → c.done = false → u.rdLE c.part a 8 < dField c.desc 0x58 64 →
      exec (.eventWait q slot) s = .next u) ∧
    (s.starts q slot opBARRIER c t → s.reached q c = true → u.bar? c.part (dField c.desc 0x54 16) = none →
      exec (.barrier q slot) s = .next (u.arriveAt c.part (dField c.desc 0x54 16)
        (Arrival.mk q slot (dField c.desc 0x56 16) (dFlag c.desc flLAYER) false false) (k.members.headD 0))) ∧
    (s.starts q slot opSTEP_BOUNDARY c t → s.reached q c = true → u.bar? c.part (dField c.desc 0x54 16) = none →
      exec (.stepBoundary q slot) s = .next (u.arriveAt c.part (dField c.desc 0x54 16)
        (Arrival.mk q slot (dField c.desc 0x56 16) true false true) (k.members.headD 0))) ∧
    (s.starts q slot opSTATS_READ c t →
      ∃ v k', exec (.statsRead q slot) s = .next v ∧ v.cmd? q slot = some k' ∧ k'.done = true ∧ k'.code = 0 ∧ v.parts = s.parts)

/-- Passes and tiles (R43, R95, R120, R206): a lawful array pass starts with its vectors to go; at its end the core is free, its pass counted;
a finished tile of the wrong precision epoch is not written; a finished command gets its record. -/
def Obligations.PassesAndTiles : Prop :=
  ∀ (s : State) (page : Nat),
    (∀ (need tileAt sprueMin actEnd : Nat), s.pageType page = .core → s.fld page 0 F.CORE_ARRAY_STATE_STATE = 0 → s.islHalted page = false →
      s.assayHolds page = false → s.assayFirst page = false → s.fld page 0 F.CORE_PASS_CFG_VECTORS ≠ 0 → s.passAligned page = true →
      s.patPass page = false → s.arrayBad page need = false → s.fld page 0 F.CORE_PASS_CFG_FEED = 0 →
      ∃ t, exec (.arrayPassStart page need tileAt sprueMin actEnd) s = .next t ∧ t.fld page 0 F.CORE_ARRAY_STATE_STATE = 1 ∧
        t.fld page 0 F.CORE_ARRAY_STATE_VEC_REMAIN = s.fld page 0 F.CORE_PASS_CFG_VECTORS ∧ t.tiles = s.tiles ∧ t.queues = s.queues ∧ t.hbm = s.hbm) ∧
    (s.pageType page = .core → s.fld page 0 F.CORE_ARRAY_STATE_STATE = 1 → s.islHalted page = false → s.assayFirst page = false →
      s.patPass page = false → s.passTile page = none →
      ∃ t, exec (.arrayPassEnd page) s = .next t ∧ t.tiles = s.tiles ∧ t.queues = s.queues ∧ t.hbm = s.hbm ∧
        t = ((((s.setFld page 0 F.CORE_ARRAY_STATE_STATE 0).setFld page 0 F.CORE_ARRAY_STATE_VEC_REMAIN 0).setFld page 0
          F.CORE_PAT_STATE_STATE 0).bump page 0 R.CORE_PASSES 1).applyPass page) ∧
    (∀ (x : Tile) (c : Cmd), s.tiles.find? (fun t => t.page = page && t.left = 0 && !s.islHalted page && !s.assayFirst page) = some x →
      s.cmd? x.q x.slot = some c → x.epoch = s.fld page 0 F.CORE_ARRAY_CFG_EPOCH →
      tileBlocksOk c.fmt (dField c.desc 0x5A 8) (s.runOf c).pat x = true →
      let w := s.dropTile x
      let v := w.riserTile x.q c x
      exec (.tileRelease page) s = .next (((((w.dotFlags page (w.entryOf c.part (dMeltOut c.desc)) v.2).setFld page 0 F.CORE_DRAIN_STATE_HALF
        x.half).drainPiece page c (outTD x.q c) (((w.dotFlags page (w.entryOf c.part (dMeltOut c.desc)) v.2).setFld page 0
          F.CORE_DRAIN_STATE_HALF x.half).tileRows c x v.1)).updCmd x.q x.slot (fun c => { c with pos := c.pos + x.mLen, wrote := true })).gemmEnd
            x.q x.slot)) ∧
    (∀ (q slot : Nat) (c : Cmd), s.cmd? q slot = some c → c.done = true → c.startT.isSome = true → s.layerOpen q c = false → s.ringWaits q = false →
      (∀ m ∈ c.members, s.islHalted m = false) → s.compares c = none → isListMove (dOpcode c.desc) = false → closesTask (dOpcode c.desc) = false →
      exec (.commandComplete q slot) s = .next (((s.complete q slot c.code 0).progressed q c.task).meter c.part R.METER_CORE_BUSY_NS
        ((c.members.filter (fun m => assignedType m = .core)).length * (s.timeNow - c.startT.getD s.timeNow))))

/-- Time limits of work (R201): a deadline that has passed aborts its command; a task without progress for STALL_MS is aborted whole; an event wait
past its limit is aborted; a barrier that waits past BAR_TIMEOUT aborts every arrival and is counted. -/
def Obligations.TimeLimitsAbort : Prop :=
  ∀ (s : State),
    (∀ (q slot : Nat) (c : Cmd), s.cmd? q slot = some c → dDeadline c.desc ≠ 0 → dDeadline c.desc ≤ s.timeNow →
      exec (.deadline q slot) s = .next (s.abortCmd q slot 0x10 0x07)) ∧
    (∀ (q : Nat) (t : Task), (s.queue q).tasks.head? = some t → s.qreg q R.QCTX_QLIMITS % 65536 ≠ 0 → t.served = true → t.aborted = false →
      t.refused = false → (s.queue q).frozen = false → (s.queue q).state ≠ 3 →
      (∃ c ∈ (s.queue q).cmds, c.task = t.id ∧ c.recorded = false ∧ closesTask (dOpcode c.desc) = false ∧ waitsLong (dOpcode c.desc) = false) →
      t.lastProg + 1000000 * (s.qreg q R.QCTX_QLIMITS % 65536) ≤ s.timeNow →
      exec (.stall q) s = .next (s.abortWhole q t.id 0x0A)) ∧
    (∀ (q slot begin : Nat) (c : Cmd), s.cmd? q slot = some c → dOpcode c.desc = opEVENT_WAIT → dField c.desc 0x60 32 ≠ 0 → c.done = false →
      s.rdLE c.part (dAddr c.desc 0) 8 < dField c.desc 0x58 64 → c.startT = some begin →
      begin + 1000 * dField c.desc 0x60 32 + ((s.part c.part).heldNs - c.held0) ≤ s.timeNow →
      exec (.eventTimeout q slot) s = .next (s.abortCmd q slot 0x10 0x0B)) ∧
    (∀ (part id : Nat) (b : Bar), s.bar? part id = some b → b.arrivals ≠ [] →
      let page := s.barrierPage part (b.arrivals.head?.bind (fun a => (s.cmd? a.q a.slot).bind (fun c => findTask (s.queue a.q).tasks c.task)))
      b.first + 1000 * s.reg page 0 R.BARRIER_BAR_TIMEOUT ≤ s.timeNow →
      exec (.barrierTimeout part id) s = .next (((b.arrivals.filter (fun a => !a.aborted)).foldl (fun s a => s.abortCmd a.q a.slot 0x10 0x08)
        (((s.setBar { b with arrivals := [] }).bump page 0 R.BARRIER_BAR_TIMEOUTS 1).setReg page 0 R.BARRIER_BAR_STATE 0)).rearrive part id page
          b.later))

/-- Host translations of a move (R230, R231, R232): a translation that fails raises a page request; a page request that succeeds asks for the translation again, and
one that fails before any element has moved ends the command; an invalidation is acknowledged and counted; a late or unasked answer of a ring page changes no
memory of the module. -/
def Obligations.TranslationsOfAMove : Prop :=
  ∀ (s : State) (q slot v : Nat) (c : Cmd), s.cmd? q slot = some c →
    (2 * v ∈ c.waitPages →
      ∃ t, exec (.atsTranslationResponse q slot v false) s = .next t ∧ t.hbm = s.hbm ∧ t.host = s.host ∧
        ∃ k, t.cmd? q slot = some k ∧ 2 * v + 1 ∈ k.waitPages ∧ 2 * v ∉ k.waitPages) ∧
    (2 * v ∈ c.waitPages → 1 < c.waitPages.length → (∀ m ∈ c.members, assignedType m = .ladle) →
      exec (.atsTranslationResponse q slot v true) s = .next ((c.members.foldl (fun s m =>
        (s.bump m 0 R.HDR_PROGRESS_POS 1).setFld m 0 F.LADLE_LADLE_STATE_ATC_USED
              (min atcSize (s.fld m 0 F.LADLE_LADLE_STATE_ATC_USED + 1)))
          (s.updCmd q slot (fun c => { c with waitPages := c.waitPages.filter (fun w => w ≠ 2 * v) }))).progressed q c.task)) ∧
    (∀ w, c.waitPages.find? (fun w => w % 2 = 1) = some w →
      exec (.priResponse q slot true) s = .next (((s.updCmd q slot (fun c => { c with
        waitPages := c.waitPages.map (fun x => if x = w then w - 1 else x) })).ladleSet c.members 2).requestAts c.part (w / 2)) ∧
      (c.phase ≤ 1 → exec (.priResponse q slot false) s = .next (s.abortMove q slot 0x01 8 0))) ∧
    (∀ (part : Nat), ∃ t, exec (.atsInvalidation part v) s = .next t ∧ t.out.head? = some (.msg .invalAck [part, v] []))

/-- Parking (R403, R404, R405, R408): PARK in Ready with nothing in the way begins to park; park entry is Parked, with its count; any wake returns from there; an idle module that
parks by itself begins alike; HBM and links go back to low power 10 ms after their last use; the return ends in Ready. -/
def Obligations.ParkingAndReturn : Prop :=
  ∀ (s : State),
    (s.takesWord 0 pgPower R.POWER_POWER_CTRL = true →
      (s.power.state = 3 → s.parkOk = true → ∃ t, exec (.park 0) s = .next t ∧ t.power.state = 6 ∧ t.power.since = s.timeNow ∧ t.queues = s.queues) ∧
      (s.power.state = 4 → ∃ t, exec (.unpark 0) s = .next t ∧ t.power.state = 5 ∧ t.power.since = s.timeNow ∧ t.power.parkWait = false ∧
        t.queues = s.queues) ∧
      (s.mainOn = true → ∃ t, exec (.aux 0) s = .next t ∧ t.power.cause = 7 ∧ t.parts = [] ∧ t.queues = [] ∧ t.hbm = [])) ∧
    ((s.power.state = 6 ∨ (s.power.state = 3 ∧ s.power.parkWait = true)) → s.parkOk = true →
      ∃ t, exec .parkEntry s = .next t ∧ t.power.state = 4 ∧ t.power.hbmUsed = none ∧ t.power.linksUsed = none ∧ t.hbm = s.hbm ∧ t.parts = s.parts) ∧
    (s.power.state = 3 → s.fld pgPower 0 F.POWER_POWER_CFG_AUTO_PARK = 1 → s.parkOk = true →
      s.power.idleSince + 1000000 * s.reg pgPower 0 R.POWER_AUTO_PARK_MS ≤ s.timeNow →
      ∃ t, exec .autoPark s = .next t ∧ t.power.state = 6 ∧ t.power.since = s.timeNow ∧ t.hbm = s.hbm) ∧
    (∀ u, s.power.hbmUsed = some u → s.power.state = 4 → u + 10000000 ≤ s.timeNow →
      ∃ t, exec .hbmSelfRefreshReturn s = .next t ∧ t.power = { s.power with hbmUsed := none } ∧ t.hbm = s.hbm) ∧
    (∀ u, s.power.linksUsed = some u → s.power.state = 4 → u + 10000000 ≤ s.timeNow →
      ∃ t, exec .linkLowPowerReturn s = .next t ∧ t.power = { s.power with linksUsed := none } ∧
        t.fld pgPower 0 F.POWER_POWER_STATUS_LINKS_LP = 1 ∧ t.links = s.links) ∧
    (s.power.state = 5 → s.power.parkWait = false →
      ∃ t, exec .readyReturnDone s = .next t ∧ t.power.state = 3 ∧ t.power.returnT = s.timeNow ∧ t.power.idleSince = s.timeNow ∧ t.hbm = s.hbm) ∧
    (∀ v : W32, s.takesWord 0 pgPower R.POWER_CAP_W = true → s.reg pgPower 0 R.POWER_CAP_W < 8192 → 2000 ≤ v.toNat → v.toNat ≤ 4000 →
      exec (.capWWrite 0 v) s = .next ((s.setReg pgPower 0 R.POWER_CAP_W v.toNat).showPower))

/-- Reset and power (R309, R356, R400, R403, R409): PERST# takes main conversion off, and with it everything but what the flash and the fuses hold; its release
restarts the count of time and, with input and reference there, the boot; the phases of the boot follow one another to Ready; a shutdown records its cause and leaves
Aux. -/
def Obligations.ResetAndPower : Prop :=
  ∀ (s : State),
    (s.power.perst = false →
      ∃ t, exec .perstAssert s = .next t ∧ t.power.perst = true ∧ t.power.fromMain = s.mainOn ∧ t.parts = [] ∧ t.queues = [] ∧ t.hbm = [] ∧
        t.boot.minSvn = s.boot.minSvn ∧ t.boot.revoked = s.boot.revoked ∧ t.host = s.host ∧ t.timeNow = s.timeNow ∧ t.refPresent = s.refPresent) ∧
    (s.power.perst = true → s.power.inputOn = true → s.refPresent = true → s.power.state = 1 →
      ∃ t, exec .perstRelease s = .next t ∧ t.timeNow = 0 ∧ t.power.perst = false ∧ t.power.state = 2 ∧ t.boot.phase = 1 ∧ t.boot.state = 1 ∧
        t.power.cause = 0) ∧
    (s.boot.state = 1 → s.power.state = 2 →
      (s.boot.phase = 3 → ∃ t, exec (.bootPhaseEnd .done) s = .next t ∧ t.boot.phase = 4 ∧ t.boot.state = 1 ∧ t.hbm = s.hbm) ∧
      (s.boot.phase = 5 → ∃ t, exec (.bootPhaseEnd .done) s = .next t ∧ t.boot.state = 2 ∧ t.power.state = 3 ∧ (t.part 0).state = 2 ∧
        (∀ p, p ≠ 0 → (t.part p).state = 0) ∧ t.boot.readyT = s.timeNow ∧ s.boot.minSvn ≤ t.boot.minSvn)) ∧
    (s.mainOn = true →
      (∃ t, exec .undervoltage s = .next t ∧ t.power.cause = 1 ∧ t.parts = [] ∧ t.hbm = []) ∧
      (∃ t, exec .overvoltage s = .next t ∧ t.power.cause = 2 ∧ t.parts = [] ∧ t.hbm = []) ∧
      (∃ t, exec .inputTrip s = .next t ∧ t.power.cause = 3 ∧ t.parts = [] ∧ t.hbm = [])) ∧
    (∃ t, exec .inputOff s = .next t ∧ t.timeNow = 0 ∧ t.regs = [] ∧ t.power.inputOn = false ∧ t.power.cause = 0 ∧ t.parts = [] ∧
      t.boot.minSvn = s.boot.minSvn) ∧
    (s.power.inputOn = false → s.power.bootWait = false →
      ∃ t, exec .inputRise s = .next t ∧ t.power.inputOn = true ∧ t.power.state = 1 ∧ t.boot = s.boot) ∧
    (s.mainOn = true → s.fld pgPower 0 F.POWER_POWER_STATUS_INPUT_RANGE ≠ 1 →
      exec .inputRange s = .next ((s.setFld pgPower 0 F.POWER_POWER_STATUS_INPUT_RANGE 1).pkgNotice pgPower caINPUT_RANGE
        (s.reg pgPower 0 R.POWER_INPUT_MV)))

/-- The host link (R300, R303, R307, R311): training records its mode and opens the functions; a snoop is answered from the ladles' cache and counted, and its line
leaves the cache; a lawful decoder commit is kept, an unlawful one sets Commit Error; an FLR of a function clears its host configuration, one of the physical
function or a hot reset takes every virtual function away; a link error of each kind has its effect. -/
def Obligations.HostLinkEvents : Prop :=
  ∀ (s : State),
    (∀ (speed width retimers : Nat) (sris : Bool), s.linkCanTrain = true → 1 ≤ speed → speed ≤ 5 → width ∈ [1, 4, 8, 16] → retimers ≤ 2 →
      s.fld pgCxl 0 F.CXL_CXL_CFG_MODE = 0 →
      ∃ t, exec (.cxlLinkTraining true speed width retimers sris) s = .next t ∧ t.cxl.linkUp = true ∧ t.cxl.cxlMode = true ∧ t.cxl.vfEnable = true ∧
        t.cxl.cache = [] ∧ t.hbm = s.hbm ∧ t.queues = s.queues) ∧
    (∀ (addr : Nat), s.cxl.linkUp = true → s.cxl.cxlMode = true →
      ∃ t, exec (.h2dSnoop addr) s = .next t ∧ (∀ l ∈ t.cxl.cache, l % 2 ^ 58 ≠ addr / 64) ∧
        t.reg pgCxl 0 R.CXL_CACHE_SNOOPS = (s.reg pgCxl 0 R.CXL_CACHE_SNOOPS + 1) % 2 ^ 64 ∧
        t.out = .msg .snoopResponse [addr, if s.cxl.cache.any (fun l => l % 2 ^ 58 = addr / 64) then 1 else 0] [] :: s.out) ∧
    (∀ (base size : Nat) (lock : Bool), s.cxl.cxlMode = true → s.ready = true → s.cxl.decoders = [] → base % seg256M = 0 → size % seg256M = 0 → 0 < size →
      s.dpaBefore 0 + size ≤ hbmBytes s.n8 →
      ∃ t, exec (.hdmDecoderCommit 0 base size 0 1 256 lock) s = .next t ∧
        sget t.cxl.decoders 0 = some [base, size, 0, 1, 256, if lock then 1 else 0] ∧ 0 ∉ t.cxl.commitErr ∧ t.regs = s.regs ∧ t.hbm = s.hbm) ∧
    (∀ (base size : Nat) (lock : Bool), s.cxl.cxlMode = true → s.ready = true → s.cxl.decoders = [] → base % seg256M ≠ 0 →
      ∃ t, exec (.hdmDecoderCommit 0 base size 0 1 256 lock) s = .next t ∧ t.cxl.decoders = [] ∧ 0 ∈ t.cxl.commitErr) ∧
    (s.cxl.linkUp = true →
      (∃ t, exec (.hostLinkError .recovery) s = .next t ∧
        t.reg pgCxl 0 R.CXL_LINK_RECOVERY = (s.reg pgCxl 0 R.CXL_LINK_RECOVERY + 1) % 2 ^ 64 ∧ t.cxl = s.cxl) ∧
      (∃ t, exec (.hostLinkError .badTlp) s = .next t ∧ t.out = .msg .urResponse [] [] :: s.out ∧ t.regs = s.regs) ∧
      (s.cxl.cxlMode = true → ∃ t, exec (.hostLinkError .protocol) s = .next t ∧ t.cxl.rasError = true))

/-- CXL.mem and resets of functions (R304, R305, R309): a read of mapped, sound bytes answers with the HBM's bytes and changes none; a write puts its bytes
there, in order; a hot reset closes the link and takes every virtual function away; a function-level reset clears the function's host configuration. -/
def Obligations.HostMemoryAndFunctionResets : Prop :=
  ∀ (s : State),
    (∀ (hpa n : Nat) (as_ : List Nat), as_ = (List.range n).filterMap (fun i => s.dpa (hpa + i)) → s.ready = true → s.cxl.linkUp = true →
      s.cxl.cxlMode = true → as_.length = n → 0 < n → (∀ a ∈ as_, ∀ b ∈ s.hbmBad, b.1 ≠ a / 64) →
      ∃ t, exec (.cxlMemRead hpa n) s = .next t ∧ t.out = .msg .memData [hpa, 0] (as_.map s.hbmByte) :: s.out ∧ t.hbm = s.hbm ∧ t.queues = s.queues) ∧
    (∀ (hpa : Nat) (data : List Byte) (as_ : List Nat), as_ = (List.range data.length).filterMap (fun i => s.dpa (hpa + i)) → s.ready = true →
      s.cxl.linkUp = true → s.cxl.cxlMode = true → as_.length = data.length → 0 < data.length →
      (∀ e ∈ s.queues, ∀ c ∈ e.2.cmds, ¬ (c.startT.isSome = true ∧ c.done = false ∧ c.recorded = false)) →
      ∃ t, exec (.cxlMemWrite hpa data) s = .next t ∧ t.hbm = (as_.zip data).foldl (fun m e => mset 0 m e.1 e.2) s.hbm ∧ t.queues = s.queues ∧
        (∀ b ∈ t.hbmBad, b ∈ s.hbmBad)) ∧
    (s.ready = false → ∃ t, exec .hotReset s = .next t ∧ t.cxl.linkUp = false ∧ t.cxl.vfEnable = false ∧ t.cxl.ats = [] ∧
      t.reg pgCxl 0 R.CXL_LINK_STATUS = 0 ∧ t.cxl.decoders = s.cxl.decoders) ∧
    (s.ready = true → ∃ t, exec .hotReset s = .next t ∧ t.cxl.linkUp = false ∧ t.cxl.vfEnable = false ∧ t.reg pgCxl 0 R.CXL_LINK_STATUS = 0) ∧
    (∀ n, s.ready = true → s.cxl.vfEnable = true → 0 < n → n < 256 →
      ∃ t, exec (.flr n) s = .next t ∧ t.reg pgPackage n R.GRP_HOST_CFG = 0 ∧ t.reg pgPackage n R.GRP_HOST_PASID = 0) ∧
    (s.ready = true → ∃ t, exec .pfFlr s = .next t ∧ t.cxl.vfEnable = false ∧ t.cxl.ats = [])

/-- Discovery, recovery and attestation (R306, R360, R366, R367, R368): each request over the mailbox or SPDM is answered, and counted where the spec counts
it; a push in RECOVERY at the expected offset goes to the flash and moves the offset on. -/
def Obligations.RequestsAreAnswered : Prop :=
  ∀ (s : State),
    let u := s.bump pgRot 0 R.ROOT_OF_TRUST_SPDM_MSGS 1
    (s.cxl.linkUp = true →
      (∀ i x, s.doeProtocols[i]? = some x → exec (.doeDiscovery i) s =
        .next (s.emit .doe [1, x.1, x.2, if i + 1 < s.doeProtocols.length then i + 1 else 0])) ∧
      (∀ h, s.cxl.cxlMode = true → exec (.cdatTableAccess h) s = .next (s.emit .doe [2, h, 0, hbmBytes s.n8, 650, 600, 55])) ∧
      (∀ vendor ptype, (vendor, ptype) ∉ s.doeProtocols → exec (.unknownDoeProtocol vendor ptype) s = .next (s.emit .doe [0, vendor, ptype])) ∧
      (∀ (off : W32) (data : List Byte), s.boot.state = 3 → data ≠ [] → data.length % 4 = 0 → data.length ≤ 992 →
        off.toNat = s.boot.pushAt.getD 0 → off.toNat ≠ 0 → off.toNat + data.length ≤ imageMax →
        ∃ t, exec (.imagePush off data) s = .next t ∧ t.boot.pushAt = some (off.toNat + data.length) ∧
          t.flash = (s.flashWrite (flImage + off.toNat) data).flash ∧ t.hbm = s.hbm ∧ t.parts = s.parts)) ∧
    (s.power.inputOn = true →
      exec .getVersion s = .next (u.emit .spdm [0, 0x12]) ∧
      exec .getCapabilities s = .next (u.emit .spdm [1, 1, 1, 2]) ∧
      exec .negotiateAlgorithms s = .next (u.emit .spdm [2, 4096, 512]) ∧
      exec .getDigests s = .next (u.emit .spdm [3, 1] (bytes64 (Config.sha512 s.chain))) ∧
      (∀ off len, exec (.getCertificate 0 off len) s = .next (u.emit .spdm [4, 0, off] ((s.chain.drop off).take len))) ∧
      (∀ nonce, ∃ sig, exec (.challenge 0 nonce) s = .next (u.emit .spdm [5, 0] (bytes64 (Config.sha512 s.chain) ++ sig)) ∧
        sig = bytes512 (Config.pssSign u.helperData (Config.spdmDigest [s.chain, nonce]))) ∧
      (∀ i nonce, 3 ≤ s.boot.phase → 1 ≤ i → i < 8 →
        exec (.getMeasurements i false nonce) s = .next (u.emit .spdm [6, i, 0] (u.measurement i))))

/-- A firmware update over PLDM (R361): every command is answered; the update goes from a request through the component, its data in order, its verification
and its installation to activation, and a cancel ends it. -/
def Obligations.PldmUpdateSteps : Prop :=
  ∀ (s : State), s.power.inputOn = true →
    let u := (s.bump pgSideband 0 R.SIDEBAND_MCTP_RX 1).bump pgSideband 0 R.SIDEBAND_MCTP_TX 1
    exec .queryDeviceIdentifiers s = .next (u.say [puQUERY, 0, 0x1F6E, if s.n8 then 0x1261 else 0x1260]) ∧
    exec .getFirmwareParameters s = .next (u.say [puPARAMS, 0, s.reg pgPkgMgr 0 R.PKG_MGR_FW_RUNNING_PKG, s.reg pgPkgMgr 0 R.PKG_MGR_FW_FLASH]) ∧
    exec .getStatus s = .next (u.say [puSTATUS, 0, s.fw.pldmState]) ∧
    (s.fw.pldmState = 0 → (s.fwState = 0 ∨ 3 < s.fwState) → exec .requestUpdate s = .next ((u.setPldm 1).say [puREQUEST, 0])) ∧
    (∀ comp, (s.fw.pldmState = 1 ∨ s.fw.pldmState = 2) → 1 ≤ comp → comp ≤ 3 →
      exec (.passComponentTable comp) s = .next ((u.setPldm 2).say [puTABLE, 0, comp])) ∧
    (∀ comp size, s.fw.pldmState = 2 → s.compOk comp = true → 0 < size → size ≤ compMax comp →
      ∃ t, exec (.updateComponent comp size) s = .next t ∧ t.fw.pldmState = 3 ∧ t.fw.pldmComp = comp ∧ t.fw.pldmSize = size ∧ t.fw.pldmGot = 0 ∧
        t.flash = s.flash) ∧
    (∀ (data : List Byte), s.fw.pldmState = 3 → s.fw.pldmComp ≠ 1 → data.length = min 1024 (s.fw.pldmSize - s.fw.pldmGot) → data ≠ [] →
      ∃ t, exec (.requestFirmwareData s.fw.pldmGot data) s = .next t ∧ t.fw.pldmGot = s.fw.pldmGot + data.length ∧
        t.fw.pldmData = s.fw.pldmData ++ data ∧ t.fw.pldmState = 3 ∧ t.flash = s.flash) ∧
    (s.fw.pldmState = 3 → s.fw.pldmComp ≠ 1 → s.fw.pldmGot = s.fw.pldmSize →
      exec .transferComplete s = .next (((u.setPldm 4).say [puTRANSFER, 0]).sbEvents)) ∧
    (s.fw.pldmState = 4 → s.fw.pldmComp ≠ 1 → exec .verifyComplete s = .next ((u.setPldm 5).say [puVERIFY, 0])) ∧
    (s.fw.pldmState = 5 → s.fw.pldmComp = 3 →
      ∃ t, exec .applyComplete s = .next t ∧ t.fw.pldmState = 6 ∧ t.flash = ((s.flashErase flCert 0x10000).flashWrite flCert s.fw.pldmData).flash ∧
        t.hbm = s.hbm) ∧
    (s.fw.pldmState = 6 → s.fw.byPldm = false → exec .activateFirmware s = .next ((u.setPldm 0).say [puACTIVATE, 0, 1])) ∧
    (s.fw.pldmState ≠ 0 → s.fw.byPldm = false →
      (∃ t, exec .cancelUpdateComponent s = .next t ∧ t.fw.pldmState = 2 ∧ t.boot.pushAt = none ∧ t.flash = s.flash) ∧
      (∃ t, exec .cancelUpdate s = .next t ∧ t.fw.pldmState = 0 ∧ t.boot.pushAt = none ∧ t.flash = s.flash))

/-- Control writes (R35, R240, R246, R260, R262, R264, R344, R386): HOLD sets its bit on a unit's page and HELD reads 1 once the unit has drained; a trace base that fits
is set and the next write goes to its start; the module identity is written to every router; a route entry becomes the entry selected; RETRAIN, PROBE and
REMEASURE begin what they name; CKPT_RELEASE frees a held checkpoint and CKPT_NOW asks for one. -/
def Obligations.ControlWritesAct : Prop :=
  ∀ s : State,
    (∀ p page, isGroup (assignedType page) = false → assignedType page ≠ .entry → homePage page = page → s.accepts p page R.HDR_PAGE_CTRL = true →
      ∃ t, exec (.hold p page) s = .next t ∧ t.fld page (s.bankOf p page R.HDR_PAGE_CTRL) F.HDR_PAGE_CTRL_HOLD = 1 ∧ t.queues = s.queues ∧ t.hbm = s.hbm) ∧
    (∀ page, s.pageType page ≠ .absent → s.fld page (hdrBank page 0) F.HDR_PAGE_CTRL_HOLD = 1 → s.pageBusy 0 page = false →
      ∃ t, exec (.holdDrained page) s = .next t ∧ t.fld page (hdrBank page 0) F.HDR_PAGE_STATUS_HELD = 1 ∧ t.queues = s.queues ∧ t.hbm = s.hbm) ∧
    (∀ (p off : Nat) (v : W64), off = R.GRP_TRACE_BASE ∨ off = R.GRP_ITRACE_BASE → s.takesWord p pgPackage off = true → s.traceFits p off v.toNat = true →
      ∃ t, exec (.traceBaseWrite p off v) s = .next t ∧ t.reg pgPackage p off = v.toNat ∧ t.hbm = s.hbm ∧
        t.reg pgPackage p (regTraceFirst (off == R.GRP_ITRACE_BASE)) = s.reg pgPackage p (regTraceNext (off == R.GRP_ITRACE_BASE))) ∧
    (∀ (die i : Nat) (v : W32), 8 ≤ die → die < 8 + ioDies s.n8 → s.takesWord 0 (pgRouter die) R.ROUTER_ROUTER_ID = true → s.upLinks = [] →
      s.busyFor 0 (pgRouter die) R.ROUTER_ROUTER_ID = false → i < ioDies s.n8 →
      ∃ t, exec (.routerIdWrite 0 die v) s = .next t ∧ t.fld (pgRouter (8 + i)) 0 F.ROUTER_ROUTER_ID_MODULE_ID = v.toNat % 2 ^ 14) ∧
    (∀ (die : Nat) (v : W32), s.takesWord 0 (pgRouter die) R.ROUTER_ROUTE_DATA = true → 8 ≤ die → die < 8 + ioDies s.n8 →
      ∃ t, exec (.routeDataWrite 0 die v) s = .next t ∧
        bitsOf (t.reg (pgRouter die) (s.reg (pgRouter die) 0 R.ROUTER_ROUTE_SEL) R.ROUTER_ROUTE_DATA) 13 0 = v.toNat % 2 ^ 14 ∧
        (∀ e, e ≠ s.reg (pgRouter die) 0 R.ROUTER_ROUTE_SEL → e < 2 ^ 14 → s.reg (pgRouter die) 0 R.ROUTER_ROUTE_SEL < 2 ^ 14 →
          t.reg (pgRouter die) e R.ROUTER_ROUTE_DATA = s.reg (pgRouter die) e R.ROUTER_ROUTE_DATA)) ∧
    (∀ n, n < s.linkCount → s.takesWord 0 (linkPage n) R.LINK_LINK_CTRL = true →
      (s.fld (linkPage n) 0 F.LINK_LINK_CFG_ENABLE = 1 → ∃ t, exec (.retrain 0 n) s = .next t ∧ t.linkSt n = 1 ∧ t.hbm = s.hbm ∧
        t.fld (linkPage n) 0 F.LINK_LINK_STAT_FAILS = 0 ∧ t.fld (linkPage n) 0 F.LINK_LINK_STAT_DOWN_CAUSE = 0) ∧
      (s.linkSt n = 4 ∨ s.linkSt n = 5 → exec (.linkCtrlProbe 0 n) s = .next (s.startProbes n 0))) ∧
    (s.takesWord 0 (pgTime 8) R.TIME_TIME_CTRL = true → exec (.remeasure 0) s = .next s.remeasureTime ∧
      (s.isRoot = true → s.remeasureTime.fld (pgTime 8) 0 F.TIME_TIME_STATUS_EPOCH = (s.fld (pgTime 8) 0 F.TIME_TIME_STATUS_EPOCH + 1) % 256 ∧
        s.remeasureTime.fld (pgTime 8) 0 F.TIME_TIME_STATUS_VALID = 1 ∧ s.remeasureTime.fld (pgTime 8) 0 F.TIME_TIME_STATUS_ROOT = 1)) ∧
    (∀ p, s.takesWord p pgSnapshot R.SNAPSHOT_CKPT_CTRL = true →
      ((s.part p).snap.held = true → ∃ t, exec (.ckptRelease p) s = .next t ∧ (t.part p).snap.held = false ∧
        t.fld pgSnapshot p F.SNAPSHOT_CKPT_STATUS_STATE = 0 ∧ t.hbm = s.hbm) ∧
      ∃ t, exec (.ckptNow p) s = .next t ∧ (t.part p).jr.ckptNow = true ∧ (∀ x, x ≠ p → t.part x = s.part x) ∧ t.regs = s.regs ∧ t.hbm = s.hbm)

/-- Firmware update (R369, R370, R371): FW_UPDATE with a usable source begins the check; CANCEL ends a check with error 11; an image that passes makes the manager erase and
write the flash, and one that does not ends with the check's code; a good write makes the image in flash valid and pending for every partition; a partition that is
idle then moves to it. -/
def Obligations.FirmwareUpdateActs : Prop :=
  ∀ s : State,
    (s.takesWord 0 pgPkgMgr R.PKG_MGR_FW_CTRL = true → s.fwState ≠ 1 → s.fwState ≠ 2 → s.fwState ≠ 3 → s.reg pgPkgMgr 0 R.PKG_MGR_FW_PENDING = 0 →
      s.reg pgPkgMgr 0 R.PKG_MGR_FW_LEN ≠ 0 → isHost (s.reg pgPkgMgr 0 R.PKG_MGR_FW_SRC) = false →
      s.inReservation 0 (s.reg pgPkgMgr 0 R.PKG_MGR_FW_SRC) (s.reg pgPkgMgr 0 R.PKG_MGR_FW_SRC + s.reg pgPkgMgr 0 R.PKG_MGR_FW_LEN - 1) = true →
      ∃ t, exec (.fwUpdate 0) s = .next t ∧ t.fwState = 1 ∧ t.fld pgPkgMgr 0 F.PKG_MGR_FW_STATUS_ERR = 0 ∧ t.flash = s.flash ∧ t.hbm = s.hbm ∧
        t.reg pgPkgMgr 0 R.PKG_MGR_FW_UPDATES = (s.reg pgPkgMgr 0 R.PKG_MGR_FW_UPDATES + 1) % 2 ^ 64) ∧
    (s.takesWord 0 pgPkgMgr R.PKG_MGR_FW_CTRL = true → s.fwState = 1 →
      ∃ t, exec (.cancel 0) s = .next t ∧ t.fwState = 0 ∧ t.fld pgPkgMgr 0 F.PKG_MGR_FW_STATUS_ERR = 11 ∧ t.flash = s.flash ∧ t.hbm = s.hbm) ∧
    (s.fwState = 1 → s.pkgStopped = false →
      (imageCheck s.boot.minSvn s.boot.revoked s.fwSrc = 0 →
        ∃ t, exec .fwCheckDone s = .next t ∧ t.fwState = 2 ∧ t.fld pgPkgMgr 0 F.PKG_MGR_FW_STATUS_FLASH_VALID = 0 ∧ t.hbm = s.hbm ∧
          t.flash = (s.flashErase flImage imageMax).flash) ∧
      (imageCheck s.boot.minSvn s.boot.revoked s.fwSrc ≠ 0 →
        ∃ t, exec .fwCheckDone s = .next t ∧ t.fwState = 0 ∧ t.flash = s.flash ∧ t.hbm = s.hbm ∧
          t.fld pgPkgMgr 0 F.PKG_MGR_FW_STATUS_ERR = imageCheck s.boot.minSvn s.boot.revoked s.fwSrc % 256)) ∧
    (s.fwState = 2 → ∃ t, exec (.fwFlashWriteDone true) s = .next t ∧ t.fwState = 4 ∧ t.fld pgPkgMgr 0 F.PKG_MGR_FW_STATUS_FLASH_VALID = 1 ∧ t.hbm = s.hbm ∧
      t.flash = ((s.flashErase flImage imageMax).flashWrite flImage (imgBytes s.fwSrc 0 (s.reg pgPkgMgr 0 R.PKG_MGR_FW_LEN))).flash ∧
      (s.fw.byPldm = false → ∀ p ∈ s.partNums, (t.part p).fwPending = true)) ∧
    (∀ p, (s.part p).state ≠ 0 → (s.part p).fwPending = true → s.partIdle p = true → s.pkgStopped = false →
      ∃ t, exec (.fwPartitionMove p) s = .next t ∧ (t.part p).fwPending = false ∧ (t.part p).fwVersion = s.reg pgPkgMgr 0 R.PKG_MGR_FW_FLASH ∧
        (∀ x, x ≠ p → t.part x = s.part x) ∧ t.queues = s.queues ∧ t.hbm = s.hbm)

/-- The job runner (R180, R183, R308): START of a well-formed plan runs it from the present step and of an ill-formed one stops with cause 4; STOP asks for a stop at the
next boundary; JOB_STEP wakes a Parked module; at a step's start it begins the step with the plan's LR_MULT, or stops with cause 1 on a request; RING_POLL reads a
producer index of 4 bytes from the host. -/
def Obligations.RunnerRunsItsPlan : Prop :=
  ∀ (s : State) (p : Nat),
    (s.accepts p pgJobRunner R.JOB_RUNNER_JR_CTRL = true → (s.part p).state ≠ 0 → (s.part p).pfFrozen = false → s.jrState p = 0 ∨ s.jrState p = 4 →
      (s.wake.planOk p (s.wake.reg pgJobRunner p R.JOB_RUNNER_PLAN_BASE) (s.wake.rdBytes p (s.wake.reg pgJobRunner p R.JOB_RUNNER_PLAN_BASE) 128) = true →
        ∃ t, exec (.start p) s = .next t ∧ t.jrState p = 1 ∧ (t.jr p).plan = s.rdBytes p (s.reg pgJobRunner p R.JOB_RUNNER_PLAN_BASE) 128 ∧
          (t.jr p).phase = 0 ∧ (t.jr p).stepsRun = 0 ∧ t.hbm = s.hbm ∧ t.queues = s.queues) ∧
      (s.wake.planOk p (s.wake.reg pgJobRunner p R.JOB_RUNNER_PLAN_BASE) (s.wake.rdBytes p (s.wake.reg pgJobRunner p R.JOB_RUNNER_PLAN_BASE) 128) = false →
        ∃ t, exec (.start p) s = .next t ∧ t.jrState p = 4 ∧ t.fld pgJobRunner p F.JOB_RUNNER_JR_STATUS_CAUSE = 4 ∧ t.hbm = s.hbm ∧ t.queues = s.queues)) ∧
    (s.accepts p pgJobRunner R.JOB_RUNNER_JR_CTRL = true → s.jrState p ≠ 0 → s.jrState p ≠ 4 →
      ∃ t, exec (.stop p) s = .next t ∧ (t.jr p).stopReq = true ∧ t.regs = s.regs ∧ t.hbm = s.hbm ∧ ∀ x, x ≠ p → t.part x = s.part x) ∧
    (s.jrState p ≠ 0 → s.jrState p ≠ 4 → s.ready = true →
      (s.power.state ≠ 3 → exec (.jobStep p) s = .next s.wake) ∧
      (s.power.state = 3 → (∀ q ∈ (s.jrQueues p (s.jr p).plan).getD [], (s.queue q).cqHead = (s.queue q).cqTail ∧ (s.queue q).state ≠ 3) →
        (s.jr p).uses = [] → (s.jr p).todo = [] → (s.jr p).phase = 0 → (s.jr p).stopReq = true →
        ∃ t, exec (.jobStep p) s = .next t ∧ t.jrState p = 4 ∧ t.fld pgJobRunner p F.JOB_RUNNER_JR_STATUS_CAUSE = 1 ∧ t.hbm = s.hbm ∧ t.queues = s.queues) ∧
      ((s.jr p).todo = [] → (s.jr p).phase = 0 → (s.jr p).stopReq = false → (s.jr p).stepCount = 0 →
        ∃ t, s.jrMove p = (true, t) ∧ (t.jr p).phase = 1 ∧ (t.jr p).lrMult = fieldOf (s.stepEntry p) 4 4 ∧ (t.jr p).started = [] ∧ t.hbm = s.hbm)) ∧
    (∀ r, s.cxl.cxlMode = false → s.jrState p = 1 ∨ s.jrState p = 3 → r < fieldOf (s.jr p).plan 0x38 1 →
      ∃ t, exec (.ringPoll p r) s = .next t ∧ t.parts = s.parts ∧ t.host = s.host ∧ t.hbm = s.hbm ∧
        t.reg pgCxl 0 R.CXL_CXL_RX_BYTES = (s.reg pgCxl 0 R.CXL_CXL_RX_BYTES + 4) % 2 ^ 64)

/-- Queues (R186, R187, R210): a submission-tail doorbell of a good index sets the tail and asks for an admission turn, a bad one changes no queue; the
completion head takes the value; RESTART, SKIP and ABORT act on the queue's task as written; an admission turn takes the first queue waiting and reads
nothing from one that has nothing to read. -/
def Obligations.QueueCommandsAct : Prop :=
  ∀ (s : State) (p q : Nat), s.ready = true → (s.part p).state ≠ 0 → (s.part p).hostFrozen = false → s.queueOwner q = p → s.qEnabled q = true →
    (∀ v : W32, v.toNat % 65536 < s.qSize q → v.toNat % 65536 ≠ (s.queue q).tail → (s.queue q).ringFault = false →
      ∃ t, exec (.sqTail p q v) s = .next t ∧
        t.queue q = { s.queue q with tail := v.toNat % 65536, state := if (s.queue q).state = 0 then 1 else (s.queue q).state } ∧
        t.adm.fifo = s.adm.fifo ++ [q] ∧ t.hbm = s.hbm ∧ ∀ x, x ≠ q → t.queue x = s.queue x) ∧
    (∀ v : W32, s.qSize q ≤ v.toNat % 65536 → ∃ t, exec (.sqTail p q v) s = .next t ∧ t.queues = s.queues ∧ t.adm = s.adm ∧ t.hbm = s.hbm) ∧
    (∀ v : W32, v.toNat % 65536 < s.qSize q → (s.queue q).ringFault = false →
      ∃ t, exec (.cqHead p q v) s = .next t ∧ t.queue q = { s.queue q with cqHead := v.toNat % 65536 } ∧ t.hbm = s.hbm ∧
        ∀ x, x ≠ q → t.queue x = s.queue x) ∧
    (∀ tk, (s.queue q).state = 3 → (s.queue q).frozen = false → (s.queue q).aborted? = some tk →
      (tk.inPlace = false → ∃ t, exec (.restart p q 1) s = .next t ∧ (t.queue q).rd = tk.first ∧ (t.queue q).state = 2 ∧
        (t.queue q).restarts = (s.queue q).restarts + 1 ∧ t.adm.fifo = s.adm.fifo ++ [q] ∧ t.hbm = s.hbm ∧ ∀ x, x ≠ q → t.queue x = s.queue x) ∧
      ((∀ c ∈ (s.queue q).cmds, closesTask (dOpcode c.desc) = false) → (s.queue q).rd = (s.queue q).tail →
        ∃ t, exec (.skip p q 2) s = .next t ∧ (t.queue q).state = 2 ∧ (t.part p).abandoned = true ∧ t.hbm = s.hbm ∧
          (t.queue q).tasks = setTask (s.queue q).tasks { tk with refused := true, aborted := false } ∧ ∀ x, x ≠ q → t.queue x = s.queue x)) ∧
    (∀ tk, (s.queue q).state = 2 → (s.queue q).frozen = false → (s.queue q).liveTask? = some tk → findTask (s.queue q).tasks tk.id = some tk →
      ∃ t, exec (.abort p q 4) s = .next t ∧ t = s.wake.abortWhole q tk.id 0x0E ∧ (t.queue q).state = 3) ∧
    (∀ r, s.adm.fifo = q :: r → (s.queue q).rd = (s.queue q).tail →
      ∃ t, exec .admissionTurn s = .next t ∧ t.adm.fifo = r ∧ t.queues = s.queues ∧ t.hbm = s.hbm)

/-- Collectives (R169, R255, R256, R257, R258): a COLLECTIVE begins with the next sequence number of its group, and a closing one of an abandoned step ends with STEP_ABORTED; a READY with
another group layout cancels, one that comes early is kept; DATA of another kind or length cancels; SEAL closes the step with its verdict; a CANCEL ends
the operation here with a reason the answer does not carry; a closing collective out of time aborts its step, another fails with code 4. -/
def Obligations.CollectivesAct : Prop :=
  ∀ s : State,
    (∀ (q slot : Nat) (c : Cmd) (t : Task), s.starts q slot opCOLLECTIVE c t →
      let u := s.begun q c t
      let k := s.begunCmd q c t
      exec (.collective q slot) s = .next (u.collStart q k) ∧ (u.newColl q k).phase = 1 ∧ (u.newColl q k).startT = s.timeNow ∧
        (dFlag c.desc flCLOSING = true → (u.part c.part).abandoned = true → u.collStart q k = u.finish q slot 0x13 0 0)) ∧
    (∀ (die : Nat) (pk : Packet), s.takesPacket die pk = true →
      let w := s.arrived die pk
      (∀ c, w.collOf pk = some c →
        (pk.aux.toNat ≠ groupCrc c.members → exec (.collReady die pk) s = .next ((w.answer pk pkCOLL_CANCEL).collFail c 2)) ∧
        (pk.fmt ≠ c.kind ∨ pk.len ≠ c.len → exec (.collData die pk) s = .next ((w.answer pk pkCOLL_CANCEL).collFail c 3)) ∧
        (pk.fmt = c.kind → pk.len = c.len → c.tree = false → pk.pos.toNat < c.chunks → (c.from c.sources pk.srcMod).isSome = true → w.cmd? c.q c.slot = none →
          let r := w.ringIn { c with verdict := orVerdict c.verdict pk.verdict.toNat } pk.pos.toNat pk.data
          exec (.collData die pk) s = .next ((r.1.updCmd c.q c.slot (fun k => { k with pos := min c.len (1024 * r.2.finals.length) })).collGoOn r.2)) ∧
        (c.closing = true → exec (.collAck die pk) s = .next (w.ackFor c pk) ∧ exec (.collSeal die pk) s = .next (w.sealed c pk.verdict.toNat)) ∧
        ∃ r, 2 ≤ r ∧ r ≤ 6 ∧ exec (.collCancel die pk) s = .next (w.freshen.collFail c r)) ∧
      (w.collOf pk = none → w.isEarly pk = true → (w.earlyReady.filter (fun r => r.part = pk.destPart && r.pk.kind = pkCOLL_READY)).length < 256 →
        ∃ t, exec (.collReady die pk) s = .next t ∧ t.earlyReady = s.earlyReady ++ [{ part := pk.destPart, die := die, pk := pk }] ∧ t.colls = s.colls ∧
          t.queues = s.queues ∧ t.hbm = s.hbm) ∧
      (w.collOf pk = none → ∃ t, exec (.collCancel die pk) s = .next t ∧ t.colls = s.colls ∧ t.queues = s.queues ∧ t.hbm = s.hbm)) ∧
    (∀ (q slot : Nat) (c : CollX), s.coll? q slot = some c → c.remaining s.timeNow = 0 →
      let u := s.bump (pgColl 8) 0 R.COLLECTIVE_COLL_TIMEOUTS 1
      exec (.collectiveTimeout q slot) s = .next (if c.closing then u.closeStep c soAborted 0 else u.collFail c 4)) ∧
    ∀ (q slot : Nat) (c : CollX), s.coll? q slot = some c → 0 < c.remaining s.timeNow → exec (.collectiveTimeout q slot) s = .next s

/-- Health and stage events (R46, R139, R271, R323, R327): an assay that passes clears the core's due assay, a spare's that passes changes nothing; an uncorrected
core SRAM error raises its record; an idle partition's staged values of every kind apply; zeroing that ends applies the contract; a re-run takes its causes, and each entry that may
widen moves one rung, each command runs again. -/
def Obligations.HealthAndReruns : Prop :=
  ∀ s : State,
    (∀ page, s.pageType page = .core → s.islHalted page = false → (s.core page).assayDue = true → s.bars = [] →
      ∃ t, exec (.assay page true) s = .next t ∧ (t.core page).assayDue = false ∧ (t.core page).assayT = s.timeNow ∧
        (t.core page).usedBy = s.partsOn page ∧ (∀ x, x ≠ page → t.core x = s.core x) ∧ t.hbm = s.hbm ∧ t.queues = s.queues) ∧
    (∀ page, s.pageType page = .clusterCtrl → exec (.assay page true) s = .next s) ∧
    (∀ page word off held hit, s.pageType page = .core → exec (.sramEccError page word off true held hit) s =
      .next ((s.raisePage page 4).raiseErr (s.srcOf page word) caSRAM_UC off hit 0x02)) ∧
    (∀ page word off held hit, s.pageType page = .clusterSram →
      let u := s.setReg page 0 R.CLUSTER_SRAM_SRAM_LAST off
      exec (.sramEccError page word off true held hit) s =
        .next (((u.raisePage page 4).bump page 0 R.CLUSTER_SRAM_SRAM_UC 1).raiseErr (u.srcOf page word) caSRAM_UC off hit 0x02)) ∧
    (∀ p, s.ready = true → (s.part p).state ≠ 0 → s.partIdle p = true → s.pkgStopped = false →
      let u := ((s.applyPart .pass p).applyPart .layer p).applyPart .step p
      exec (.idleStageApply p) s = .next (((u.clustersOf p).foldl (fun t g => t.replaceFenced g) u).tryContract p) ∧
      ∀ d ∈ s.dueShadows .pass (fun k => s.keyPart k = p), ∀ e ∈ (s.applyPart .pass p).shadows, e.1 ≠ d.1) ∧
    (∀ p, (s.part p).zeroing ≠ [] →
      ∃ t, exec (.zeroingDone p) s = .next t ∧ (t.part p).zeroing = [] ∧ (t.part p).state = 2 ∧
        t.reg pgPartition 0 R.PARTITION_BYTES_ZEROED = (s.reg pgPartition 0 R.PARTITION_BYTES_ZEROED + (svals (s.part p).zeroing).sum) % 2 ^ 64 ∧
        (∀ x, x ≠ p → t.part x = s.part x) ∧ t.hbm = s.hbm ∧ t.queues = s.queues) ∧
    (∀ p, (∀ w ∈ (s.part p).rerunWanted, s.dieStopped (w / 8 / 16384) = false) → (s.part p).rerunWanted ≠ [] →
      ∃ u, exec (.rerun p) s = .next ((s.layerCmds p).foldl (fun t k => t.runGemmClass k.1 k.2.slot) ((s.layerCmds p).foldl (fun t k => t.rerunCmd k.1 k.2) u)) ∧
        (u.part p).rerunWanted = [] ∧ u.queues = s.queues) ∧
    (∀ x c causes, x < 65536 → s.stuck c x = false → s.entRole x ≠ roWEIGHT →
      let t := s.rerunEntry x c causes
      let ctrl := s.entReg x R.ENT_ENT_CTRL
      t.entFld x F.ENT_RERUN_STEP = satAdd 255 (s.entFld x F.ENT_RERUN_STEP) 1 ∧
      t.entFld x F.ENT_RERUN_TOTAL = satAdd 65535 (s.entFld x F.ENT_RERUN_TOTAL) 1 ∧
      t.entFld x F.ENT_FMT_STATE_FMT = rungFmt ctrl (min (ctrlTop ctrl) (rungOf ctrl c.fmt + 1))) ∧
    (∀ q c, s.cmd? q c.slot = some c → ∃ k, (s.rerunCmd q c).cmd? q c.slot = some k ∧ k.runs = c.runs + 1 ∧ k.done = false ∧ k.pos = 0 ∧ k.desc = c.desc)

/-- Power, cooling and the reference (R21, R316, R407, R412, R413, R414, R417, R421): the cap loop tightens its first stage first; a sample shows its readings, and one over the junction
limit goes to Aux; a heat response and a flow throttle end; a leak throttles or, where so set, goes to Aux; feed pins are shown; the
reference lost makes alignment invalid, and its return adjusts holdover within its bound; a die-to-die failure raises its record; effecters act. -/
def Obligations.PowerAndCoolingAct : Prop :=
  ∀ s : State,
    (∀ m100 m1000, s.ready = true → 1000 * s.effectiveCap < m100 →
      ∃ t, exec (.capControlTick m100 m1000) s = .next t ∧ t.hbm = s.hbm ∧ t.queues = s.queues ∧
        (s.power.stage1 < 64 → s.power.stage1 < t.power.stage1 ∧ t.power.stage1 ≤ 64 ∧ t.power.duty = s.power.duty) ∧
        (64 ≤ s.power.stage1 → t.power.stage1 = s.power.stage1 ∧ t.power.duty ≤ max 4 s.power.duty)) ∧
    (∀ r : Sensors, s.power.inputOn = true → s.mainOn = true →
      let u := s.showSample r
      ((∀ e ∈ u.power.temps, e.2 < 1600) → ∃ t, exec (.sensorSample r) s = .next t ∧ t.reg pgPower 0 R.POWER_INPUT_MW = r.mw % 2 ^ 32 ∧
        t.reg pgPower 0 R.POWER_INPUT_MV = r.mv % 2 ^ 32 ∧ t.reg pgPower 0 R.POWER_INPUT_MA = r.ma % 2 ^ 32 ∧ t.hbm = s.hbm ∧ t.queues = s.queues) ∧
      (1680 ≤ (hottest (u.power.temps.filter (fun (e : Nat × Int) => !isHbmSel e.1))).getD 0 →
        exec (.sensorSample r) s = .next (u.enterAux 4).sbEvents.sbLevels)) ∧
    (s.mainOn = true → s.power.hotJ = true → s.power.coolJ ≠ 0 → s.power.coolJ + 1000000000 ≤ s.timeNow →
      ∃ t, exec .thermalRelease s = .next t ∧ t.power.hotJ = false ∧ t.power.capJ = 4000 ∧ t.hbm = s.hbm ∧ t.queues = s.queues) ∧
    (s.power.throttle = true → spanFor s.power.flowOk s.timeNow 1000000000 = true →
      ∃ t, exec .flowThrottleEnd s = .next t ∧ t.power = { s.power with throttle := false } ∧ t.hbm = s.hbm ∧ t.queues = s.queues) ∧
    (s.mainOn = true →
      (s.fld pgPower 0 F.POWER_POWER_CFG_LEAK_SHUTDOWN = 0 → ∃ t, exec .leak s = .next t ∧ t.power = { s.power with leak := true, leakThrottle := true } ∧
        t.hbm = s.hbm ∧ t.queues = s.queues) ∧
      (s.fld pgPower 0 F.POWER_POWER_CFG_LEAK_SHUTDOWN = 1 → exec .leak s = .next (({ s with power := { s.power with leak := true } }).enterAux 6).sbEvents) ∧
      (∃ t, exec .leakClear s = .next t ∧ t.power = { s.power with leak := false, leakThrottle := false } ∧ t.hbm = s.hbm ∧ t.queues = s.queues) ∧
      (s.refPresent = true → ∃ t, exec .refLost s = .next t ∧ t.refPresent = false ∧ t.timeNow = s.timeNow) ∧
      (s.refPresent = false → ∃ t, exec .refReturn s = .next t ∧ t.refPresent = true ∧ t.timeNow = s.timeNow ∧
        t.holdover ≤ s.holdover + ((s.timeNow - s.timeX.lostT) / 20000 : Nat) ∧ s.holdover ≤ t.holdover + ((s.timeNow - s.timeX.lostT) / 20000 : Nat))) ∧
    (∀ pins, ∃ t, exec (.feedChanged pins) s = .next t ∧ t.sb.feedPins = pins % 64 ∧ t.hbm = s.hbm ∧ t.queues = s.queues) ∧
    (∀ page, s.pageType page = .d2d → exec (.d2dFail page) s = .next ((s.setReg page 0 R.D2D_D2D_STATE 0).raiseErr (s.srcOf page 0) caD2D_FAIL 0 none 0)) ∧
    (s.power.inputOn = true →
      let u := (s.bump pgSideband 0 R.SIDEBAND_MCTP_RX 1).bump pgSideband 0 R.SIDEBAND_MCTP_TX 1
      exec (.setStateEffecterStates 1 0) s = .next (u.say [pmSETSTATE, 0]).park.sbEvents ∧
      exec (.setStateEffecterStates 1 1) s = .next (u.say [pmSETSTATE, 0]).unpark.sbEvents ∧
      exec (.setStateEffecterStates 1 2) s = .next ((u.say [pmSETSTATE, 0]).enterAux 7).sbEvents ∧
      (∀ id st, id ≠ 1 ∨ 2 < st → exec (.setStateEffecterStates id st) s = .next (u.say [pmSETSTATE, 2]).sbEvents) ∧
      (∀ v, s.ready = true → 2000 ≤ v → v ≤ 4000 → ∃ t, exec (.setNumericEffecterValue 2 v) s = .next t ∧ t.reg pgPower 0 R.POWER_CAP_W = v ∧
        t.hbm = s.hbm ∧ t.queues = s.queues ∧ t.power = s.power) ∧
      exec (.getNumericEffecterValue 2) s = .next (u.say [pmGETNUM, 0, u.reg pgPower 0 R.POWER_CAP_W]))

/-- Meters (R281, R282, R288): a new budget window takes every partition's pool use back to 0; energy measured is added to the module's total and, where partition 0 is alone, wholly
to its own meter, and is owed while the package manager is stopped; a bandwidth interval changes no value (the model has no bandwidth, DEDUCED log 88). -/
def Obligations.MetersAct : Prop :=
  ∀ s : State,
    (s.ready = true → s.timeNow / (1000000000 * max 1 (s.reg pgPartition 0 R.PARTITION_BUDGET_WINDOW_S)) ≠ s.adm.window →
      ∃ t, exec .budgetWindow s = .next t ∧ t.adm.window = s.timeNow / (1000000000 * max 1 (s.reg pgPartition 0 R.PARTITION_BUDGET_WINDOW_S)) ∧
        (s.freePool = [] → (∀ p, (t.part p).usedNs = 0) ∧ t.regs = s.regs ∧ t.hbm = s.hbm)) ∧
    (∀ mj, s.ready = true →
      (s.pkgStopped = true → ∃ t, exec (.energyAttribution mj) s = .next t ∧ t.adm.energyOwed = s.adm.energyOwed + mj ∧ t.parts = s.parts ∧
        t.reg pgMeter 0 R.METER_ENERGY_TOTAL_MJ = (s.reg pgMeter 0 R.METER_ENERGY_TOTAL_MJ + mj) % 2 ^ 64) ∧
      (s.pkgStopped = false → s.partNums = [0] → ∃ t, exec (.energyAttribution mj) s = .next t ∧ t.adm.energyOwed = 0 ∧ t.adm.energyT = s.timeNow ∧
        t.reg pgMeter 0 R.METER_ENERGY_TOTAL_MJ = (s.reg pgMeter 0 R.METER_ENERGY_TOTAL_MJ + mj) % 2 ^ 64 ∧
        t.reg pgMeter 0 R.METER_ENERGY_MJ =
          (s.reg pgMeter 0 R.METER_ENERGY_MJ + (1000000 * (mj + s.adm.energyOwed) + (s.part 0).energyRem) / 1000000) % 2 ^ 64 ∧
        (t.part 0).energyRem = (1000000 * (mj + s.adm.energyOwed) + (s.part 0).energyRem) % 1000000 ∧ t.hbm = s.hbm ∧ t.queues = s.queues)) ∧
    exec .bandwidthInterval s = .next s

/-- Reads that change the module (R29, R39, R104): a 4-byte read answers the latched value where one waits, and else the register's word, a 64-bit
register's low half then holding the high half for the next read; a read of PROGRESS holds PROGRESS_POS, and so does the 4-byte read of it; an unaligned read holds
nothing; a read of SPRUE_STATUS returns MIN_LEVEL to 16. None changes memory or a queue. -/
def Obligations.ReadsAct : Prop :=
  ∀ (s : State) (p page off : Nat),
    let w := s.viaView p page
    (off % 4 = 0 → off ≠ R.HDR_PROGRESS → sget s.latches (latchKey p w off) = none →
      ∃ t, exec (.lowHalfRead p page off) s = .next t ∧ t.out = .msg .readData [p, page, off, s.readView p page off] [] :: s.out ∧
      t.regs = s.regs ∧ t.hbm = s.hbm ∧ t.queues = s.queues ∧
      (∀ r, regDesc? (s.pageType (homePage w)) off = some r → r.width = 64 → off % 8 = 0 →
        sget t.latches (latchKey p w (off + 4)) = some (BitVec.ofNat 64 (s.readView p page (off + 4)))) ∧
      ∀ k, k ≠ latchKey p w (off + 4) → sget t.latches k = sget s.latches k) ∧
    (∀ x, off % 4 = 0 → off ≠ R.HDR_PROGRESS → sget s.latches (latchKey p w off) = some x →
      ∃ t, exec (.lowHalfRead p page off) s = .next t ∧ t.out = .msg .readData [p, page, off, x.toNat % 2 ^ 32] [] :: s.out ∧
      t.regs = s.regs ∧ t.hbm = s.hbm ∧ t.queues = s.queues ∧ (rising s.latches = true → sget t.latches (latchKey p w off) = none)) ∧
    exec (.lowHalfRead p page R.HDR_PROGRESS) s = exec (.progressRead p page) s ∧
    (off % 4 ≠ 0 → s.pageType (homePage w) ≠ .absent → ∃ t, exec (.lowHalfRead p page off) s = .next t ∧ t.latches = s.latches ∧ t.hbm = s.hbm ∧
      t.queues = s.queues) ∧
    (∃ t, exec (.progressRead p page) s = .next t ∧
      t.out = .msg .readData [p, page, R.HDR_PROGRESS, s.readWord p w R.HDR_PROGRESS] [] :: s.out ∧ t.regs = s.regs ∧ t.hbm = s.hbm ∧
      sget t.latches (latchKey p w R.HDR_PROGRESS_POS) = some (BitVec.ofNat 64 (s.viewReg p w R.HDR_PROGRESS_POS))) ∧
    (s.pageType page = .core → s.mayRead p page R.CORE_SPRUE_STATUS = true →
      ∃ t, exec (.sprueStatusRead p page) s = .next t ∧
        t.out = .msg .readData [p, page, R.CORE_SPRUE_STATUS, s.readWord p page R.CORE_SPRUE_STATUS] [] :: s.out ∧
        t.fld page 0 F.CORE_SPRUE_STATUS_MIN_LEVEL = 16 ∧ t.hbm = s.hbm ∧ t.queues = s.queues ∧
        ∀ x b o, rkey x b o ≠ rkey page 0 F.CORE_SPRUE_STATUS_MIN_LEVEL.off → t.reg x b o = s.reg x b o)

/-- The sideband (R416, R417, R418): ENTDAA gives a controller without an address one, RSTDAA takes it away; an endpoint identity in range is taken; the alert address
answers only while ALERT# is low; sensor and PDR requests are answered; an event accepted leaves the queue. -/
def Obligations.SidebandIsAnswered : Prop :=
  ∀ s : State,
    let u := (s.bump pgSideband 0 R.SIDEBAND_MCTP_RX 1).bump pgSideband 0 R.SIDEBAND_MCTP_TX 1
    (∀ addr, s.power.inputOn = true → s.sb.i3c = false →
      exec (.entdaa addr) s = .next (({ s with sb := { s.sb with dynAddr := addr % 128, i3c := true } }).emit .i3c [s.boot.cfgSerial % 2 ^ 48])) ∧
    (∀ addr, s.sb.i3c = true → exec (.entdaa addr) s = .next s) ∧
    exec .rstdaa s = .next { s with sb := { s.sb with dynAddr := 0, i3c := false } } ∧
    exec .alertResponseAddress s = .next (if s.power.inputOn = true ∧ s.sb.i3c = false ∧ s.alertLow = true then s.emit .i3c [0x62] else s) ∧
    (∀ e r, s.sb.events = e :: r → exec .platformEventAccepted s = .next { s with sb := { s.sb with events := r } }) ∧
    (s.power.inputOn = true →
      (∀ eid, 1 ≤ eid → eid ≤ 254 → exec (.setEndpointId eid) s = .next (({ u with sb := { s.sb with eid := eid } }).emit .mctp [1, 0, eid])) ∧
      exec .getPdrRepositoryInfo s = .next (u.say [pmINFO, 0, 14]) ∧
      (∀ h, 14 < h → exec (.getPdr h) s = .next (u.say [pmPDR, 2])) ∧
      (∀ h, 1 ≤ h → h ≤ 14 → ∃ l, exec (.getPdr h) s = .next (u.say ([pmPDR, 0, h, if h = 14 then 0 else h + 1] ++ l))) ∧
      (∀ id, 1 ≤ id → id ≤ 9 → s.sensorValid id = true →
        exec (.getSensorReading id) s = .next (u.say [pmSENSOR, 0, id, 1, (BitVec.ofInt 64 (u.sensorValue id)).toNat, u.sensorLevel id])) ∧
      (∀ id, 10 ≤ id → id ≤ 12 → s.sensorValid id = true → exec (.getStateSensorReadings id) s = .next (u.say [pmSTATE, 0, id, 1, s.stateSensor id])) ∧
      (∀ id, 1 ≤ id → id ≤ 9 → s.sensorValid id = false → exec (.getSensorReading id) s = .next (u.say [pmSENSOR, 0, id, 0])) ∧
      ∀ eid, exec (.setEventReceiver eid) s = .next (({ u with sb := { s.sb with receiver := eid } }).say [pmRECEIVER, 0]))

/-- Snapshots (R338, R339, R344, R346): LOCAL_STAGE without a partner puts the image into the stage and ends; DIRECT without a pair that fits ends with its code; RESTORE of an
image that does not check ends with status 0x14; PAIR and FETCH towards a module out of reach end at once, and a FETCH begun asks for the image; a stream acknowledged shows STREAM_OK; a
checkpoint push writes the image, then the step, into the host's memory. -/
def Obligations.SnapshotsAct : Prop :=
  ∀ s : State,
    (∀ (q slot : Nat) (c : Cmd) (t : Task), s.starts q slot opSNAPSHOT c t →
      let u := s.begun q c t
      let k := s.begunCmd q c t
      let img := u.image c.part false
      (snMode c.desc = 1 → s.aloneIn q c = true → s.stageBusy c.part = false → snNone c.desc = true → img.length ≤ u.snapReg c.part R.SNAPSHOT_SNAP_STAGE_BYTES →
        ∃ v, exec (.localStage q slot) s = .next v ∧ v.hbm = (u.wrBytes c.part (u.snapReg c.part R.SNAPSHOT_SNAP_STAGE_BASE) img).hbm ∧
          (v.part c.part).snap.stageOk = true ∧ (v.part c.part).snap.stageLen = img.length ∧ (v.part c.part).paused = true) ∧
      (snMode c.desc = 2 → s.aloneIn q c = true → (snNone c.desc = true ∨ u.pairErr c.part (snPartner c.desc) = 1) →
        exec (.direct q slot) s = .next (u.snapFail q k 1)) ∧
      (snMode c.desc = 3 → s.aloneIn q c = true →
        let w := u.pause c.part
        let bs := blocksOf (w.rdBytes c.part (w.snapReg c.part R.SNAPSHOT_SNAP_STAGE_BASE) (w.snapReg c.part R.SNAPSHOT_SNAP_STAGE_BYTES))
        imageErr bs ≠ 0 → exec (.restore q slot) s = .next ((w.snapErr c.part (imageErr bs)).abortCmd q slot 0x14 0x21)) ∧
      (snMode c.desc = 4 → u.reaches (bitsOf (snPartner c.desc) 13 0) = false → exec (.pair q slot) s = .next (u.abortCmd q slot 0x10 0x0D)) ∧
      (snMode c.desc = 5 → s.stageBusy c.part = false → snNone c.desc = false → u.reaches (bitsOf (snPartner c.desc) 13 0) = true →
        u.authorised c.part (bitsOf (snPartner c.desc) 13 0) = true →
        exec (.fetch q slot) s = .next ((u.updSnap c.part (fun x => { x with fetch := some (q, slot, bitsOf (snPartner c.desc) 13 0, bitsOf (snPartner c.desc) 23 16) })).emit
          .snapFetch [bitsOf (snPartner c.desc) 13 0, bitsOf (snPartner c.desc) 23 16]))) ∧
    (∀ p x, s.xfers.find? (fun x => x.q = streamQ p && x.phase = 2 && !s.sendOpen x.q x.slot) = some x →
      ∃ t, exec (.snapStreamDone p) s = .next t ∧ t.fld pgSnapshot p F.SNAPSHOT_SNAP_STATUS_STREAM_OK = 1 ∧
        t.fld pgSnapshot p F.SNAPSHOT_SNAP_STATUS_STATE = 0 ∧ x ∉ t.xfers ∧ t.hbm = s.hbm) ∧
    (∀ p, (s.part p).snap.pushing = true →
      let img := s.rdBytes p (s.snapReg p R.SNAPSHOT_SNAP_STAGE_BASE) (s.part p).snap.stageLen
      let u := s.wrBytes p (2 ^ 63 + s.snapReg p R.SNAPSHOT_CKPT_BUF_BASE % 2 ^ 63) img
      ∃ t, exec (.ckptPushDone p) s = .next t ∧ (t.part p).snap.pushing = false ∧ t.fld pgSnapshot p F.SNAPSHOT_CKPT_STATUS_STATE = 0 ∧
        t.host = (u.wrLE p (2 ^ 63 + u.snapReg p R.SNAPSHOT_CKPT_DONE_ADDR % 2 ^ 63) 8 (s.part p).snap.stageStep).host)

/-- LINK_SEND and LINK_RECV (R234, R251, R252): a send to a module in reach opens its transfer and sends its request, one out of reach ends with status 0x10; a receive opens its
window and takes the requests that wait for it; requests turned away go again when their time comes; a receive out of time ends with status 0x10. -/
def Obligations.LinkTransfersStart : Prop :=
  ∀ s : State,
    (∀ (q slot : Nat) (c : Cmd) (t : Task),
      let u := s.begun q c t
      let k := s.begunCmd q c t
      let w := sendDest c.desc
      (s.starts q slot opLINK_SEND c t → u.reaches (memMod w) = false →
        exec (.linkSend q slot) s = .next ((u.linkErr (memMod w) c.part 1).abortCmd q slot 0x10 0x0D)) ∧
      (s.starts q slot opLINK_SEND c t → u.reaches (memMod w) = true →
        ∃ x : XferX, x.q = q ∧ x.slot = slot ∧ x.send = true ∧ x.mod = memMod w ∧ x.peerPart = memPart w ∧ x.handle = sendHandle c.desc ∧
          x.len = sendLength c.desc ∧ x.got = 0 ∧ x.phase = 1 ∧
          exec (.linkSend q slot) s = .next (({ u with xfers := u.xfers ++ [x] }).sendPk c.part 0 (u.sendReqPacket x) none)) ∧
      (s.starts q slot opLINK_RECV c t →
        ∃ x : XferX, x.q = q ∧ x.slot = slot ∧ x.send = false ∧ x.handle = sendHandle c.desc ∧ x.len = ((Form.ofCmd k q false).td 2).streamLen ∧ x.got = 0 ∧ x.phase = 1 ∧
          exec (.linkRecv q slot) s = .next (({ u with xfers := u.xfers ++ [x] }).matchReqs c.part (sendHandle c.desc) (u.reqs.length + 1)))) ∧
    (∀ p, (∀ x ∈ s.xfers, x.part = p → x.send = true → x.phase = 3 → s.timeNow < x.retryT) →
      (∀ c ∈ s.colls, c.part = p → c.retry ≠ [] → s.timeNow < c.retryT) → exec (.sendRetry p) s = .next s) ∧
    (∀ p x, s.xfers = [x] → x.part = p → x.send = true → x.phase = 3 → x.retryT ≤ s.timeNow → s.colls = [] →
      exec (.sendRetry p) s = .next ((s.putXfer x { x with phase := 1 }).sendPk p 0 (s.sendReqPacket x) none)) ∧
    (∀ (q slot : Nat) (c : Cmd) (t0 : Nat), s.cmd? q slot = some c → dOpcode c.desc = opLINK_RECV → dField c.desc 0x60 32 ≠ 0 → c.done = false →
      c.startT = some t0 → t0 + 1000 * dField c.desc 0x60 32 ≤ s.timeNow →
      ∀ x, s.xfers.find? (fun x => x.q = q && x.slot = slot) = some x →
      exec (.recvTimeout q slot) s = .next ((s.linkErr x.mod c.part 6).abortCmd q slot 0x10 0x0D))

/-- A step takes the command at the front of the queue and runs it on the rest (the model's queue of commands, DESIGN CHOICE log 12). -/
def Obligations.StepRunsTheFrontCommand : Prop :=
  ∀ (s : State) (c : Instr) (rest : List Instr), s.pending = c :: rest → step s = exec c { s with pending := rest }

/-- With no command waiting, one edge of the reference clock passes (the model's choice, DESIGN CHOICE log 13): TIME_NOW moves on by 10 ns and by what a relock gives, where it runs; no memory,
transfer, collective or error ring changes. -/
def Obligations.AnEmptyQueueLetsTimePass : Prop :=
  ∀ s : State, s.pending = [] →
    (s.timeRuns = false → step s = .next s) ∧
    (s.timeRuns = true → ∃ t, step s = .next t ∧ t.timeNow = (Int.ofNat s.timeNow + 10 + s.relockStep).toNat % 2 ^ 64 ∧
      t.holdover = s.holdover - s.relockStep ∧ t.hbm = s.hbm ∧ t.host = s.host ∧ t.flash = s.flash ∧ t.xfers = s.xfers ∧ t.colls = s.colls ∧
      t.rings = s.rings ∧ t.pending = [])

/-- Every step keeps every memory and table of the model in its canonical form. -/
def Obligations.StepKeepsTheTablesSound : Prop :=
  ∀ s t : State, s.stored = true → step s = .next t → t.stored = true

/-- After reset every memory and table is in its canonical form, and no command waits. -/
def Obligations.ResetIsSound : Prop := State.reset.stored = true ∧ State.reset.pending = []

/-- No command ends in a fault or a refusal: each answers a next state, with the same variant of the hardware and the same commands waiting. -/
def Obligations.EveryCommandCompletes : Prop :=
  ∀ (c : Instr) (s : State), ∃ t, exec c s = .next t ∧ t.pending = s.pending ∧ t.n8 = s.n8

/-- TIME_NOW is not written (R20, R21): a command changes it only where the module's power or reset begins it anew, and only REF_LOST and REF_RETURN change
whether the reference is there. -/
def Obligations.NoCommandSetsTime : Prop :=
  ∀ (c : Instr) (s t : State), exec c s = .next t →
    (t.timeNow ≠ s.timeNow → c = .perstRelease ∨ c = .inputOff) ∧
    (t.refPresent ≠ s.refPresent → c = .refLost ∨ c = .refReturn)

/-- Out of reset (R20, R264, R402): PERST# asserted, input present, no time, no partition, queue, transfer or collective; registers read their
reset values. The values the spec does not state are the model's (DESIGN CHOICE log 12). -/
def Obligations.ResetState : Prop :=
  let s := State.reset
  s.power.perst = true ∧ s.power.inputOn = true ∧ s.mainOn = false ∧ s.timeNow = 0 ∧ s.parts = [] ∧ s.queues = [] ∧ s.xfers = [] ∧ s.colls = [] ∧
    s.hbm = [] ∧ s.out = [] ∧
    (∀ page bank off, s.reg page bank off = regReset page bank off) ∧
    s.reg pgPower 0 R.POWER_CAP_W = 4000 ∧ s.reg (pgRouter 8) 0 R.ROUTER_ROUTE_STUCK_US = 10000

/-- HBM reservations are hard (R268): whatever a tenant's commands write, a byte of HBM that changes lies in one of the segments of the tenant's reservation, and what
a tenant reads is the same in two states that agree on the bytes of its segments. -/
def Obligations.ReservationsAreHard : Prop :=
  ∀ (s : State) (p : Nat), p ≠ 0 →
    (∀ (a : Nat) (l : List Byte) (x : Nat), (s.wrBytes p a l).hbmByte x ≠ s.hbmByte x →
      ∃ g ∈ s.segments p, g.1 ≤ x ∧ x < g.1 + g.2) ∧
    (∀ (u : State) (a n : Nat), u.regs = s.regs → u.host = s.host →
      (∀ g ∈ s.segments p, ∀ x, g.1 ≤ x → x < g.1 + g.2 → u.hbmByte x = s.hbmByte x) → u.rdBytes p a n = s.rdBytes p a n)

/-- Bytes written are read back (R267), and no other byte of the same memory changes: of the module's memory under partition 0, and of the host's. -/
def Obligations.WrittenBytesReadBack : Prop :=
  ∀ (s : State) (p a : Nat) (l : List Byte), Memory.wf 0 s.hbm = true → Memory.wf 0 s.host = true →
    ((∀ i, i < l.length → (s.hbmPhys 0 (a + i)).isSome = true) → a + l.length ≤ 2 ^ 63 →
      (s.wrBytes 0 a l).rdBytes 0 a l.length = l ∧
      ∀ b, b < a ∨ a + l.length ≤ b → (s.wrBytes 0 a l).rd1 0 b = s.rd1 0 b) ∧
    (2 ^ 63 ≤ a → a + l.length ≤ 2 ^ 64 →
      (s.wrBytes p a l).rdBytes p a l.length = l ∧ (s.wrBytes p a l).hbm = s.hbm ∧
      ∀ b, 2 ^ 63 ≤ b → b < 2 ^ 64 → b < a ∨ a + l.length ≤ b → (s.wrBytes p a l).rd1 p b = s.rd1 p b)

/-- What requests, messages and reads leave unchanged: everything but the registers, the sideband, what the module sends, and the model's counter of free values (DESIGN CHOICE log 2). -/
def Obligations.MessagesLeaveTheRest : Prop :=
  ∀ (c : Instr) (s t : State), isMessage c = true → exec c s = .next t →
    t = { s with regs := t.regs, sb := t.sb, out := t.out, fresh := t.fresh }

/-- What the commands of queues, engines, transfers and links leave unchanged: the flash, boot and firmware state, the sideband's, held reads, time and the reference, and
the notices of halted members. -/
def Obligations.WorkLeavesTheModuleAlone : Prop :=
  ∀ (c : Instr) (s t : State), isWork c = true → exec c s = .next t →
    t.flash = s.flash ∧ t.boot = s.boot ∧ t.fw = s.fw ∧ t.sb = s.sb ∧ t.latches = s.latches ∧ t.timeNow = s.timeNow ∧
      t.refPresent = s.refPresent ∧ t.holdover = s.holdover ∧ t.notices = s.notices

/-- Every byte of memory reads as before after a command that stores nothing: the module's HBM, the host's memory and the flash. -/
def Obligations.MemoryIsSpared : Prop :=
  ∀ (c : Instr) (s t : State), sparesMemory c = true → exec c s = .next t →
    (∀ a, t.hbmByte a = s.hbmByte a) ∧ (∀ a, mget 0 t.host a = mget 0 s.host a) ∧ (∀ a, mget 0xFF t.flash a = mget 0xFF s.flash a) ∧
      t.hbmBad = s.hbmBad

/-- Every queue, barrier, tile, transfer and collective stays as it is after a command that is about none of them. -/
def Obligations.QueuesAreSpared : Prop :=
  ∀ (c : Instr) (s t : State), sparesQueues c = true → exec c s = .next t →
    t.queues = s.queues ∧ t.bars = s.bars ∧ t.tiles = s.tiles ∧ t.xfers = s.xfers ∧ t.colls = s.colls ∧ t.reqs = s.reqs ∧
      t.earlyReady = s.earlyReady ∧ t.adm = s.adm

/-- Rounding to nearest (R72): the result is the integer nearest the exact value, and of two equally near the even one; an exact value is itself. -/
def Obligations.RoundingIsToNearestEven : Prop :=
  ∀ (neg : Bool) (num den : Nat), 0 < den →
    let r := roundNat .rne neg num den
    2 * (den * r) ≤ 2 * num + den ∧ 2 * num ≤ 2 * (den * r) + den ∧
      (2 * (den * r) = 2 * num + den ∨ 2 * num = 2 * (den * r) + den → r % 2 = 0) ∧ (num % den = 0 → den * r = num)

/-- The other roundings (R73, R78): each is one of the two integers about the exact value; towards zero never exceeds it, towards an infinity goes to that side, and a
stochastic one goes up for a draw large enough. -/
def Obligations.DirectedRoundingsTakeTheirSide : Prop :=
  ∀ (m : Rnd) (neg : Bool) (num den : Nat), 0 < den →
    let r := roundNat m neg num den
    num / den ≤ r ∧ r ≤ num / den + 1 ∧ (num % den = 0 → r = num / den) ∧ roundNat .rzero neg num den = num / den ∧
      (num % den ≠ 0 → roundNat .rup false num den = num / den + 1 ∧ roundNat .rdown false num den = num / den ∧
        roundNat .rup true num den = num / den ∧ roundNat .rdown true num den = num / den + 1) ∧
      ∀ n a b, a ≤ b → roundNat (.sr n a) neg num den ≤ roundNat (.sr n b) neg num den

/-- Reading an element and writing its value again gives its code (R55, R57, R68, R71), for every code that is not subnormal nor a NaN, in each floating-point
element format and in each rounding mode. -/
def Obligations.ElementsReadAndWriteBack : Prop :=
  ∀ f ∈ [fFP32, fFP16, fBF16, fE4M3, fE5M2], ∀ (m : Rnd) (b : Nat), b < 2 ^ f.bits → f.isSub b = false → f.decode b ≠ .nan →
    (f.narrow m (f.read b).1).1 = b

/-- An integer element written is in its symmetric range (R56, R61): INT8 codes read −127 to 127, INT4 and IB4 codes −7 to 7, and no IB2 code written is the reserved one; INT8 and
IB2 codes read as written. -/
def Obligations.IntegerElementsAreSymmetric : Prop :=
  (∀ (m : Rnd) (v : Val), -127 ≤ intOf 8 (narrowInt 8 m v).1 ∧ intOf 8 (narrowInt 8 m v).1 ≤ 127 ∧
    -7 ≤ intOf 4 (narrowInt 4 m v).1 ∧ intOf 4 (narrowInt 4 m v).1 ≤ 7) ∧
  (∀ (t : Q) (m : Nat → Rnd) (vals : List Val), ∀ b ∈ (encodeBlock fmtIB2 t m vals).codes, b = 0 ∨ b = 1 ∨ b = 3) ∧
  (∀ i : Int, -128 ≤ i → i ≤ 127 → elemVal fmtINT8 (intBits 8 i) = (.fin (Q.ofInt i), 0)) ∧
  (elemVal fmtIB2 0, elemVal fmtIB2 1, elemVal fmtIB2 3, elemVal fmtIB2 2) =
    ((.fin (Q.zero false), 0), (.fin Q.one, 0), (.fin Q.one.negate, 0), (.fin (Q.zero false), 1))

/-- Encoding a block (R65): a block with a NaN or an infinity is written with scale code 0xFF and zeros; one of zeros with 0x00; otherwise the scale code is the smallest of 0x01 to
0xFE whose value times the tensor scale and EMAX reaches the block's max-abs, and 0xFE where none does; and every block has as many codes as values. -/
def Obligations.BlocksAreEncoded : Prop :=
  ∀ (c : Nat) (t : Q) (m : Nat → Rnd) (vals : List Val),
    let b := encodeBlock c t m vals
    let a := maxAbs (vals.map Val.q)
    b.codes.length = vals.length ∧
    ((∃ v ∈ vals, v.isFin = false) → b.scale = 0xFF ∧ (∀ x ∈ b.codes, x = 0) ∧ b.kind = .nonfinite) ∧
    ((∀ v ∈ vals, v.isFin = true) → a.num = 0 → b.scale = 0 ∧ (∀ x ∈ b.codes, x = 0) ∧ b.kind = .zero) ∧
    ((∀ v ∈ vals, v.isFin = true) → a.num ≠ 0 → b.kind ≠ .flushed →
      (∀ k d, 1 ≤ k → k ≤ 254 → k < b.scale → ue5m3 k = some d → a.le ((d.mul t).mul (fmtEmax c)) = false) ∧ 1 ≤ b.scale ∧ b.scale ≤ 254 ∧
      (b.kind ≠ .saturated → ∃ d, ue5m3 b.scale = some d ∧ a.le ((d.mul t).mul (fmtEmax c)) = true))

/-- The worked example of R65: 5.0, −1.0, 0.3 and 2.2 before zeros become the FB4 codes and the scale byte that the rule lists. -/
def Obligations.BlockExample : Prop :=
  let v := [Q.ofNat 5, (Q.ofNat 1).negate, (Q.ofNat 3).div (Q.ofNat 10), (Q.ofNat 22).div (Q.ofNat 10)] ++ List.replicate 12 (Q.zero false)
  let b := encodeBlock fmtFB4 Q.one (fun _ => .rne) (v.map Val.fin)
  b.scale = 0x76 ∧ b.codes.take 4 = [0x7, 0xA, 0x1, 0x5]

/-- A column sum does not depend on the order of its products (R81, R89). -/
def Obligations.ColumnSumsHaveNoOrder : Prop :=
  ∀ l k : List Prod, l.Perm k → columnSum l = columnSum k

/-- The division of elements over members (R431): with n members each takes one contiguous range in ascending order, of ⌊E ÷ n⌋ elements and the first E mod n ranges one more, and
element e belongs to the member whose range holds it. -/
def Obligations.SharesDivideTheElements : Prop :=
  ∀ elems n : Nat, 0 < n →
    shareStart elems n 0 = 0 ∧ shareStart elems n n = elems ∧
    (∀ k, k < n → shareStart elems n (k + 1) = shareStart elems n k + elems / n + (if k < elems % n then 1 else 0)) ∧
    ∀ e, e < elems → shareOf elems n e < n ∧ shareStart elems n (shareOf elems n e) ≤ e ∧ e < shareStart elems n (shareOf elems n e + 1)

/-- The declared range of a described slot (R217) runs from ADDR + Σ min(0, STRIDE × (EXTENT − 1)) to ADDR + row bytes − 1 + Σ max(0, STRIDE × (EXTENT − 1)), whole, with the bytes
that strides skip: every byte of every row lies in it, and its two ends are bytes of rows. -/
def Obligations.DeclaredRangeSpansTheRows : Prop :=
  ∀ t : TD, (∀ i, 1 ≤ t.e i) → 1 ≤ t.rowBytes →
    let term := fun (d : Nat) => t.st (d + 1) * ((t.e (d + 1) : Int) - 1)
    let at_ := fun (b : Nat) (j : Nat → Nat) => (b : Int) + ((List.range 5).map (fun d => t.st (d + 1) * (j d : Int))).sum
    t.lowOff = ((List.range 5).map (fun d => min 0 (term d))).sum ∧
    t.highOff = (t.rowBytes : Int) - 1 + ((List.range 5).map (fun d => max 0 (term d))).sum ∧
    t.ranges.head? = some (rangeOf t.base t.lowOff t.highOff) ∧
    (0 ≤ ((t.base % 2 ^ 63 : Nat) : Int) + t.lowOff →
      (((rangeOf t.base t.lowOff t.highOff).lo : Nat) : Int) = ((t.base % 2 ^ 63 : Nat) : Int) + t.lowOff ∧
      (((rangeOf t.base t.lowOff t.highOff).hi : Nat) : Int) = ((t.base % 2 ^ 63 : Nat) : Int) + t.highOff) ∧
    (∀ b j, b < t.rowBytes → (∀ d, d < 5 → j d < t.e (d + 1)) → t.lowOff ≤ at_ b j ∧ at_ b j ≤ t.highOff) ∧
    (∃ j, (∀ d, d < 5 → j d < t.e (d + 1)) ∧ at_ 0 j = t.lowOff) ∧ ∃ j, (∀ d, d < 5 → j d < t.e (d + 1)) ∧ at_ (t.rowBytes - 1) j = t.highOff

/-- Links and their pages (R237): link n is LINK_k of I/O die d with n = 16 × d + k, on the page of die 8 + d, cluster 0, unit k; the CX-1260-M12 has links 0 to 63 and the CX-1260-N8 has links 0 to 95. -/
def Obligations.LinksHaveTheirPages : Prop :=
  (∀ s : State, s.linkCount = if s.n8 then 96 else 64) ∧
  ∀ d k, k < 16 → linkPage (16 * d + k) = pageNum (8 + d) 0 k ∧
    (d < 6 → assignedType (linkPage (16 * d + k)) = .link ∧ linkOf (linkPage (16 * d + k)) = 16 * d + k)

/-- ALERT# (R418): asserted while a PLDM event remains that the receiver has not accepted, and in Aux while the shutdown cause is not none, and not otherwise; on SMBus the module
answers the Alert Response Address with 0x62 and keeps ALERT# asserted. -/
def Obligations.AlertIsAsserted : Prop :=
  ∀ s : State,
    (s.alertLow = true ↔ s.sb.events ≠ [] ∨ (s.power.state = 1 ∧ s.power.cause ≠ 0)) ∧
    (s.power.inputOn = true → s.sb.i3c = false → s.alertLow = true →
      ∃ t, exec .alertResponseAddress s = .next t ∧ t.out = .msg .i3c [0x62] [] :: s.out ∧ t.alertLow = true) ∧
    (∀ e f r, s.sb.events = e :: f :: r → ∃ t, exec .platformEventAccepted s = .next t ∧ t.alertLow = true)

/-- A partition's register view (R52, R53): view page 0 is the partition's group page; view page 1 + i is the group page of its owned cluster with local
index i and reads with the partition-local path; an aperture takes writes for the page that its APT_SEL names and reads as that page does. -/
def Obligations.ViewsShowTheirTargets : Prop :=
  ∀ (s : State) (p off size : Nat) (v : W64),
    exec (.registerWrite p viewBase off size v) s = exec (.registerWrite p pgPackage off size v) s ∧
    (∀ i g, (s.clustersOf p)[i]? = some g → i < 160 → g < 160 →
      exec (.registerWrite p (viewBase + 1 + i) off size v) s = exec (.registerWrite p (clusterPage g uGroup) off size v) s ∧
      (s.ready = true → sget s.latches (latchKey p (clusterPage g uGroup) R.HDR_PAGE_ID) = none →
        ∃ t, exec (.lowHalfRead p (viewBase + 1 + i) R.HDR_PAGE_ID) s = .next t ∧
          t.out = .msg .readData [p, viewBase + 1 + i, R.HDR_PAGE_ID, 0x07003F81 + i / 40 * 2 ^ 20 + i % 40 * 2 ^ 14] [] :: s.out)) ∧
    (∀ n, n < 32 →
      let a := s.reg pgPackage p (R.GRP_APT_SEL_0 + 4 * n) % 2 ^ 17
      exec (.registerWrite p (viewBase + 192 + n) off size v) s = exec (.registerWrite p a off size v) s ∧
      exec (.stagedWrite p (viewBase + 192 + n) off size v) s = exec (.stagedWrite p a off size v) s ∧
      s.readView p (viewBase + 192 + n) off = s.readWord p a off)
end

