-- ==== Sys2Proof/Laws/Store.lean ====
section
/-! SUPPORT. Laws of the sparse tables and memories: a read after a write, and that every operation keeps the canonical form. -/

namespace Sys2Proof.Machine

variable {α β : Type}

/-- Every key of a table is above `k`. -/
def above (k : Nat) (m : Store α) : Prop := ∀ e ∈ m, k < e.1

theorem rising_cons {e : Nat × α} {m : Store α} : rising (e :: m) = true ↔ above e.1 m ∧ rising m = true := by
  induction m generalizing e with
  | nil => simp [rising, above]
  | cons f r ih =>
    obtain ⟨a, v⟩ := e
    obtain ⟨b, w⟩ := f
    simp only [rising, Bool.and_eq_true, decide_eq_true_eq]
    constructor
    · rintro ⟨h, hr⟩
      refine ⟨?_, hr⟩
      intro x hx
      rcases List.mem_cons.1 hx with rfl | hx
      · exact h
      · exact lt_trans h ((ih.1 hr).1 x hx)
    · rintro ⟨h, hr⟩
      exact ⟨h _ (List.mem_cons_self ..), hr⟩

theorem above.mono {j k : Nat} {m : Store α} (h : above k m) (hj : j ≤ k) : above j m := fun e he => lt_of_le_of_lt hj (h e he)

theorem sget_above {k : Nat} {m : Store α} (h : above k m) {j : Nat} (hj : j ≤ k) : sget m j = none := by
  induction m with
  | nil => rfl
  | cons e r ih =>
    obtain ⟨a, v⟩ := e
    have ha : k < a := h (a, v) (List.mem_cons_self ..)
    simp [sget, show ¬ a = j by omega, ih fun e he => h e (List.mem_cons_of_mem _ he)]

theorem above_sset {k j : Nat} {v : α} {m : Store α} (h : above k m) (hj : k < j) : above k (sset m j v) := by
  induction m with
  | nil => intro e he; simp [sset] at he; subst he; exact hj
  | cons f r ih =>
    obtain ⟨a, w⟩ := f
    have ha : k < a := h (a, w) (List.mem_cons_self ..)
    have hr : above k r := fun e he => h e (List.mem_cons_of_mem _ he)
    intro e he
    simp only [sset] at he
    split at he
    · rcases List.mem_cons.1 he with rfl | he
      · exact hj
      · exact h e he
    · split at he
      · rcases List.mem_cons.1 he with rfl | he
        · exact hj
        · exact hr e he
      · rcases List.mem_cons.1 he with rfl | he
        · exact ha
        · exact ih hr e he

theorem rising_sset {m : Store α} (h : rising m = true) (k : Nat) (v : α) : rising (sset m k v) = true := by
  induction m with
  | nil => simp [sset, rising]
  | cons e r ih =>
    obtain ⟨a, w⟩ := e
    obtain ⟨hu, hr⟩ := rising_cons.1 h
    simp only [sset]
    split
    · next hk => exact rising_cons.2 ⟨fun x hx => by
        rcases List.mem_cons.1 hx with rfl | hx
        · exact hk
        · exact lt_trans hk (hu x hx), h⟩
    · split
      · next hk => subst hk; exact rising_cons.2 ⟨hu, hr⟩
      · next h1 h2 => exact rising_cons.2 ⟨above_sset hu (by simp only at *; omega), ih hr⟩

theorem rising_sublist {m n : Store α} (h : rising m = true) (hs : n.Sublist m) : rising n = true := by
  induction hs with
  | slnil => exact h
  | cons a _ ih => exact ih (rising_cons.1 h).2
  | cons_cons a hs ih => exact rising_cons.2 ⟨fun e he => (rising_cons.1 h).1 e (hs.subset he), ih (rising_cons.1 h).2⟩

theorem rising_filter {m : Store α} (h : rising m = true) (f : Nat × α → Bool) : rising (m.filter f) = true :=
  rising_sublist h List.filter_sublist

/-- Changing values keeps the keys. -/
theorem rising_map {m : Store α} (h : rising m = true) (f : Nat × α → Nat × β) (hf : ∀ e, (f e).1 = e.1) : rising (m.map f) = true := by
  induction m with
  | nil => rfl
  | cons e r ih =>
    obtain ⟨hu, hr⟩ := rising_cons.1 h
    refine rising_cons.2 ⟨fun x hx => ?_, ih hr⟩
    obtain ⟨y, hy, rfl⟩ := List.mem_map.1 hx
    rw [hf, hf]
    exact hu y hy

theorem sdel_sublist (m : Store α) (k : Nat) : (sdel m k).Sublist m := by
  induction m with
  | nil => exact List.Sublist.slnil
  | cons e r ih =>
    obtain ⟨a, w⟩ := e
    simp only [sdel]
    split
    · exact List.sublist_cons_self ..
    · exact List.Sublist.cons_cons _ ih

theorem rising_sdel {m : Store α} (h : rising m = true) (k : Nat) : rising (sdel m k) = true :=
  rising_sublist h (sdel_sublist m k)

/-- A read after a write to the same key gives the value written. -/
@[simp] theorem sget_sset_self (m : Store α) (k : Nat) (v : α) : sget (sset m k v) k = some v := by
  induction m with
  | nil => simp [sset, sget]
  | cons e r ih =>
    obtain ⟨a, w⟩ := e
    simp only [sset]
    split
    · simp [sget]
    · split
      · simp [sget]
      · next h1 h2 => simp [sget, Ne.symm h2, ih]

/-- A write leaves every other key alone. -/
theorem sget_sset_ne {m : Store α} {j k : Nat} (v : α) (h : j ≠ k) : sget (sset m k v) j = sget m j := by
  induction m with
  | nil => simp [sset, sget, Ne.symm h]
  | cons e r ih =>
    obtain ⟨a, w⟩ := e
    simp only [sset]
    split
    · simp [sget, Ne.symm h]
    · split
      · next h1 h2 => subst h2; simp [sget, Ne.symm h]
      · simp only [sget, ih]

/-! ### Memories -/

theorem wf_iff {d : Byte} {m : List Host.Cell} : Memory.wf d m = true ↔ rising m = true ∧ ∀ c ∈ m, c.2 ≠ d := by
  simp [Memory.wf, List.all_eq_true]

theorem mem_sset {m : Store α} {k : Nat} {v : α} {c : Nat × α} (h : c ∈ sset m k v) : c = (k, v) ∨ c ∈ m := by
  induction m with
  | nil => simp [sset] at h; exact .inl h
  | cons e r ih =>
    obtain ⟨a, w⟩ := e
    simp only [sset] at h
    split at h
    · rcases List.mem_cons.1 h with h | h
      · exact .inl h
      · exact .inr h
    · split at h
      · rcases List.mem_cons.1 h with h | h
        · exact .inl h
        · exact .inr (List.mem_cons_of_mem _ h)
      · rcases List.mem_cons.1 h with h | h
        · exact .inr (h ▸ List.mem_cons_self ..)
        · rcases ih h with h | h
          · exact .inl h
          · exact .inr (List.mem_cons_of_mem _ h)

theorem wf_sublist {d : Byte} {m n : List Host.Cell} (h : Memory.wf d m = true) (hs : n.Sublist m) : Memory.wf d n = true :=
  wf_iff.2 ⟨rising_sublist (wf_iff.1 h).1 hs, fun c hc => (wf_iff.1 h).2 c (hs.subset hc)⟩

theorem wf_filter {d : Byte} {m : List Host.Cell} (h : Memory.wf d m = true) (f : Host.Cell → Bool) : Memory.wf d (m.filter f) = true :=
  wf_sublist h List.filter_sublist

theorem wf_mset {d : Byte} {m : List Host.Cell} (h : Memory.wf d m = true) (a : Nat) (b : Byte) : Memory.wf d (mset d m a b) = true := by
  unfold mset
  split
  · exact wf_sublist h (sdel_sublist m a)
  · next hb =>
    refine wf_iff.2 ⟨rising_sset (wf_iff.1 h).1 _ _, fun c hc => ?_⟩
    rcases mem_sset hc with rfl | hc
    · simpa using hb
    · exact (wf_iff.1 h).2 c hc

theorem wf_msetBytes {d : Byte} (l : List Byte) {m : List Host.Cell} (h : Memory.wf d m = true) (a : Nat) :
    Memory.wf d (msetBytes d m a l) = true := by
  induction l generalizing m a with
  | nil => exact h
  | cons b r ih => exact ih (wf_mset h a b) (a + 1)

theorem sget_sdel_ne {m : Store α} {j k : Nat} (h : j ≠ k) : sget (sdel m k) j = sget m j := by
  induction m with
  | nil => rfl
  | cons e r ih =>
    obtain ⟨a, w⟩ := e
    simp only [sdel]
    split
    · next h1 => subst h1; simp [sget, Ne.symm h]
    · simp only [sget, ih]

theorem sget_sdel_self {m : Store α} {k : Nat} (hm : rising m = true) : sget (sdel m k) k = none := by
  induction m with
  | nil => rfl
  | cons e r ih =>
    obtain ⟨a, w⟩ := e
    obtain ⟨hu, hr⟩ := rising_cons.1 hm
    simp only [sdel]
    split
    · next h1 => subst h1; exact sget_above hu (le_refl _)
    · next h1 => simp only [sget]; rw [if_neg h1, ih hr]

/-- A byte read after it is written is the byte written, in a memory in canonical form. -/
theorem mget_mset_self {d : Byte} {m : List Host.Cell} (h : Memory.wf d m = true) (a : Nat) (b : Byte) : mget d (mset d m a b) a = b := by
  unfold mget mset
  split
  · next hb => rw [sget_sdel_self (wf_iff.1 h).1, hb]; rfl
  · simp

/-- Writing one byte leaves every other byte alone. -/
theorem mget_mset_ne {d : Byte} {m : List Host.Cell} {a c : Nat} (b : Byte) (hc : c ≠ a) :
    mget d (mset d m a b) c = mget d m c := by
  unfold mget mset
  split
  · rw [sget_sdel_ne hc]
  · rw [sget_sset_ne b hc]

end Sys2Proof.Machine
end

