-- ==== Sys2Proof/Laws/State.lean ====
section
/-! SUPPORT. What each basic update of the state does to each of its fields, and that a table read after a write gives the value
written and keeps every other entry. -/

namespace Sys2Proof.Machine

/-! ### setReg -/

@[simp] theorem State.setReg_n8 (s : State) (page bank off v : Nat) : (s.setReg page bank off v).n8 = s.n8 := rfl
@[simp] theorem State.setReg_timeNow (s : State) (page bank off v : Nat) : (s.setReg page bank off v).timeNow = s.timeNow := rfl
@[simp] theorem State.setReg_refPresent (s : State) (page bank off v : Nat) : (s.setReg page bank off v).refPresent = s.refPresent := rfl
@[simp] theorem State.setReg_holdover (s : State) (page bank off v : Nat) : (s.setReg page bank off v).holdover = s.holdover := rfl
@[simp] theorem State.setReg_regs (s : State) (page bank off v : Nat) : (s.setReg page bank off v).regs = sset s.regs (rkey page bank off) (BitVec.ofNat 64 v) := rfl
@[simp] theorem State.setReg_shadows (s : State) (page bank off v : Nat) : (s.setReg page bank off v).shadows = s.shadows := rfl
@[simp] theorem State.setReg_latches (s : State) (page bank off v : Nat) : (s.setReg page bank off v).latches = s.latches := rfl
@[simp] theorem State.setReg_hbm (s : State) (page bank off v : Nat) : (s.setReg page bank off v).hbm = s.hbm := rfl
@[simp] theorem State.setReg_hbmBad (s : State) (page bank off v : Nat) : (s.setReg page bank off v).hbmBad = s.hbmBad := rfl
@[simp] theorem State.setReg_flash (s : State) (page bank off v : Nat) : (s.setReg page bank off v).flash = s.flash := rfl
@[simp] theorem State.setReg_host (s : State) (page bank off v : Nat) : (s.setReg page bank off v).host = s.host := rfl
@[simp] theorem State.setReg_queues (s : State) (page bank off v : Nat) : (s.setReg page bank off v).queues = s.queues := rfl
@[simp] theorem State.setReg_parts (s : State) (page bank off v : Nat) : (s.setReg page bank off v).parts = s.parts := rfl
@[simp] theorem State.setReg_cores (s : State) (page bank off v : Nat) : (s.setReg page bank off v).cores = s.cores := rfl
@[simp] theorem State.setReg_clusters (s : State) (page bank off v : Nat) : (s.setReg page bank off v).clusters = s.clusters := rfl
@[simp] theorem State.setReg_adm (s : State) (page bank off v : Nat) : (s.setReg page bank off v).adm = s.adm := rfl
@[simp] theorem State.setReg_bars (s : State) (page bank off v : Nat) : (s.setReg page bank off v).bars = s.bars := rfl
@[simp] theorem State.setReg_tiles (s : State) (page bank off v : Nat) : (s.setReg page bank off v).tiles = s.tiles := rfl
@[simp] theorem State.setReg_rings (s : State) (page bank off v : Nat) : (s.setReg page bank off v).rings = s.rings := rfl
@[simp] theorem State.setReg_faultTimes (s : State) (page bank off v : Nat) : (s.setReg page bank off v).faultTimes = s.faultTimes := rfl
@[simp] theorem State.setReg_retireFailed (s : State) (page bank off v : Nat) : (s.setReg page bank off v).retireFailed = s.retireFailed := rfl
@[simp] theorem State.setReg_links (s : State) (page bank off v : Nat) : (s.setReg page bank off v).links = s.links := rfl
@[simp] theorem State.setReg_xfers (s : State) (page bank off v : Nat) : (s.setReg page bank off v).xfers = s.xfers := rfl
@[simp] theorem State.setReg_reqs (s : State) (page bank off v : Nat) : (s.setReg page bank off v).reqs = s.reqs := rfl
@[simp] theorem State.setReg_colls (s : State) (page bank off v : Nat) : (s.setReg page bank off v).colls = s.colls := rfl
@[simp] theorem State.setReg_earlyReady (s : State) (page bank off v : Nat) : (s.setReg page bank off v).earlyReady = s.earlyReady := rfl
@[simp] theorem State.setReg_routed (s : State) (page bank off v : Nat) : (s.setReg page bank off v).routed = s.routed := rfl
@[simp] theorem State.setReg_notices (s : State) (page bank off v : Nat) : (s.setReg page bank off v).notices = s.notices := rfl
@[simp] theorem State.setReg_noticeSeq (s : State) (page bank off v : Nat) : (s.setReg page bank off v).noticeSeq = s.noticeSeq := rfl
@[simp] theorem State.setReg_noticeT (s : State) (page bank off v : Nat) : (s.setReg page bank off v).noticeT = s.noticeT := rfl
@[simp] theorem State.setReg_timeX (s : State) (page bank off v : Nat) : (s.setReg page bank off v).timeX = s.timeX := rfl
@[simp] theorem State.setReg_dbg (s : State) (page bank off v : Nat) : (s.setReg page bank off v).dbg = s.dbg := rfl
@[simp] theorem State.setReg_boot (s : State) (page bank off v : Nat) : (s.setReg page bank off v).boot = s.boot := rfl
@[simp] theorem State.setReg_fw (s : State) (page bank off v : Nat) : (s.setReg page bank off v).fw = s.fw := rfl
@[simp] theorem State.setReg_power (s : State) (page bank off v : Nat) : (s.setReg page bank off v).power = s.power := rfl
@[simp] theorem State.setReg_sb (s : State) (page bank off v : Nat) : (s.setReg page bank off v).sb = s.sb := rfl
@[simp] theorem State.setReg_cxl (s : State) (page bank off v : Nat) : (s.setReg page bank off v).cxl = s.cxl := rfl
@[simp] theorem State.setReg_out (s : State) (page bank off v : Nat) : (s.setReg page bank off v).out = s.out := rfl
@[simp] theorem State.setReg_fresh (s : State) (page bank off v : Nat) : (s.setReg page bank off v).fresh = s.fresh := rfl
@[simp] theorem State.setReg_pending (s : State) (page bank off v : Nat) : (s.setReg page bank off v).pending = s.pending := rfl

/-! ### freshen -/

@[simp] theorem State.freshen_n8 (s : State) : (s.freshen).n8 = s.n8 := rfl
@[simp] theorem State.freshen_timeNow (s : State) : (s.freshen).timeNow = s.timeNow := rfl
@[simp] theorem State.freshen_refPresent (s : State) : (s.freshen).refPresent = s.refPresent := rfl
@[simp] theorem State.freshen_holdover (s : State) : (s.freshen).holdover = s.holdover := rfl
@[simp] theorem State.freshen_regs (s : State) : (s.freshen).regs = s.regs := rfl
@[simp] theorem State.freshen_shadows (s : State) : (s.freshen).shadows = s.shadows := rfl
@[simp] theorem State.freshen_latches (s : State) : (s.freshen).latches = s.latches := rfl
@[simp] theorem State.freshen_hbm (s : State) : (s.freshen).hbm = s.hbm := rfl
@[simp] theorem State.freshen_hbmBad (s : State) : (s.freshen).hbmBad = s.hbmBad := rfl
@[simp] theorem State.freshen_flash (s : State) : (s.freshen).flash = s.flash := rfl
@[simp] theorem State.freshen_host (s : State) : (s.freshen).host = s.host := rfl
@[simp] theorem State.freshen_queues (s : State) : (s.freshen).queues = s.queues := rfl
@[simp] theorem State.freshen_parts (s : State) : (s.freshen).parts = s.parts := rfl
@[simp] theorem State.freshen_cores (s : State) : (s.freshen).cores = s.cores := rfl
@[simp] theorem State.freshen_clusters (s : State) : (s.freshen).clusters = s.clusters := rfl
@[simp] theorem State.freshen_adm (s : State) : (s.freshen).adm = s.adm := rfl
@[simp] theorem State.freshen_bars (s : State) : (s.freshen).bars = s.bars := rfl
@[simp] theorem State.freshen_tiles (s : State) : (s.freshen).tiles = s.tiles := rfl
@[simp] theorem State.freshen_rings (s : State) : (s.freshen).rings = s.rings := rfl
@[simp] theorem State.freshen_faultTimes (s : State) : (s.freshen).faultTimes = s.faultTimes := rfl
@[simp] theorem State.freshen_retireFailed (s : State) : (s.freshen).retireFailed = s.retireFailed := rfl
@[simp] theorem State.freshen_links (s : State) : (s.freshen).links = s.links := rfl
@[simp] theorem State.freshen_xfers (s : State) : (s.freshen).xfers = s.xfers := rfl
@[simp] theorem State.freshen_reqs (s : State) : (s.freshen).reqs = s.reqs := rfl
@[simp] theorem State.freshen_colls (s : State) : (s.freshen).colls = s.colls := rfl
@[simp] theorem State.freshen_earlyReady (s : State) : (s.freshen).earlyReady = s.earlyReady := rfl
@[simp] theorem State.freshen_routed (s : State) : (s.freshen).routed = s.routed := rfl
@[simp] theorem State.freshen_notices (s : State) : (s.freshen).notices = s.notices := rfl
@[simp] theorem State.freshen_noticeSeq (s : State) : (s.freshen).noticeSeq = s.noticeSeq := rfl
@[simp] theorem State.freshen_noticeT (s : State) : (s.freshen).noticeT = s.noticeT := rfl
@[simp] theorem State.freshen_timeX (s : State) : (s.freshen).timeX = s.timeX := rfl
@[simp] theorem State.freshen_dbg (s : State) : (s.freshen).dbg = s.dbg := rfl
@[simp] theorem State.freshen_boot (s : State) : (s.freshen).boot = s.boot := rfl
@[simp] theorem State.freshen_fw (s : State) : (s.freshen).fw = s.fw := rfl
@[simp] theorem State.freshen_power (s : State) : (s.freshen).power = s.power := rfl
@[simp] theorem State.freshen_sb (s : State) : (s.freshen).sb = s.sb := rfl
@[simp] theorem State.freshen_cxl (s : State) : (s.freshen).cxl = s.cxl := rfl
@[simp] theorem State.freshen_out (s : State) : (s.freshen).out = s.out := rfl
@[simp] theorem State.freshen_fresh (s : State) : (s.freshen).fresh = s.fresh + 1 := rfl
@[simp] theorem State.freshen_pending (s : State) : (s.freshen).pending = s.pending := rfl

/-! ### setPart -/

@[simp] theorem State.setPart_n8 (s : State) (p : Nat) (x : PartX) : (s.setPart p x).n8 = s.n8 := rfl
@[simp] theorem State.setPart_timeNow (s : State) (p : Nat) (x : PartX) : (s.setPart p x).timeNow = s.timeNow := rfl
@[simp] theorem State.setPart_refPresent (s : State) (p : Nat) (x : PartX) : (s.setPart p x).refPresent = s.refPresent := rfl
@[simp] theorem State.setPart_holdover (s : State) (p : Nat) (x : PartX) : (s.setPart p x).holdover = s.holdover := rfl
@[simp] theorem State.setPart_regs (s : State) (p : Nat) (x : PartX) : (s.setPart p x).regs = s.regs := rfl
@[simp] theorem State.setPart_shadows (s : State) (p : Nat) (x : PartX) : (s.setPart p x).shadows = s.shadows := rfl
@[simp] theorem State.setPart_latches (s : State) (p : Nat) (x : PartX) : (s.setPart p x).latches = s.latches := rfl
@[simp] theorem State.setPart_hbm (s : State) (p : Nat) (x : PartX) : (s.setPart p x).hbm = s.hbm := rfl
@[simp] theorem State.setPart_hbmBad (s : State) (p : Nat) (x : PartX) : (s.setPart p x).hbmBad = s.hbmBad := rfl
@[simp] theorem State.setPart_flash (s : State) (p : Nat) (x : PartX) : (s.setPart p x).flash = s.flash := rfl
@[simp] theorem State.setPart_host (s : State) (p : Nat) (x : PartX) : (s.setPart p x).host = s.host := rfl
@[simp] theorem State.setPart_queues (s : State) (p : Nat) (x : PartX) : (s.setPart p x).queues = s.queues := rfl
@[simp] theorem State.setPart_parts (s : State) (p : Nat) (x : PartX) : (s.setPart p x).parts = sset s.parts p x := rfl
@[simp] theorem State.setPart_cores (s : State) (p : Nat) (x : PartX) : (s.setPart p x).cores = s.cores := rfl
@[simp] theorem State.setPart_clusters (s : State) (p : Nat) (x : PartX) : (s.setPart p x).clusters = s.clusters := rfl
@[simp] theorem State.setPart_adm (s : State) (p : Nat) (x : PartX) : (s.setPart p x).adm = s.adm := rfl
@[simp] theorem State.setPart_bars (s : State) (p : Nat) (x : PartX) : (s.setPart p x).bars = s.bars := rfl
@[simp] theorem State.setPart_tiles (s : State) (p : Nat) (x : PartX) : (s.setPart p x).tiles = s.tiles := rfl
@[simp] theorem State.setPart_rings (s : State) (p : Nat) (x : PartX) : (s.setPart p x).rings = s.rings := rfl
@[simp] theorem State.setPart_faultTimes (s : State) (p : Nat) (x : PartX) : (s.setPart p x).faultTimes = s.faultTimes := rfl
@[simp] theorem State.setPart_retireFailed (s : State) (p : Nat) (x : PartX) : (s.setPart p x).retireFailed = s.retireFailed := rfl
@[simp] theorem State.setPart_links (s : State) (p : Nat) (x : PartX) : (s.setPart p x).links = s.links := rfl
@[simp] theorem State.setPart_xfers (s : State) (p : Nat) (x : PartX) : (s.setPart p x).xfers = s.xfers := rfl
@[simp] theorem State.setPart_reqs (s : State) (p : Nat) (x : PartX) : (s.setPart p x).reqs = s.reqs := rfl
@[simp] theorem State.setPart_colls (s : State) (p : Nat) (x : PartX) : (s.setPart p x).colls = s.colls := rfl
@[simp] theorem State.setPart_earlyReady (s : State) (p : Nat) (x : PartX) : (s.setPart p x).earlyReady = s.earlyReady := rfl
@[simp] theorem State.setPart_routed (s : State) (p : Nat) (x : PartX) : (s.setPart p x).routed = s.routed := rfl
@[simp] theorem State.setPart_notices (s : State) (p : Nat) (x : PartX) : (s.setPart p x).notices = s.notices := rfl
@[simp] theorem State.setPart_noticeSeq (s : State) (p : Nat) (x : PartX) : (s.setPart p x).noticeSeq = s.noticeSeq := rfl
@[simp] theorem State.setPart_noticeT (s : State) (p : Nat) (x : PartX) : (s.setPart p x).noticeT = s.noticeT := rfl
@[simp] theorem State.setPart_timeX (s : State) (p : Nat) (x : PartX) : (s.setPart p x).timeX = s.timeX := rfl
@[simp] theorem State.setPart_dbg (s : State) (p : Nat) (x : PartX) : (s.setPart p x).dbg = s.dbg := rfl
@[simp] theorem State.setPart_boot (s : State) (p : Nat) (x : PartX) : (s.setPart p x).boot = s.boot := rfl
@[simp] theorem State.setPart_fw (s : State) (p : Nat) (x : PartX) : (s.setPart p x).fw = s.fw := rfl
@[simp] theorem State.setPart_power (s : State) (p : Nat) (x : PartX) : (s.setPart p x).power = s.power := rfl
@[simp] theorem State.setPart_sb (s : State) (p : Nat) (x : PartX) : (s.setPart p x).sb = s.sb := rfl
@[simp] theorem State.setPart_cxl (s : State) (p : Nat) (x : PartX) : (s.setPart p x).cxl = s.cxl := rfl
@[simp] theorem State.setPart_out (s : State) (p : Nat) (x : PartX) : (s.setPart p x).out = s.out := rfl
@[simp] theorem State.setPart_fresh (s : State) (p : Nat) (x : PartX) : (s.setPart p x).fresh = s.fresh := rfl
@[simp] theorem State.setPart_pending (s : State) (p : Nat) (x : PartX) : (s.setPart p x).pending = s.pending := rfl

/-! ### setQueue -/

@[simp] theorem State.setQueue_n8 (s : State) (q : Nat) (x : QueueX) : (s.setQueue q x).n8 = s.n8 := rfl
@[simp] theorem State.setQueue_timeNow (s : State) (q : Nat) (x : QueueX) : (s.setQueue q x).timeNow = s.timeNow := rfl
@[simp] theorem State.setQueue_refPresent (s : State) (q : Nat) (x : QueueX) : (s.setQueue q x).refPresent = s.refPresent := rfl
@[simp] theorem State.setQueue_holdover (s : State) (q : Nat) (x : QueueX) : (s.setQueue q x).holdover = s.holdover := rfl
@[simp] theorem State.setQueue_regs (s : State) (q : Nat) (x : QueueX) : (s.setQueue q x).regs = s.regs := rfl
@[simp] theorem State.setQueue_shadows (s : State) (q : Nat) (x : QueueX) : (s.setQueue q x).shadows = s.shadows := rfl
@[simp] theorem State.setQueue_latches (s : State) (q : Nat) (x : QueueX) : (s.setQueue q x).latches = s.latches := rfl
@[simp] theorem State.setQueue_hbm (s : State) (q : Nat) (x : QueueX) : (s.setQueue q x).hbm = s.hbm := rfl
@[simp] theorem State.setQueue_hbmBad (s : State) (q : Nat) (x : QueueX) : (s.setQueue q x).hbmBad = s.hbmBad := rfl
@[simp] theorem State.setQueue_flash (s : State) (q : Nat) (x : QueueX) : (s.setQueue q x).flash = s.flash := rfl
@[simp] theorem State.setQueue_host (s : State) (q : Nat) (x : QueueX) : (s.setQueue q x).host = s.host := rfl
@[simp] theorem State.setQueue_queues (s : State) (q : Nat) (x : QueueX) : (s.setQueue q x).queues = sset s.queues q x := rfl
@[simp] theorem State.setQueue_parts (s : State) (q : Nat) (x : QueueX) : (s.setQueue q x).parts = s.parts := rfl
@[simp] theorem State.setQueue_cores (s : State) (q : Nat) (x : QueueX) : (s.setQueue q x).cores = s.cores := rfl
@[simp] theorem State.setQueue_clusters (s : State) (q : Nat) (x : QueueX) : (s.setQueue q x).clusters = s.clusters := rfl
@[simp] theorem State.setQueue_adm (s : State) (q : Nat) (x : QueueX) : (s.setQueue q x).adm = s.adm := rfl
@[simp] theorem State.setQueue_bars (s : State) (q : Nat) (x : QueueX) : (s.setQueue q x).bars = s.bars := rfl
@[simp] theorem State.setQueue_tiles (s : State) (q : Nat) (x : QueueX) : (s.setQueue q x).tiles = s.tiles := rfl
@[simp] theorem State.setQueue_rings (s : State) (q : Nat) (x : QueueX) : (s.setQueue q x).rings = s.rings := rfl
@[simp] theorem State.setQueue_faultTimes (s : State) (q : Nat) (x : QueueX) : (s.setQueue q x).faultTimes = s.faultTimes := rfl
@[simp] theorem State.setQueue_retireFailed (s : State) (q : Nat) (x : QueueX) : (s.setQueue q x).retireFailed = s.retireFailed := rfl
@[simp] theorem State.setQueue_links (s : State) (q : Nat) (x : QueueX) : (s.setQueue q x).links = s.links := rfl
@[simp] theorem State.setQueue_xfers (s : State) (q : Nat) (x : QueueX) : (s.setQueue q x).xfers = s.xfers := rfl
@[simp] theorem State.setQueue_reqs (s : State) (q : Nat) (x : QueueX) : (s.setQueue q x).reqs = s.reqs := rfl
@[simp] theorem State.setQueue_colls (s : State) (q : Nat) (x : QueueX) : (s.setQueue q x).colls = s.colls := rfl
@[simp] theorem State.setQueue_earlyReady (s : State) (q : Nat) (x : QueueX) : (s.setQueue q x).earlyReady = s.earlyReady := rfl
@[simp] theorem State.setQueue_routed (s : State) (q : Nat) (x : QueueX) : (s.setQueue q x).routed = s.routed := rfl
@[simp] theorem State.setQueue_notices (s : State) (q : Nat) (x : QueueX) : (s.setQueue q x).notices = s.notices := rfl
@[simp] theorem State.setQueue_noticeSeq (s : State) (q : Nat) (x : QueueX) : (s.setQueue q x).noticeSeq = s.noticeSeq := rfl
@[simp] theorem State.setQueue_noticeT (s : State) (q : Nat) (x : QueueX) : (s.setQueue q x).noticeT = s.noticeT := rfl
@[simp] theorem State.setQueue_timeX (s : State) (q : Nat) (x : QueueX) : (s.setQueue q x).timeX = s.timeX := rfl
@[simp] theorem State.setQueue_dbg (s : State) (q : Nat) (x : QueueX) : (s.setQueue q x).dbg = s.dbg := rfl
@[simp] theorem State.setQueue_boot (s : State) (q : Nat) (x : QueueX) : (s.setQueue q x).boot = s.boot := rfl
@[simp] theorem State.setQueue_fw (s : State) (q : Nat) (x : QueueX) : (s.setQueue q x).fw = s.fw := rfl
@[simp] theorem State.setQueue_power (s : State) (q : Nat) (x : QueueX) : (s.setQueue q x).power = s.power := rfl
@[simp] theorem State.setQueue_sb (s : State) (q : Nat) (x : QueueX) : (s.setQueue q x).sb = s.sb := rfl
@[simp] theorem State.setQueue_cxl (s : State) (q : Nat) (x : QueueX) : (s.setQueue q x).cxl = s.cxl := rfl
@[simp] theorem State.setQueue_out (s : State) (q : Nat) (x : QueueX) : (s.setQueue q x).out = s.out := rfl
@[simp] theorem State.setQueue_fresh (s : State) (q : Nat) (x : QueueX) : (s.setQueue q x).fresh = s.fresh := rfl
@[simp] theorem State.setQueue_pending (s : State) (q : Nat) (x : QueueX) : (s.setQueue q x).pending = s.pending := rfl

/-! ### setCore -/

@[simp] theorem State.setCore_n8 (s : State) (page : Nat) (x : CoreX) : (s.setCore page x).n8 = s.n8 := rfl
@[simp] theorem State.setCore_timeNow (s : State) (page : Nat) (x : CoreX) : (s.setCore page x).timeNow = s.timeNow := rfl
@[simp] theorem State.setCore_refPresent (s : State) (page : Nat) (x : CoreX) : (s.setCore page x).refPresent = s.refPresent := rfl
@[simp] theorem State.setCore_holdover (s : State) (page : Nat) (x : CoreX) : (s.setCore page x).holdover = s.holdover := rfl
@[simp] theorem State.setCore_regs (s : State) (page : Nat) (x : CoreX) : (s.setCore page x).regs = s.regs := rfl
@[simp] theorem State.setCore_shadows (s : State) (page : Nat) (x : CoreX) : (s.setCore page x).shadows = s.shadows := rfl
@[simp] theorem State.setCore_latches (s : State) (page : Nat) (x : CoreX) : (s.setCore page x).latches = s.latches := rfl
@[simp] theorem State.setCore_hbm (s : State) (page : Nat) (x : CoreX) : (s.setCore page x).hbm = s.hbm := rfl
@[simp] theorem State.setCore_hbmBad (s : State) (page : Nat) (x : CoreX) : (s.setCore page x).hbmBad = s.hbmBad := rfl
@[simp] theorem State.setCore_flash (s : State) (page : Nat) (x : CoreX) : (s.setCore page x).flash = s.flash := rfl
@[simp] theorem State.setCore_host (s : State) (page : Nat) (x : CoreX) : (s.setCore page x).host = s.host := rfl
@[simp] theorem State.setCore_queues (s : State) (page : Nat) (x : CoreX) : (s.setCore page x).queues = s.queues := rfl
@[simp] theorem State.setCore_parts (s : State) (page : Nat) (x : CoreX) : (s.setCore page x).parts = s.parts := rfl
@[simp] theorem State.setCore_cores (s : State) (page : Nat) (x : CoreX) : (s.setCore page x).cores = sset s.cores page x := rfl
@[simp] theorem State.setCore_clusters (s : State) (page : Nat) (x : CoreX) : (s.setCore page x).clusters = s.clusters := rfl
@[simp] theorem State.setCore_adm (s : State) (page : Nat) (x : CoreX) : (s.setCore page x).adm = s.adm := rfl
@[simp] theorem State.setCore_bars (s : State) (page : Nat) (x : CoreX) : (s.setCore page x).bars = s.bars := rfl
@[simp] theorem State.setCore_tiles (s : State) (page : Nat) (x : CoreX) : (s.setCore page x).tiles = s.tiles := rfl
@[simp] theorem State.setCore_rings (s : State) (page : Nat) (x : CoreX) : (s.setCore page x).rings = s.rings := rfl
@[simp] theorem State.setCore_faultTimes (s : State) (page : Nat) (x : CoreX) : (s.setCore page x).faultTimes = s.faultTimes := rfl
@[simp] theorem State.setCore_retireFailed (s : State) (page : Nat) (x : CoreX) : (s.setCore page x).retireFailed = s.retireFailed := rfl
@[simp] theorem State.setCore_links (s : State) (page : Nat) (x : CoreX) : (s.setCore page x).links = s.links := rfl
@[simp] theorem State.setCore_xfers (s : State) (page : Nat) (x : CoreX) : (s.setCore page x).xfers = s.xfers := rfl
@[simp] theorem State.setCore_reqs (s : State) (page : Nat) (x : CoreX) : (s.setCore page x).reqs = s.reqs := rfl
@[simp] theorem State.setCore_colls (s : State) (page : Nat) (x : CoreX) : (s.setCore page x).colls = s.colls := rfl
@[simp] theorem State.setCore_earlyReady (s : State) (page : Nat) (x : CoreX) : (s.setCore page x).earlyReady = s.earlyReady := rfl
@[simp] theorem State.setCore_routed (s : State) (page : Nat) (x : CoreX) : (s.setCore page x).routed = s.routed := rfl
@[simp] theorem State.setCore_notices (s : State) (page : Nat) (x : CoreX) : (s.setCore page x).notices = s.notices := rfl
@[simp] theorem State.setCore_noticeSeq (s : State) (page : Nat) (x : CoreX) : (s.setCore page x).noticeSeq = s.noticeSeq := rfl
@[simp] theorem State.setCore_noticeT (s : State) (page : Nat) (x : CoreX) : (s.setCore page x).noticeT = s.noticeT := rfl
@[simp] theorem State.setCore_timeX (s : State) (page : Nat) (x : CoreX) : (s.setCore page x).timeX = s.timeX := rfl
@[simp] theorem State.setCore_dbg (s : State) (page : Nat) (x : CoreX) : (s.setCore page x).dbg = s.dbg := rfl
@[simp] theorem State.setCore_boot (s : State) (page : Nat) (x : CoreX) : (s.setCore page x).boot = s.boot := rfl
@[simp] theorem State.setCore_fw (s : State) (page : Nat) (x : CoreX) : (s.setCore page x).fw = s.fw := rfl
@[simp] theorem State.setCore_power (s : State) (page : Nat) (x : CoreX) : (s.setCore page x).power = s.power := rfl
@[simp] theorem State.setCore_sb (s : State) (page : Nat) (x : CoreX) : (s.setCore page x).sb = s.sb := rfl
@[simp] theorem State.setCore_cxl (s : State) (page : Nat) (x : CoreX) : (s.setCore page x).cxl = s.cxl := rfl
@[simp] theorem State.setCore_out (s : State) (page : Nat) (x : CoreX) : (s.setCore page x).out = s.out := rfl
@[simp] theorem State.setCore_fresh (s : State) (page : Nat) (x : CoreX) : (s.setCore page x).fresh = s.fresh := rfl
@[simp] theorem State.setCore_pending (s : State) (page : Nat) (x : CoreX) : (s.setCore page x).pending = s.pending := rfl

/-! ### setCluster -/

@[simp] theorem State.setCluster_n8 (s : State) (g : Nat) (x : ClusterX) : (s.setCluster g x).n8 = s.n8 := rfl
@[simp] theorem State.setCluster_timeNow (s : State) (g : Nat) (x : ClusterX) : (s.setCluster g x).timeNow = s.timeNow := rfl
@[simp] theorem State.setCluster_refPresent (s : State) (g : Nat) (x : ClusterX) : (s.setCluster g x).refPresent = s.refPresent := rfl
@[simp] theorem State.setCluster_holdover (s : State) (g : Nat) (x : ClusterX) : (s.setCluster g x).holdover = s.holdover := rfl
@[simp] theorem State.setCluster_regs (s : State) (g : Nat) (x : ClusterX) : (s.setCluster g x).regs = s.regs := rfl
@[simp] theorem State.setCluster_shadows (s : State) (g : Nat) (x : ClusterX) : (s.setCluster g x).shadows = s.shadows := rfl
@[simp] theorem State.setCluster_latches (s : State) (g : Nat) (x : ClusterX) : (s.setCluster g x).latches = s.latches := rfl
@[simp] theorem State.setCluster_hbm (s : State) (g : Nat) (x : ClusterX) : (s.setCluster g x).hbm = s.hbm := rfl
@[simp] theorem State.setCluster_hbmBad (s : State) (g : Nat) (x : ClusterX) : (s.setCluster g x).hbmBad = s.hbmBad := rfl
@[simp] theorem State.setCluster_flash (s : State) (g : Nat) (x : ClusterX) : (s.setCluster g x).flash = s.flash := rfl
@[simp] theorem State.setCluster_host (s : State) (g : Nat) (x : ClusterX) : (s.setCluster g x).host = s.host := rfl
@[simp] theorem State.setCluster_queues (s : State) (g : Nat) (x : ClusterX) : (s.setCluster g x).queues = s.queues := rfl
@[simp] theorem State.setCluster_parts (s : State) (g : Nat) (x : ClusterX) : (s.setCluster g x).parts = s.parts := rfl
@[simp] theorem State.setCluster_cores (s : State) (g : Nat) (x : ClusterX) : (s.setCluster g x).cores = s.cores := rfl
@[simp] theorem State.setCluster_clusters (s : State) (g : Nat) (x : ClusterX) : (s.setCluster g x).clusters = sset s.clusters g x := rfl
@[simp] theorem State.setCluster_adm (s : State) (g : Nat) (x : ClusterX) : (s.setCluster g x).adm = s.adm := rfl
@[simp] theorem State.setCluster_bars (s : State) (g : Nat) (x : ClusterX) : (s.setCluster g x).bars = s.bars := rfl
@[simp] theorem State.setCluster_tiles (s : State) (g : Nat) (x : ClusterX) : (s.setCluster g x).tiles = s.tiles := rfl
@[simp] theorem State.setCluster_rings (s : State) (g : Nat) (x : ClusterX) : (s.setCluster g x).rings = s.rings := rfl
@[simp] theorem State.setCluster_faultTimes (s : State) (g : Nat) (x : ClusterX) : (s.setCluster g x).faultTimes = s.faultTimes := rfl
@[simp] theorem State.setCluster_retireFailed (s : State) (g : Nat) (x : ClusterX) : (s.setCluster g x).retireFailed = s.retireFailed := rfl
@[simp] theorem State.setCluster_links (s : State) (g : Nat) (x : ClusterX) : (s.setCluster g x).links = s.links := rfl
@[simp] theorem State.setCluster_xfers (s : State) (g : Nat) (x : ClusterX) : (s.setCluster g x).xfers = s.xfers := rfl
@[simp] theorem State.setCluster_reqs (s : State) (g : Nat) (x : ClusterX) : (s.setCluster g x).reqs = s.reqs := rfl
@[simp] theorem State.setCluster_colls (s : State) (g : Nat) (x : ClusterX) : (s.setCluster g x).colls = s.colls := rfl
@[simp] theorem State.setCluster_earlyReady (s : State) (g : Nat) (x : ClusterX) : (s.setCluster g x).earlyReady = s.earlyReady := rfl
@[simp] theorem State.setCluster_routed (s : State) (g : Nat) (x : ClusterX) : (s.setCluster g x).routed = s.routed := rfl
@[simp] theorem State.setCluster_notices (s : State) (g : Nat) (x : ClusterX) : (s.setCluster g x).notices = s.notices := rfl
@[simp] theorem State.setCluster_noticeSeq (s : State) (g : Nat) (x : ClusterX) : (s.setCluster g x).noticeSeq = s.noticeSeq := rfl
@[simp] theorem State.setCluster_noticeT (s : State) (g : Nat) (x : ClusterX) : (s.setCluster g x).noticeT = s.noticeT := rfl
@[simp] theorem State.setCluster_timeX (s : State) (g : Nat) (x : ClusterX) : (s.setCluster g x).timeX = s.timeX := rfl
@[simp] theorem State.setCluster_dbg (s : State) (g : Nat) (x : ClusterX) : (s.setCluster g x).dbg = s.dbg := rfl
@[simp] theorem State.setCluster_boot (s : State) (g : Nat) (x : ClusterX) : (s.setCluster g x).boot = s.boot := rfl
@[simp] theorem State.setCluster_fw (s : State) (g : Nat) (x : ClusterX) : (s.setCluster g x).fw = s.fw := rfl
@[simp] theorem State.setCluster_power (s : State) (g : Nat) (x : ClusterX) : (s.setCluster g x).power = s.power := rfl
@[simp] theorem State.setCluster_sb (s : State) (g : Nat) (x : ClusterX) : (s.setCluster g x).sb = s.sb := rfl
@[simp] theorem State.setCluster_cxl (s : State) (g : Nat) (x : ClusterX) : (s.setCluster g x).cxl = s.cxl := rfl
@[simp] theorem State.setCluster_out (s : State) (g : Nat) (x : ClusterX) : (s.setCluster g x).out = s.out := rfl
@[simp] theorem State.setCluster_fresh (s : State) (g : Nat) (x : ClusterX) : (s.setCluster g x).fresh = s.fresh := rfl
@[simp] theorem State.setCluster_pending (s : State) (g : Nat) (x : ClusterX) : (s.setCluster g x).pending = s.pending := rfl

/-! ### setLink -/

@[simp] theorem State.setLink_n8 (s : State) (n : Nat) (x : LinkX) : (s.setLink n x).n8 = s.n8 := rfl
@[simp] theorem State.setLink_timeNow (s : State) (n : Nat) (x : LinkX) : (s.setLink n x).timeNow = s.timeNow := rfl
@[simp] theorem State.setLink_refPresent (s : State) (n : Nat) (x : LinkX) : (s.setLink n x).refPresent = s.refPresent := rfl
@[simp] theorem State.setLink_holdover (s : State) (n : Nat) (x : LinkX) : (s.setLink n x).holdover = s.holdover := rfl
@[simp] theorem State.setLink_regs (s : State) (n : Nat) (x : LinkX) : (s.setLink n x).regs = s.regs := rfl
@[simp] theorem State.setLink_shadows (s : State) (n : Nat) (x : LinkX) : (s.setLink n x).shadows = s.shadows := rfl
@[simp] theorem State.setLink_latches (s : State) (n : Nat) (x : LinkX) : (s.setLink n x).latches = s.latches := rfl
@[simp] theorem State.setLink_hbm (s : State) (n : Nat) (x : LinkX) : (s.setLink n x).hbm = s.hbm := rfl
@[simp] theorem State.setLink_hbmBad (s : State) (n : Nat) (x : LinkX) : (s.setLink n x).hbmBad = s.hbmBad := rfl
@[simp] theorem State.setLink_flash (s : State) (n : Nat) (x : LinkX) : (s.setLink n x).flash = s.flash := rfl
@[simp] theorem State.setLink_host (s : State) (n : Nat) (x : LinkX) : (s.setLink n x).host = s.host := rfl
@[simp] theorem State.setLink_queues (s : State) (n : Nat) (x : LinkX) : (s.setLink n x).queues = s.queues := rfl
@[simp] theorem State.setLink_parts (s : State) (n : Nat) (x : LinkX) : (s.setLink n x).parts = s.parts := rfl
@[simp] theorem State.setLink_cores (s : State) (n : Nat) (x : LinkX) : (s.setLink n x).cores = s.cores := rfl
@[simp] theorem State.setLink_clusters (s : State) (n : Nat) (x : LinkX) : (s.setLink n x).clusters = s.clusters := rfl
@[simp] theorem State.setLink_adm (s : State) (n : Nat) (x : LinkX) : (s.setLink n x).adm = s.adm := rfl
@[simp] theorem State.setLink_bars (s : State) (n : Nat) (x : LinkX) : (s.setLink n x).bars = s.bars := rfl
@[simp] theorem State.setLink_tiles (s : State) (n : Nat) (x : LinkX) : (s.setLink n x).tiles = s.tiles := rfl
@[simp] theorem State.setLink_rings (s : State) (n : Nat) (x : LinkX) : (s.setLink n x).rings = s.rings := rfl
@[simp] theorem State.setLink_faultTimes (s : State) (n : Nat) (x : LinkX) : (s.setLink n x).faultTimes = s.faultTimes := rfl
@[simp] theorem State.setLink_retireFailed (s : State) (n : Nat) (x : LinkX) : (s.setLink n x).retireFailed = s.retireFailed := rfl
@[simp] theorem State.setLink_links (s : State) (n : Nat) (x : LinkX) : (s.setLink n x).links = sset s.links n x := rfl
@[simp] theorem State.setLink_xfers (s : State) (n : Nat) (x : LinkX) : (s.setLink n x).xfers = s.xfers := rfl
@[simp] theorem State.setLink_reqs (s : State) (n : Nat) (x : LinkX) : (s.setLink n x).reqs = s.reqs := rfl
@[simp] theorem State.setLink_colls (s : State) (n : Nat) (x : LinkX) : (s.setLink n x).colls = s.colls := rfl
@[simp] theorem State.setLink_earlyReady (s : State) (n : Nat) (x : LinkX) : (s.setLink n x).earlyReady = s.earlyReady := rfl
@[simp] theorem State.setLink_routed (s : State) (n : Nat) (x : LinkX) : (s.setLink n x).routed = s.routed := rfl
@[simp] theorem State.setLink_notices (s : State) (n : Nat) (x : LinkX) : (s.setLink n x).notices = s.notices := rfl
@[simp] theorem State.setLink_noticeSeq (s : State) (n : Nat) (x : LinkX) : (s.setLink n x).noticeSeq = s.noticeSeq := rfl
@[simp] theorem State.setLink_noticeT (s : State) (n : Nat) (x : LinkX) : (s.setLink n x).noticeT = s.noticeT := rfl
@[simp] theorem State.setLink_timeX (s : State) (n : Nat) (x : LinkX) : (s.setLink n x).timeX = s.timeX := rfl
@[simp] theorem State.setLink_dbg (s : State) (n : Nat) (x : LinkX) : (s.setLink n x).dbg = s.dbg := rfl
@[simp] theorem State.setLink_boot (s : State) (n : Nat) (x : LinkX) : (s.setLink n x).boot = s.boot := rfl
@[simp] theorem State.setLink_fw (s : State) (n : Nat) (x : LinkX) : (s.setLink n x).fw = s.fw := rfl
@[simp] theorem State.setLink_power (s : State) (n : Nat) (x : LinkX) : (s.setLink n x).power = s.power := rfl
@[simp] theorem State.setLink_sb (s : State) (n : Nat) (x : LinkX) : (s.setLink n x).sb = s.sb := rfl
@[simp] theorem State.setLink_cxl (s : State) (n : Nat) (x : LinkX) : (s.setLink n x).cxl = s.cxl := rfl
@[simp] theorem State.setLink_out (s : State) (n : Nat) (x : LinkX) : (s.setLink n x).out = s.out := rfl
@[simp] theorem State.setLink_fresh (s : State) (n : Nat) (x : LinkX) : (s.setLink n x).fresh = s.fresh := rfl
@[simp] theorem State.setLink_pending (s : State) (n : Nat) (x : LinkX) : (s.setLink n x).pending = s.pending := rfl

/-! ### setDbg -/

@[simp] theorem State.setDbg_n8 (s : State) (page : Nat) (x : DbgX) : (s.setDbg page x).n8 = s.n8 := rfl
@[simp] theorem State.setDbg_timeNow (s : State) (page : Nat) (x : DbgX) : (s.setDbg page x).timeNow = s.timeNow := rfl
@[simp] theorem State.setDbg_refPresent (s : State) (page : Nat) (x : DbgX) : (s.setDbg page x).refPresent = s.refPresent := rfl
@[simp] theorem State.setDbg_holdover (s : State) (page : Nat) (x : DbgX) : (s.setDbg page x).holdover = s.holdover := rfl
@[simp] theorem State.setDbg_regs (s : State) (page : Nat) (x : DbgX) : (s.setDbg page x).regs = s.regs := rfl
@[simp] theorem State.setDbg_shadows (s : State) (page : Nat) (x : DbgX) : (s.setDbg page x).shadows = s.shadows := rfl
@[simp] theorem State.setDbg_latches (s : State) (page : Nat) (x : DbgX) : (s.setDbg page x).latches = s.latches := rfl
@[simp] theorem State.setDbg_hbm (s : State) (page : Nat) (x : DbgX) : (s.setDbg page x).hbm = s.hbm := rfl
@[simp] theorem State.setDbg_hbmBad (s : State) (page : Nat) (x : DbgX) : (s.setDbg page x).hbmBad = s.hbmBad := rfl
@[simp] theorem State.setDbg_flash (s : State) (page : Nat) (x : DbgX) : (s.setDbg page x).flash = s.flash := rfl
@[simp] theorem State.setDbg_host (s : State) (page : Nat) (x : DbgX) : (s.setDbg page x).host = s.host := rfl
@[simp] theorem State.setDbg_queues (s : State) (page : Nat) (x : DbgX) : (s.setDbg page x).queues = s.queues := rfl
@[simp] theorem State.setDbg_parts (s : State) (page : Nat) (x : DbgX) : (s.setDbg page x).parts = s.parts := rfl
@[simp] theorem State.setDbg_cores (s : State) (page : Nat) (x : DbgX) : (s.setDbg page x).cores = s.cores := rfl
@[simp] theorem State.setDbg_clusters (s : State) (page : Nat) (x : DbgX) : (s.setDbg page x).clusters = s.clusters := rfl
@[simp] theorem State.setDbg_adm (s : State) (page : Nat) (x : DbgX) : (s.setDbg page x).adm = s.adm := rfl
@[simp] theorem State.setDbg_bars (s : State) (page : Nat) (x : DbgX) : (s.setDbg page x).bars = s.bars := rfl
@[simp] theorem State.setDbg_tiles (s : State) (page : Nat) (x : DbgX) : (s.setDbg page x).tiles = s.tiles := rfl
@[simp] theorem State.setDbg_rings (s : State) (page : Nat) (x : DbgX) : (s.setDbg page x).rings = s.rings := rfl
@[simp] theorem State.setDbg_faultTimes (s : State) (page : Nat) (x : DbgX) : (s.setDbg page x).faultTimes = s.faultTimes := rfl
@[simp] theorem State.setDbg_retireFailed (s : State) (page : Nat) (x : DbgX) : (s.setDbg page x).retireFailed = s.retireFailed := rfl
@[simp] theorem State.setDbg_links (s : State) (page : Nat) (x : DbgX) : (s.setDbg page x).links = s.links := rfl
@[simp] theorem State.setDbg_xfers (s : State) (page : Nat) (x : DbgX) : (s.setDbg page x).xfers = s.xfers := rfl
@[simp] theorem State.setDbg_reqs (s : State) (page : Nat) (x : DbgX) : (s.setDbg page x).reqs = s.reqs := rfl
@[simp] theorem State.setDbg_colls (s : State) (page : Nat) (x : DbgX) : (s.setDbg page x).colls = s.colls := rfl
@[simp] theorem State.setDbg_earlyReady (s : State) (page : Nat) (x : DbgX) : (s.setDbg page x).earlyReady = s.earlyReady := rfl
@[simp] theorem State.setDbg_routed (s : State) (page : Nat) (x : DbgX) : (s.setDbg page x).routed = s.routed := rfl
@[simp] theorem State.setDbg_notices (s : State) (page : Nat) (x : DbgX) : (s.setDbg page x).notices = s.notices := rfl
@[simp] theorem State.setDbg_noticeSeq (s : State) (page : Nat) (x : DbgX) : (s.setDbg page x).noticeSeq = s.noticeSeq := rfl
@[simp] theorem State.setDbg_noticeT (s : State) (page : Nat) (x : DbgX) : (s.setDbg page x).noticeT = s.noticeT := rfl
@[simp] theorem State.setDbg_timeX (s : State) (page : Nat) (x : DbgX) : (s.setDbg page x).timeX = s.timeX := rfl
@[simp] theorem State.setDbg_dbg (s : State) (page : Nat) (x : DbgX) : (s.setDbg page x).dbg = sset s.dbg page x := rfl
@[simp] theorem State.setDbg_boot (s : State) (page : Nat) (x : DbgX) : (s.setDbg page x).boot = s.boot := rfl
@[simp] theorem State.setDbg_fw (s : State) (page : Nat) (x : DbgX) : (s.setDbg page x).fw = s.fw := rfl
@[simp] theorem State.setDbg_power (s : State) (page : Nat) (x : DbgX) : (s.setDbg page x).power = s.power := rfl
@[simp] theorem State.setDbg_sb (s : State) (page : Nat) (x : DbgX) : (s.setDbg page x).sb = s.sb := rfl
@[simp] theorem State.setDbg_cxl (s : State) (page : Nat) (x : DbgX) : (s.setDbg page x).cxl = s.cxl := rfl
@[simp] theorem State.setDbg_out (s : State) (page : Nat) (x : DbgX) : (s.setDbg page x).out = s.out := rfl
@[simp] theorem State.setDbg_fresh (s : State) (page : Nat) (x : DbgX) : (s.setDbg page x).fresh = s.fresh := rfl
@[simp] theorem State.setDbg_pending (s : State) (page : Nat) (x : DbgX) : (s.setDbg page x).pending = s.pending := rfl

/-! ### setRing -/

@[simp] theorem State.setRing_n8 (s : State) (r : Nat) (x : Ring) : (s.setRing r x).n8 = s.n8 := rfl
@[simp] theorem State.setRing_timeNow (s : State) (r : Nat) (x : Ring) : (s.setRing r x).timeNow = s.timeNow := rfl
@[simp] theorem State.setRing_refPresent (s : State) (r : Nat) (x : Ring) : (s.setRing r x).refPresent = s.refPresent := rfl
@[simp] theorem State.setRing_holdover (s : State) (r : Nat) (x : Ring) : (s.setRing r x).holdover = s.holdover := rfl
@[simp] theorem State.setRing_regs (s : State) (r : Nat) (x : Ring) : (s.setRing r x).regs = s.regs := rfl
@[simp] theorem State.setRing_shadows (s : State) (r : Nat) (x : Ring) : (s.setRing r x).shadows = s.shadows := rfl
@[simp] theorem State.setRing_latches (s : State) (r : Nat) (x : Ring) : (s.setRing r x).latches = s.latches := rfl
@[simp] theorem State.setRing_hbm (s : State) (r : Nat) (x : Ring) : (s.setRing r x).hbm = s.hbm := rfl
@[simp] theorem State.setRing_hbmBad (s : State) (r : Nat) (x : Ring) : (s.setRing r x).hbmBad = s.hbmBad := rfl
@[simp] theorem State.setRing_flash (s : State) (r : Nat) (x : Ring) : (s.setRing r x).flash = s.flash := rfl
@[simp] theorem State.setRing_host (s : State) (r : Nat) (x : Ring) : (s.setRing r x).host = s.host := rfl
@[simp] theorem State.setRing_queues (s : State) (r : Nat) (x : Ring) : (s.setRing r x).queues = s.queues := rfl
@[simp] theorem State.setRing_parts (s : State) (r : Nat) (x : Ring) : (s.setRing r x).parts = s.parts := rfl
@[simp] theorem State.setRing_cores (s : State) (r : Nat) (x : Ring) : (s.setRing r x).cores = s.cores := rfl
@[simp] theorem State.setRing_clusters (s : State) (r : Nat) (x : Ring) : (s.setRing r x).clusters = s.clusters := rfl
@[simp] theorem State.setRing_adm (s : State) (r : Nat) (x : Ring) : (s.setRing r x).adm = s.adm := rfl
@[simp] theorem State.setRing_bars (s : State) (r : Nat) (x : Ring) : (s.setRing r x).bars = s.bars := rfl
@[simp] theorem State.setRing_tiles (s : State) (r : Nat) (x : Ring) : (s.setRing r x).tiles = s.tiles := rfl
@[simp] theorem State.setRing_rings (s : State) (r : Nat) (x : Ring) : (s.setRing r x).rings = sset s.rings r x := rfl
@[simp] theorem State.setRing_faultTimes (s : State) (r : Nat) (x : Ring) : (s.setRing r x).faultTimes = s.faultTimes := rfl
@[simp] theorem State.setRing_retireFailed (s : State) (r : Nat) (x : Ring) : (s.setRing r x).retireFailed = s.retireFailed := rfl
@[simp] theorem State.setRing_links (s : State) (r : Nat) (x : Ring) : (s.setRing r x).links = s.links := rfl
@[simp] theorem State.setRing_xfers (s : State) (r : Nat) (x : Ring) : (s.setRing r x).xfers = s.xfers := rfl
@[simp] theorem State.setRing_reqs (s : State) (r : Nat) (x : Ring) : (s.setRing r x).reqs = s.reqs := rfl
@[simp] theorem State.setRing_colls (s : State) (r : Nat) (x : Ring) : (s.setRing r x).colls = s.colls := rfl
@[simp] theorem State.setRing_earlyReady (s : State) (r : Nat) (x : Ring) : (s.setRing r x).earlyReady = s.earlyReady := rfl
@[simp] theorem State.setRing_routed (s : State) (r : Nat) (x : Ring) : (s.setRing r x).routed = s.routed := rfl
@[simp] theorem State.setRing_notices (s : State) (r : Nat) (x : Ring) : (s.setRing r x).notices = s.notices := rfl
@[simp] theorem State.setRing_noticeSeq (s : State) (r : Nat) (x : Ring) : (s.setRing r x).noticeSeq = s.noticeSeq := rfl
@[simp] theorem State.setRing_noticeT (s : State) (r : Nat) (x : Ring) : (s.setRing r x).noticeT = s.noticeT := rfl
@[simp] theorem State.setRing_timeX (s : State) (r : Nat) (x : Ring) : (s.setRing r x).timeX = s.timeX := rfl
@[simp] theorem State.setRing_dbg (s : State) (r : Nat) (x : Ring) : (s.setRing r x).dbg = s.dbg := rfl
@[simp] theorem State.setRing_boot (s : State) (r : Nat) (x : Ring) : (s.setRing r x).boot = s.boot := rfl
@[simp] theorem State.setRing_fw (s : State) (r : Nat) (x : Ring) : (s.setRing r x).fw = s.fw := rfl
@[simp] theorem State.setRing_power (s : State) (r : Nat) (x : Ring) : (s.setRing r x).power = s.power := rfl
@[simp] theorem State.setRing_sb (s : State) (r : Nat) (x : Ring) : (s.setRing r x).sb = s.sb := rfl
@[simp] theorem State.setRing_cxl (s : State) (r : Nat) (x : Ring) : (s.setRing r x).cxl = s.cxl := rfl
@[simp] theorem State.setRing_out (s : State) (r : Nat) (x : Ring) : (s.setRing r x).out = s.out := rfl
@[simp] theorem State.setRing_fresh (s : State) (r : Nat) (x : Ring) : (s.setRing r x).fresh = s.fresh := rfl
@[simp] theorem State.setRing_pending (s : State) (r : Nat) (x : Ring) : (s.setRing r x).pending = s.pending := rfl

/-! ### emit -/

@[simp] theorem State.emit_n8 (s : State) (k : OutKind) (a : List Nat) (d : List Byte) : (s.emit k a d).n8 = s.n8 := rfl
@[simp] theorem State.emit_timeNow (s : State) (k : OutKind) (a : List Nat) (d : List Byte) : (s.emit k a d).timeNow = s.timeNow := rfl
@[simp] theorem State.emit_refPresent (s : State) (k : OutKind) (a : List Nat) (d : List Byte) : (s.emit k a d).refPresent = s.refPresent := rfl
@[simp] theorem State.emit_holdover (s : State) (k : OutKind) (a : List Nat) (d : List Byte) : (s.emit k a d).holdover = s.holdover := rfl
@[simp] theorem State.emit_regs (s : State) (k : OutKind) (a : List Nat) (d : List Byte) : (s.emit k a d).regs = s.regs := rfl
@[simp] theorem State.emit_shadows (s : State) (k : OutKind) (a : List Nat) (d : List Byte) : (s.emit k a d).shadows = s.shadows := rfl
@[simp] theorem State.emit_latches (s : State) (k : OutKind) (a : List Nat) (d : List Byte) : (s.emit k a d).latches = s.latches := rfl
@[simp] theorem State.emit_hbm (s : State) (k : OutKind) (a : List Nat) (d : List Byte) : (s.emit k a d).hbm = s.hbm := rfl
@[simp] theorem State.emit_hbmBad (s : State) (k : OutKind) (a : List Nat) (d : List Byte) : (s.emit k a d).hbmBad = s.hbmBad := rfl
@[simp] theorem State.emit_flash (s : State) (k : OutKind) (a : List Nat) (d : List Byte) : (s.emit k a d).flash = s.flash := rfl
@[simp] theorem State.emit_host (s : State) (k : OutKind) (a : List Nat) (d : List Byte) : (s.emit k a d).host = s.host := rfl
@[simp] theorem State.emit_queues (s : State) (k : OutKind) (a : List Nat) (d : List Byte) : (s.emit k a d).queues = s.queues := rfl
@[simp] theorem State.emit_parts (s : State) (k : OutKind) (a : List Nat) (d : List Byte) : (s.emit k a d).parts = s.parts := rfl
@[simp] theorem State.emit_cores (s : State) (k : OutKind) (a : List Nat) (d : List Byte) : (s.emit k a d).cores = s.cores := rfl
@[simp] theorem State.emit_clusters (s : State) (k : OutKind) (a : List Nat) (d : List Byte) : (s.emit k a d).clusters = s.clusters := rfl
@[simp] theorem State.emit_adm (s : State) (k : OutKind) (a : List Nat) (d : List Byte) : (s.emit k a d).adm = s.adm := rfl
@[simp] theorem State.emit_bars (s : State) (k : OutKind) (a : List Nat) (d : List Byte) : (s.emit k a d).bars = s.bars := rfl
@[simp] theorem State.emit_tiles (s : State) (k : OutKind) (a : List Nat) (d : List Byte) : (s.emit k a d).tiles = s.tiles := rfl
@[simp] theorem State.emit_rings (s : State) (k : OutKind) (a : List Nat) (d : List Byte) : (s.emit k a d).rings = s.rings := rfl
@[simp] theorem State.emit_faultTimes (s : State) (k : OutKind) (a : List Nat) (d : List Byte) : (s.emit k a d).faultTimes = s.faultTimes := rfl
@[simp] theorem State.emit_retireFailed (s : State) (k : OutKind) (a : List Nat) (d : List Byte) : (s.emit k a d).retireFailed = s.retireFailed := rfl
@[simp] theorem State.emit_links (s : State) (k : OutKind) (a : List Nat) (d : List Byte) : (s.emit k a d).links = s.links := rfl
@[simp] theorem State.emit_xfers (s : State) (k : OutKind) (a : List Nat) (d : List Byte) : (s.emit k a d).xfers = s.xfers := rfl
@[simp] theorem State.emit_reqs (s : State) (k : OutKind) (a : List Nat) (d : List Byte) : (s.emit k a d).reqs = s.reqs := rfl
@[simp] theorem State.emit_colls (s : State) (k : OutKind) (a : List Nat) (d : List Byte) : (s.emit k a d).colls = s.colls := rfl
@[simp] theorem State.emit_earlyReady (s : State) (k : OutKind) (a : List Nat) (d : List Byte) : (s.emit k a d).earlyReady = s.earlyReady := rfl
@[simp] theorem State.emit_routed (s : State) (k : OutKind) (a : List Nat) (d : List Byte) : (s.emit k a d).routed = s.routed := rfl
@[simp] theorem State.emit_notices (s : State) (k : OutKind) (a : List Nat) (d : List Byte) : (s.emit k a d).notices = s.notices := rfl
@[simp] theorem State.emit_noticeSeq (s : State) (k : OutKind) (a : List Nat) (d : List Byte) : (s.emit k a d).noticeSeq = s.noticeSeq := rfl
@[simp] theorem State.emit_noticeT (s : State) (k : OutKind) (a : List Nat) (d : List Byte) : (s.emit k a d).noticeT = s.noticeT := rfl
@[simp] theorem State.emit_timeX (s : State) (k : OutKind) (a : List Nat) (d : List Byte) : (s.emit k a d).timeX = s.timeX := rfl
@[simp] theorem State.emit_dbg (s : State) (k : OutKind) (a : List Nat) (d : List Byte) : (s.emit k a d).dbg = s.dbg := rfl
@[simp] theorem State.emit_boot (s : State) (k : OutKind) (a : List Nat) (d : List Byte) : (s.emit k a d).boot = s.boot := rfl
@[simp] theorem State.emit_fw (s : State) (k : OutKind) (a : List Nat) (d : List Byte) : (s.emit k a d).fw = s.fw := rfl
@[simp] theorem State.emit_power (s : State) (k : OutKind) (a : List Nat) (d : List Byte) : (s.emit k a d).power = s.power := rfl
@[simp] theorem State.emit_sb (s : State) (k : OutKind) (a : List Nat) (d : List Byte) : (s.emit k a d).sb = s.sb := rfl
@[simp] theorem State.emit_cxl (s : State) (k : OutKind) (a : List Nat) (d : List Byte) : (s.emit k a d).cxl = s.cxl := rfl
@[simp] theorem State.emit_out (s : State) (k : OutKind) (a : List Nat) (d : List Byte) : (s.emit k a d).out = .msg k a d :: s.out := rfl
@[simp] theorem State.emit_fresh (s : State) (k : OutKind) (a : List Nat) (d : List Byte) : (s.emit k a d).fresh = s.fresh := rfl
@[simp] theorem State.emit_pending (s : State) (k : OutKind) (a : List Nat) (d : List Byte) : (s.emit k a d).pending = s.pending := rfl

/-! ### emitPacket -/

@[simp] theorem State.emitPacket_n8 (s : State) (die : Nat) (pk : Packet) : (s.emitPacket die pk).n8 = s.n8 := rfl
@[simp] theorem State.emitPacket_timeNow (s : State) (die : Nat) (pk : Packet) : (s.emitPacket die pk).timeNow = s.timeNow := rfl
@[simp] theorem State.emitPacket_refPresent (s : State) (die : Nat) (pk : Packet) : (s.emitPacket die pk).refPresent = s.refPresent := rfl
@[simp] theorem State.emitPacket_holdover (s : State) (die : Nat) (pk : Packet) : (s.emitPacket die pk).holdover = s.holdover := rfl
@[simp] theorem State.emitPacket_regs (s : State) (die : Nat) (pk : Packet) : (s.emitPacket die pk).regs = s.regs := rfl
@[simp] theorem State.emitPacket_shadows (s : State) (die : Nat) (pk : Packet) : (s.emitPacket die pk).shadows = s.shadows := rfl
@[simp] theorem State.emitPacket_latches (s : State) (die : Nat) (pk : Packet) : (s.emitPacket die pk).latches = s.latches := rfl
@[simp] theorem State.emitPacket_hbm (s : State) (die : Nat) (pk : Packet) : (s.emitPacket die pk).hbm = s.hbm := rfl
@[simp] theorem State.emitPacket_hbmBad (s : State) (die : Nat) (pk : Packet) : (s.emitPacket die pk).hbmBad = s.hbmBad := rfl
@[simp] theorem State.emitPacket_flash (s : State) (die : Nat) (pk : Packet) : (s.emitPacket die pk).flash = s.flash := rfl
@[simp] theorem State.emitPacket_host (s : State) (die : Nat) (pk : Packet) : (s.emitPacket die pk).host = s.host := rfl
@[simp] theorem State.emitPacket_queues (s : State) (die : Nat) (pk : Packet) : (s.emitPacket die pk).queues = s.queues := rfl
@[simp] theorem State.emitPacket_parts (s : State) (die : Nat) (pk : Packet) : (s.emitPacket die pk).parts = s.parts := rfl
@[simp] theorem State.emitPacket_cores (s : State) (die : Nat) (pk : Packet) : (s.emitPacket die pk).cores = s.cores := rfl
@[simp] theorem State.emitPacket_clusters (s : State) (die : Nat) (pk : Packet) : (s.emitPacket die pk).clusters = s.clusters := rfl
@[simp] theorem State.emitPacket_adm (s : State) (die : Nat) (pk : Packet) : (s.emitPacket die pk).adm = s.adm := rfl
@[simp] theorem State.emitPacket_bars (s : State) (die : Nat) (pk : Packet) : (s.emitPacket die pk).bars = s.bars := rfl
@[simp] theorem State.emitPacket_tiles (s : State) (die : Nat) (pk : Packet) : (s.emitPacket die pk).tiles = s.tiles := rfl
@[simp] theorem State.emitPacket_rings (s : State) (die : Nat) (pk : Packet) : (s.emitPacket die pk).rings = s.rings := rfl
@[simp] theorem State.emitPacket_faultTimes (s : State) (die : Nat) (pk : Packet) : (s.emitPacket die pk).faultTimes = s.faultTimes := rfl
@[simp] theorem State.emitPacket_retireFailed (s : State) (die : Nat) (pk : Packet) : (s.emitPacket die pk).retireFailed = s.retireFailed := rfl
@[simp] theorem State.emitPacket_links (s : State) (die : Nat) (pk : Packet) : (s.emitPacket die pk).links = s.links := rfl
@[simp] theorem State.emitPacket_xfers (s : State) (die : Nat) (pk : Packet) : (s.emitPacket die pk).xfers = s.xfers := rfl
@[simp] theorem State.emitPacket_reqs (s : State) (die : Nat) (pk : Packet) : (s.emitPacket die pk).reqs = s.reqs := rfl
@[simp] theorem State.emitPacket_colls (s : State) (die : Nat) (pk : Packet) : (s.emitPacket die pk).colls = s.colls := rfl
@[simp] theorem State.emitPacket_earlyReady (s : State) (die : Nat) (pk : Packet) : (s.emitPacket die pk).earlyReady = s.earlyReady := rfl
@[simp] theorem State.emitPacket_routed (s : State) (die : Nat) (pk : Packet) : (s.emitPacket die pk).routed = s.routed := rfl
@[simp] theorem State.emitPacket_notices (s : State) (die : Nat) (pk : Packet) : (s.emitPacket die pk).notices = s.notices := rfl
@[simp] theorem State.emitPacket_noticeSeq (s : State) (die : Nat) (pk : Packet) : (s.emitPacket die pk).noticeSeq = s.noticeSeq := rfl
@[simp] theorem State.emitPacket_noticeT (s : State) (die : Nat) (pk : Packet) : (s.emitPacket die pk).noticeT = s.noticeT := rfl
@[simp] theorem State.emitPacket_timeX (s : State) (die : Nat) (pk : Packet) : (s.emitPacket die pk).timeX = s.timeX := rfl
@[simp] theorem State.emitPacket_dbg (s : State) (die : Nat) (pk : Packet) : (s.emitPacket die pk).dbg = s.dbg := rfl
@[simp] theorem State.emitPacket_boot (s : State) (die : Nat) (pk : Packet) : (s.emitPacket die pk).boot = s.boot := rfl
@[simp] theorem State.emitPacket_fw (s : State) (die : Nat) (pk : Packet) : (s.emitPacket die pk).fw = s.fw := rfl
@[simp] theorem State.emitPacket_power (s : State) (die : Nat) (pk : Packet) : (s.emitPacket die pk).power = s.power := rfl
@[simp] theorem State.emitPacket_sb (s : State) (die : Nat) (pk : Packet) : (s.emitPacket die pk).sb = s.sb := rfl
@[simp] theorem State.emitPacket_cxl (s : State) (die : Nat) (pk : Packet) : (s.emitPacket die pk).cxl = s.cxl := rfl
@[simp] theorem State.emitPacket_out (s : State) (die : Nat) (pk : Packet) : (s.emitPacket die pk).out = .packet die pk :: s.out := rfl
@[simp] theorem State.emitPacket_fresh (s : State) (die : Nat) (pk : Packet) : (s.emitPacket die pk).fresh = s.fresh := rfl
@[simp] theorem State.emitPacket_pending (s : State) (die : Nat) (pk : Packet) : (s.emitPacket die pk).pending = s.pending := rfl

/-! ### Registers -/

/-- Two registers have one key only if they are the same register. -/
theorem rkey_inj {p b o p' b' o' : Nat} (hb : b < 131072) (hb' : b' < 131072) (ho : o < 4096) (ho' : o' < 4096)
    (h : rkey p b o = rkey p' b' o') : p = p' ∧ b = b' ∧ o = o' := by
  unfold rkey at h; omega

@[simp] theorem State.reg_setReg (s : State) (page bank off v : Nat) : (s.setReg page bank off v).reg page bank off = v % 2 ^ 64 := by
  simp [State.reg, BitVec.toNat_ofNat]

theorem State.reg_setReg_ne (s : State) {p b o p' b' o' : Nat} (v : Nat) (h : rkey p' b' o' ≠ rkey p b o) :
    (s.setReg p b o v).reg p' b' o' = s.reg p' b' o' := by
  simp [State.reg, sget_sset_ne _ h]

/-- A register read depends on the register table alone. -/
theorem State.reg_congr {s t : State} (h : t.regs = s.regs) (page bank off : Nat) : t.reg page bank off = s.reg page bank off := by
  unfold State.reg; rw [h]

theorem State.fld_congr {s t : State} (h : t.regs = s.regs) (page bank : Nat) (f : Fld) : t.fld page bank f = s.fld page bank f := by
  unfold State.fld; rw [State.reg_congr h]

/-! ### Tables -/

@[simp] theorem State.part_setPart (s : State) (k : Nat) (x : PartX) : (s.setPart k x).part k = x := by simp [State.part]
theorem State.part_setPart_ne (s : State) {j k : Nat} (x : PartX) (h : j ≠ k) : (s.setPart k x).part j = s.part j := by
  simp [State.part, sget_sset_ne _ h]
theorem State.part_congr {s t : State} (h : t.parts = s.parts) (k : Nat) : t.part k = s.part k := by unfold State.part; rw [h]

@[simp] theorem State.core_setCore (s : State) (k : Nat) (x : CoreX) : (s.setCore k x).core k = x := by simp [State.core]
theorem State.core_setCore_ne (s : State) {j k : Nat} (x : CoreX) (h : j ≠ k) : (s.setCore k x).core j = s.core j := by
  simp [State.core, sget_sset_ne _ h]
theorem State.core_congr {s t : State} (h : t.cores = s.cores) (k : Nat) : t.core k = s.core k := by unfold State.core; rw [h]

@[simp] theorem State.cluster_setCluster (s : State) (k : Nat) (x : ClusterX) : (s.setCluster k x).cluster k = x := by simp [State.cluster]
theorem State.cluster_setCluster_ne (s : State) {j k : Nat} (x : ClusterX) (h : j ≠ k) : (s.setCluster k x).cluster j = s.cluster j := by
  simp [State.cluster, sget_sset_ne _ h]
theorem State.cluster_congr {s t : State} (h : t.clusters = s.clusters) (k : Nat) : t.cluster k = s.cluster k := by unfold State.cluster; rw [h]

@[simp] theorem State.link_setLink (s : State) (k : Nat) (x : LinkX) : (s.setLink k x).link k = x := by simp [State.link]
theorem State.link_setLink_ne (s : State) {j k : Nat} (x : LinkX) (h : j ≠ k) : (s.setLink k x).link j = s.link j := by
  simp [State.link, sget_sset_ne _ h]
theorem State.link_congr {s t : State} (h : t.links = s.links) (k : Nat) : t.link k = s.link k := by unfold State.link; rw [h]

@[simp] theorem State.dbgOf_setDbg (s : State) (k : Nat) (x : DbgX) : (s.setDbg k x).dbgOf k = x := by simp [State.dbgOf]
theorem State.dbgOf_setDbg_ne (s : State) {j k : Nat} (x : DbgX) (h : j ≠ k) : (s.setDbg k x).dbgOf j = s.dbgOf j := by
  simp [State.dbgOf, sget_sset_ne _ h]
theorem State.dbgOf_congr {s t : State} (h : t.dbg = s.dbg) (k : Nat) : t.dbgOf k = s.dbgOf k := by unfold State.dbgOf; rw [h]

@[simp] theorem State.ring_setRing (s : State) (k : Nat) (x : Ring) : (s.setRing k x).ring k = x := by simp [State.ring]
theorem State.ring_setRing_ne (s : State) {j k : Nat} (x : Ring) (h : j ≠ k) : (s.setRing k x).ring j = s.ring j := by
  simp [State.ring, sget_sset_ne _ h]
theorem State.ring_congr {s t : State} (h : t.rings = s.rings) (k : Nat) : t.ring k = s.ring k := by unfold State.ring; rw [h]

@[simp] theorem State.queue_setQueue (s : State) (k : Nat) (x : QueueX) : (s.setQueue k x).queue k = x := by simp [State.queue]
theorem State.queue_setQueue_ne (s : State) {j k : Nat} (x : QueueX) (h : j ≠ k) : (s.setQueue k x).queue j = s.queue j := by
  simp only [State.queue, State.setQueue_queues, sget_sset_ne _ h]; rfl

/-! ### Reads that an update elsewhere leaves as they are -/

@[simp] theorem State.part_setReg' (s : State) (page bank off v : Nat) (K : Nat) : (s.setReg page bank off v).part K = s.part K := rfl
@[simp] theorem State.core_setReg' (s : State) (page bank off v : Nat) (K : Nat) : (s.setReg page bank off v).core K = s.core K := rfl
@[simp] theorem State.cluster_setReg' (s : State) (page bank off v : Nat) (K : Nat) : (s.setReg page bank off v).cluster K = s.cluster K := rfl
@[simp] theorem State.link_setReg' (s : State) (page bank off v : Nat) (K : Nat) : (s.setReg page bank off v).link K = s.link K := rfl
@[simp] theorem State.dbgOf_setReg' (s : State) (page bank off v : Nat) (K : Nat) : (s.setReg page bank off v).dbgOf K = s.dbgOf K := rfl
@[simp] theorem State.ring_setReg' (s : State) (page bank off v : Nat) (K : Nat) : (s.setReg page bank off v).ring K = s.ring K := rfl
@[simp] theorem State.reg_freshen' (s : State) (P B O : Nat) : (s.freshen).reg P B O = s.reg P B O := rfl
@[simp] theorem State.fld_freshen' (s : State) (P B : Nat) (F : Fld) : (s.freshen).fld P B F = s.fld P B F := rfl
@[simp] theorem State.part_freshen' (s : State) (K : Nat) : (s.freshen).part K = s.part K := rfl
@[simp] theorem State.core_freshen' (s : State) (K : Nat) : (s.freshen).core K = s.core K := rfl
@[simp] theorem State.cluster_freshen' (s : State) (K : Nat) : (s.freshen).cluster K = s.cluster K := rfl
@[simp] theorem State.link_freshen' (s : State) (K : Nat) : (s.freshen).link K = s.link K := rfl
@[simp] theorem State.dbgOf_freshen' (s : State) (K : Nat) : (s.freshen).dbgOf K = s.dbgOf K := rfl
@[simp] theorem State.ring_freshen' (s : State) (K : Nat) : (s.freshen).ring K = s.ring K := rfl
@[simp] theorem State.queue_freshen' (s : State) (K : Nat) : (s.freshen).queue K = s.queue K := rfl
@[simp] theorem State.reg_setPart' (s : State) (p : Nat) (x : PartX) (P B O : Nat) : (s.setPart p x).reg P B O = s.reg P B O := rfl
@[simp] theorem State.fld_setPart' (s : State) (p : Nat) (x : PartX) (P B : Nat) (F : Fld) : (s.setPart p x).fld P B F = s.fld P B F := rfl
@[simp] theorem State.core_setPart' (s : State) (p : Nat) (x : PartX) (K : Nat) : (s.setPart p x).core K = s.core K := rfl
@[simp] theorem State.cluster_setPart' (s : State) (p : Nat) (x : PartX) (K : Nat) : (s.setPart p x).cluster K = s.cluster K := rfl
@[simp] theorem State.link_setPart' (s : State) (p : Nat) (x : PartX) (K : Nat) : (s.setPart p x).link K = s.link K := rfl
@[simp] theorem State.dbgOf_setPart' (s : State) (p : Nat) (x : PartX) (K : Nat) : (s.setPart p x).dbgOf K = s.dbgOf K := rfl
@[simp] theorem State.ring_setPart' (s : State) (p : Nat) (x : PartX) (K : Nat) : (s.setPart p x).ring K = s.ring K := rfl
@[simp] theorem State.reg_setQueue' (s : State) (q : Nat) (x : QueueX) (P B O : Nat) : (s.setQueue q x).reg P B O = s.reg P B O := rfl
@[simp] theorem State.fld_setQueue' (s : State) (q : Nat) (x : QueueX) (P B : Nat) (F : Fld) : (s.setQueue q x).fld P B F = s.fld P B F := rfl
@[simp] theorem State.part_setQueue' (s : State) (q : Nat) (x : QueueX) (K : Nat) : (s.setQueue q x).part K = s.part K := rfl
@[simp] theorem State.core_setQueue' (s : State) (q : Nat) (x : QueueX) (K : Nat) : (s.setQueue q x).core K = s.core K := rfl
@[simp] theorem State.cluster_setQueue' (s : State) (q : Nat) (x : QueueX) (K : Nat) : (s.setQueue q x).cluster K = s.cluster K := rfl
@[simp] theorem State.link_setQueue' (s : State) (q : Nat) (x : QueueX) (K : Nat) : (s.setQueue q x).link K = s.link K := rfl
@[simp] theorem State.dbgOf_setQueue' (s : State) (q : Nat) (x : QueueX) (K : Nat) : (s.setQueue q x).dbgOf K = s.dbgOf K := rfl
@[simp] theorem State.ring_setQueue' (s : State) (q : Nat) (x : QueueX) (K : Nat) : (s.setQueue q x).ring K = s.ring K := rfl
@[simp] theorem State.reg_setCore' (s : State) (page : Nat) (x : CoreX) (P B O : Nat) : (s.setCore page x).reg P B O = s.reg P B O := rfl
@[simp] theorem State.fld_setCore' (s : State) (page : Nat) (x : CoreX) (P B : Nat) (F : Fld) : (s.setCore page x).fld P B F = s.fld P B F := rfl
@[simp] theorem State.part_setCore' (s : State) (page : Nat) (x : CoreX) (K : Nat) : (s.setCore page x).part K = s.part K := rfl
@[simp] theorem State.cluster_setCore' (s : State) (page : Nat) (x : CoreX) (K : Nat) : (s.setCore page x).cluster K = s.cluster K := rfl
@[simp] theorem State.link_setCore' (s : State) (page : Nat) (x : CoreX) (K : Nat) : (s.setCore page x).link K = s.link K := rfl
@[simp] theorem State.dbgOf_setCore' (s : State) (page : Nat) (x : CoreX) (K : Nat) : (s.setCore page x).dbgOf K = s.dbgOf K := rfl
@[simp] theorem State.ring_setCore' (s : State) (page : Nat) (x : CoreX) (K : Nat) : (s.setCore page x).ring K = s.ring K := rfl
@[simp] theorem State.queue_setCore' (s : State) (page : Nat) (x : CoreX) (K : Nat) : (s.setCore page x).queue K = s.queue K := rfl
@[simp] theorem State.reg_setCluster' (s : State) (g : Nat) (x : ClusterX) (P B O : Nat) : (s.setCluster g x).reg P B O = s.reg P B O := rfl
@[simp] theorem State.fld_setCluster' (s : State) (g : Nat) (x : ClusterX) (P B : Nat) (F : Fld) : (s.setCluster g x).fld P B F = s.fld P B F := rfl
@[simp] theorem State.part_setCluster' (s : State) (g : Nat) (x : ClusterX) (K : Nat) : (s.setCluster g x).part K = s.part K := rfl
@[simp] theorem State.core_setCluster' (s : State) (g : Nat) (x : ClusterX) (K : Nat) : (s.setCluster g x).core K = s.core K := rfl
@[simp] theorem State.link_setCluster' (s : State) (g : Nat) (x : ClusterX) (K : Nat) : (s.setCluster g x).link K = s.link K := rfl
@[simp] theorem State.dbgOf_setCluster' (s : State) (g : Nat) (x : ClusterX) (K : Nat) : (s.setCluster g x).dbgOf K = s.dbgOf K := rfl
@[simp] theorem State.ring_setCluster' (s : State) (g : Nat) (x : ClusterX) (K : Nat) : (s.setCluster g x).ring K = s.ring K := rfl
@[simp] theorem State.queue_setCluster' (s : State) (g : Nat) (x : ClusterX) (K : Nat) : (s.setCluster g x).queue K = s.queue K := rfl
@[simp] theorem State.reg_setLink' (s : State) (n : Nat) (x : LinkX) (P B O : Nat) : (s.setLink n x).reg P B O = s.reg P B O := rfl
@[simp] theorem State.fld_setLink' (s : State) (n : Nat) (x : LinkX) (P B : Nat) (F : Fld) : (s.setLink n x).fld P B F = s.fld P B F := rfl
@[simp] theorem State.part_setLink' (s : State) (n : Nat) (x : LinkX) (K : Nat) : (s.setLink n x).part K = s.part K := rfl
@[simp] theorem State.core_setLink' (s : State) (n : Nat) (x : LinkX) (K : Nat) : (s.setLink n x).core K = s.core K := rfl
@[simp] theorem State.cluster_setLink' (s : State) (n : Nat) (x : LinkX) (K : Nat) : (s.setLink n x).cluster K = s.cluster K := rfl
@[simp] theorem State.dbgOf_setLink' (s : State) (n : Nat) (x : LinkX) (K : Nat) : (s.setLink n x).dbgOf K = s.dbgOf K := rfl
@[simp] theorem State.ring_setLink' (s : State) (n : Nat) (x : LinkX) (K : Nat) : (s.setLink n x).ring K = s.ring K := rfl
@[simp] theorem State.queue_setLink' (s : State) (n : Nat) (x : LinkX) (K : Nat) : (s.setLink n x).queue K = s.queue K := rfl
@[simp] theorem State.reg_setDbg' (s : State) (page : Nat) (x : DbgX) (P B O : Nat) : (s.setDbg page x).reg P B O = s.reg P B O := rfl
@[simp] theorem State.fld_setDbg' (s : State) (page : Nat) (x : DbgX) (P B : Nat) (F : Fld) : (s.setDbg page x).fld P B F = s.fld P B F := rfl
@[simp] theorem State.part_setDbg' (s : State) (page : Nat) (x : DbgX) (K : Nat) : (s.setDbg page x).part K = s.part K := rfl
@[simp] theorem State.core_setDbg' (s : State) (page : Nat) (x : DbgX) (K : Nat) : (s.setDbg page x).core K = s.core K := rfl
@[simp] theorem State.cluster_setDbg' (s : State) (page : Nat) (x : DbgX) (K : Nat) : (s.setDbg page x).cluster K = s.cluster K := rfl
@[simp] theorem State.link_setDbg' (s : State) (page : Nat) (x : DbgX) (K : Nat) : (s.setDbg page x).link K = s.link K := rfl
@[simp] theorem State.ring_setDbg' (s : State) (page : Nat) (x : DbgX) (K : Nat) : (s.setDbg page x).ring K = s.ring K := rfl
@[simp] theorem State.queue_setDbg' (s : State) (page : Nat) (x : DbgX) (K : Nat) : (s.setDbg page x).queue K = s.queue K := rfl
@[simp] theorem State.reg_setRing' (s : State) (r : Nat) (x : Ring) (P B O : Nat) : (s.setRing r x).reg P B O = s.reg P B O := rfl
@[simp] theorem State.fld_setRing' (s : State) (r : Nat) (x : Ring) (P B : Nat) (F : Fld) : (s.setRing r x).fld P B F = s.fld P B F := rfl
@[simp] theorem State.part_setRing' (s : State) (r : Nat) (x : Ring) (K : Nat) : (s.setRing r x).part K = s.part K := rfl
@[simp] theorem State.core_setRing' (s : State) (r : Nat) (x : Ring) (K : Nat) : (s.setRing r x).core K = s.core K := rfl
@[simp] theorem State.cluster_setRing' (s : State) (r : Nat) (x : Ring) (K : Nat) : (s.setRing r x).cluster K = s.cluster K := rfl
@[simp] theorem State.link_setRing' (s : State) (r : Nat) (x : Ring) (K : Nat) : (s.setRing r x).link K = s.link K := rfl
@[simp] theorem State.dbgOf_setRing' (s : State) (r : Nat) (x : Ring) (K : Nat) : (s.setRing r x).dbgOf K = s.dbgOf K := rfl
@[simp] theorem State.queue_setRing' (s : State) (r : Nat) (x : Ring) (K : Nat) : (s.setRing r x).queue K = s.queue K := rfl
@[simp] theorem State.reg_emit' (s : State) (k : OutKind) (a : List Nat) (d : List Byte) (P B O : Nat) : (s.emit k a d).reg P B O = s.reg P B O := rfl
@[simp] theorem State.fld_emit' (s : State) (k : OutKind) (a : List Nat) (d : List Byte) (P B : Nat) (F : Fld) : (s.emit k a d).fld P B F = s.fld P B F := rfl
@[simp] theorem State.part_emit' (s : State) (k : OutKind) (a : List Nat) (d : List Byte) (K : Nat) : (s.emit k a d).part K = s.part K := rfl
@[simp] theorem State.core_emit' (s : State) (k : OutKind) (a : List Nat) (d : List Byte) (K : Nat) : (s.emit k a d).core K = s.core K := rfl
@[simp] theorem State.cluster_emit' (s : State) (k : OutKind) (a : List Nat) (d : List Byte) (K : Nat) : (s.emit k a d).cluster K = s.cluster K := rfl
@[simp] theorem State.link_emit' (s : State) (k : OutKind) (a : List Nat) (d : List Byte) (K : Nat) : (s.emit k a d).link K = s.link K := rfl
@[simp] theorem State.dbgOf_emit' (s : State) (k : OutKind) (a : List Nat) (d : List Byte) (K : Nat) : (s.emit k a d).dbgOf K = s.dbgOf K := rfl
@[simp] theorem State.ring_emit' (s : State) (k : OutKind) (a : List Nat) (d : List Byte) (K : Nat) : (s.emit k a d).ring K = s.ring K := rfl
@[simp] theorem State.queue_emit' (s : State) (k : OutKind) (a : List Nat) (d : List Byte) (K : Nat) : (s.emit k a d).queue K = s.queue K := rfl
@[simp] theorem State.reg_emitPacket' (s : State) (die : Nat) (pk : Packet) (P B O : Nat) : (s.emitPacket die pk).reg P B O = s.reg P B O := rfl
@[simp] theorem State.fld_emitPacket' (s : State) (die : Nat) (pk : Packet) (P B : Nat) (F : Fld) : (s.emitPacket die pk).fld P B F = s.fld P B F := rfl
@[simp] theorem State.part_emitPacket' (s : State) (die : Nat) (pk : Packet) (K : Nat) : (s.emitPacket die pk).part K = s.part K := rfl
@[simp] theorem State.core_emitPacket' (s : State) (die : Nat) (pk : Packet) (K : Nat) : (s.emitPacket die pk).core K = s.core K := rfl
@[simp] theorem State.cluster_emitPacket' (s : State) (die : Nat) (pk : Packet) (K : Nat) : (s.emitPacket die pk).cluster K = s.cluster K := rfl
@[simp] theorem State.link_emitPacket' (s : State) (die : Nat) (pk : Packet) (K : Nat) : (s.emitPacket die pk).link K = s.link K := rfl
@[simp] theorem State.dbgOf_emitPacket' (s : State) (die : Nat) (pk : Packet) (K : Nat) : (s.emitPacket die pk).dbgOf K = s.dbgOf K := rfl
@[simp] theorem State.ring_emitPacket' (s : State) (die : Nat) (pk : Packet) (K : Nat) : (s.emitPacket die pk).ring K = s.ring K := rfl
@[simp] theorem State.queue_emitPacket' (s : State) (die : Nat) (pk : Packet) (K : Nat) : (s.emitPacket die pk).queue K = s.queue K := rfl

/-- Different offsets of one page are different registers. -/
theorem rkey_off {p b o o' : Nat} (h : o' ≠ o) : rkey p b o' ≠ rkey p b o := by unfold rkey; omega

end Sys2Proof.Machine
end

