-- ==== Sys2Proof/Laws/Bits.lean ====
section
/-! SUPPORT. Fields of a register: writing one gives the value written and keeps every other bit. -/

namespace Sys2Proof.Machine

theorem testBit_putBits (v : Nat) {hi lo : Nat} (x : Nat) (h : lo ≤ hi) (i : Nat) :
    (putBits v hi lo x).testBit i = if lo ≤ i ∧ i ≤ hi then x.testBit (i - lo) else v.testBit i := by
  have hv : v = 2 ^ lo * (2 ^ (hi + 1 - lo) * (v / 2 ^ lo / 2 ^ (hi + 1 - lo)) + v / 2 ^ lo % 2 ^ (hi + 1 - lo)) + v % 2 ^ lo := by
    rw [Nat.div_add_mod, Nat.div_add_mod]
  have hp : putBits v hi lo x = 2 ^ lo * (2 ^ (hi + 1 - lo) * (v / 2 ^ lo / 2 ^ (hi + 1 - lo)) + x % 2 ^ (hi + 1 - lo)) + v % 2 ^ lo := by
    unfold putBits bitsOf
    rw [Nat.shiftRight_eq_div_pow]
    dsimp only
    generalize hq : v / 2 ^ lo / 2 ^ (hi + 1 - lo) = q at *
    generalize hm : v / 2 ^ lo % 2 ^ (hi + 1 - lo) = m at *
    generalize hr : v % 2 ^ lo = r at *
    rw [hv, Nat.mul_add, Nat.mul_add, Nat.mul_comm m, Nat.mul_comm (x % _)]
    omega
  have hl : ∀ a b : Nat, a % 2 ^ b < 2 ^ b := fun a b => Nat.mod_lt _ (Nat.two_pow_pos _)
  have e2 : v.testBit i = (2 ^ lo * (2 ^ (hi + 1 - lo) * (v / 2 ^ lo / 2 ^ (hi + 1 - lo)) + v / 2 ^ lo % 2 ^ (hi + 1 - lo)) +
      v % 2 ^ lo).testBit i := by rw [← hv]
  rw [hp, e2, Nat.testBit_two_pow_mul_add _ (hl _ _), Nat.testBit_two_pow_mul_add _ (hl _ _), Nat.testBit_two_pow_mul_add _ (hl _ _),
    Nat.testBit_two_pow_mul_add _ (hl _ _)]
  by_cases h1 : i < lo
  · rw [if_pos h1, if_pos h1, if_neg (by omega)]
  · rw [if_neg h1, if_neg h1]
    by_cases h2 : i ≤ hi
    · rw [if_pos (by omega), if_pos ⟨by omega, h2⟩, Nat.testBit_mod_two_pow]
      simp; omega
    · rw [if_neg (by omega), if_neg (by omega), if_neg (by omega)]

theorem testBit_bitsOf (v hi lo i : Nat) : (bitsOf v hi lo).testBit i = (decide (i < hi + 1 - lo) && v.testBit (lo + i)) := by
  unfold bitsOf; rw [Nat.testBit_mod_two_pow, Nat.testBit_shiftRight]

/-- The field written. -/
theorem bitsOf_putBits (v : Nat) {hi lo : Nat} (x : Nat) (h : lo ≤ hi) (h64 : hi < 64) :
    bitsOf (putBits v hi lo x % 2 ^ 64) hi lo = x % 2 ^ (hi + 1 - lo) := by
  apply Nat.eq_of_testBit_eq
  intro i
  rw [testBit_bitsOf, Nat.testBit_mod_two_pow, Nat.testBit_mod_two_pow, testBit_putBits _ _ h]
  by_cases hi' : i < hi + 1 - lo
  · rw [if_pos (by omega), Nat.add_sub_cancel_left, decide_eq_true (by omega : lo + i < 64), decide_eq_true hi']; rfl
  · simp [hi']

/-- A field beside the one written. -/
theorem bitsOf_putBits_ne (v : Nat) {hi lo hi' lo' : Nat} (x : Nat) (h : lo ≤ hi) (h64 : hi' < 64) (hd : hi' < lo ∨ hi < lo') :
    bitsOf (putBits v hi lo x % 2 ^ 64) hi' lo' = bitsOf v hi' lo' := by
  apply Nat.eq_of_testBit_eq
  intro i
  rw [testBit_bitsOf, testBit_bitsOf, Nat.testBit_mod_two_pow, testBit_putBits _ _ h]
  by_cases hi' : i < hi' + 1 - lo'
  · rw [if_neg (by omega), decide_eq_true (by omega : lo' + i < 64)]; rfl
  · simp [hi']

theorem State.fld_setFld (s : State) (page bank : Nat) {f : Fld} (v : Nat) (h : f.lo ≤ f.hi) (h64 : f.hi < 64) :
    (s.setFld page bank f v).fld page bank f = v % 2 ^ (f.hi + 1 - f.lo) := by
  unfold State.fld State.setFld
  rw [State.reg_setReg, bitsOf_putBits _ _ h h64]

theorem State.fld_setFld_ne (s : State) (page bank : Nat) {f g : Fld} (v : Nat) (ho : g.off = f.off) (h : f.lo ≤ f.hi) (h64 : g.hi < 64)
    (hd : g.hi < f.lo ∨ f.hi < g.lo) : (s.setFld page bank f v).fld page bank g = s.fld page bank g := by
  unfold State.fld State.setFld
  rw [ho, State.reg_setReg, bitsOf_putBits_ne _ _ h h64 hd]

theorem State.fld_setReg_ne (s : State) {p b o p' b' : Nat} {f : Fld} (v : Nat) (h : rkey p' b' f.off ≠ rkey p b o) :
    (s.setReg p b o v).fld p' b' f = s.fld p' b' f := by
  unfold State.fld; rw [State.reg_setReg_ne _ _ h]

theorem State.reg_setFld_ne (s : State) {p b p' b' o' : Nat} {f : Fld} (v : Nat) (h : rkey p' b' o' ≠ rkey p b f.off) :
    (s.setFld p b f v).reg p' b' o' = s.reg p' b' o' := State.reg_setReg_ne _ _ h

theorem State.fld_setFld_reg_ne (s : State) {p b p' b' : Nat} {f g : Fld} (v : Nat) (h : rkey p' b' g.off ≠ rkey p b f.off) :
    (s.setFld p b f v).fld p' b' g = s.fld p' b' g := State.fld_setReg_ne _ _ h

/-! ### Values fit their registers -/

theorem entryRegs_lt : ∀ r ∈ entryRegs, r.resetVal < 2 ^ 64 := by decide +kernel
theorem headerRegs_lt : ∀ r ∈ headerRegs, r.resetVal < 2 ^ 64 := by decide +kernel
theorem queueContextRegs_lt : ∀ r ∈ queueContextRegs, r.resetVal < 2 ^ 64 := by decide +kernel
theorem pageRegs_lt (t : PageType) : ∀ r ∈ pageRegs t, r.resetVal < 2 ^ 64 := by cases t <;> decide +kernel

theorem resetVal_lt {t : PageType} {off : Nat} {r : RegDesc} (h : regDesc? t off = some r) : r.resetVal < 2 ^ 64 := by
  unfold regDesc? at h
  split at h
  · cases h
  · split at h
    · exact entryRegs_lt _ (List.mem_of_find?_eq_some h)
    · split at h
      · exact headerRegs_lt _ (List.mem_of_find?_eq_some h)
      · split at h
        · exact queueContextRegs_lt _ (List.mem_of_find?_eq_some h)
        · exact pageRegs_lt _ _ (List.mem_of_find?_eq_some h)

/-- A register's value fits its 64 bits. -/
theorem State.reg_lt (s : State) (page bank off : Nat) : s.reg page bank off < 2 ^ 64 := by
  unfold State.reg regReset
  split
  · exact BitVec.isLt _
  · split
    · exact lt_trans (Nat.mod_lt _ (by decide)) (by decide)
    · split
      · decide
      · split
        · rename_i h; exact resetVal_lt h
        · decide

end Sys2Proof.Machine
end

