-- ==== Sys2Proof/Laws/Frame.lean ====
section
/-! SUPPORT. What an operation can change: the relation in which every later law of the operations is stated. A set of fields of
State is a number, field i in bit i. -/

namespace Sys2Proof.Machine

/-- Nothing but the fields of `W` differs, and the tables keep their canonical form. -/
structure Within (W : Nat) (s t : State) : Prop where
  stored : s.stored = true → t.stored = true
  n8 : W.testBit 0 = false → t.n8 = s.n8
  timeNow : W.testBit 1 = false → t.timeNow = s.timeNow
  refPresent : W.testBit 2 = false → t.refPresent = s.refPresent
  holdover : W.testBit 3 = false → t.holdover = s.holdover
  regs : W.testBit 4 = false → t.regs = s.regs
  shadows : W.testBit 5 = false → t.shadows = s.shadows
  latches : W.testBit 6 = false → t.latches = s.latches
  hbm : W.testBit 7 = false → t.hbm = s.hbm
  hbmBad : W.testBit 8 = false → t.hbmBad = s.hbmBad
  flash : W.testBit 9 = false → t.flash = s.flash
  host : W.testBit 10 = false → t.host = s.host
  queues : W.testBit 11 = false → t.queues = s.queues
  parts : W.testBit 12 = false → t.parts = s.parts
  cores : W.testBit 13 = false → t.cores = s.cores
  clusters : W.testBit 14 = false → t.clusters = s.clusters
  adm : W.testBit 15 = false → t.adm = s.adm
  bars : W.testBit 16 = false → t.bars = s.bars
  tiles : W.testBit 17 = false → t.tiles = s.tiles
  rings : W.testBit 18 = false → t.rings = s.rings
  faultTimes : W.testBit 19 = false → t.faultTimes = s.faultTimes
  retireFailed : W.testBit 20 = false → t.retireFailed = s.retireFailed
  links : W.testBit 21 = false → t.links = s.links
  xfers : W.testBit 22 = false → t.xfers = s.xfers
  reqs : W.testBit 23 = false → t.reqs = s.reqs
  colls : W.testBit 24 = false → t.colls = s.colls
  earlyReady : W.testBit 25 = false → t.earlyReady = s.earlyReady
  routed : W.testBit 26 = false → t.routed = s.routed
  notices : W.testBit 27 = false → t.notices = s.notices
  noticeSeq : W.testBit 28 = false → t.noticeSeq = s.noticeSeq
  noticeT : W.testBit 29 = false → t.noticeT = s.noticeT
  timeX : W.testBit 30 = false → t.timeX = s.timeX
  dbg : W.testBit 31 = false → t.dbg = s.dbg
  boot : W.testBit 32 = false → t.boot = s.boot
  fw : W.testBit 33 = false → t.fw = s.fw
  power : W.testBit 34 = false → t.power = s.power
  sb : W.testBit 35 = false → t.sb = s.sb
  cxl : W.testBit 36 = false → t.cxl = s.cxl
  out : W.testBit 37 = false → t.out = s.out
  fresh : W.testBit 38 = false → t.fresh = s.fresh
  pending : W.testBit 39 = false → t.pending = s.pending

theorem sub_le {A B W : Nat} (h : A ||| B = B) (hW : B ||| W = W) : A ||| W = W := by
  rw [← hW, ← Nat.or_assoc, h]

theorem sub_bit {A W i : Nat} (h : A ||| W = W) (hb : W.testBit i = false) : A.testBit i = false := by
  rw [← h, Nat.testBit_or] at hb; exact (Bool.or_eq_false_iff.1 hb).1

theorem Within.rfl (W : Nat) (s : State) : Within W s s := by
  constructor <;> intros <;> trivial

theorem Within.trans {W : Nat} {s t u : State} (h : Within W s t) (k : Within W t u) : Within W s u where
  stored := fun hs => k.stored (h.stored hs)
  n8 := fun hb => (k.n8 hb).trans (h.n8 hb)
  timeNow := fun hb => (k.timeNow hb).trans (h.timeNow hb)
  refPresent := fun hb => (k.refPresent hb).trans (h.refPresent hb)
  holdover := fun hb => (k.holdover hb).trans (h.holdover hb)
  regs := fun hb => (k.regs hb).trans (h.regs hb)
  shadows := fun hb => (k.shadows hb).trans (h.shadows hb)
  latches := fun hb => (k.latches hb).trans (h.latches hb)
  hbm := fun hb => (k.hbm hb).trans (h.hbm hb)
  hbmBad := fun hb => (k.hbmBad hb).trans (h.hbmBad hb)
  flash := fun hb => (k.flash hb).trans (h.flash hb)
  host := fun hb => (k.host hb).trans (h.host hb)
  queues := fun hb => (k.queues hb).trans (h.queues hb)
  parts := fun hb => (k.parts hb).trans (h.parts hb)
  cores := fun hb => (k.cores hb).trans (h.cores hb)
  clusters := fun hb => (k.clusters hb).trans (h.clusters hb)
  adm := fun hb => (k.adm hb).trans (h.adm hb)
  bars := fun hb => (k.bars hb).trans (h.bars hb)
  tiles := fun hb => (k.tiles hb).trans (h.tiles hb)
  rings := fun hb => (k.rings hb).trans (h.rings hb)
  faultTimes := fun hb => (k.faultTimes hb).trans (h.faultTimes hb)
  retireFailed := fun hb => (k.retireFailed hb).trans (h.retireFailed hb)
  links := fun hb => (k.links hb).trans (h.links hb)
  xfers := fun hb => (k.xfers hb).trans (h.xfers hb)
  reqs := fun hb => (k.reqs hb).trans (h.reqs hb)
  colls := fun hb => (k.colls hb).trans (h.colls hb)
  earlyReady := fun hb => (k.earlyReady hb).trans (h.earlyReady hb)
  routed := fun hb => (k.routed hb).trans (h.routed hb)
  notices := fun hb => (k.notices hb).trans (h.notices hb)
  noticeSeq := fun hb => (k.noticeSeq hb).trans (h.noticeSeq hb)
  noticeT := fun hb => (k.noticeT hb).trans (h.noticeT hb)
  timeX := fun hb => (k.timeX hb).trans (h.timeX hb)
  dbg := fun hb => (k.dbg hb).trans (h.dbg hb)
  boot := fun hb => (k.boot hb).trans (h.boot hb)
  fw := fun hb => (k.fw hb).trans (h.fw hb)
  power := fun hb => (k.power hb).trans (h.power hb)
  sb := fun hb => (k.sb hb).trans (h.sb hb)
  cxl := fun hb => (k.cxl hb).trans (h.cxl hb)
  out := fun hb => (k.out hb).trans (h.out hb)
  fresh := fun hb => (k.fresh hb).trans (h.fresh hb)
  pending := fun hb => (k.pending hb).trans (h.pending hb)

theorem Within.mono {V W : Nat} {s t : State} (h : Within V s t) (hV : V ||| W = W) : Within W s t where
  stored := h.stored
  n8 := fun hb => h.n8 (sub_bit hV hb)
  timeNow := fun hb => h.timeNow (sub_bit hV hb)
  refPresent := fun hb => h.refPresent (sub_bit hV hb)
  holdover := fun hb => h.holdover (sub_bit hV hb)
  regs := fun hb => h.regs (sub_bit hV hb)
  shadows := fun hb => h.shadows (sub_bit hV hb)
  latches := fun hb => h.latches (sub_bit hV hb)
  hbm := fun hb => h.hbm (sub_bit hV hb)
  hbmBad := fun hb => h.hbmBad (sub_bit hV hb)
  flash := fun hb => h.flash (sub_bit hV hb)
  host := fun hb => h.host (sub_bit hV hb)
  queues := fun hb => h.queues (sub_bit hV hb)
  parts := fun hb => h.parts (sub_bit hV hb)
  cores := fun hb => h.cores (sub_bit hV hb)
  clusters := fun hb => h.clusters (sub_bit hV hb)
  adm := fun hb => h.adm (sub_bit hV hb)
  bars := fun hb => h.bars (sub_bit hV hb)
  tiles := fun hb => h.tiles (sub_bit hV hb)
  rings := fun hb => h.rings (sub_bit hV hb)
  faultTimes := fun hb => h.faultTimes (sub_bit hV hb)
  retireFailed := fun hb => h.retireFailed (sub_bit hV hb)
  links := fun hb => h.links (sub_bit hV hb)
  xfers := fun hb => h.xfers (sub_bit hV hb)
  reqs := fun hb => h.reqs (sub_bit hV hb)
  colls := fun hb => h.colls (sub_bit hV hb)
  earlyReady := fun hb => h.earlyReady (sub_bit hV hb)
  routed := fun hb => h.routed (sub_bit hV hb)
  notices := fun hb => h.notices (sub_bit hV hb)
  noticeSeq := fun hb => h.noticeSeq (sub_bit hV hb)
  noticeT := fun hb => h.noticeT (sub_bit hV hb)
  timeX := fun hb => h.timeX (sub_bit hV hb)
  dbg := fun hb => h.dbg (sub_bit hV hb)
  boot := fun hb => h.boot (sub_bit hV hb)
  fw := fun hb => h.fw (sub_bit hV hb)
  power := fun hb => h.power (sub_bit hV hb)
  sb := fun hb => h.sb (sub_bit hV hb)
  cxl := fun hb => h.cxl (sub_bit hV hb)
  out := fun hb => h.out (sub_bit hV hb)
  fresh := fun hb => h.fresh (sub_bit hV hb)
  pending := fun hb => h.pending (sub_bit hV hb)

/-- An operation that keeps to `V` after one that keeps to `W`. -/
theorem Within.step {V W : Nat} {s t u : State} (k : Within V t u) (hV : V ||| W = W) (h : Within W s t) : Within W s u := h.trans (k.mono hV)

theorem Within.cut {W : Nat} {s : State} {P : Prop} (x : State) (h : Within W s x) (k : Within W s x → P) : P := k h

theorem Within.ite {W : Nat} {s t u : State} {c : Prop} [Decidable c] (h : Within W s t) (k : Within W s u) :
    Within W s (if c then t else u) := by split <;> assumption

theorem Within.fold {α : Type} {W : Nat} {s t : State} {f : State → α → State} {l : List α}
    (hf : ∀ u x, Within W s u → Within W s (f u x)) (h : Within W s t) : Within W s (l.foldl f t) := by
  induction l generalizing t with
  | nil => exact h
  | cons x r ih => exact ih (hf t x h)

theorem Within.fold1 {α β : Type} {W : Nat} {s : State} {i : State × β} {f : State × β → α → State × β} {l : List α}
    (hf : ∀ u x, Within W s u.1 → Within W s (f u x).1) (h : Within W s i.1) : Within W s (l.foldl f i).1 := by
  induction l generalizing i with
  | nil => exact h
  | cons x r ih => exact ih (hf i x h)

theorem Within.fold2 {α β : Type} {W : Nat} {s : State} {i : β × State} {f : β × State → α → β × State} {l : List α}
    (hf : ∀ u x, Within W s u.2 → Within W s (f u x).2) (h : Within W s i.2) : Within W s (l.foldl f i).2 := by
  induction l generalizing i with
  | nil => exact h
  | cons x r ih => exact ih (hf i x h)

theorem Within.ite1 {β : Type} {W : Nat} {s : State} {t u : State × β} {c : Prop} [Decidable c] (h : Within W s t.1) (k : Within W s u.1) :
    Within W s (if c then t else u).1 := by split <;> assumption

theorem Within.ite2 {β : Type} {W : Nat} {s : State} {t u : β × State} {c : Prop} [Decidable c] (h : Within W s t.2) (k : Within W s u.2) :
    Within W s (if c then t else u).2 := by split <;> assumption

theorem Within.foldP {α β : Type} {W : Nat} {s : State} (p : β → State) {i : β} {f : β → α → β} {l : List α}
    (hf : ∀ u x, Within W s (p u) → Within W s (p (f u x))) (h : Within W s (p i)) : Within W s (p (l.foldl f i)) := by
  induction l generalizing i with
  | nil => exact h
  | cons x r ih => exact ih (hf i x h)

theorem Within.cutF {W : Nat} {s : State} {P : Prop} (f : State → State) (h : ∀ t, Within W s t → Within W s (f t))
    (k : (∀ t, Within W s t → Within W s (f t)) → P) : P := k h

theorem Within.fst {β : Type} {W : Nat} {s t : State} {b : β} (h : Within W s t) : Within W s (t, b).1 := h
theorem Within.snd {β : Type} {W : Nat} {s t : State} {b : β} (h : Within W s t) : Within W s (b, t).2 := h

/-! ### Fields that are no table of the canonical form -/

theorem Within.upd_adm {W : Nat} {σ s : State} {v0 : _} (hW : 0x8000 ||| W = W) (h : Within W σ s) :
    Within W σ { s with adm := v0 } where
  stored := h.stored
  n8 := h.n8
  timeNow := h.timeNow
  refPresent := h.refPresent
  holdover := h.holdover
  regs := h.regs
  shadows := h.shadows
  latches := h.latches
  hbm := h.hbm
  hbmBad := h.hbmBad
  flash := h.flash
  host := h.host
  queues := h.queues
  parts := h.parts
  cores := h.cores
  clusters := h.clusters
  adm := fun hb => Bool.noConfusion (sub_bit hW hb)
  bars := h.bars
  tiles := h.tiles
  rings := h.rings
  faultTimes := h.faultTimes
  retireFailed := h.retireFailed
  links := h.links
  xfers := h.xfers
  reqs := h.reqs
  colls := h.colls
  earlyReady := h.earlyReady
  routed := h.routed
  notices := h.notices
  noticeSeq := h.noticeSeq
  noticeT := h.noticeT
  timeX := h.timeX
  dbg := h.dbg
  boot := h.boot
  fw := h.fw
  power := h.power
  sb := h.sb
  cxl := h.cxl
  out := h.out
  fresh := h.fresh
  pending := h.pending

theorem Within.upd_adm_fresh {W : Nat} {σ s : State} {v0 v1 : _} (hW : 0x4000008000 ||| W = W) (h : Within W σ s) :
    Within W σ { s with adm := v0, fresh := v1 } where
  stored := h.stored
  n8 := h.n8
  timeNow := h.timeNow
  refPresent := h.refPresent
  holdover := h.holdover
  regs := h.regs
  shadows := h.shadows
  latches := h.latches
  hbm := h.hbm
  hbmBad := h.hbmBad
  flash := h.flash
  host := h.host
  queues := h.queues
  parts := h.parts
  cores := h.cores
  clusters := h.clusters
  adm := fun hb => Bool.noConfusion (sub_bit hW hb)
  bars := h.bars
  tiles := h.tiles
  rings := h.rings
  faultTimes := h.faultTimes
  retireFailed := h.retireFailed
  links := h.links
  xfers := h.xfers
  reqs := h.reqs
  colls := h.colls
  earlyReady := h.earlyReady
  routed := h.routed
  notices := h.notices
  noticeSeq := h.noticeSeq
  noticeT := h.noticeT
  timeX := h.timeX
  dbg := h.dbg
  boot := h.boot
  fw := h.fw
  power := h.power
  sb := h.sb
  cxl := h.cxl
  out := h.out
  fresh := fun hb => Bool.noConfusion (sub_bit hW hb)
  pending := h.pending

theorem Within.upd_bars {W : Nat} {σ s : State} {v0 : _} (hW : 0x10000 ||| W = W) (h : Within W σ s) :
    Within W σ { s with bars := v0 } where
  stored := h.stored
  n8 := h.n8
  timeNow := h.timeNow
  refPresent := h.refPresent
  holdover := h.holdover
  regs := h.regs
  shadows := h.shadows
  latches := h.latches
  hbm := h.hbm
  hbmBad := h.hbmBad
  flash := h.flash
  host := h.host
  queues := h.queues
  parts := h.parts
  cores := h.cores
  clusters := h.clusters
  adm := h.adm
  bars := fun hb => Bool.noConfusion (sub_bit hW hb)
  tiles := h.tiles
  rings := h.rings
  faultTimes := h.faultTimes
  retireFailed := h.retireFailed
  links := h.links
  xfers := h.xfers
  reqs := h.reqs
  colls := h.colls
  earlyReady := h.earlyReady
  routed := h.routed
  notices := h.notices
  noticeSeq := h.noticeSeq
  noticeT := h.noticeT
  timeX := h.timeX
  dbg := h.dbg
  boot := h.boot
  fw := h.fw
  power := h.power
  sb := h.sb
  cxl := h.cxl
  out := h.out
  fresh := h.fresh
  pending := h.pending

theorem Within.upd_boot {W : Nat} {σ s : State} {v0 : _} (hW : 0x100000000 ||| W = W) (h : Within W σ s) :
    Within W σ { s with boot := v0 } where
  stored := h.stored
  n8 := h.n8
  timeNow := h.timeNow
  refPresent := h.refPresent
  holdover := h.holdover
  regs := h.regs
  shadows := h.shadows
  latches := h.latches
  hbm := h.hbm
  hbmBad := h.hbmBad
  flash := h.flash
  host := h.host
  queues := h.queues
  parts := h.parts
  cores := h.cores
  clusters := h.clusters
  adm := h.adm
  bars := h.bars
  tiles := h.tiles
  rings := h.rings
  faultTimes := h.faultTimes
  retireFailed := h.retireFailed
  links := h.links
  xfers := h.xfers
  reqs := h.reqs
  colls := h.colls
  earlyReady := h.earlyReady
  routed := h.routed
  notices := h.notices
  noticeSeq := h.noticeSeq
  noticeT := h.noticeT
  timeX := h.timeX
  dbg := h.dbg
  boot := fun hb => Bool.noConfusion (sub_bit hW hb)
  fw := h.fw
  power := h.power
  sb := h.sb
  cxl := h.cxl
  out := h.out
  fresh := h.fresh
  pending := h.pending

theorem Within.upd_boot_power {W : Nat} {σ s : State} {v0 v1 : _} (hW : 0x500000000 ||| W = W) (h : Within W σ s) :
    Within W σ { s with boot := v0, power := v1 } where
  stored := h.stored
  n8 := h.n8
  timeNow := h.timeNow
  refPresent := h.refPresent
  holdover := h.holdover
  regs := h.regs
  shadows := h.shadows
  latches := h.latches
  hbm := h.hbm
  hbmBad := h.hbmBad
  flash := h.flash
  host := h.host
  queues := h.queues
  parts := h.parts
  cores := h.cores
  clusters := h.clusters
  adm := h.adm
  bars := h.bars
  tiles := h.tiles
  rings := h.rings
  faultTimes := h.faultTimes
  retireFailed := h.retireFailed
  links := h.links
  xfers := h.xfers
  reqs := h.reqs
  colls := h.colls
  earlyReady := h.earlyReady
  routed := h.routed
  notices := h.notices
  noticeSeq := h.noticeSeq
  noticeT := h.noticeT
  timeX := h.timeX
  dbg := h.dbg
  boot := fun hb => Bool.noConfusion (sub_bit hW hb)
  fw := h.fw
  power := fun hb => Bool.noConfusion (sub_bit hW hb)
  sb := h.sb
  cxl := h.cxl
  out := h.out
  fresh := h.fresh
  pending := h.pending

theorem Within.upd_clusters {W : Nat} {σ s : State} {v0 : _} (hW : 0x4000 ||| W = W) (h : Within W σ s) :
    Within W σ { s with clusters := v0 } where
  stored := h.stored
  n8 := h.n8
  timeNow := h.timeNow
  refPresent := h.refPresent
  holdover := h.holdover
  regs := h.regs
  shadows := h.shadows
  latches := h.latches
  hbm := h.hbm
  hbmBad := h.hbmBad
  flash := h.flash
  host := h.host
  queues := h.queues
  parts := h.parts
  cores := h.cores
  clusters := fun hb => Bool.noConfusion (sub_bit hW hb)
  adm := h.adm
  bars := h.bars
  tiles := h.tiles
  rings := h.rings
  faultTimes := h.faultTimes
  retireFailed := h.retireFailed
  links := h.links
  xfers := h.xfers
  reqs := h.reqs
  colls := h.colls
  earlyReady := h.earlyReady
  routed := h.routed
  notices := h.notices
  noticeSeq := h.noticeSeq
  noticeT := h.noticeT
  timeX := h.timeX
  dbg := h.dbg
  boot := h.boot
  fw := h.fw
  power := h.power
  sb := h.sb
  cxl := h.cxl
  out := h.out
  fresh := h.fresh
  pending := h.pending

theorem Within.upd_colls {W : Nat} {σ s : State} {v0 : _} (hW : 0x1000000 ||| W = W) (h : Within W σ s) :
    Within W σ { s with colls := v0 } where
  stored := h.stored
  n8 := h.n8
  timeNow := h.timeNow
  refPresent := h.refPresent
  holdover := h.holdover
  regs := h.regs
  shadows := h.shadows
  latches := h.latches
  hbm := h.hbm
  hbmBad := h.hbmBad
  flash := h.flash
  host := h.host
  queues := h.queues
  parts := h.parts
  cores := h.cores
  clusters := h.clusters
  adm := h.adm
  bars := h.bars
  tiles := h.tiles
  rings := h.rings
  faultTimes := h.faultTimes
  retireFailed := h.retireFailed
  links := h.links
  xfers := h.xfers
  reqs := h.reqs
  colls := fun hb => Bool.noConfusion (sub_bit hW hb)
  earlyReady := h.earlyReady
  routed := h.routed
  notices := h.notices
  noticeSeq := h.noticeSeq
  noticeT := h.noticeT
  timeX := h.timeX
  dbg := h.dbg
  boot := h.boot
  fw := h.fw
  power := h.power
  sb := h.sb
  cxl := h.cxl
  out := h.out
  fresh := h.fresh
  pending := h.pending

theorem Within.upd_colls_notices {W : Nat} {σ s : State} {v0 v1 : _} (hW : 0x9000000 ||| W = W) (h : Within W σ s) :
    Within W σ { s with colls := v0, notices := v1 } where
  stored := h.stored
  n8 := h.n8
  timeNow := h.timeNow
  refPresent := h.refPresent
  holdover := h.holdover
  regs := h.regs
  shadows := h.shadows
  latches := h.latches
  hbm := h.hbm
  hbmBad := h.hbmBad
  flash := h.flash
  host := h.host
  queues := h.queues
  parts := h.parts
  cores := h.cores
  clusters := h.clusters
  adm := h.adm
  bars := h.bars
  tiles := h.tiles
  rings := h.rings
  faultTimes := h.faultTimes
  retireFailed := h.retireFailed
  links := h.links
  xfers := h.xfers
  reqs := h.reqs
  colls := fun hb => Bool.noConfusion (sub_bit hW hb)
  earlyReady := h.earlyReady
  routed := h.routed
  notices := fun hb => Bool.noConfusion (sub_bit hW hb)
  noticeSeq := h.noticeSeq
  noticeT := h.noticeT
  timeX := h.timeX
  dbg := h.dbg
  boot := h.boot
  fw := h.fw
  power := h.power
  sb := h.sb
  cxl := h.cxl
  out := h.out
  fresh := h.fresh
  pending := h.pending

theorem Within.upd_cores {W : Nat} {σ s : State} {v0 : _} (hW : 0x2000 ||| W = W) (h : Within W σ s) :
    Within W σ { s with cores := v0 } where
  stored := h.stored
  n8 := h.n8
  timeNow := h.timeNow
  refPresent := h.refPresent
  holdover := h.holdover
  regs := h.regs
  shadows := h.shadows
  latches := h.latches
  hbm := h.hbm
  hbmBad := h.hbmBad
  flash := h.flash
  host := h.host
  queues := h.queues
  parts := h.parts
  cores := fun hb => Bool.noConfusion (sub_bit hW hb)
  clusters := h.clusters
  adm := h.adm
  bars := h.bars
  tiles := h.tiles
  rings := h.rings
  faultTimes := h.faultTimes
  retireFailed := h.retireFailed
  links := h.links
  xfers := h.xfers
  reqs := h.reqs
  colls := h.colls
  earlyReady := h.earlyReady
  routed := h.routed
  notices := h.notices
  noticeSeq := h.noticeSeq
  noticeT := h.noticeT
  timeX := h.timeX
  dbg := h.dbg
  boot := h.boot
  fw := h.fw
  power := h.power
  sb := h.sb
  cxl := h.cxl
  out := h.out
  fresh := h.fresh
  pending := h.pending

theorem Within.upd_cxl {W : Nat} {σ s : State} {v0 : _} (hW : 0x1000000000 ||| W = W) (h : Within W σ s) :
    Within W σ { s with cxl := v0 } where
  stored := h.stored
  n8 := h.n8
  timeNow := h.timeNow
  refPresent := h.refPresent
  holdover := h.holdover
  regs := h.regs
  shadows := h.shadows
  latches := h.latches
  hbm := h.hbm
  hbmBad := h.hbmBad
  flash := h.flash
  host := h.host
  queues := h.queues
  parts := h.parts
  cores := h.cores
  clusters := h.clusters
  adm := h.adm
  bars := h.bars
  tiles := h.tiles
  rings := h.rings
  faultTimes := h.faultTimes
  retireFailed := h.retireFailed
  links := h.links
  xfers := h.xfers
  reqs := h.reqs
  colls := h.colls
  earlyReady := h.earlyReady
  routed := h.routed
  notices := h.notices
  noticeSeq := h.noticeSeq
  noticeT := h.noticeT
  timeX := h.timeX
  dbg := h.dbg
  boot := h.boot
  fw := h.fw
  power := h.power
  sb := h.sb
  cxl := fun hb => Bool.noConfusion (sub_bit hW hb)
  out := h.out
  fresh := h.fresh
  pending := h.pending

theorem Within.upd_dbg {W : Nat} {σ s : State} {v0 : _} (hW : 0x80000000 ||| W = W) (h : Within W σ s) :
    Within W σ { s with dbg := v0 } where
  stored := h.stored
  n8 := h.n8
  timeNow := h.timeNow
  refPresent := h.refPresent
  holdover := h.holdover
  regs := h.regs
  shadows := h.shadows
  latches := h.latches
  hbm := h.hbm
  hbmBad := h.hbmBad
  flash := h.flash
  host := h.host
  queues := h.queues
  parts := h.parts
  cores := h.cores
  clusters := h.clusters
  adm := h.adm
  bars := h.bars
  tiles := h.tiles
  rings := h.rings
  faultTimes := h.faultTimes
  retireFailed := h.retireFailed
  links := h.links
  xfers := h.xfers
  reqs := h.reqs
  colls := h.colls
  earlyReady := h.earlyReady
  routed := h.routed
  notices := h.notices
  noticeSeq := h.noticeSeq
  noticeT := h.noticeT
  timeX := h.timeX
  dbg := fun hb => Bool.noConfusion (sub_bit hW hb)
  boot := h.boot
  fw := h.fw
  power := h.power
  sb := h.sb
  cxl := h.cxl
  out := h.out
  fresh := h.fresh
  pending := h.pending

theorem Within.upd_earlyReady {W : Nat} {σ s : State} {v0 : _} (hW : 0x2000000 ||| W = W) (h : Within W σ s) :
    Within W σ { s with earlyReady := v0 } where
  stored := h.stored
  n8 := h.n8
  timeNow := h.timeNow
  refPresent := h.refPresent
  holdover := h.holdover
  regs := h.regs
  shadows := h.shadows
  latches := h.latches
  hbm := h.hbm
  hbmBad := h.hbmBad
  flash := h.flash
  host := h.host
  queues := h.queues
  parts := h.parts
  cores := h.cores
  clusters := h.clusters
  adm := h.adm
  bars := h.bars
  tiles := h.tiles
  rings := h.rings
  faultTimes := h.faultTimes
  retireFailed := h.retireFailed
  links := h.links
  xfers := h.xfers
  reqs := h.reqs
  colls := h.colls
  earlyReady := fun hb => Bool.noConfusion (sub_bit hW hb)
  routed := h.routed
  notices := h.notices
  noticeSeq := h.noticeSeq
  noticeT := h.noticeT
  timeX := h.timeX
  dbg := h.dbg
  boot := h.boot
  fw := h.fw
  power := h.power
  sb := h.sb
  cxl := h.cxl
  out := h.out
  fresh := h.fresh
  pending := h.pending

theorem Within.upd_faultTimes {W : Nat} {σ s : State} {v0 : _} (hW : 0x80000 ||| W = W) (h : Within W σ s) :
    Within W σ { s with faultTimes := v0 } where
  stored := h.stored
  n8 := h.n8
  timeNow := h.timeNow
  refPresent := h.refPresent
  holdover := h.holdover
  regs := h.regs
  shadows := h.shadows
  latches := h.latches
  hbm := h.hbm
  hbmBad := h.hbmBad
  flash := h.flash
  host := h.host
  queues := h.queues
  parts := h.parts
  cores := h.cores
  clusters := h.clusters
  adm := h.adm
  bars := h.bars
  tiles := h.tiles
  rings := h.rings
  faultTimes := fun hb => Bool.noConfusion (sub_bit hW hb)
  retireFailed := h.retireFailed
  links := h.links
  xfers := h.xfers
  reqs := h.reqs
  colls := h.colls
  earlyReady := h.earlyReady
  routed := h.routed
  notices := h.notices
  noticeSeq := h.noticeSeq
  noticeT := h.noticeT
  timeX := h.timeX
  dbg := h.dbg
  boot := h.boot
  fw := h.fw
  power := h.power
  sb := h.sb
  cxl := h.cxl
  out := h.out
  fresh := h.fresh
  pending := h.pending

theorem Within.upd_fresh {W : Nat} {σ s : State} {v0 : _} (hW : 0x4000000000 ||| W = W) (h : Within W σ s) :
    Within W σ { s with fresh := v0 } where
  stored := h.stored
  n8 := h.n8
  timeNow := h.timeNow
  refPresent := h.refPresent
  holdover := h.holdover
  regs := h.regs
  shadows := h.shadows
  latches := h.latches
  hbm := h.hbm
  hbmBad := h.hbmBad
  flash := h.flash
  host := h.host
  queues := h.queues
  parts := h.parts
  cores := h.cores
  clusters := h.clusters
  adm := h.adm
  bars := h.bars
  tiles := h.tiles
  rings := h.rings
  faultTimes := h.faultTimes
  retireFailed := h.retireFailed
  links := h.links
  xfers := h.xfers
  reqs := h.reqs
  colls := h.colls
  earlyReady := h.earlyReady
  routed := h.routed
  notices := h.notices
  noticeSeq := h.noticeSeq
  noticeT := h.noticeT
  timeX := h.timeX
  dbg := h.dbg
  boot := h.boot
  fw := h.fw
  power := h.power
  sb := h.sb
  cxl := h.cxl
  out := h.out
  fresh := fun hb => Bool.noConfusion (sub_bit hW hb)
  pending := h.pending

theorem Within.upd_fw {W : Nat} {σ s : State} {v0 : _} (hW : 0x200000000 ||| W = W) (h : Within W σ s) :
    Within W σ { s with fw := v0 } where
  stored := h.stored
  n8 := h.n8
  timeNow := h.timeNow
  refPresent := h.refPresent
  holdover := h.holdover
  regs := h.regs
  shadows := h.shadows
  latches := h.latches
  hbm := h.hbm
  hbmBad := h.hbmBad
  flash := h.flash
  host := h.host
  queues := h.queues
  parts := h.parts
  cores := h.cores
  clusters := h.clusters
  adm := h.adm
  bars := h.bars
  tiles := h.tiles
  rings := h.rings
  faultTimes := h.faultTimes
  retireFailed := h.retireFailed
  links := h.links
  xfers := h.xfers
  reqs := h.reqs
  colls := h.colls
  earlyReady := h.earlyReady
  routed := h.routed
  notices := h.notices
  noticeSeq := h.noticeSeq
  noticeT := h.noticeT
  timeX := h.timeX
  dbg := h.dbg
  boot := h.boot
  fw := fun hb => Bool.noConfusion (sub_bit hW hb)
  power := h.power
  sb := h.sb
  cxl := h.cxl
  out := h.out
  fresh := h.fresh
  pending := h.pending

theorem Within.upd_hbmBad {W : Nat} {σ s : State} {v0 : _} (hW : 0x100 ||| W = W) (h : Within W σ s) :
    Within W σ { s with hbmBad := v0 } where
  stored := h.stored
  n8 := h.n8
  timeNow := h.timeNow
  refPresent := h.refPresent
  holdover := h.holdover
  regs := h.regs
  shadows := h.shadows
  latches := h.latches
  hbm := h.hbm
  hbmBad := fun hb => Bool.noConfusion (sub_bit hW hb)
  flash := h.flash
  host := h.host
  queues := h.queues
  parts := h.parts
  cores := h.cores
  clusters := h.clusters
  adm := h.adm
  bars := h.bars
  tiles := h.tiles
  rings := h.rings
  faultTimes := h.faultTimes
  retireFailed := h.retireFailed
  links := h.links
  xfers := h.xfers
  reqs := h.reqs
  colls := h.colls
  earlyReady := h.earlyReady
  routed := h.routed
  notices := h.notices
  noticeSeq := h.noticeSeq
  noticeT := h.noticeT
  timeX := h.timeX
  dbg := h.dbg
  boot := h.boot
  fw := h.fw
  power := h.power
  sb := h.sb
  cxl := h.cxl
  out := h.out
  fresh := h.fresh
  pending := h.pending

theorem Within.upd_holdover_timeX {W : Nat} {σ s : State} {v0 v1 : _} (hW : 0x40000008 ||| W = W) (h : Within W σ s) :
    Within W σ { s with holdover := v0, timeX := v1 } where
  stored := h.stored
  n8 := h.n8
  timeNow := h.timeNow
  refPresent := h.refPresent
  holdover := fun hb => Bool.noConfusion (sub_bit hW hb)
  regs := h.regs
  shadows := h.shadows
  latches := h.latches
  hbm := h.hbm
  hbmBad := h.hbmBad
  flash := h.flash
  host := h.host
  queues := h.queues
  parts := h.parts
  cores := h.cores
  clusters := h.clusters
  adm := h.adm
  bars := h.bars
  tiles := h.tiles
  rings := h.rings
  faultTimes := h.faultTimes
  retireFailed := h.retireFailed
  links := h.links
  xfers := h.xfers
  reqs := h.reqs
  colls := h.colls
  earlyReady := h.earlyReady
  routed := h.routed
  notices := h.notices
  noticeSeq := h.noticeSeq
  noticeT := h.noticeT
  timeX := fun hb => Bool.noConfusion (sub_bit hW hb)
  dbg := h.dbg
  boot := h.boot
  fw := h.fw
  power := h.power
  sb := h.sb
  cxl := h.cxl
  out := h.out
  fresh := h.fresh
  pending := h.pending

theorem Within.upd_links {W : Nat} {σ s : State} {v0 : _} (hW : 0x200000 ||| W = W) (h : Within W σ s) :
    Within W σ { s with links := v0 } where
  stored := h.stored
  n8 := h.n8
  timeNow := h.timeNow
  refPresent := h.refPresent
  holdover := h.holdover
  regs := h.regs
  shadows := h.shadows
  latches := h.latches
  hbm := h.hbm
  hbmBad := h.hbmBad
  flash := h.flash
  host := h.host
  queues := h.queues
  parts := h.parts
  cores := h.cores
  clusters := h.clusters
  adm := h.adm
  bars := h.bars
  tiles := h.tiles
  rings := h.rings
  faultTimes := h.faultTimes
  retireFailed := h.retireFailed
  links := fun hb => Bool.noConfusion (sub_bit hW hb)
  xfers := h.xfers
  reqs := h.reqs
  colls := h.colls
  earlyReady := h.earlyReady
  routed := h.routed
  notices := h.notices
  noticeSeq := h.noticeSeq
  noticeT := h.noticeT
  timeX := h.timeX
  dbg := h.dbg
  boot := h.boot
  fw := h.fw
  power := h.power
  sb := h.sb
  cxl := h.cxl
  out := h.out
  fresh := h.fresh
  pending := h.pending

theorem Within.upd_noticeSeq {W : Nat} {σ s : State} {v0 : _} (hW : 0x10000000 ||| W = W) (h : Within W σ s) :
    Within W σ { s with noticeSeq := v0 } where
  stored := h.stored
  n8 := h.n8
  timeNow := h.timeNow
  refPresent := h.refPresent
  holdover := h.holdover
  regs := h.regs
  shadows := h.shadows
  latches := h.latches
  hbm := h.hbm
  hbmBad := h.hbmBad
  flash := h.flash
  host := h.host
  queues := h.queues
  parts := h.parts
  cores := h.cores
  clusters := h.clusters
  adm := h.adm
  bars := h.bars
  tiles := h.tiles
  rings := h.rings
  faultTimes := h.faultTimes
  retireFailed := h.retireFailed
  links := h.links
  xfers := h.xfers
  reqs := h.reqs
  colls := h.colls
  earlyReady := h.earlyReady
  routed := h.routed
  notices := h.notices
  noticeSeq := fun hb => Bool.noConfusion (sub_bit hW hb)
  noticeT := h.noticeT
  timeX := h.timeX
  dbg := h.dbg
  boot := h.boot
  fw := h.fw
  power := h.power
  sb := h.sb
  cxl := h.cxl
  out := h.out
  fresh := h.fresh
  pending := h.pending

theorem Within.upd_noticeT {W : Nat} {σ s : State} {v0 : _} (hW : 0x20000000 ||| W = W) (h : Within W σ s) :
    Within W σ { s with noticeT := v0 } where
  stored := h.stored
  n8 := h.n8
  timeNow := h.timeNow
  refPresent := h.refPresent
  holdover := h.holdover
  regs := h.regs
  shadows := h.shadows
  latches := h.latches
  hbm := h.hbm
  hbmBad := h.hbmBad
  flash := h.flash
  host := h.host
  queues := h.queues
  parts := h.parts
  cores := h.cores
  clusters := h.clusters
  adm := h.adm
  bars := h.bars
  tiles := h.tiles
  rings := h.rings
  faultTimes := h.faultTimes
  retireFailed := h.retireFailed
  links := h.links
  xfers := h.xfers
  reqs := h.reqs
  colls := h.colls
  earlyReady := h.earlyReady
  routed := h.routed
  notices := h.notices
  noticeSeq := h.noticeSeq
  noticeT := fun hb => Bool.noConfusion (sub_bit hW hb)
  timeX := h.timeX
  dbg := h.dbg
  boot := h.boot
  fw := h.fw
  power := h.power
  sb := h.sb
  cxl := h.cxl
  out := h.out
  fresh := h.fresh
  pending := h.pending

theorem Within.upd_out {W : Nat} {σ s : State} {v0 : _} (hW : 0x2000000000 ||| W = W) (h : Within W σ s) :
    Within W σ { s with out := v0 } where
  stored := h.stored
  n8 := h.n8
  timeNow := h.timeNow
  refPresent := h.refPresent
  holdover := h.holdover
  regs := h.regs
  shadows := h.shadows
  latches := h.latches
  hbm := h.hbm
  hbmBad := h.hbmBad
  flash := h.flash
  host := h.host
  queues := h.queues
  parts := h.parts
  cores := h.cores
  clusters := h.clusters
  adm := h.adm
  bars := h.bars
  tiles := h.tiles
  rings := h.rings
  faultTimes := h.faultTimes
  retireFailed := h.retireFailed
  links := h.links
  xfers := h.xfers
  reqs := h.reqs
  colls := h.colls
  earlyReady := h.earlyReady
  routed := h.routed
  notices := h.notices
  noticeSeq := h.noticeSeq
  noticeT := h.noticeT
  timeX := h.timeX
  dbg := h.dbg
  boot := h.boot
  fw := h.fw
  power := h.power
  sb := h.sb
  cxl := h.cxl
  out := fun hb => Bool.noConfusion (sub_bit hW hb)
  fresh := h.fresh
  pending := h.pending

theorem Within.upd_parts {W : Nat} {σ s : State} {v0 : _} (hW : 0x1000 ||| W = W) (h : Within W σ s) :
    Within W σ { s with parts := v0 } where
  stored := h.stored
  n8 := h.n8
  timeNow := h.timeNow
  refPresent := h.refPresent
  holdover := h.holdover
  regs := h.regs
  shadows := h.shadows
  latches := h.latches
  hbm := h.hbm
  hbmBad := h.hbmBad
  flash := h.flash
  host := h.host
  queues := h.queues
  parts := fun hb => Bool.noConfusion (sub_bit hW hb)
  cores := h.cores
  clusters := h.clusters
  adm := h.adm
  bars := h.bars
  tiles := h.tiles
  rings := h.rings
  faultTimes := h.faultTimes
  retireFailed := h.retireFailed
  links := h.links
  xfers := h.xfers
  reqs := h.reqs
  colls := h.colls
  earlyReady := h.earlyReady
  routed := h.routed
  notices := h.notices
  noticeSeq := h.noticeSeq
  noticeT := h.noticeT
  timeX := h.timeX
  dbg := h.dbg
  boot := h.boot
  fw := h.fw
  power := h.power
  sb := h.sb
  cxl := h.cxl
  out := h.out
  fresh := h.fresh
  pending := h.pending

theorem Within.upd_parts_boot_power {W : Nat} {σ s : State} {v0 v1 v2 : _} (hW : 0x500001000 ||| W = W) (h : Within W σ s) :
    Within W σ { s with parts := v0, boot := v1, power := v2 } where
  stored := h.stored
  n8 := h.n8
  timeNow := h.timeNow
  refPresent := h.refPresent
  holdover := h.holdover
  regs := h.regs
  shadows := h.shadows
  latches := h.latches
  hbm := h.hbm
  hbmBad := h.hbmBad
  flash := h.flash
  host := h.host
  queues := h.queues
  parts := fun hb => Bool.noConfusion (sub_bit hW hb)
  cores := h.cores
  clusters := h.clusters
  adm := h.adm
  bars := h.bars
  tiles := h.tiles
  rings := h.rings
  faultTimes := h.faultTimes
  retireFailed := h.retireFailed
  links := h.links
  xfers := h.xfers
  reqs := h.reqs
  colls := h.colls
  earlyReady := h.earlyReady
  routed := h.routed
  notices := h.notices
  noticeSeq := h.noticeSeq
  noticeT := h.noticeT
  timeX := h.timeX
  dbg := h.dbg
  boot := fun hb => Bool.noConfusion (sub_bit hW hb)
  fw := h.fw
  power := fun hb => Bool.noConfusion (sub_bit hW hb)
  sb := h.sb
  cxl := h.cxl
  out := h.out
  fresh := h.fresh
  pending := h.pending

theorem Within.upd_pending {W : Nat} {σ s : State} {v0 : _} (hW : 0x8000000000 ||| W = W) (h : Within W σ s) :
    Within W σ { s with pending := v0 } where
  stored := h.stored
  n8 := h.n8
  timeNow := h.timeNow
  refPresent := h.refPresent
  holdover := h.holdover
  regs := h.regs
  shadows := h.shadows
  latches := h.latches
  hbm := h.hbm
  hbmBad := h.hbmBad
  flash := h.flash
  host := h.host
  queues := h.queues
  parts := h.parts
  cores := h.cores
  clusters := h.clusters
  adm := h.adm
  bars := h.bars
  tiles := h.tiles
  rings := h.rings
  faultTimes := h.faultTimes
  retireFailed := h.retireFailed
  links := h.links
  xfers := h.xfers
  reqs := h.reqs
  colls := h.colls
  earlyReady := h.earlyReady
  routed := h.routed
  notices := h.notices
  noticeSeq := h.noticeSeq
  noticeT := h.noticeT
  timeX := h.timeX
  dbg := h.dbg
  boot := h.boot
  fw := h.fw
  power := h.power
  sb := h.sb
  cxl := h.cxl
  out := h.out
  fresh := h.fresh
  pending := fun hb => Bool.noConfusion (sub_bit hW hb)

theorem Within.upd_power {W : Nat} {σ s : State} {v0 : _} (hW : 0x400000000 ||| W = W) (h : Within W σ s) :
    Within W σ { s with power := v0 } where
  stored := h.stored
  n8 := h.n8
  timeNow := h.timeNow
  refPresent := h.refPresent
  holdover := h.holdover
  regs := h.regs
  shadows := h.shadows
  latches := h.latches
  hbm := h.hbm
  hbmBad := h.hbmBad
  flash := h.flash
  host := h.host
  queues := h.queues
  parts := h.parts
  cores := h.cores
  clusters := h.clusters
  adm := h.adm
  bars := h.bars
  tiles := h.tiles
  rings := h.rings
  faultTimes := h.faultTimes
  retireFailed := h.retireFailed
  links := h.links
  xfers := h.xfers
  reqs := h.reqs
  colls := h.colls
  earlyReady := h.earlyReady
  routed := h.routed
  notices := h.notices
  noticeSeq := h.noticeSeq
  noticeT := h.noticeT
  timeX := h.timeX
  dbg := h.dbg
  boot := h.boot
  fw := h.fw
  power := fun hb => Bool.noConfusion (sub_bit hW hb)
  sb := h.sb
  cxl := h.cxl
  out := h.out
  fresh := h.fresh
  pending := h.pending

theorem Within.upd_power_sb {W : Nat} {σ s : State} {v0 v1 : _} (hW : 0xc00000000 ||| W = W) (h : Within W σ s) :
    Within W σ { s with power := v0, sb := v1 } where
  stored := h.stored
  n8 := h.n8
  timeNow := h.timeNow
  refPresent := h.refPresent
  holdover := h.holdover
  regs := h.regs
  shadows := h.shadows
  latches := h.latches
  hbm := h.hbm
  hbmBad := h.hbmBad
  flash := h.flash
  host := h.host
  queues := h.queues
  parts := h.parts
  cores := h.cores
  clusters := h.clusters
  adm := h.adm
  bars := h.bars
  tiles := h.tiles
  rings := h.rings
  faultTimes := h.faultTimes
  retireFailed := h.retireFailed
  links := h.links
  xfers := h.xfers
  reqs := h.reqs
  colls := h.colls
  earlyReady := h.earlyReady
  routed := h.routed
  notices := h.notices
  noticeSeq := h.noticeSeq
  noticeT := h.noticeT
  timeX := h.timeX
  dbg := h.dbg
  boot := h.boot
  fw := h.fw
  power := fun hb => Bool.noConfusion (sub_bit hW hb)
  sb := fun hb => Bool.noConfusion (sub_bit hW hb)
  cxl := h.cxl
  out := h.out
  fresh := h.fresh
  pending := h.pending

theorem Within.upd_queues {W : Nat} {σ s : State} {v0 : _} (hW : 0x800 ||| W = W) (h : Within W σ s) :
    Within W σ { s with queues := v0 } where
  stored := h.stored
  n8 := h.n8
  timeNow := h.timeNow
  refPresent := h.refPresent
  holdover := h.holdover
  regs := h.regs
  shadows := h.shadows
  latches := h.latches
  hbm := h.hbm
  hbmBad := h.hbmBad
  flash := h.flash
  host := h.host
  queues := fun hb => Bool.noConfusion (sub_bit hW hb)
  parts := h.parts
  cores := h.cores
  clusters := h.clusters
  adm := h.adm
  bars := h.bars
  tiles := h.tiles
  rings := h.rings
  faultTimes := h.faultTimes
  retireFailed := h.retireFailed
  links := h.links
  xfers := h.xfers
  reqs := h.reqs
  colls := h.colls
  earlyReady := h.earlyReady
  routed := h.routed
  notices := h.notices
  noticeSeq := h.noticeSeq
  noticeT := h.noticeT
  timeX := h.timeX
  dbg := h.dbg
  boot := h.boot
  fw := h.fw
  power := h.power
  sb := h.sb
  cxl := h.cxl
  out := h.out
  fresh := h.fresh
  pending := h.pending

theorem Within.upd_queues_bars {W : Nat} {σ s : State} {v0 v1 : _} (hW : 0x10800 ||| W = W) (h : Within W σ s) :
    Within W σ { s with queues := v0, bars := v1 } where
  stored := h.stored
  n8 := h.n8
  timeNow := h.timeNow
  refPresent := h.refPresent
  holdover := h.holdover
  regs := h.regs
  shadows := h.shadows
  latches := h.latches
  hbm := h.hbm
  hbmBad := h.hbmBad
  flash := h.flash
  host := h.host
  queues := fun hb => Bool.noConfusion (sub_bit hW hb)
  parts := h.parts
  cores := h.cores
  clusters := h.clusters
  adm := h.adm
  bars := fun hb => Bool.noConfusion (sub_bit hW hb)
  tiles := h.tiles
  rings := h.rings
  faultTimes := h.faultTimes
  retireFailed := h.retireFailed
  links := h.links
  xfers := h.xfers
  reqs := h.reqs
  colls := h.colls
  earlyReady := h.earlyReady
  routed := h.routed
  notices := h.notices
  noticeSeq := h.noticeSeq
  noticeT := h.noticeT
  timeX := h.timeX
  dbg := h.dbg
  boot := h.boot
  fw := h.fw
  power := h.power
  sb := h.sb
  cxl := h.cxl
  out := h.out
  fresh := h.fresh
  pending := h.pending

theorem Within.upd_queues_parts_adm {W : Nat} {σ s : State} {v0 v1 v2 : _} (hW : 0x9800 ||| W = W) (h : Within W σ s) :
    Within W σ { s with queues := v0, parts := v1, adm := v2 } where
  stored := h.stored
  n8 := h.n8
  timeNow := h.timeNow
  refPresent := h.refPresent
  holdover := h.holdover
  regs := h.regs
  shadows := h.shadows
  latches := h.latches
  hbm := h.hbm
  hbmBad := h.hbmBad
  flash := h.flash
  host := h.host
  queues := fun hb => Bool.noConfusion (sub_bit hW hb)
  parts := fun hb => Bool.noConfusion (sub_bit hW hb)
  cores := h.cores
  clusters := h.clusters
  adm := fun hb => Bool.noConfusion (sub_bit hW hb)
  bars := h.bars
  tiles := h.tiles
  rings := h.rings
  faultTimes := h.faultTimes
  retireFailed := h.retireFailed
  links := h.links
  xfers := h.xfers
  reqs := h.reqs
  colls := h.colls
  earlyReady := h.earlyReady
  routed := h.routed
  notices := h.notices
  noticeSeq := h.noticeSeq
  noticeT := h.noticeT
  timeX := h.timeX
  dbg := h.dbg
  boot := h.boot
  fw := h.fw
  power := h.power
  sb := h.sb
  cxl := h.cxl
  out := h.out
  fresh := h.fresh
  pending := h.pending

theorem Within.upd_refPresent {W : Nat} {σ s : State} {v0 : _} (hW : 0x4 ||| W = W) (h : Within W σ s) :
    Within W σ { s with refPresent := v0 } where
  stored := h.stored
  n8 := h.n8
  timeNow := h.timeNow
  refPresent := fun hb => Bool.noConfusion (sub_bit hW hb)
  holdover := h.holdover
  regs := h.regs
  shadows := h.shadows
  latches := h.latches
  hbm := h.hbm
  hbmBad := h.hbmBad
  flash := h.flash
  host := h.host
  queues := h.queues
  parts := h.parts
  cores := h.cores
  clusters := h.clusters
  adm := h.adm
  bars := h.bars
  tiles := h.tiles
  rings := h.rings
  faultTimes := h.faultTimes
  retireFailed := h.retireFailed
  links := h.links
  xfers := h.xfers
  reqs := h.reqs
  colls := h.colls
  earlyReady := h.earlyReady
  routed := h.routed
  notices := h.notices
  noticeSeq := h.noticeSeq
  noticeT := h.noticeT
  timeX := h.timeX
  dbg := h.dbg
  boot := h.boot
  fw := h.fw
  power := h.power
  sb := h.sb
  cxl := h.cxl
  out := h.out
  fresh := h.fresh
  pending := h.pending

theorem Within.upd_refPresent_timeX {W : Nat} {σ s : State} {v0 v1 : _} (hW : 0x40000004 ||| W = W) (h : Within W σ s) :
    Within W σ { s with refPresent := v0, timeX := v1 } where
  stored := h.stored
  n8 := h.n8
  timeNow := h.timeNow
  refPresent := fun hb => Bool.noConfusion (sub_bit hW hb)
  holdover := h.holdover
  regs := h.regs
  shadows := h.shadows
  latches := h.latches
  hbm := h.hbm
  hbmBad := h.hbmBad
  flash := h.flash
  host := h.host
  queues := h.queues
  parts := h.parts
  cores := h.cores
  clusters := h.clusters
  adm := h.adm
  bars := h.bars
  tiles := h.tiles
  rings := h.rings
  faultTimes := h.faultTimes
  retireFailed := h.retireFailed
  links := h.links
  xfers := h.xfers
  reqs := h.reqs
  colls := h.colls
  earlyReady := h.earlyReady
  routed := h.routed
  notices := h.notices
  noticeSeq := h.noticeSeq
  noticeT := h.noticeT
  timeX := fun hb => Bool.noConfusion (sub_bit hW hb)
  dbg := h.dbg
  boot := h.boot
  fw := h.fw
  power := h.power
  sb := h.sb
  cxl := h.cxl
  out := h.out
  fresh := h.fresh
  pending := h.pending

theorem Within.upd_reqs {W : Nat} {σ s : State} {v0 : _} (hW : 0x800000 ||| W = W) (h : Within W σ s) :
    Within W σ { s with reqs := v0 } where
  stored := h.stored
  n8 := h.n8
  timeNow := h.timeNow
  refPresent := h.refPresent
  holdover := h.holdover
  regs := h.regs
  shadows := h.shadows
  latches := h.latches
  hbm := h.hbm
  hbmBad := h.hbmBad
  flash := h.flash
  host := h.host
  queues := h.queues
  parts := h.parts
  cores := h.cores
  clusters := h.clusters
  adm := h.adm
  bars := h.bars
  tiles := h.tiles
  rings := h.rings
  faultTimes := h.faultTimes
  retireFailed := h.retireFailed
  links := h.links
  xfers := h.xfers
  reqs := fun hb => Bool.noConfusion (sub_bit hW hb)
  colls := h.colls
  earlyReady := h.earlyReady
  routed := h.routed
  notices := h.notices
  noticeSeq := h.noticeSeq
  noticeT := h.noticeT
  timeX := h.timeX
  dbg := h.dbg
  boot := h.boot
  fw := h.fw
  power := h.power
  sb := h.sb
  cxl := h.cxl
  out := h.out
  fresh := h.fresh
  pending := h.pending

theorem Within.upd_retireFailed {W : Nat} {σ s : State} {v0 : _} (hW : 0x100000 ||| W = W) (h : Within W σ s) :
    Within W σ { s with retireFailed := v0 } where
  stored := h.stored
  n8 := h.n8
  timeNow := h.timeNow
  refPresent := h.refPresent
  holdover := h.holdover
  regs := h.regs
  shadows := h.shadows
  latches := h.latches
  hbm := h.hbm
  hbmBad := h.hbmBad
  flash := h.flash
  host := h.host
  queues := h.queues
  parts := h.parts
  cores := h.cores
  clusters := h.clusters
  adm := h.adm
  bars := h.bars
  tiles := h.tiles
  rings := h.rings
  faultTimes := h.faultTimes
  retireFailed := fun hb => Bool.noConfusion (sub_bit hW hb)
  links := h.links
  xfers := h.xfers
  reqs := h.reqs
  colls := h.colls
  earlyReady := h.earlyReady
  routed := h.routed
  notices := h.notices
  noticeSeq := h.noticeSeq
  noticeT := h.noticeT
  timeX := h.timeX
  dbg := h.dbg
  boot := h.boot
  fw := h.fw
  power := h.power
  sb := h.sb
  cxl := h.cxl
  out := h.out
  fresh := h.fresh
  pending := h.pending

theorem Within.upd_rings {W : Nat} {σ s : State} {v0 : _} (hW : 0x40000 ||| W = W) (h : Within W σ s) :
    Within W σ { s with rings := v0 } where
  stored := h.stored
  n8 := h.n8
  timeNow := h.timeNow
  refPresent := h.refPresent
  holdover := h.holdover
  regs := h.regs
  shadows := h.shadows
  latches := h.latches
  hbm := h.hbm
  hbmBad := h.hbmBad
  flash := h.flash
  host := h.host
  queues := h.queues
  parts := h.parts
  cores := h.cores
  clusters := h.clusters
  adm := h.adm
  bars := h.bars
  tiles := h.tiles
  rings := fun hb => Bool.noConfusion (sub_bit hW hb)
  faultTimes := h.faultTimes
  retireFailed := h.retireFailed
  links := h.links
  xfers := h.xfers
  reqs := h.reqs
  colls := h.colls
  earlyReady := h.earlyReady
  routed := h.routed
  notices := h.notices
  noticeSeq := h.noticeSeq
  noticeT := h.noticeT
  timeX := h.timeX
  dbg := h.dbg
  boot := h.boot
  fw := h.fw
  power := h.power
  sb := h.sb
  cxl := h.cxl
  out := h.out
  fresh := h.fresh
  pending := h.pending

theorem Within.upd_routed {W : Nat} {σ s : State} {v0 : _} (hW : 0x4000000 ||| W = W) (h : Within W σ s) :
    Within W σ { s with routed := v0 } where
  stored := h.stored
  n8 := h.n8
  timeNow := h.timeNow
  refPresent := h.refPresent
  holdover := h.holdover
  regs := h.regs
  shadows := h.shadows
  latches := h.latches
  hbm := h.hbm
  hbmBad := h.hbmBad
  flash := h.flash
  host := h.host
  queues := h.queues
  parts := h.parts
  cores := h.cores
  clusters := h.clusters
  adm := h.adm
  bars := h.bars
  tiles := h.tiles
  rings := h.rings
  faultTimes := h.faultTimes
  retireFailed := h.retireFailed
  links := h.links
  xfers := h.xfers
  reqs := h.reqs
  colls := h.colls
  earlyReady := h.earlyReady
  routed := fun hb => Bool.noConfusion (sub_bit hW hb)
  notices := h.notices
  noticeSeq := h.noticeSeq
  noticeT := h.noticeT
  timeX := h.timeX
  dbg := h.dbg
  boot := h.boot
  fw := h.fw
  power := h.power
  sb := h.sb
  cxl := h.cxl
  out := h.out
  fresh := h.fresh
  pending := h.pending

theorem Within.upd_sb {W : Nat} {σ s : State} {v0 : _} (hW : 0x800000000 ||| W = W) (h : Within W σ s) :
    Within W σ { s with sb := v0 } where
  stored := h.stored
  n8 := h.n8
  timeNow := h.timeNow
  refPresent := h.refPresent
  holdover := h.holdover
  regs := h.regs
  shadows := h.shadows
  latches := h.latches
  hbm := h.hbm
  hbmBad := h.hbmBad
  flash := h.flash
  host := h.host
  queues := h.queues
  parts := h.parts
  cores := h.cores
  clusters := h.clusters
  adm := h.adm
  bars := h.bars
  tiles := h.tiles
  rings := h.rings
  faultTimes := h.faultTimes
  retireFailed := h.retireFailed
  links := h.links
  xfers := h.xfers
  reqs := h.reqs
  colls := h.colls
  earlyReady := h.earlyReady
  routed := h.routed
  notices := h.notices
  noticeSeq := h.noticeSeq
  noticeT := h.noticeT
  timeX := h.timeX
  dbg := h.dbg
  boot := h.boot
  fw := h.fw
  power := h.power
  sb := fun hb => Bool.noConfusion (sub_bit hW hb)
  cxl := h.cxl
  out := h.out
  fresh := h.fresh
  pending := h.pending

theorem Within.upd_tiles {W : Nat} {σ s : State} {v0 : _} (hW : 0x20000 ||| W = W) (h : Within W σ s) :
    Within W σ { s with tiles := v0 } where
  stored := h.stored
  n8 := h.n8
  timeNow := h.timeNow
  refPresent := h.refPresent
  holdover := h.holdover
  regs := h.regs
  shadows := h.shadows
  latches := h.latches
  hbm := h.hbm
  hbmBad := h.hbmBad
  flash := h.flash
  host := h.host
  queues := h.queues
  parts := h.parts
  cores := h.cores
  clusters := h.clusters
  adm := h.adm
  bars := h.bars
  tiles := fun hb => Bool.noConfusion (sub_bit hW hb)
  rings := h.rings
  faultTimes := h.faultTimes
  retireFailed := h.retireFailed
  links := h.links
  xfers := h.xfers
  reqs := h.reqs
  colls := h.colls
  earlyReady := h.earlyReady
  routed := h.routed
  notices := h.notices
  noticeSeq := h.noticeSeq
  noticeT := h.noticeT
  timeX := h.timeX
  dbg := h.dbg
  boot := h.boot
  fw := h.fw
  power := h.power
  sb := h.sb
  cxl := h.cxl
  out := h.out
  fresh := h.fresh
  pending := h.pending

theorem Within.upd_tiles_xfers_colls {W : Nat} {σ s : State} {v0 v1 v2 : _} (hW : 0x1420000 ||| W = W) (h : Within W σ s) :
    Within W σ { s with tiles := v0, xfers := v1, colls := v2 } where
  stored := h.stored
  n8 := h.n8
  timeNow := h.timeNow
  refPresent := h.refPresent
  holdover := h.holdover
  regs := h.regs
  shadows := h.shadows
  latches := h.latches
  hbm := h.hbm
  hbmBad := h.hbmBad
  flash := h.flash
  host := h.host
  queues := h.queues
  parts := h.parts
  cores := h.cores
  clusters := h.clusters
  adm := h.adm
  bars := h.bars
  tiles := fun hb => Bool.noConfusion (sub_bit hW hb)
  rings := h.rings
  faultTimes := h.faultTimes
  retireFailed := h.retireFailed
  links := h.links
  xfers := fun hb => Bool.noConfusion (sub_bit hW hb)
  reqs := h.reqs
  colls := fun hb => Bool.noConfusion (sub_bit hW hb)
  earlyReady := h.earlyReady
  routed := h.routed
  notices := h.notices
  noticeSeq := h.noticeSeq
  noticeT := h.noticeT
  timeX := h.timeX
  dbg := h.dbg
  boot := h.boot
  fw := h.fw
  power := h.power
  sb := h.sb
  cxl := h.cxl
  out := h.out
  fresh := h.fresh
  pending := h.pending

theorem Within.upd_timeNow_holdover {W : Nat} {σ s : State} {v0 v1 : _} (hW : 0xa ||| W = W) (h : Within W σ s) :
    Within W σ { s with timeNow := v0, holdover := v1 } where
  stored := h.stored
  n8 := h.n8
  timeNow := fun hb => Bool.noConfusion (sub_bit hW hb)
  refPresent := h.refPresent
  holdover := fun hb => Bool.noConfusion (sub_bit hW hb)
  regs := h.regs
  shadows := h.shadows
  latches := h.latches
  hbm := h.hbm
  hbmBad := h.hbmBad
  flash := h.flash
  host := h.host
  queues := h.queues
  parts := h.parts
  cores := h.cores
  clusters := h.clusters
  adm := h.adm
  bars := h.bars
  tiles := h.tiles
  rings := h.rings
  faultTimes := h.faultTimes
  retireFailed := h.retireFailed
  links := h.links
  xfers := h.xfers
  reqs := h.reqs
  colls := h.colls
  earlyReady := h.earlyReady
  routed := h.routed
  notices := h.notices
  noticeSeq := h.noticeSeq
  noticeT := h.noticeT
  timeX := h.timeX
  dbg := h.dbg
  boot := h.boot
  fw := h.fw
  power := h.power
  sb := h.sb
  cxl := h.cxl
  out := h.out
  fresh := h.fresh
  pending := h.pending

theorem Within.upd_timeNow_power {W : Nat} {σ s : State} {v0 v1 : _} (hW : 0x400000002 ||| W = W) (h : Within W σ s) :
    Within W σ { s with timeNow := v0, power := v1 } where
  stored := h.stored
  n8 := h.n8
  timeNow := fun hb => Bool.noConfusion (sub_bit hW hb)
  refPresent := h.refPresent
  holdover := h.holdover
  regs := h.regs
  shadows := h.shadows
  latches := h.latches
  hbm := h.hbm
  hbmBad := h.hbmBad
  flash := h.flash
  host := h.host
  queues := h.queues
  parts := h.parts
  cores := h.cores
  clusters := h.clusters
  adm := h.adm
  bars := h.bars
  tiles := h.tiles
  rings := h.rings
  faultTimes := h.faultTimes
  retireFailed := h.retireFailed
  links := h.links
  xfers := h.xfers
  reqs := h.reqs
  colls := h.colls
  earlyReady := h.earlyReady
  routed := h.routed
  notices := h.notices
  noticeSeq := h.noticeSeq
  noticeT := h.noticeT
  timeX := h.timeX
  dbg := h.dbg
  boot := h.boot
  fw := h.fw
  power := fun hb => Bool.noConfusion (sub_bit hW hb)
  sb := h.sb
  cxl := h.cxl
  out := h.out
  fresh := h.fresh
  pending := h.pending

theorem Within.upd_timeX {W : Nat} {σ s : State} {v0 : _} (hW : 0x40000000 ||| W = W) (h : Within W σ s) :
    Within W σ { s with timeX := v0 } where
  stored := h.stored
  n8 := h.n8
  timeNow := h.timeNow
  refPresent := h.refPresent
  holdover := h.holdover
  regs := h.regs
  shadows := h.shadows
  latches := h.latches
  hbm := h.hbm
  hbmBad := h.hbmBad
  flash := h.flash
  host := h.host
  queues := h.queues
  parts := h.parts
  cores := h.cores
  clusters := h.clusters
  adm := h.adm
  bars := h.bars
  tiles := h.tiles
  rings := h.rings
  faultTimes := h.faultTimes
  retireFailed := h.retireFailed
  links := h.links
  xfers := h.xfers
  reqs := h.reqs
  colls := h.colls
  earlyReady := h.earlyReady
  routed := h.routed
  notices := h.notices
  noticeSeq := h.noticeSeq
  noticeT := h.noticeT
  timeX := fun hb => Bool.noConfusion (sub_bit hW hb)
  dbg := h.dbg
  boot := h.boot
  fw := h.fw
  power := h.power
  sb := h.sb
  cxl := h.cxl
  out := h.out
  fresh := h.fresh
  pending := h.pending

theorem Within.upd_xfers {W : Nat} {σ s : State} {v0 : _} (hW : 0x400000 ||| W = W) (h : Within W σ s) :
    Within W σ { s with xfers := v0 } where
  stored := h.stored
  n8 := h.n8
  timeNow := h.timeNow
  refPresent := h.refPresent
  holdover := h.holdover
  regs := h.regs
  shadows := h.shadows
  latches := h.latches
  hbm := h.hbm
  hbmBad := h.hbmBad
  flash := h.flash
  host := h.host
  queues := h.queues
  parts := h.parts
  cores := h.cores
  clusters := h.clusters
  adm := h.adm
  bars := h.bars
  tiles := h.tiles
  rings := h.rings
  faultTimes := h.faultTimes
  retireFailed := h.retireFailed
  links := h.links
  xfers := fun hb => Bool.noConfusion (sub_bit hW hb)
  reqs := h.reqs
  colls := h.colls
  earlyReady := h.earlyReady
  routed := h.routed
  notices := h.notices
  noticeSeq := h.noticeSeq
  noticeT := h.noticeT
  timeX := h.timeX
  dbg := h.dbg
  boot := h.boot
  fw := h.fw
  power := h.power
  sb := h.sb
  cxl := h.cxl
  out := h.out
  fresh := h.fresh
  pending := h.pending

/-- The canonical form, part by part. -/
theorem stored_iff {s : State} : s.stored = true ↔ Memory.wf 0 s.hbm = true ∧ Memory.wf 0 s.host = true ∧ Memory.wf 0xFF s.flash = true ∧
    rising s.regs = true ∧ rising s.shadows = true ∧ rising s.latches = true := by
  simp [State.stored, Bool.and_eq_true, and_assoc]

/-! ### Fields that are such a table -/

theorem Within.upd_flash {W : Nat} {σ s : State} {v0 : _} (hW : 0x200 ||| W = W) (k0 : Memory.wf 0xFF s.flash = true → Memory.wf 0xFF v0 = true) (h : Within W σ s) :
    Within W σ { s with flash := v0 } where
  stored := fun hs => by
    obtain ⟨h0, h1, h2, h3, h4, h5⟩ := stored_iff.1 (h.stored hs)
    exact stored_iff.2 ⟨h0, h1, k0 h2, h3, h4, h5⟩
  n8 := h.n8
  timeNow := h.timeNow
  refPresent := h.refPresent
  holdover := h.holdover
  regs := h.regs
  shadows := h.shadows
  latches := h.latches
  hbm := h.hbm
  hbmBad := h.hbmBad
  flash := fun hb => Bool.noConfusion (sub_bit hW hb)
  host := h.host
  queues := h.queues
  parts := h.parts
  cores := h.cores
  clusters := h.clusters
  adm := h.adm
  bars := h.bars
  tiles := h.tiles
  rings := h.rings
  faultTimes := h.faultTimes
  retireFailed := h.retireFailed
  links := h.links
  xfers := h.xfers
  reqs := h.reqs
  colls := h.colls
  earlyReady := h.earlyReady
  routed := h.routed
  notices := h.notices
  noticeSeq := h.noticeSeq
  noticeT := h.noticeT
  timeX := h.timeX
  dbg := h.dbg
  boot := h.boot
  fw := h.fw
  power := h.power
  sb := h.sb
  cxl := h.cxl
  out := h.out
  fresh := h.fresh
  pending := h.pending

theorem Within.upd_hbm {W : Nat} {σ s : State} {v0 : _} (hW : 0x80 ||| W = W) (k0 : Memory.wf 0 s.hbm = true → Memory.wf 0 v0 = true) (h : Within W σ s) :
    Within W σ { s with hbm := v0 } where
  stored := fun hs => by
    obtain ⟨h0, h1, h2, h3, h4, h5⟩ := stored_iff.1 (h.stored hs)
    exact stored_iff.2 ⟨k0 h0, h1, h2, h3, h4, h5⟩
  n8 := h.n8
  timeNow := h.timeNow
  refPresent := h.refPresent
  holdover := h.holdover
  regs := h.regs
  shadows := h.shadows
  latches := h.latches
  hbm := fun hb => Bool.noConfusion (sub_bit hW hb)
  hbmBad := h.hbmBad
  flash := h.flash
  host := h.host
  queues := h.queues
  parts := h.parts
  cores := h.cores
  clusters := h.clusters
  adm := h.adm
  bars := h.bars
  tiles := h.tiles
  rings := h.rings
  faultTimes := h.faultTimes
  retireFailed := h.retireFailed
  links := h.links
  xfers := h.xfers
  reqs := h.reqs
  colls := h.colls
  earlyReady := h.earlyReady
  routed := h.routed
  notices := h.notices
  noticeSeq := h.noticeSeq
  noticeT := h.noticeT
  timeX := h.timeX
  dbg := h.dbg
  boot := h.boot
  fw := h.fw
  power := h.power
  sb := h.sb
  cxl := h.cxl
  out := h.out
  fresh := h.fresh
  pending := h.pending

theorem Within.upd_hbm_hbmBad {W : Nat} {σ s : State} {v0 v1 : _} (hW : 0x180 ||| W = W) (k0 : Memory.wf 0 s.hbm = true → Memory.wf 0 v0 = true) (h : Within W σ s) :
    Within W σ { s with hbm := v0, hbmBad := v1 } where
  stored := fun hs => by
    obtain ⟨h0, h1, h2, h3, h4, h5⟩ := stored_iff.1 (h.stored hs)
    exact stored_iff.2 ⟨k0 h0, h1, h2, h3, h4, h5⟩
  n8 := h.n8
  timeNow := h.timeNow
  refPresent := h.refPresent
  holdover := h.holdover
  regs := h.regs
  shadows := h.shadows
  latches := h.latches
  hbm := fun hb => Bool.noConfusion (sub_bit hW hb)
  hbmBad := fun hb => Bool.noConfusion (sub_bit hW hb)
  flash := h.flash
  host := h.host
  queues := h.queues
  parts := h.parts
  cores := h.cores
  clusters := h.clusters
  adm := h.adm
  bars := h.bars
  tiles := h.tiles
  rings := h.rings
  faultTimes := h.faultTimes
  retireFailed := h.retireFailed
  links := h.links
  xfers := h.xfers
  reqs := h.reqs
  colls := h.colls
  earlyReady := h.earlyReady
  routed := h.routed
  notices := h.notices
  noticeSeq := h.noticeSeq
  noticeT := h.noticeT
  timeX := h.timeX
  dbg := h.dbg
  boot := h.boot
  fw := h.fw
  power := h.power
  sb := h.sb
  cxl := h.cxl
  out := h.out
  fresh := h.fresh
  pending := h.pending

theorem Within.upd_hbm_hbmBad_retireFailed {W : Nat} {σ s : State} {v0 v1 v2 : _} (hW : 0x100180 ||| W = W) (k0 : Memory.wf 0 s.hbm = true → Memory.wf 0 v0 = true) (h : Within W σ s) :
    Within W σ { s with hbm := v0, hbmBad := v1, retireFailed := v2 } where
  stored := fun hs => by
    obtain ⟨h0, h1, h2, h3, h4, h5⟩ := stored_iff.1 (h.stored hs)
    exact stored_iff.2 ⟨k0 h0, h1, h2, h3, h4, h5⟩
  n8 := h.n8
  timeNow := h.timeNow
  refPresent := h.refPresent
  holdover := h.holdover
  regs := h.regs
  shadows := h.shadows
  latches := h.latches
  hbm := fun hb => Bool.noConfusion (sub_bit hW hb)
  hbmBad := fun hb => Bool.noConfusion (sub_bit hW hb)
  flash := h.flash
  host := h.host
  queues := h.queues
  parts := h.parts
  cores := h.cores
  clusters := h.clusters
  adm := h.adm
  bars := h.bars
  tiles := h.tiles
  rings := h.rings
  faultTimes := h.faultTimes
  retireFailed := fun hb => Bool.noConfusion (sub_bit hW hb)
  links := h.links
  xfers := h.xfers
  reqs := h.reqs
  colls := h.colls
  earlyReady := h.earlyReady
  routed := h.routed
  notices := h.notices
  noticeSeq := h.noticeSeq
  noticeT := h.noticeT
  timeX := h.timeX
  dbg := h.dbg
  boot := h.boot
  fw := h.fw
  power := h.power
  sb := h.sb
  cxl := h.cxl
  out := h.out
  fresh := h.fresh
  pending := h.pending

theorem Within.upd_host {W : Nat} {σ s : State} {v0 : _} (hW : 0x400 ||| W = W) (k0 : Memory.wf 0 s.host = true → Memory.wf 0 v0 = true) (h : Within W σ s) :
    Within W σ { s with host := v0 } where
  stored := fun hs => by
    obtain ⟨h0, h1, h2, h3, h4, h5⟩ := stored_iff.1 (h.stored hs)
    exact stored_iff.2 ⟨h0, k0 h1, h2, h3, h4, h5⟩
  n8 := h.n8
  timeNow := h.timeNow
  refPresent := h.refPresent
  holdover := h.holdover
  regs := h.regs
  shadows := h.shadows
  latches := h.latches
  hbm := h.hbm
  hbmBad := h.hbmBad
  flash := h.flash
  host := fun hb => Bool.noConfusion (sub_bit hW hb)
  queues := h.queues
  parts := h.parts
  cores := h.cores
  clusters := h.clusters
  adm := h.adm
  bars := h.bars
  tiles := h.tiles
  rings := h.rings
  faultTimes := h.faultTimes
  retireFailed := h.retireFailed
  links := h.links
  xfers := h.xfers
  reqs := h.reqs
  colls := h.colls
  earlyReady := h.earlyReady
  routed := h.routed
  notices := h.notices
  noticeSeq := h.noticeSeq
  noticeT := h.noticeT
  timeX := h.timeX
  dbg := h.dbg
  boot := h.boot
  fw := h.fw
  power := h.power
  sb := h.sb
  cxl := h.cxl
  out := h.out
  fresh := h.fresh
  pending := h.pending

theorem Within.upd_latches {W : Nat} {σ s : State} {v0 : _} (hW : 0x40 ||| W = W) (k0 : rising s.latches = true → rising v0 = true) (h : Within W σ s) :
    Within W σ { s with latches := v0 } where
  stored := fun hs => by
    obtain ⟨h0, h1, h2, h3, h4, h5⟩ := stored_iff.1 (h.stored hs)
    exact stored_iff.2 ⟨h0, h1, h2, h3, h4, k0 h5⟩
  n8 := h.n8
  timeNow := h.timeNow
  refPresent := h.refPresent
  holdover := h.holdover
  regs := h.regs
  shadows := h.shadows
  latches := fun hb => Bool.noConfusion (sub_bit hW hb)
  hbm := h.hbm
  hbmBad := h.hbmBad
  flash := h.flash
  host := h.host
  queues := h.queues
  parts := h.parts
  cores := h.cores
  clusters := h.clusters
  adm := h.adm
  bars := h.bars
  tiles := h.tiles
  rings := h.rings
  faultTimes := h.faultTimes
  retireFailed := h.retireFailed
  links := h.links
  xfers := h.xfers
  reqs := h.reqs
  colls := h.colls
  earlyReady := h.earlyReady
  routed := h.routed
  notices := h.notices
  noticeSeq := h.noticeSeq
  noticeT := h.noticeT
  timeX := h.timeX
  dbg := h.dbg
  boot := h.boot
  fw := h.fw
  power := h.power
  sb := h.sb
  cxl := h.cxl
  out := h.out
  fresh := h.fresh
  pending := h.pending

theorem Within.upd_regs {W : Nat} {σ s : State} {v0 : _} (hW : 0x10 ||| W = W) (k0 : rising s.regs = true → rising v0 = true) (h : Within W σ s) :
    Within W σ { s with regs := v0 } where
  stored := fun hs => by
    obtain ⟨h0, h1, h2, h3, h4, h5⟩ := stored_iff.1 (h.stored hs)
    exact stored_iff.2 ⟨h0, h1, h2, k0 h3, h4, h5⟩
  n8 := h.n8
  timeNow := h.timeNow
  refPresent := h.refPresent
  holdover := h.holdover
  regs := fun hb => Bool.noConfusion (sub_bit hW hb)
  shadows := h.shadows
  latches := h.latches
  hbm := h.hbm
  hbmBad := h.hbmBad
  flash := h.flash
  host := h.host
  queues := h.queues
  parts := h.parts
  cores := h.cores
  clusters := h.clusters
  adm := h.adm
  bars := h.bars
  tiles := h.tiles
  rings := h.rings
  faultTimes := h.faultTimes
  retireFailed := h.retireFailed
  links := h.links
  xfers := h.xfers
  reqs := h.reqs
  colls := h.colls
  earlyReady := h.earlyReady
  routed := h.routed
  notices := h.notices
  noticeSeq := h.noticeSeq
  noticeT := h.noticeT
  timeX := h.timeX
  dbg := h.dbg
  boot := h.boot
  fw := h.fw
  power := h.power
  sb := h.sb
  cxl := h.cxl
  out := h.out
  fresh := h.fresh
  pending := h.pending

theorem Within.upd_regs_boot_power_sb {W : Nat} {σ s : State} {v0 v1 v2 v3 : _} (hW : 0xd00000010 ||| W = W) (k0 : rising s.regs = true → rising v0 = true) (h : Within W σ s) :
    Within W σ { s with regs := v0, boot := v1, power := v2, sb := v3 } where
  stored := fun hs => by
    obtain ⟨h0, h1, h2, h3, h4, h5⟩ := stored_iff.1 (h.stored hs)
    exact stored_iff.2 ⟨h0, h1, h2, k0 h3, h4, h5⟩
  n8 := h.n8
  timeNow := h.timeNow
  refPresent := h.refPresent
  holdover := h.holdover
  regs := fun hb => Bool.noConfusion (sub_bit hW hb)
  shadows := h.shadows
  latches := h.latches
  hbm := h.hbm
  hbmBad := h.hbmBad
  flash := h.flash
  host := h.host
  queues := h.queues
  parts := h.parts
  cores := h.cores
  clusters := h.clusters
  adm := h.adm
  bars := h.bars
  tiles := h.tiles
  rings := h.rings
  faultTimes := h.faultTimes
  retireFailed := h.retireFailed
  links := h.links
  xfers := h.xfers
  reqs := h.reqs
  colls := h.colls
  earlyReady := h.earlyReady
  routed := h.routed
  notices := h.notices
  noticeSeq := h.noticeSeq
  noticeT := h.noticeT
  timeX := h.timeX
  dbg := h.dbg
  boot := fun hb => Bool.noConfusion (sub_bit hW hb)
  fw := h.fw
  power := fun hb => Bool.noConfusion (sub_bit hW hb)
  sb := fun hb => Bool.noConfusion (sub_bit hW hb)
  cxl := h.cxl
  out := h.out
  fresh := h.fresh
  pending := h.pending

theorem Within.upd_regs_shadows {W : Nat} {σ s : State} {v0 v1 : _} (hW : 0x30 ||| W = W) (k0 : rising s.regs = true → rising v0 = true) (k1 : rising s.shadows = true → rising v1 = true) (h : Within W σ s) :
    Within W σ { s with regs := v0, shadows := v1 } where
  stored := fun hs => by
    obtain ⟨h0, h1, h2, h3, h4, h5⟩ := stored_iff.1 (h.stored hs)
    exact stored_iff.2 ⟨h0, h1, h2, k0 h3, k1 h4, h5⟩
  n8 := h.n8
  timeNow := h.timeNow
  refPresent := h.refPresent
  holdover := h.holdover
  regs := fun hb => Bool.noConfusion (sub_bit hW hb)
  shadows := fun hb => Bool.noConfusion (sub_bit hW hb)
  latches := h.latches
  hbm := h.hbm
  hbmBad := h.hbmBad
  flash := h.flash
  host := h.host
  queues := h.queues
  parts := h.parts
  cores := h.cores
  clusters := h.clusters
  adm := h.adm
  bars := h.bars
  tiles := h.tiles
  rings := h.rings
  faultTimes := h.faultTimes
  retireFailed := h.retireFailed
  links := h.links
  xfers := h.xfers
  reqs := h.reqs
  colls := h.colls
  earlyReady := h.earlyReady
  routed := h.routed
  notices := h.notices
  noticeSeq := h.noticeSeq
  noticeT := h.noticeT
  timeX := h.timeX
  dbg := h.dbg
  boot := h.boot
  fw := h.fw
  power := h.power
  sb := h.sb
  cxl := h.cxl
  out := h.out
  fresh := h.fresh
  pending := h.pending

theorem Within.upd_regs_shadows_parts_bars {W : Nat} {σ s : State} {v0 v1 v2 v3 : _} (hW : 0x11030 ||| W = W) (k0 : rising s.regs = true → rising v0 = true) (k1 : rising s.shadows = true → rising v1 = true) (h : Within W σ s) :
    Within W σ { s with regs := v0, shadows := v1, parts := v2, bars := v3 } where
  stored := fun hs => by
    obtain ⟨h0, h1, h2, h3, h4, h5⟩ := stored_iff.1 (h.stored hs)
    exact stored_iff.2 ⟨h0, h1, h2, k0 h3, k1 h4, h5⟩
  n8 := h.n8
  timeNow := h.timeNow
  refPresent := h.refPresent
  holdover := h.holdover
  regs := fun hb => Bool.noConfusion (sub_bit hW hb)
  shadows := fun hb => Bool.noConfusion (sub_bit hW hb)
  latches := h.latches
  hbm := h.hbm
  hbmBad := h.hbmBad
  flash := h.flash
  host := h.host
  queues := h.queues
  parts := fun hb => Bool.noConfusion (sub_bit hW hb)
  cores := h.cores
  clusters := h.clusters
  adm := h.adm
  bars := fun hb => Bool.noConfusion (sub_bit hW hb)
  tiles := h.tiles
  rings := h.rings
  faultTimes := h.faultTimes
  retireFailed := h.retireFailed
  links := h.links
  xfers := h.xfers
  reqs := h.reqs
  colls := h.colls
  earlyReady := h.earlyReady
  routed := h.routed
  notices := h.notices
  noticeSeq := h.noticeSeq
  noticeT := h.noticeT
  timeX := h.timeX
  dbg := h.dbg
  boot := h.boot
  fw := h.fw
  power := h.power
  sb := h.sb
  cxl := h.cxl
  out := h.out
  fresh := h.fresh
  pending := h.pending

theorem Within.upd_shadows {W : Nat} {σ s : State} {v0 : _} (hW : 0x20 ||| W = W) (k0 : rising s.shadows = true → rising v0 = true) (h : Within W σ s) :
    Within W σ { s with shadows := v0 } where
  stored := fun hs => by
    obtain ⟨h0, h1, h2, h3, h4, h5⟩ := stored_iff.1 (h.stored hs)
    exact stored_iff.2 ⟨h0, h1, h2, h3, k0 h4, h5⟩
  n8 := h.n8
  timeNow := h.timeNow
  refPresent := h.refPresent
  holdover := h.holdover
  regs := h.regs
  shadows := fun hb => Bool.noConfusion (sub_bit hW hb)
  latches := h.latches
  hbm := h.hbm
  hbmBad := h.hbmBad
  flash := h.flash
  host := h.host
  queues := h.queues
  parts := h.parts
  cores := h.cores
  clusters := h.clusters
  adm := h.adm
  bars := h.bars
  tiles := h.tiles
  rings := h.rings
  faultTimes := h.faultTimes
  retireFailed := h.retireFailed
  links := h.links
  xfers := h.xfers
  reqs := h.reqs
  colls := h.colls
  earlyReady := h.earlyReady
  routed := h.routed
  notices := h.notices
  noticeSeq := h.noticeSeq
  noticeT := h.noticeT
  timeX := h.timeX
  dbg := h.dbg
  boot := h.boot
  fw := h.fw
  power := h.power
  sb := h.sb
  cxl := h.cxl
  out := h.out
  fresh := h.fresh
  pending := h.pending

theorem Within.upd_timeNow_regs_power {W : Nat} {σ s : State} {v0 v1 v2 : _} (hW : 0x400000012 ||| W = W) (k1 : rising s.regs = true → rising v1 = true) (h : Within W σ s) :
    Within W σ { s with timeNow := v0, regs := v1, power := v2 } where
  stored := fun hs => by
    obtain ⟨h0, h1, h2, h3, h4, h5⟩ := stored_iff.1 (h.stored hs)
    exact stored_iff.2 ⟨h0, h1, h2, k1 h3, h4, h5⟩
  n8 := h.n8
  timeNow := fun hb => Bool.noConfusion (sub_bit hW hb)
  refPresent := h.refPresent
  holdover := h.holdover
  regs := fun hb => Bool.noConfusion (sub_bit hW hb)
  shadows := h.shadows
  latches := h.latches
  hbm := h.hbm
  hbmBad := h.hbmBad
  flash := h.flash
  host := h.host
  queues := h.queues
  parts := h.parts
  cores := h.cores
  clusters := h.clusters
  adm := h.adm
  bars := h.bars
  tiles := h.tiles
  rings := h.rings
  faultTimes := h.faultTimes
  retireFailed := h.retireFailed
  links := h.links
  xfers := h.xfers
  reqs := h.reqs
  colls := h.colls
  earlyReady := h.earlyReady
  routed := h.routed
  notices := h.notices
  noticeSeq := h.noticeSeq
  noticeT := h.noticeT
  timeX := h.timeX
  dbg := h.dbg
  boot := h.boot
  fw := h.fw
  power := fun hb => Bool.noConfusion (sub_bit hW hb)
  sb := h.sb
  cxl := h.cxl
  out := h.out
  fresh := h.fresh
  pending := h.pending

end Sys2Proof.Machine
end

