-- ==== Sys2Proof/Laws/FOps.lean ====
section
/-! SUPPORT. What each operation of Ops.lean can change, and that it keeps the tables in canonical form. -/

set_option linter.all false

namespace Sys2Proof.Machine

theorem State.setReg_ok {W : Nat} {σ s : State} {a1 a2 a3 a4 : _} (hW : 0x10 ||| W = W) (h : Within W σ s) :
    Within W σ (State.setReg s a1 a2 a3 a4) := by
  unfold State.setReg
  repeat' first
    | with_reducible assumption
    | (intro hs; first | rfl | with_reducible exact hs | with_reducible first | exact hs | exact wf_mset hs _ _ | exact wf_msetBytes _ hs _ | exact wf_filter hs _ | exact rising_sset hs _ _ | exact rising_filter hs _ | exact rising_sdel hs _ | (refine rising_map hs _ ?_; intro e; beta_reduce; first | rfl | (split <;> rfl)))
    | (extract_lets +onlyGivenNames x
       first
       | (refine Within.cut (W := W) (s := σ) x ?_ ?_; rotate_left; (clear_value x; intro hx))
       | (refine Within.cut (W := W) (s := σ) x.1 ?_ ?_; rotate_left; (clear_value x; intro hx))
       | (refine Within.cut (W := W) (s := σ) x.2 ?_ ?_; rotate_left; (clear_value x; intro hx))
       | (refine Within.cutF (W := W) (s := σ) x ?_ ?_; rotate_left; (clear_value x; intro hf))
       | clear_value x)
    | (with_reducible apply Within.upd_regs; exact sub_le (by decide) hW)
    | (intro t; intros; (try beta_reduce))

theorem State.setFld_ok {W : Nat} {σ s : State} {a1 a2 a3 a4 : _} (hW : 0x10 ||| W = W) (h : Within W σ s) :
    Within W σ (State.setFld s a1 a2 a3 a4) := by
  unfold State.setFld
  repeat' first
    | with_reducible assumption
    | (with_reducible apply State.setReg_ok; exact sub_le (by decide) hW)
    | (intro t; intros; (try beta_reduce))

theorem State.bump_ok {W : Nat} {σ s : State} {a1 a2 a3 a4 : _} (hW : 0x10 ||| W = W) (h : Within W σ s) :
    Within W σ (State.bump s a1 a2 a3 a4) := by
  unfold State.bump
  repeat' first
    | with_reducible assumption
    | (with_reducible apply State.setReg_ok; exact sub_le (by decide) hW)
    | (intro t; intros; (try beta_reduce))

theorem State.progress_ok {W : Nat} {σ s : State} {a1 a2 a3 a4 a5 : _} (hW : 0x10 ||| W = W) (h : Within W σ s) :
    Within W σ (State.progress s a1 a2 a3 a4 a5) := by
  unfold State.progress
  repeat' first
    | with_reducible assumption
    | (with_reducible apply State.setReg_ok; exact sub_le (by decide) hW)
    | (intro t; intros; (try beta_reduce))

theorem State.emit_ok {W : Nat} {σ s : State} {a1 a2 a3 : _} (hW : 0x2000000000 ||| W = W) (h : Within W σ s) :
    Within W σ (State.emit s a1 a2 a3) := by
  unfold State.emit
  repeat' first
    | with_reducible assumption
    | (extract_lets +onlyGivenNames x
       first
       | (refine Within.cut (W := W) (s := σ) x ?_ ?_; rotate_left; (clear_value x; intro hx))
       | (refine Within.cut (W := W) (s := σ) x.1 ?_ ?_; rotate_left; (clear_value x; intro hx))
       | (refine Within.cut (W := W) (s := σ) x.2 ?_ ?_; rotate_left; (clear_value x; intro hx))
       | (refine Within.cutF (W := W) (s := σ) x ?_ ?_; rotate_left; (clear_value x; intro hf))
       | clear_value x)
    | (with_reducible apply Within.upd_out; exact sub_le (by decide) hW)
    | (intro t; intros; (try beta_reduce))

theorem State.emitPacket_ok {W : Nat} {σ s : State} {a1 a2 : _} (hW : 0x2000000000 ||| W = W) (h : Within W σ s) :
    Within W σ (State.emitPacket s a1 a2) := by
  unfold State.emitPacket
  repeat' first
    | with_reducible assumption
    | (extract_lets +onlyGivenNames x
       first
       | (refine Within.cut (W := W) (s := σ) x ?_ ?_; rotate_left; (clear_value x; intro hx))
       | (refine Within.cut (W := W) (s := σ) x.1 ?_ ?_; rotate_left; (clear_value x; intro hx))
       | (refine Within.cut (W := W) (s := σ) x.2 ?_ ?_; rotate_left; (clear_value x; intro hx))
       | (refine Within.cutF (W := W) (s := σ) x ?_ ?_; rotate_left; (clear_value x; intro hf))
       | clear_value x)
    | (with_reducible apply Within.upd_out; exact sub_le (by decide) hW)
    | (intro t; intros; (try beta_reduce))

theorem State.freshen_ok {W : Nat} {σ s : State} (hW : 0x4000000000 ||| W = W) (h : Within W σ s) :
    Within W σ (State.freshen s) := by
  unfold State.freshen
  repeat' first
    | with_reducible assumption
    | (extract_lets +onlyGivenNames x
       first
       | (refine Within.cut (W := W) (s := σ) x ?_ ?_; rotate_left; (clear_value x; intro hx))
       | (refine Within.cut (W := W) (s := σ) x.1 ?_ ?_; rotate_left; (clear_value x; intro hx))
       | (refine Within.cut (W := W) (s := σ) x.2 ?_ ?_; rotate_left; (clear_value x; intro hx))
       | (refine Within.cutF (W := W) (s := σ) x ?_ ?_; rotate_left; (clear_value x; intro hf))
       | clear_value x)
    | (with_reducible apply Within.upd_fresh; exact sub_le (by decide) hW)
    | (intro t; intros; (try beta_reduce))

theorem State.setPart_ok {W : Nat} {σ s : State} {a1 a2 : _} (hW : 0x1000 ||| W = W) (h : Within W σ s) :
    Within W σ (State.setPart s a1 a2) := by
  unfold State.setPart
  repeat' first
    | with_reducible assumption
    | (extract_lets +onlyGivenNames x
       first
       | (refine Within.cut (W := W) (s := σ) x ?_ ?_; rotate_left; (clear_value x; intro hx))
       | (refine Within.cut (W := W) (s := σ) x.1 ?_ ?_; rotate_left; (clear_value x; intro hx))
       | (refine Within.cut (W := W) (s := σ) x.2 ?_ ?_; rotate_left; (clear_value x; intro hx))
       | (refine Within.cutF (W := W) (s := σ) x ?_ ?_; rotate_left; (clear_value x; intro hf))
       | clear_value x)
    | (with_reducible apply Within.upd_parts; exact sub_le (by decide) hW)
    | (intro t; intros; (try beta_reduce))

theorem State.updPart_ok {W : Nat} {σ s : State} {a1 a2 : _} (hW : 0x1000 ||| W = W) (h : Within W σ s) :
    Within W σ (State.updPart s a1 a2) := by
  unfold State.updPart
  repeat' first
    | with_reducible assumption
    | (with_reducible apply State.setPart_ok; exact sub_le (by decide) hW)
    | (intro t; intros; (try beta_reduce))

theorem State.setCore_ok {W : Nat} {σ s : State} {a1 a2 : _} (hW : 0x2000 ||| W = W) (h : Within W σ s) :
    Within W σ (State.setCore s a1 a2) := by
  unfold State.setCore
  repeat' first
    | with_reducible assumption
    | (extract_lets +onlyGivenNames x
       first
       | (refine Within.cut (W := W) (s := σ) x ?_ ?_; rotate_left; (clear_value x; intro hx))
       | (refine Within.cut (W := W) (s := σ) x.1 ?_ ?_; rotate_left; (clear_value x; intro hx))
       | (refine Within.cut (W := W) (s := σ) x.2 ?_ ?_; rotate_left; (clear_value x; intro hx))
       | (refine Within.cutF (W := W) (s := σ) x ?_ ?_; rotate_left; (clear_value x; intro hf))
       | clear_value x)
    | (with_reducible apply Within.upd_cores; exact sub_le (by decide) hW)
    | (intro t; intros; (try beta_reduce))

theorem State.updCore_ok {W : Nat} {σ s : State} {a1 a2 : _} (hW : 0x2000 ||| W = W) (h : Within W σ s) :
    Within W σ (State.updCore s a1 a2) := by
  unfold State.updCore
  repeat' first
    | with_reducible assumption
    | (with_reducible apply State.setCore_ok; exact sub_le (by decide) hW)
    | (intro t; intros; (try beta_reduce))

theorem State.setCluster_ok {W : Nat} {σ s : State} {a1 a2 : _} (hW : 0x4000 ||| W = W) (h : Within W σ s) :
    Within W σ (State.setCluster s a1 a2) := by
  unfold State.setCluster
  repeat' first
    | with_reducible assumption
    | (extract_lets +onlyGivenNames x
       first
       | (refine Within.cut (W := W) (s := σ) x ?_ ?_; rotate_left; (clear_value x; intro hx))
       | (refine Within.cut (W := W) (s := σ) x.1 ?_ ?_; rotate_left; (clear_value x; intro hx))
       | (refine Within.cut (W := W) (s := σ) x.2 ?_ ?_; rotate_left; (clear_value x; intro hx))
       | (refine Within.cutF (W := W) (s := σ) x ?_ ?_; rotate_left; (clear_value x; intro hf))
       | clear_value x)
    | (with_reducible apply Within.upd_clusters; exact sub_le (by decide) hW)
    | (intro t; intros; (try beta_reduce))

theorem State.updCluster_ok {W : Nat} {σ s : State} {a1 a2 : _} (hW : 0x4000 ||| W = W) (h : Within W σ s) :
    Within W σ (State.updCluster s a1 a2) := by
  unfold State.updCluster
  repeat' first
    | with_reducible assumption
    | (with_reducible apply State.setCluster_ok; exact sub_le (by decide) hW)
    | (intro t; intros; (try beta_reduce))

theorem State.setLink_ok {W : Nat} {σ s : State} {a1 a2 : _} (hW : 0x200000 ||| W = W) (h : Within W σ s) :
    Within W σ (State.setLink s a1 a2) := by
  unfold State.setLink
  repeat' first
    | with_reducible assumption
    | (extract_lets +onlyGivenNames x
       first
       | (refine Within.cut (W := W) (s := σ) x ?_ ?_; rotate_left; (clear_value x; intro hx))
       | (refine Within.cut (W := W) (s := σ) x.1 ?_ ?_; rotate_left; (clear_value x; intro hx))
       | (refine Within.cut (W := W) (s := σ) x.2 ?_ ?_; rotate_left; (clear_value x; intro hx))
       | (refine Within.cutF (W := W) (s := σ) x ?_ ?_; rotate_left; (clear_value x; intro hf))
       | clear_value x)
    | (with_reducible apply Within.upd_links; exact sub_le (by decide) hW)
    | (intro t; intros; (try beta_reduce))

theorem State.updLink_ok {W : Nat} {σ s : State} {a1 a2 : _} (hW : 0x200000 ||| W = W) (h : Within W σ s) :
    Within W σ (State.updLink s a1 a2) := by
  unfold State.updLink
  repeat' first
    | with_reducible assumption
    | (with_reducible apply State.setLink_ok; exact sub_le (by decide) hW)
    | (intro t; intros; (try beta_reduce))

theorem State.setDbg_ok {W : Nat} {σ s : State} {a1 a2 : _} (hW : 0x80000000 ||| W = W) (h : Within W σ s) :
    Within W σ (State.setDbg s a1 a2) := by
  unfold State.setDbg
  repeat' first
    | with_reducible assumption
    | (extract_lets +onlyGivenNames x
       first
       | (refine Within.cut (W := W) (s := σ) x ?_ ?_; rotate_left; (clear_value x; intro hx))
       | (refine Within.cut (W := W) (s := σ) x.1 ?_ ?_; rotate_left; (clear_value x; intro hx))
       | (refine Within.cut (W := W) (s := σ) x.2 ?_ ?_; rotate_left; (clear_value x; intro hx))
       | (refine Within.cutF (W := W) (s := σ) x ?_ ?_; rotate_left; (clear_value x; intro hf))
       | clear_value x)
    | (with_reducible apply Within.upd_dbg; exact sub_le (by decide) hW)
    | (intro t; intros; (try beta_reduce))

theorem State.updDbg_ok {W : Nat} {σ s : State} {a1 a2 : _} (hW : 0x80000000 ||| W = W) (h : Within W σ s) :
    Within W σ (State.updDbg s a1 a2) := by
  unfold State.updDbg
  repeat' first
    | with_reducible assumption
    | (with_reducible apply State.setDbg_ok; exact sub_le (by decide) hW)
    | (intro t; intros; (try beta_reduce))

theorem State.setQueue_ok {W : Nat} {σ s : State} {a1 a2 : _} (hW : 0x800 ||| W = W) (h : Within W σ s) :
    Within W σ (State.setQueue s a1 a2) := by
  unfold State.setQueue
  repeat' first
    | with_reducible assumption
    | (extract_lets +onlyGivenNames x
       first
       | (refine Within.cut (W := W) (s := σ) x ?_ ?_; rotate_left; (clear_value x; intro hx))
       | (refine Within.cut (W := W) (s := σ) x.1 ?_ ?_; rotate_left; (clear_value x; intro hx))
       | (refine Within.cut (W := W) (s := σ) x.2 ?_ ?_; rotate_left; (clear_value x; intro hx))
       | (refine Within.cutF (W := W) (s := σ) x ?_ ?_; rotate_left; (clear_value x; intro hf))
       | clear_value x)
    | (with_reducible apply Within.upd_queues; exact sub_le (by decide) hW)
    | (intro t; intros; (try beta_reduce))

theorem State.updQueue_ok {W : Nat} {σ s : State} {a1 a2 : _} (hW : 0x800 ||| W = W) (h : Within W σ s) :
    Within W σ (State.updQueue s a1 a2) := by
  unfold State.updQueue
  repeat' first
    | with_reducible assumption
    | (with_reducible apply State.setQueue_ok; exact sub_le (by decide) hW)
    | (intro t; intros; (try beta_reduce))

theorem State.hbmSet_ok {W : Nat} {σ s : State} {a1 a2 : _} (hW : 0x80 ||| W = W) (h : Within W σ s) :
    Within W σ (State.hbmSet s a1 a2) := by
  unfold State.hbmSet
  repeat' first
    | with_reducible assumption
    | (intro hs; first | rfl | with_reducible exact hs | with_reducible first | exact hs | exact wf_mset hs _ _ | exact wf_msetBytes _ hs _ | exact wf_filter hs _ | exact rising_sset hs _ _ | exact rising_filter hs _ | exact rising_sdel hs _ | (refine rising_map hs _ ?_; intro e; beta_reduce; first | rfl | (split <;> rfl)))
    | (extract_lets +onlyGivenNames x
       first
       | (refine Within.cut (W := W) (s := σ) x ?_ ?_; rotate_left; (clear_value x; intro hx))
       | (refine Within.cut (W := W) (s := σ) x.1 ?_ ?_; rotate_left; (clear_value x; intro hx))
       | (refine Within.cut (W := W) (s := σ) x.2 ?_ ?_; rotate_left; (clear_value x; intro hx))
       | (refine Within.cutF (W := W) (s := σ) x ?_ ?_; rotate_left; (clear_value x; intro hf))
       | clear_value x)
    | (with_reducible apply Within.upd_hbm; exact sub_le (by decide) hW)
    | (intro t; intros; (try beta_reduce))

theorem State.hbmSetBytes_ok {W : Nat} {σ s : State} {a1 a2 : _} (hW : 0x180 ||| W = W) (h : Within W σ s) :
    Within W σ (State.hbmSetBytes s a1 a2) := by
  unfold State.hbmSetBytes
  repeat' first
    | with_reducible assumption
    | with_reducible apply Within.ite1
    | with_reducible apply Within.ite2
    | (intro hs; first | rfl | with_reducible exact hs | with_reducible first | exact hs | exact wf_mset hs _ _ | exact wf_msetBytes _ hs _ | exact wf_filter hs _ | exact rising_sset hs _ _ | exact rising_filter hs _ | exact rising_sdel hs _ | (refine rising_map hs _ ?_; intro e; beta_reduce; first | rfl | (split <;> rfl)))
    | (extract_lets +onlyGivenNames x
       first
       | (refine Within.cut (W := W) (s := σ) x ?_ ?_; rotate_left; (clear_value x; intro hx))
       | (refine Within.cut (W := W) (s := σ) x.1 ?_ ?_; rotate_left; (clear_value x; intro hx))
       | (refine Within.cut (W := W) (s := σ) x.2 ?_ ?_; rotate_left; (clear_value x; intro hx))
       | (refine Within.cutF (W := W) (s := σ) x ?_ ?_; rotate_left; (clear_value x; intro hf))
       | clear_value x)
    | (with_reducible apply Within.upd_hbm_hbmBad; exact sub_le (by decide) hW)
    | (intro t; intros; (try beta_reduce))

theorem State.wr1_ok {W : Nat} {σ s : State} {a1 a2 a3 : _} (hW : 0x480 ||| W = W) (h : Within W σ s) :
    Within W σ (State.wr1 s a1 a2 a3) := by
  unfold State.wr1
  repeat' first
    | with_reducible assumption
    | with_reducible apply Within.ite
    | (intro hs; first | rfl | with_reducible exact hs | with_reducible first | exact hs | exact wf_mset hs _ _ | exact wf_msetBytes _ hs _ | exact wf_filter hs _ | exact rising_sset hs _ _ | exact rising_filter hs _ | exact rising_sdel hs _ | (refine rising_map hs _ ?_; intro e; beta_reduce; first | rfl | (split <;> rfl)))
    | (extract_lets +onlyGivenNames x
       first
       | (refine Within.cut (W := W) (s := σ) x ?_ ?_; rotate_left; (clear_value x; intro hx))
       | (refine Within.cut (W := W) (s := σ) x.1 ?_ ?_; rotate_left; (clear_value x; intro hx))
       | (refine Within.cut (W := W) (s := σ) x.2 ?_ ?_; rotate_left; (clear_value x; intro hx))
       | (refine Within.cutF (W := W) (s := σ) x ?_ ?_; rotate_left; (clear_value x; intro hf))
       | clear_value x)
    | split
    | (with_reducible apply Within.upd_hbm; exact sub_le (by decide) hW)
    | (with_reducible apply Within.upd_host; exact sub_le (by decide) hW)
    | (intro t; intros; (try beta_reduce))

theorem State.wrBytesRaw_ok {W : Nat} {σ s : State} {a1 a2 a3 : _} (hW : 0x480 ||| W = W) (h : Within W σ s) :
    Within W σ (State.wrBytesRaw s a1 a2 a3) := by
  induction a3 generalizing s a1 a2 with
  | nil =>
    unfold State.wrBytesRaw
    repeat' first
      | with_reducible assumption
      | with_reducible apply ih
      | (with_reducible apply State.wr1_ok; exact sub_le (by decide) hW)
      | (intro t; intros; (try beta_reduce))
  | cons b r ih =>
    unfold State.wrBytesRaw
    repeat' first
      | with_reducible assumption
      | with_reducible apply ih
      | (with_reducible apply State.wr1_ok; exact sub_le (by decide) hW)
      | (intro t; intros; (try beta_reduce))

theorem State.wrBytes_ok {W : Nat} {σ s : State} {a1 a2 a3 : _} (hW : 0x580 ||| W = W) (h : Within W σ s) :
    Within W σ (State.wrBytes s a1 a2 a3) := by
  unfold State.wrBytes
  repeat' first
    | with_reducible assumption
    | (with_reducible apply State.wrBytesRaw_ok; exact sub_le (by decide) hW)
    | with_reducible apply Within.ite1
    | with_reducible apply Within.ite2
    | (extract_lets +onlyGivenNames x
       first
       | (refine Within.cut (W := W) (s := σ) x ?_ ?_; rotate_left; (clear_value x; intro hx))
       | (refine Within.cut (W := W) (s := σ) x.1 ?_ ?_; rotate_left; (clear_value x; intro hx))
       | (refine Within.cut (W := W) (s := σ) x.2 ?_ ?_; rotate_left; (clear_value x; intro hx))
       | (refine Within.cutF (W := W) (s := σ) x ?_ ?_; rotate_left; (clear_value x; intro hf))
       | clear_value x)
    | (with_reducible apply Within.upd_hbmBad; exact sub_le (by decide) hW)
    | (intro t; intros; (try beta_reduce))
    | dsimp -zeta only [x]

theorem State.wrLE_ok {W : Nat} {σ s : State} {a1 a2 a3 a4 : _} (hW : 0x580 ||| W = W) (h : Within W σ s) :
    Within W σ (State.wrLE s a1 a2 a3 a4) := by
  unfold State.wrLE
  repeat' first
    | with_reducible assumption
    | (with_reducible apply State.wrBytes_ok; exact sub_le (by decide) hW)
    | (intro t; intros; (try beta_reduce))

theorem State.meter_ok {W : Nat} {σ s : State} {a1 a2 a3 : _} (hW : 0x10 ||| W = W) (h : Within W σ s) :
    Within W σ (State.meter s a1 a2 a3) := by
  unfold State.meter
  repeat' first
    | with_reducible assumption
    | (with_reducible apply State.bump_ok; exact sub_le (by decide) hW)
    | (intro t; intros; (try beta_reduce))

theorem State.msix_ok {W : Nat} {σ s : State} {a1 a2 : _} (hW : 0x2000000000 ||| W = W) (h : Within W σ s) :
    Within W σ (State.msix s a1 a2) := by
  unfold State.msix
  repeat' first
    | with_reducible assumption
    | (with_reducible apply State.emit_ok; exact sub_le (by decide) hW)
    | (intro t; intros; (try beta_reduce))

end Sys2Proof.Machine
end

