-- ==== Sys2Proof/Laws/FOperands.lean ====
section
/-! SUPPORT. What each operation of Operands.lean can change, and that it keeps the tables in canonical form. -/

set_option linter.all false

namespace Sys2Proof.Machine

theorem State.putRow_ok {W : Nat} {σ s : State} {a1 a2 a3 a4 : _} (hW : 0x580 ||| W = W) (h : Within W σ s) :
    Within W σ (State.putRow s a1 a2 a3 a4) := by
  unfold State.putRow
  repeat' first
    | with_reducible assumption
    | (with_reducible apply State.wrBytes_ok; exact sub_le (by decide) hW)
    | (intro t; intros; (try beta_reduce))

theorem State.putScaleRow_ok {W : Nat} {σ s : State} {a1 a2 a3 a4 : _} (hW : 0x580 ||| W = W) (h : Within W σ s) :
    Within W σ (State.putScaleRow s a1 a2 a3 a4) := by
  unfold State.putScaleRow
  repeat' first
    | with_reducible assumption
    | (with_reducible apply State.wrBytes_ok; exact sub_le (by decide) hW)
    | (intro t; intros; (try beta_reduce))

theorem State.putElem_ok {W : Nat} {σ s : State} {a1 a2 a3 a4 : _} (hW : 0x580 ||| W = W) (h : Within W σ s) :
    Within W σ (State.putElem s a1 a2 a3 a4) := by
  unfold State.putElem
  repeat' first
    | with_reducible assumption
    | (with_reducible apply State.wrLE_ok; exact sub_le (by decide) hW)
    | with_reducible apply Within.ite
    | (extract_lets +onlyGivenNames x
       first
       | (refine Within.cut (W := W) (s := σ) x ?_ ?_; rotate_left; (clear_value x; intro hx))
       | (refine Within.cut (W := W) (s := σ) x.1 ?_ ?_; rotate_left; (clear_value x; intro hx))
       | (refine Within.cut (W := W) (s := σ) x.2 ?_ ?_; rotate_left; (clear_value x; intro hx))
       | (refine Within.cutF (W := W) (s := σ) x ?_ ?_; rotate_left; (clear_value x; intro hf))
       | clear_value x)
    | split
    | (intro t; intros; (try beta_reduce))
    | dsimp -zeta only [x]

end Sys2Proof.Machine
end

