-- ==== Sys2Proof/Laws/FErrors.lean ====
section
/-! SUPPORT. What each operation of Errors.lean can change, and that it keeps the tables in canonical form. -/

set_option linter.all false

namespace Sys2Proof.Machine

theorem State.setRing_ok {W : Nat} {σ s : State} {a1 a2 : _} (hW : 0x40000 ||| W = W) (h : Within W σ s) :
    Within W σ (State.setRing s a1 a2) := by
  unfold State.setRing
  repeat' first
    | with_reducible assumption
    | (extract_lets +onlyGivenNames x
       first
       | (refine Within.cut (W := W) (s := σ) x ?_ ?_; rotate_left; (clear_value x; intro hx))
       | (refine Within.cut (W := W) (s := σ) x.1 ?_ ?_; rotate_left; (clear_value x; intro hx))
       | (refine Within.cut (W := W) (s := σ) x.2 ?_ ?_; rotate_left; (clear_value x; intro hx))
       | (refine Within.cutF (W := W) (s := σ) x ?_ ?_; rotate_left; (clear_value x; intro hf))
       | clear_value x)
    | (with_reducible apply Within.upd_rings; exact sub_le (by decide) hW)
    | (intro t; intros; (try beta_reduce))

theorem State.putErr_ok {W : Nat} {σ s : State} {a1 a2 a3 : _} (hW : 0x40010 ||| W = W) (h : Within W σ s) :
    Within W σ (State.putErr s a1 a2 a3) := by
  unfold State.putErr
  repeat' first
    | with_reducible assumption
    | (with_reducible apply State.setRing_ok; exact sub_le (by decide) hW)
    | (with_reducible apply State.bump_ok; exact sub_le (by decide) hW)
    | (with_reducible apply State.setFld_ok; exact sub_le (by decide) hW)
    | with_reducible apply Within.ite
    | (extract_lets +onlyGivenNames x
       first
       | (refine Within.cut (W := W) (s := σ) x ?_ ?_; rotate_left; (clear_value x; intro hx))
       | (refine Within.cut (W := W) (s := σ) x.1 ?_ ?_; rotate_left; (clear_value x; intro hx))
       | (refine Within.cut (W := W) (s := σ) x.2 ?_ ?_; rotate_left; (clear_value x; intro hx))
       | (refine Within.cutF (W := W) (s := σ) x ?_ ?_; rotate_left; (clear_value x; intro hf))
       | clear_value x)
    | split
    | (intro t; intros; (try beta_reduce))
    | dsimp -zeta only [x]

theorem State.signalErr_ok {W : Nat} {σ s : State} {a1 a2 : _} (hW : 0x2000000010 ||| W = W) (h : Within W σ s) :
    Within W σ (State.signalErr s a1 a2) := by
  unfold State.signalErr
  repeat' first
    | with_reducible assumption
    | (with_reducible apply State.msix_ok; exact sub_le (by decide) hW)
    | (with_reducible apply State.bump_ok; exact sub_le (by decide) hW)
    | (with_reducible apply State.emit_ok; exact sub_le (by decide) hW)
    | with_reducible apply Within.ite
    | (with_reducible apply Within.fold; (intro t x ht; beta_reduce))
    | (with_reducible apply Within.fold1; (intro t x ht; beta_reduce))
    | (with_reducible apply Within.fold2; (intro t x ht; beta_reduce))
    | (extract_lets +onlyGivenNames x
       first
       | (refine Within.cut (W := W) (s := σ) x ?_ ?_; rotate_left; (clear_value x; intro hx))
       | (refine Within.cut (W := W) (s := σ) x.1 ?_ ?_; rotate_left; (clear_value x; intro hx))
       | (refine Within.cut (W := W) (s := σ) x.2 ?_ ?_; rotate_left; (clear_value x; intro hx))
       | (refine Within.cutF (W := W) (s := σ) x ?_ ?_; rotate_left; (clear_value x; intro hf))
       | clear_value x)
    | split
    | (intro t; intros; (try beta_reduce))
    | dsimp -zeta only [x]

theorem State.logErr_ok {W : Nat} {σ s : State} {a1 a2 a3 : _} (hW : 0x2000040010 ||| W = W) (h : Within W σ s) :
    Within W σ (State.logErr s a1 a2 a3) := by
  unfold State.logErr
  repeat' first
    | with_reducible assumption
    | (with_reducible apply State.bump_ok; exact sub_le (by decide) hW)
    | (with_reducible apply State.setRing_ok; exact sub_le (by decide) hW)
    | (with_reducible apply State.signalErr_ok; exact sub_le (by decide) hW)
    | (with_reducible apply State.putErr_ok; exact sub_le (by decide) hW)
    | (extract_lets +onlyGivenNames x
       first
       | (refine Within.cut (W := W) (s := σ) x ?_ ?_; rotate_left; (clear_value x; intro hx))
       | (refine Within.cut (W := W) (s := σ) x.1 ?_ ?_; rotate_left; (clear_value x; intro hx))
       | (refine Within.cut (W := W) (s := σ) x.2 ?_ ?_; rotate_left; (clear_value x; intro hx))
       | (refine Within.cutF (W := W) (s := σ) x ?_ ?_; rotate_left; (clear_value x; intro hf))
       | clear_value x)
    | split
    | (intro t; intros; (try beta_reduce))
    | dsimp -zeta only [x]

theorem State.notice_ok {W : Nat} {σ s : State} {a1 a2 a3 : _} (hW : 0x2000040010 ||| W = W) (h : Within W σ s) :
    Within W σ (State.notice s a1 a2 a3) := by
  unfold State.notice
  repeat' first
    | with_reducible assumption
    | (with_reducible apply State.logErr_ok; exact sub_le (by decide) hW)
    | (intro t; intros; (try beta_reduce))

theorem State.pkgNotice_ok {W : Nat} {σ s : State} {a1 a2 a3 : _} (hW : 0x2000040010 ||| W = W) (h : Within W σ s) :
    Within W σ (State.pkgNotice s a1 a2 a3) := by
  unfold State.pkgNotice
  repeat' first
    | with_reducible assumption
    | (with_reducible apply State.logErr_ok; exact sub_le (by decide) hW)
    | (extract_lets +onlyGivenNames x
       first
       | (refine Within.cut (W := W) (s := σ) x ?_ ?_; rotate_left; (clear_value x; intro hx))
       | (refine Within.cut (W := W) (s := σ) x.1 ?_ ?_; rotate_left; (clear_value x; intro hx))
       | (refine Within.cut (W := W) (s := σ) x.2 ?_ ?_; rotate_left; (clear_value x; intro hx))
       | (refine Within.cutF (W := W) (s := σ) x ?_ ?_; rotate_left; (clear_value x; intro hf))
       | clear_value x)
    | (intro t; intros; (try beta_reduce))

theorem State.raiseBank_ok {W : Nat} {σ s : State} {a1 a2 a3 a4 : _} (hW : 0x2000000010 ||| W = W) (h : Within W σ s) :
    Within W σ (State.raiseBank s a1 a2 a3 a4) := by
  unfold State.raiseBank
  repeat' first
    | with_reducible assumption
    | (with_reducible apply State.setReg_ok; exact sub_le (by decide) hW)
    | (with_reducible apply State.msix_ok; exact sub_le (by decide) hW)
    | with_reducible apply Within.ite
    | (extract_lets +onlyGivenNames x
       first
       | (refine Within.cut (W := W) (s := σ) x ?_ ?_; rotate_left; (clear_value x; intro hx))
       | (refine Within.cut (W := W) (s := σ) x.1 ?_ ?_; rotate_left; (clear_value x; intro hx))
       | (refine Within.cut (W := W) (s := σ) x.2 ?_ ?_; rotate_left; (clear_value x; intro hx))
       | (refine Within.cutF (W := W) (s := σ) x ?_ ?_; rotate_left; (clear_value x; intro hf))
       | clear_value x)
    | split
    | (intro t; intros; (try beta_reduce))
    | dsimp -zeta only [x]

theorem State.raisePage_ok {W : Nat} {σ s : State} {a1 a2 : _} (hW : 0x2000000010 ||| W = W) (h : Within W σ s) :
    Within W σ (State.raisePage s a1 a2) := by
  unfold State.raisePage
  repeat' first
    | with_reducible assumption
    | (with_reducible apply State.raiseBank_ok; exact sub_le (by decide) hW)
    | (intro t; intros; (try beta_reduce))

end Sys2Proof.Machine
end

