-- ==== Sys2Proof/Laws/FTrace.lean ====
section
/-! SUPPORT. What each operation of Trace.lean can change, and that it keeps the tables in canonical form. -/

set_option linter.all false

namespace Sys2Proof.Machine

theorem State.tracePut_ok {W : Nat} {σ s : State} {a1 a2 a3 : _} (hW : 0x590 ||| W = W) (h : Within W σ s) :
    Within W σ (State.tracePut s a1 a2 a3) := by
  unfold State.tracePut
  repeat' first
    | with_reducible assumption
    | (with_reducible apply State.meter_ok; exact sub_le (by decide) hW)
    | (with_reducible apply State.setReg_ok; exact sub_le (by decide) hW)
    | (with_reducible apply State.wrBytes_ok; exact sub_le (by decide) hW)
    | with_reducible apply Within.ite
    | (extract_lets +onlyGivenNames x
       first
       | (refine Within.cut (W := W) (s := σ) x ?_ ?_; rotate_left; (clear_value x; intro hx))
       | (refine Within.cut (W := W) (s := σ) x.1 ?_ ?_; rotate_left; (clear_value x; intro hx))
       | (refine Within.cut (W := W) (s := σ) x.2 ?_ ?_; rotate_left; (clear_value x; intro hx))
       | (refine Within.cutF (W := W) (s := σ) x ?_ ?_; rotate_left; (clear_value x; intro hf))
       | clear_value x)
    | split
    | (intro t; intros; (try beta_reduce))
    | dsimp -zeta only [x]

theorem State.fly_ok {W : Nat} {σ s : State} {a1 : _} (hW : 0x10 ||| W = W) (h : Within W σ s) :
    Within W σ (State.fly s a1) := by
  unfold State.fly
  repeat' first
    | with_reducible assumption
    | (with_reducible apply State.setReg_ok; exact sub_le (by decide) hW)
    | (extract_lets +onlyGivenNames x; clear_value x)

theorem State.traceCmd_ok {W : Nat} {σ s : State} {a1 a2 a3 a4 a5 a6 a7 : _} (hW : 0x6000000590 ||| W = W) (h : Within W σ s) :
    Within W σ (State.traceCmd s a1 a2 a3 a4 a5 a6 a7) := by
  unfold State.traceCmd
  repeat' first
    | with_reducible assumption
    | (with_reducible apply State.raisePage_ok; exact sub_le (by decide) hW)
    | (with_reducible apply State.fly_ok; exact sub_le (by decide) hW)
    | (with_reducible apply State.freshen_ok; exact sub_le (by decide) hW)
    | (with_reducible apply State.bump_ok; exact sub_le (by decide) hW)
    | (with_reducible apply State.tracePut_ok; exact sub_le (by decide) hW)
    | with_reducible apply Within.ite
    | (extract_lets +onlyGivenNames x
       first
       | (refine Within.cut (W := W) (s := σ) x ?_ ?_; rotate_left; (clear_value x; intro hx))
       | (refine Within.cut (W := W) (s := σ) x.1 ?_ ?_; rotate_left; (clear_value x; intro hx))
       | (refine Within.cut (W := W) (s := σ) x.2 ?_ ?_; rotate_left; (clear_value x; intro hx))
       | (refine Within.cutF (W := W) (s := σ) x ?_ ?_; rotate_left; (clear_value x; intro hf))
       | clear_value x)
    | split
    | (intro t; intros; (try beta_reduce))
    | dsimp -zeta only [x]

theorem State.traceGrant_ok {W : Nat} {σ s : State} {a1 a2 a3 a4 a5 a6 a7 a8 : _} (hW : 0x590 ||| W = W) (h : Within W σ s) :
    Within W σ (State.traceGrant s a1 a2 a3 a4 a5 a6 a7 a8) := by
  unfold State.traceGrant
  repeat' first
    | with_reducible assumption
    | (with_reducible apply State.tracePut_ok; exact sub_le (by decide) hW)
    | with_reducible apply Within.ite
    | (extract_lets +onlyGivenNames x
       first
       | (refine Within.cut (W := W) (s := σ) x ?_ ?_; rotate_left; (clear_value x; intro hx))
       | (refine Within.cut (W := W) (s := σ) x.1 ?_ ?_; rotate_left; (clear_value x; intro hx))
       | (refine Within.cut (W := W) (s := σ) x.2 ?_ ?_; rotate_left; (clear_value x; intro hx))
       | (refine Within.cutF (W := W) (s := σ) x ?_ ?_; rotate_left; (clear_value x; intro hf))
       | clear_value x)
    | split
    | (intro t; intros; (try beta_reduce))
    | dsimp -zeta only [x]

theorem State.traceHalt_ok {W : Nat} {σ s : State} {a1 a2 a3 a4 a5 a6 : _} (hW : 0x590 ||| W = W) (h : Within W σ s) :
    Within W σ (State.traceHalt s a1 a2 a3 a4 a5 a6) := by
  unfold State.traceHalt
  repeat' first
    | with_reducible assumption
    | (with_reducible apply State.tracePut_ok; exact sub_le (by decide) hW)
    | (intro t; intros; (try beta_reduce))

theorem State.traceTime_ok {W : Nat} {σ s : State} (hW : 0x590 ||| W = W) (h : Within W σ s) :
    Within W σ (State.traceTime s) := by
  unfold State.traceTime
  repeat' first
    | with_reducible assumption
    | (with_reducible apply State.tracePut_ok; exact sub_le (by decide) hW)
    | (with_reducible apply Within.fold; (intro t x ht; beta_reduce))
    | (with_reducible apply Within.fold1; (intro t x ht; beta_reduce))
    | (with_reducible apply Within.fold2; (intro t x ht; beta_reduce))
    | (extract_lets +onlyGivenNames x
       first
       | (refine Within.cut (W := W) (s := σ) x ?_ ?_; rotate_left; (clear_value x; intro hx))
       | (refine Within.cut (W := W) (s := σ) x.1 ?_ ?_; rotate_left; (clear_value x; intro hx))
       | (refine Within.cut (W := W) (s := σ) x.2 ?_ ?_; rotate_left; (clear_value x; intro hx))
       | (refine Within.cutF (W := W) (s := σ) x ?_ ?_; rotate_left; (clear_value x; intro hf))
       | clear_value x)
    | (intro t; intros; (try beta_reduce))
    | dsimp -zeta only [x]

end Sys2Proof.Machine
end

