-- ==== Sys2Proof/Laws/FRouter.lean ====
section
/-! SUPPORT. What each operation of Router.lean can change, and that it keeps the tables in canonical form. -/

set_option linter.all false

namespace Sys2Proof.Machine

theorem State.setLinkSt_ok {W : Nat} {σ s : State} {a1 a2 : _} (hW : 0x200010 ||| W = W) (h : Within W σ s) :
    Within W σ (State.setLinkSt s a1 a2) := by
  unfold State.setLinkSt
  repeat' first
    | with_reducible assumption
    | (with_reducible apply State.updLink_ok; exact sub_le (by decide) hW)
    | (with_reducible apply State.progress_ok; exact sub_le (by decide) hW)
    | (with_reducible apply State.setFld_ok; exact sub_le (by decide) hW)
    | (extract_lets +onlyGivenNames x
       first
       | (refine Within.cut (W := W) (s := σ) x ?_ ?_; rotate_left; (clear_value x; intro hx))
       | (refine Within.cut (W := W) (s := σ) x.1 ?_ ?_; rotate_left; (clear_value x; intro hx))
       | (refine Within.cut (W := W) (s := σ) x.2 ?_ ?_; rotate_left; (clear_value x; intro hx))
       | (refine Within.cutF (W := W) (s := σ) x ?_ ?_; rotate_left; (clear_value x; intro hf))
       | clear_value x)
    | (intro t; intros; (try beta_reduce))

theorem State.sendNull_ok {W : Nat} {σ s : State} {a1 a2 : _} (hW : 0x2000000000 ||| W = W) (h : Within W σ s) :
    Within W σ (State.sendNull s a1 a2) := by
  unfold State.sendNull
  repeat' first
    | with_reducible assumption
    | (extract_lets +onlyGivenNames x
       first
       | (refine Within.cut (W := W) (s := σ) x ?_ ?_; rotate_left; (clear_value x; intro hx))
       | (refine Within.cut (W := W) (s := σ) x.1 ?_ ?_; rotate_left; (clear_value x; intro hx))
       | (refine Within.cut (W := W) (s := σ) x.2 ?_ ?_; rotate_left; (clear_value x; intro hx))
       | (refine Within.cutF (W := W) (s := σ) x ?_ ?_; rotate_left; (clear_value x; intro hf))
       | clear_value x)
    | (with_reducible apply Within.upd_out; exact sub_le (by decide) hW)
    | (intro t; intros; (try beta_reduce))

theorem State.sendFlit_ok {W : Nat} {σ s : State} {a1 a2 a3 a4 a5 a6 a7 : _} (hW : 0x2000200010 ||| W = W) (h : Within W σ s) :
    Within W σ (State.sendFlit s a1 a2 a3 a4 a5 a6 a7) := by
  unfold State.sendFlit
  repeat' first
    | with_reducible assumption
    | (with_reducible apply State.setLink_ok; exact sub_le (by decide) hW)
    | (with_reducible apply State.bump_ok; exact sub_le (by decide) hW)
    | with_reducible apply Within.ite
    | (extract_lets +onlyGivenNames x
       first
       | (refine Within.cut (W := W) (s := σ) x ?_ ?_; rotate_left; (clear_value x; intro hx))
       | (refine Within.cut (W := W) (s := σ) x.1 ?_ ?_; rotate_left; (clear_value x; intro hx))
       | (refine Within.cut (W := W) (s := σ) x.2 ?_ ?_; rotate_left; (clear_value x; intro hx))
       | (refine Within.cutF (W := W) (s := σ) x ?_ ?_; rotate_left; (clear_value x; intro hf))
       | clear_value x)
    | split
    | (with_reducible apply Within.upd_out; exact sub_le (by decide) hW)
    | (intro t; intros; (try beta_reduce))
    | dsimp -zeta only [x]

theorem State.sendMsg_ok {W : Nat} {σ s : State} {a1 a2 : _} (hW : 0x6000200010 ||| W = W) (h : Within W σ s) :
    Within W σ (State.sendMsg s a1 a2) := by
  unfold State.sendMsg
  repeat' first
    | with_reducible assumption
    | (with_reducible apply State.setLink_ok; exact sub_le (by decide) hW)
    | (with_reducible apply State.emit_ok; exact sub_le (by decide) hW)
    | (with_reducible apply State.sendFlit_ok; exact sub_le (by decide) hW)
    | (extract_lets +onlyGivenNames x
       first
       | (refine Within.cut (W := W) (s := σ) x ?_ ?_; rotate_left; (clear_value x; intro hx))
       | (refine Within.cut (W := W) (s := σ) x.1 ?_ ?_; rotate_left; (clear_value x; intro hx))
       | (refine Within.cut (W := W) (s := σ) x.2 ?_ ?_; rotate_left; (clear_value x; intro hx))
       | (refine Within.cutF (W := W) (s := σ) x ?_ ?_; rotate_left; (clear_value x; intro hf))
       | clear_value x)
    | (with_reducible apply Within.upd_fresh; exact sub_le (by decide) hW)
    | (intro t; intros; (try beta_reduce))
    | dsimp -zeta only [x]

theorem State.sendPacketOn_ok {W : Nat} {σ s : State} {a1 a2 a3 a4 : _} (hW : 0x2000200010 ||| W = W) (h : Within W σ s) :
    Within W σ (State.sendPacketOn s a1 a2 a3 a4) := by
  unfold State.sendPacketOn
  repeat' first
    | with_reducible assumption
    | (with_reducible apply State.sendFlit_ok; exact sub_le (by decide) hW)
    | (with_reducible apply Within.fold; (intro t x ht; beta_reduce))
    | (with_reducible apply Within.fold1; (intro t x ht; beta_reduce))
    | (with_reducible apply Within.fold2; (intro t x ht; beta_reduce))
    | with_reducible apply Within.ite1
    | with_reducible apply Within.ite2
    | (extract_lets +onlyGivenNames x
       first
       | (refine Within.cut (W := W) (s := σ) x ?_ ?_; rotate_left; (clear_value x; intro hx))
       | (refine Within.cut (W := W) (s := σ) x.1 ?_ ?_; rotate_left; (clear_value x; intro hx))
       | (refine Within.cut (W := W) (s := σ) x.2 ?_ ?_; rotate_left; (clear_value x; intro hx))
       | (refine Within.cutF (W := W) (s := σ) x ?_ ?_; rotate_left; (clear_value x; intro hf))
       | clear_value x)
    | (intro t; intros; (try beta_reduce))
    | dsimp -zeta only [x]

theorem State.pumpLink_ok {W : Nat} {σ s : State} {a1 a2 : _} (hW : 0x6004200010 ||| W = W) (h : Within W σ s) :
    Within W σ (State.pumpLink s a1 a2) := by
  induction a2 generalizing s a1 with
  | zero =>
    unfold State.pumpLink
    repeat' first
      | with_reducible assumption
      | with_reducible apply ih
      | (with_reducible apply State.sendMsg_ok; exact sub_le (by decide) hW)
      | (with_reducible apply State.setLink_ok; exact sub_le (by decide) hW)
      | (with_reducible apply State.sendPacketOn_ok; exact sub_le (by decide) hW)
      | with_reducible apply Within.ite
      | (extract_lets +onlyGivenNames x
         first
         | (refine Within.cut (W := W) (s := σ) x ?_ ?_; rotate_left; (clear_value x; intro hx))
         | (refine Within.cut (W := W) (s := σ) x.1 ?_ ?_; rotate_left; (clear_value x; intro hx))
         | (refine Within.cut (W := W) (s := σ) x.2 ?_ ?_; rotate_left; (clear_value x; intro hx))
         | (refine Within.cutF (W := W) (s := σ) x ?_ ?_; rotate_left; (clear_value x; intro hf))
         | clear_value x)
      | split
      | (with_reducible apply Within.upd_routed; exact sub_le (by decide) hW)
      | (intro t; intros; (try beta_reduce))
      | dsimp -zeta only [x]
  | succ k ih =>
    unfold State.pumpLink
    repeat' first
      | with_reducible assumption
      | with_reducible apply ih
      | (with_reducible apply State.sendMsg_ok; exact sub_le (by decide) hW)
      | (with_reducible apply State.setLink_ok; exact sub_le (by decide) hW)
      | (with_reducible apply State.sendPacketOn_ok; exact sub_le (by decide) hW)
      | with_reducible apply Within.ite
      | (extract_lets +onlyGivenNames x
         first
         | (refine Within.cut (W := W) (s := σ) x ?_ ?_; rotate_left; (clear_value x; intro hx))
         | (refine Within.cut (W := W) (s := σ) x.1 ?_ ?_; rotate_left; (clear_value x; intro hx))
         | (refine Within.cut (W := W) (s := σ) x.2 ?_ ?_; rotate_left; (clear_value x; intro hx))
         | (refine Within.cutF (W := W) (s := σ) x ?_ ?_; rotate_left; (clear_value x; intro hf))
         | clear_value x)
      | split
      | (with_reducible apply Within.upd_routed; exact sub_le (by decide) hW)
      | (intro t; intros; (try beta_reduce))
      | dsimp -zeta only [x]

theorem State.pump_ok {W : Nat} {σ s : State} {a1 : _} (hW : 0x6004200010 ||| W = W) (h : Within W σ s) :
    Within W σ (State.pump s a1) := by
  unfold State.pump
  repeat' first
    | with_reducible assumption
    | (with_reducible apply State.pumpLink_ok; exact sub_le (by decide) hW)
    | (intro t; intros; (try beta_reduce))

theorem State.ctrlMsg_ok {W : Nat} {σ s : State} {a1 a2 : _} (hW : 0x6004200010 ||| W = W) (h : Within W σ s) :
    Within W σ (State.ctrlMsg s a1 a2) := by
  unfold State.ctrlMsg
  repeat' first
    | with_reducible assumption
    | (with_reducible apply State.pump_ok; exact sub_le (by decide) hW)
    | (with_reducible apply State.updLink_ok; exact sub_le (by decide) hW)
    | (extract_lets +onlyGivenNames x
       first
       | (refine Within.cut (W := W) (s := σ) x ?_ ?_; rotate_left; (clear_value x; intro hx))
       | (refine Within.cut (W := W) (s := σ) x.1 ?_ ?_; rotate_left; (clear_value x; intro hx))
       | (refine Within.cut (W := W) (s := σ) x.2 ?_ ?_; rotate_left; (clear_value x; intro hx))
       | (refine Within.cutF (W := W) (s := σ) x ?_ ?_; rotate_left; (clear_value x; intro hf))
       | clear_value x)
    | (intro t; intros; (try beta_reduce))

theorem State.routeAt_ok {W : Nat} {σ s : State} {a1 a2 a3 : _} (hW : 0x6004240010 ||| W = W) (h : Within W σ s) :
    Within W σ (State.routeAt s a1 a2 a3) := by
  unfold State.routeAt
  repeat' first
    | with_reducible assumption
    | (with_reducible apply State.notice_ok; exact sub_le (by decide) hW)
    | (with_reducible apply State.bump_ok; exact sub_le (by decide) hW)
    | (with_reducible apply State.pump_ok; exact sub_le (by decide) hW)
    | with_reducible apply Within.ite
    | (extract_lets +onlyGivenNames x
       first
       | (refine Within.cut (W := W) (s := σ) x ?_ ?_; rotate_left; (clear_value x; intro hx))
       | (refine Within.cut (W := W) (s := σ) x.1 ?_ ?_; rotate_left; (clear_value x; intro hx))
       | (refine Within.cut (W := W) (s := σ) x.2 ?_ ?_; rotate_left; (clear_value x; intro hx))
       | (refine Within.cutF (W := W) (s := σ) x ?_ ?_; rotate_left; (clear_value x; intro hf))
       | clear_value x)
    | split
    | (with_reducible apply Within.upd_routed; exact sub_le (by decide) hW)
    | (intro t; intros; (try beta_reduce))
    | dsimp -zeta only [x]

theorem State.inject_ok {W : Nat} {σ s : State} {a1 a2 a3 : _} (hW : 0x6004240010 ||| W = W) (h : Within W σ s) :
    Within W σ (State.inject s a1 a2 a3) := by
  unfold State.inject
  repeat' first
    | with_reducible assumption
    | (with_reducible apply State.emitPacket_ok; exact sub_le (by decide) hW)
    | (with_reducible apply State.routeAt_ok; exact sub_le (by decide) hW)
    | with_reducible apply Within.ite
    | (extract_lets +onlyGivenNames x
       first
       | (refine Within.cut (W := W) (s := σ) x ?_ ?_; rotate_left; (clear_value x; intro hx))
       | (refine Within.cut (W := W) (s := σ) x.1 ?_ ?_; rotate_left; (clear_value x; intro hx))
       | (refine Within.cut (W := W) (s := σ) x.2 ?_ ?_; rotate_left; (clear_value x; intro hx))
       | (refine Within.cutF (W := W) (s := σ) x ?_ ?_; rotate_left; (clear_value x; intro hf))
       | clear_value x)
    | split
    | (intro t; intros; (try beta_reduce))
    | dsimp -zeta only [x]

theorem State.sendPk_ok {W : Nat} {σ s : State} {a1 a2 a3 a4 : _} (hW : 0x6004240010 ||| W = W) (h : Within W σ s) :
    Within W σ (State.sendPk s a1 a2 a3 a4) := by
  unfold State.sendPk
  repeat' first
    | with_reducible assumption
    | (with_reducible apply State.bump_ok; exact sub_le (by decide) hW)
    | (with_reducible apply State.inject_ok; exact sub_le (by decide) hW)
    | (intro t; intros; (try beta_reduce))

theorem State.collTo_ok {W : Nat} {σ s : State} {a1 a2 a3 a4 a5 : _} (hW : 0x6004240010 ||| W = W) (h : Within W σ s) :
    Within W σ (State.collTo s a1 a2 a3 a4 a5) := by
  unfold State.collTo
  repeat' first
    | with_reducible assumption
    | (with_reducible apply State.sendPk_ok; exact sub_le (by decide) hW)
    | (extract_lets +onlyGivenNames x
       first
       | (refine Within.cut (W := W) (s := σ) x ?_ ?_; rotate_left; (clear_value x; intro hx))
       | (refine Within.cut (W := W) (s := σ) x.1 ?_ ?_; rotate_left; (clear_value x; intro hx))
       | (refine Within.cut (W := W) (s := σ) x.2 ?_ ?_; rotate_left; (clear_value x; intro hx))
       | (refine Within.cutF (W := W) (s := σ) x ?_ ?_; rotate_left; (clear_value x; intro hf))
       | clear_value x)
    | (intro t; intros; (try beta_reduce))
    | dsimp -zeta only [x]

theorem State.collCancelAll_ok {W : Nat} {σ s : State} {a1 : _} (hW : 0x6004240010 ||| W = W) (h : Within W σ s) :
    Within W σ (State.collCancelAll s a1) := by
  unfold State.collCancelAll
  repeat' first
    | with_reducible assumption
    | (with_reducible apply State.collTo_ok; exact sub_le (by decide) hW)
    | (with_reducible apply Within.fold; (intro t x ht; beta_reduce))
    | (with_reducible apply Within.fold1; (intro t x ht; beta_reduce))
    | (with_reducible apply Within.fold2; (intro t x ht; beta_reduce))
    | (intro t; intros; (try beta_reduce))

theorem State.cancelPeers_ok {W : Nat} {σ s : State} {a1 a2 a3 : _} (hW : 0x6004240010 ||| W = W) (h : Within W σ s) :
    Within W σ (State.cancelPeers s a1 a2 a3) := by
  unfold State.cancelPeers
  repeat' first
    | with_reducible assumption
    | (with_reducible apply State.sendPk_ok; exact sub_le (by decide) hW)
    | (with_reducible apply State.collCancelAll_ok; exact sub_le (by decide) hW)
    | with_reducible apply Within.ite
    | (with_reducible apply Within.fold; (intro t x ht; beta_reduce))
    | (with_reducible apply Within.fold1; (intro t x ht; beta_reduce))
    | (with_reducible apply Within.fold2; (intro t x ht; beta_reduce))
    | (extract_lets +onlyGivenNames x
       first
       | (refine Within.cut (W := W) (s := σ) x ?_ ?_; rotate_left; (clear_value x; intro hx))
       | (refine Within.cut (W := W) (s := σ) x.1 ?_ ?_; rotate_left; (clear_value x; intro hx))
       | (refine Within.cut (W := W) (s := σ) x.2 ?_ ?_; rotate_left; (clear_value x; intro hx))
       | (refine Within.cutF (W := W) (s := σ) x ?_ ?_; rotate_left; (clear_value x; intro hf))
       | clear_value x)
    | split
    | (intro t; intros; (try beta_reduce))
    | dsimp -zeta only [x]

end Sys2Proof.Machine
end

