-- ==== Sys2Proof/Laws/FQueueOps.lean ====
section
/-! SUPPORT. What each operation of QueueOps.lean can change, and that it keeps the tables in canonical form. -/

set_option linter.all false

namespace Sys2Proof.Machine

theorem State.setQreg_ok {W : Nat} {σ s : State} {a1 a2 a3 : _} (hW : 0x10 ||| W = W) (h : Within W σ s) :
    Within W σ (State.setQreg s a1 a2 a3) := by
  unfold State.setQreg
  repeat' first
    | with_reducible assumption
    | (with_reducible apply State.setReg_ok; exact sub_le (by decide) hW)
    | (intro t; intros; (try beta_reduce))

theorem State.qIrq_ok {W : Nat} {σ s : State} {a1 : _} (hW : 0x2000000000 ||| W = W) (h : Within W σ s) :
    Within W σ (State.qIrq s a1) := by
  unfold State.qIrq
  repeat' first
    | with_reducible assumption
    | (with_reducible apply State.msix_ok; exact sub_le (by decide) hW)
    | with_reducible apply Within.ite
    | split
    | (intro t; intros; (try beta_reduce))

theorem State.countBytes_ok {W : Nat} {σ s : State} {a1 a2 a3 : _} (hW : 0x10 ||| W = W) (h : Within W σ s) :
    Within W σ (State.countBytes s a1 a2 a3) := by
  unfold State.countBytes
  repeat' first
    | with_reducible assumption
    | (with_reducible apply State.meter_ok; exact sub_le (by decide) hW)
    | with_reducible apply Within.ite
    | split
    | (intro t; intros; (try beta_reduce))

theorem State.putRecord_ok {W : Nat} {σ s : State} {a1 a2 a3 : _} (hW : 0x590 ||| W = W) (h : Within W σ s) :
    Within W σ (State.putRecord s a1 a2 a3) := by
  unfold State.putRecord
  repeat' first
    | with_reducible assumption
    | (with_reducible apply State.countBytes_ok; exact sub_le (by decide) hW)
    | (with_reducible apply State.wrBytes_ok; exact sub_le (by decide) hW)
    | (intro t; intros; (try beta_reduce))

theorem State.admRecord_ok {W : Nat} {σ s : State} {a1 a2 a3 a4 a5 a6 a7 : _} (hW : 0x590 ||| W = W) (h : Within W σ s) :
    Within W σ (State.admRecord s a1 a2 a3 a4 a5 a6 a7) := by
  unfold State.admRecord
  repeat' first
    | with_reducible assumption
    | (with_reducible apply State.putRecord_ok; exact sub_le (by decide) hW)
    | with_reducible apply Within.ite
    | (extract_lets +onlyGivenNames x
       first
       | (refine Within.cut (W := W) (s := σ) x ?_ ?_; rotate_left; (clear_value x; intro hx))
       | (refine Within.cut (W := W) (s := σ) x.1 ?_ ?_; rotate_left; (clear_value x; intro hx))
       | (refine Within.cut (W := W) (s := σ) x.2 ?_ ?_; rotate_left; (clear_value x; intro hx))
       | (refine Within.cutF (W := W) (s := σ) x ?_ ?_; rotate_left; (clear_value x; intro hf))
       | clear_value x)
    | split
    | (intro t; intros; (try beta_reduce))
    | dsimp -zeta only [x]

theorem State.putCmd_ok {W : Nat} {σ s : State} {a1 a2 : _} (hW : 0x800 ||| W = W) (h : Within W σ s) :
    Within W σ (State.putCmd s a1 a2) := by
  unfold State.putCmd
  repeat' first
    | with_reducible assumption
    | (with_reducible apply State.updQueue_ok; exact sub_le (by decide) hW)
    | (extract_lets +onlyGivenNames x
       first
       | (refine Within.cut (W := W) (s := σ) x ?_ ?_; rotate_left; (clear_value x; intro hx))
       | (refine Within.cut (W := W) (s := σ) x.1 ?_ ?_; rotate_left; (clear_value x; intro hx))
       | (refine Within.cut (W := W) (s := σ) x.2 ?_ ?_; rotate_left; (clear_value x; intro hx))
       | (refine Within.cutF (W := W) (s := σ) x ?_ ?_; rotate_left; (clear_value x; intro hf))
       | clear_value x)
    | (intro t; intros; (try beta_reduce))

theorem State.putTask_ok {W : Nat} {σ s : State} {a1 a2 : _} (hW : 0x800 ||| W = W) (h : Within W σ s) :
    Within W σ (State.putTask s a1 a2) := by
  unfold State.putTask
  repeat' first
    | with_reducible assumption
    | (with_reducible apply State.updQueue_ok; exact sub_le (by decide) hW)
    | (extract_lets +onlyGivenNames x
       first
       | (refine Within.cut (W := W) (s := σ) x ?_ ?_; rotate_left; (clear_value x; intro hx))
       | (refine Within.cut (W := W) (s := σ) x.1 ?_ ?_; rotate_left; (clear_value x; intro hx))
       | (refine Within.cut (W := W) (s := σ) x.2 ?_ ?_; rotate_left; (clear_value x; intro hx))
       | (refine Within.cutF (W := W) (s := σ) x ?_ ?_; rotate_left; (clear_value x; intro hf))
       | clear_value x)
    | (intro t; intros; (try beta_reduce))

theorem State.traceDone_ok {W : Nat} {σ s : State} {a1 a2 : _} (hW : 0x6000000590 ||| W = W) (h : Within W σ s) :
    Within W σ (State.traceDone s a1 a2) := by
  unfold State.traceDone
  repeat' first
    | with_reducible assumption
    | (with_reducible apply State.traceCmd_ok; exact sub_le (by decide) hW)
    | (with_reducible apply Within.fold; (intro t x ht; beta_reduce))
    | (with_reducible apply Within.fold1; (intro t x ht; beta_reduce))
    | (with_reducible apply Within.fold2; (intro t x ht; beta_reduce))
    | with_reducible apply Within.ite1
    | with_reducible apply Within.ite2
    | split
    | (intro t; intros; (try beta_reduce))

theorem State.idleEngine_ok {W : Nat} {σ s : State} {a1 : _} (hW : 0x10 ||| W = W) (h : Within W σ s) :
    Within W σ (State.idleEngine s a1) := by
  unfold State.idleEngine
  repeat' first
    | with_reducible assumption
    | (with_reducible apply State.setReg_ok; exact sub_le (by decide) hW)
    | (with_reducible apply State.setFld_ok; exact sub_le (by decide) hW)
    | split
    | (intro t; intros; (try beta_reduce))

theorem State.snapEnds_ok {W : Nat} {σ s : State} {a1 a2 : _} (hW : 0x1010 ||| W = W) (h : Within W σ s) :
    Within W σ (State.snapEnds s a1 a2) := by
  unfold State.snapEnds
  repeat' first
    | with_reducible assumption
    | (with_reducible apply State.updPart_ok; exact sub_le (by decide) hW)
    | (with_reducible apply State.setReg_ok; exact sub_le (by decide) hW)
    | (with_reducible apply State.bump_ok; exact sub_le (by decide) hW)
    | with_reducible apply Within.ite
    | (extract_lets +onlyGivenNames x
       first
       | (refine Within.cut (W := W) (s := σ) x ?_ ?_; rotate_left; (clear_value x; intro hx))
       | (refine Within.cut (W := W) (s := σ) x.1 ?_ ?_; rotate_left; (clear_value x; intro hx))
       | (refine Within.cut (W := W) (s := σ) x.2 ?_ ?_; rotate_left; (clear_value x; intro hx))
       | (refine Within.cutF (W := W) (s := σ) x ?_ ?_; rotate_left; (clear_value x; intro hf))
       | clear_value x)
    | split
    | (intro t; intros; (try beta_reduce))
    | dsimp -zeta only [x]

theorem State.complete_ok {W : Nat} {σ s : State} {a1 a2 a3 a4 : _} (hW : 0x6005661d90 ||| W = W) (h : Within W σ s) :
    Within W σ (State.complete s a1 a2 a3 a4) := by
  unfold State.complete
  repeat' first
    | with_reducible assumption
    | (with_reducible apply State.putRecord_ok; exact sub_le (by decide) hW)
    | (with_reducible apply State.setQueue_ok; exact sub_le (by decide) hW)
    | (with_reducible apply State.updPart_ok; exact sub_le (by decide) hW)
    | (with_reducible apply State.cancelPeers_ok; exact sub_le (by decide) hW)
    | (with_reducible apply State.qIrq_ok; exact sub_le (by decide) hW)
    | (with_reducible apply State.snapEnds_ok; exact sub_le (by decide) hW)
    | (with_reducible apply State.idleEngine_ok; exact sub_le (by decide) hW)
    | (with_reducible apply State.traceDone_ok; exact sub_le (by decide) hW)
    | with_reducible apply Within.ite
    | (with_reducible apply Within.fold; (intro t x ht; beta_reduce))
    | (with_reducible apply Within.fold1; (intro t x ht; beta_reduce))
    | (with_reducible apply Within.fold2; (intro t x ht; beta_reduce))
    | (extract_lets +onlyGivenNames x
       first
       | (refine Within.cut (W := W) (s := σ) x ?_ ?_; rotate_left; (clear_value x; intro hx))
       | (refine Within.cut (W := W) (s := σ) x.1 ?_ ?_; rotate_left; (clear_value x; intro hx))
       | (refine Within.cut (W := W) (s := σ) x.2 ?_ ?_; rotate_left; (clear_value x; intro hx))
       | (refine Within.cutF (W := W) (s := σ) x ?_ ?_; rotate_left; (clear_value x; intro hf))
       | clear_value x)
    | split
    | (with_reducible apply Within.upd_tiles_xfers_colls; exact sub_le (by decide) hW)
    | (intro t; intros; (try beta_reduce))
    | dsimp -zeta only [x]

theorem State.havoc_ok {W : Nat} {σ s : State} {a1 a2 : _} (hW : 0x4000000580 ||| W = W) (h : Within W σ s) :
    Within W σ (State.havoc s a1 a2) := by
  unfold State.havoc
  repeat' first
    | with_reducible assumption
    | (with_reducible apply State.wrBytes_ok; exact sub_le (by decide) hW)
    | with_reducible apply Within.ite
    | (extract_lets +onlyGivenNames x
       first
       | (refine Within.cut (W := W) (s := σ) x ?_ ?_; rotate_left; (clear_value x; intro hx))
       | (refine Within.cut (W := W) (s := σ) x.1 ?_ ?_; rotate_left; (clear_value x; intro hx))
       | (refine Within.cut (W := W) (s := σ) x.2 ?_ ?_; rotate_left; (clear_value x; intro hx))
       | (refine Within.cutF (W := W) (s := σ) x ?_ ?_; rotate_left; (clear_value x; intro hf))
       | clear_value x)
    | split
    | (with_reducible apply Within.upd_fresh; exact sub_le (by decide) hW)
    | (intro t; intros; (try beta_reduce))
    | dsimp -zeta only [x]

theorem State.havocAll_ok {W : Nat} {σ s : State} {a1 a2 : _} (hW : 0x4000000580 ||| W = W) (h : Within W σ s) :
    Within W σ (State.havocAll s a1 a2) := by
  induction a2 generalizing s a1 with
  | nil =>
    unfold State.havocAll
    repeat' first
      | with_reducible assumption
      | with_reducible apply ih
      | (with_reducible apply State.havoc_ok; exact sub_le (by decide) hW)
      | (intro t; intros; (try beta_reduce))
  | cons b r ih =>
    unfold State.havocAll
    repeat' first
      | with_reducible assumption
      | with_reducible apply ih
      | (with_reducible apply State.havoc_ok; exact sub_le (by decide) hW)
      | (intro t; intros; (try beta_reduce))

theorem State.dropPending_ok {W : Nat} {σ s : State} {a1 : _} (hW : 0x10 ||| W = W) (h : Within W σ s) :
    Within W σ (State.dropPending s a1) := by
  unfold State.dropPending
  repeat' first
    | with_reducible assumption
    | with_reducible apply Within.ite1
    | with_reducible apply Within.ite2
    | (intro hs; first | rfl | with_reducible exact hs | with_reducible first | exact hs | exact wf_mset hs _ _ | exact wf_msetBytes _ hs _ | exact wf_filter hs _ | exact rising_sset hs _ _ | exact rising_filter hs _ | exact rising_sdel hs _ | (refine rising_map hs _ ?_; intro e; beta_reduce; first | rfl | (split <;> rfl)))
    | (extract_lets +onlyGivenNames x
       first
       | (refine Within.cut (W := W) (s := σ) x ?_ ?_; rotate_left; (clear_value x; intro hx))
       | (refine Within.cut (W := W) (s := σ) x.1 ?_ ?_; rotate_left; (clear_value x; intro hx))
       | (refine Within.cut (W := W) (s := σ) x.2 ?_ ?_; rotate_left; (clear_value x; intro hx))
       | (refine Within.cutF (W := W) (s := σ) x ?_ ?_; rotate_left; (clear_value x; intro hf))
       | clear_value x)
    | (with_reducible apply Within.upd_regs; exact sub_le (by decide) hW)
    | (intro t; intros; (try beta_reduce))
    | dsimp -zeta only [x]

theorem State.setDeficit_ok {W : Nat} {σ s : State} {a1 a2 a3 : _} (hW : 0x1000 ||| W = W) (h : Within W σ s) :
    Within W σ (State.setDeficit s a1 a2 a3) := by
  unfold State.setDeficit
  repeat' first
    | with_reducible assumption
    | (with_reducible apply State.updPart_ok; exact sub_le (by decide) hW)
    | (extract_lets +onlyGivenNames x
       first
       | (refine Within.cut (W := W) (s := σ) x ?_ ?_; rotate_left; (clear_value x; intro hx))
       | (refine Within.cut (W := W) (s := σ) x.1 ?_ ?_; rotate_left; (clear_value x; intro hx))
       | (refine Within.cut (W := W) (s := σ) x.2 ?_ ?_; rotate_left; (clear_value x; intro hx))
       | (refine Within.cutF (W := W) (s := σ) x ?_ ?_; rotate_left; (clear_value x; intro hf))
       | clear_value x)
    | (intro t; intros; (try beta_reduce))

theorem State.poolStart_ok {W : Nat} {σ s : State} {a1 a2 a3 a4 a5 : _} (hW : 0x4d90 ||| W = W) (h : Within W σ s) :
    Within W σ (State.poolStart s a1 a2 a3 a4 a5) := by
  unfold State.poolStart
  repeat' first
    | with_reducible assumption
    | (with_reducible apply State.putTask_ok; exact sub_le (by decide) hW)
    | (with_reducible apply State.updCluster_ok; exact sub_le (by decide) hW)
    | (with_reducible apply State.meter_ok; exact sub_le (by decide) hW)
    | (with_reducible apply State.bump_ok; exact sub_le (by decide) hW)
    | (with_reducible apply State.progress_ok; exact sub_le (by decide) hW)
    | (with_reducible apply State.traceGrant_ok; exact sub_le (by decide) hW)
    | with_reducible apply Within.ite
    | (extract_lets +onlyGivenNames x
       first
       | (refine Within.cut (W := W) (s := σ) x ?_ ?_; rotate_left; (clear_value x; intro hx))
       | (refine Within.cut (W := W) (s := σ) x.1 ?_ ?_; rotate_left; (clear_value x; intro hx))
       | (refine Within.cut (W := W) (s := σ) x.2 ?_ ?_; rotate_left; (clear_value x; intro hx))
       | (refine Within.cutF (W := W) (s := σ) x ?_ ?_; rotate_left; (clear_value x; intro hf))
       | clear_value x)
    | split
    | (intro t; intros; (try beta_reduce))
    | dsimp -zeta only [x]

theorem State.poolVisit_ok {W : Nat} {σ s : State} {a1 a2 a3 : _} (hW : 0xdd90 ||| W = W) (h : Within W σ s) :
    Within W σ (State.poolVisit s a1 a2 a3) := by
  induction a3 generalizing s a1 a2 with
  | zero =>
    unfold State.poolVisit
    repeat' first
      | with_reducible assumption
      | with_reducible apply ih
      | (with_reducible apply State.setDeficit_ok; exact sub_le (by decide) hW)
      | (with_reducible apply State.poolStart_ok; exact sub_le (by decide) hW)
      | with_reducible apply Within.ite
      | (extract_lets +onlyGivenNames x
         first
         | (refine Within.cut (W := W) (s := σ) x ?_ ?_; rotate_left; (clear_value x; intro hx))
         | (refine Within.cut (W := W) (s := σ) x.1 ?_ ?_; rotate_left; (clear_value x; intro hx))
         | (refine Within.cut (W := W) (s := σ) x.2 ?_ ?_; rotate_left; (clear_value x; intro hx))
         | (refine Within.cutF (W := W) (s := σ) x ?_ ?_; rotate_left; (clear_value x; intro hf))
         | clear_value x)
      | split
      | (with_reducible apply Within.upd_adm; exact sub_le (by decide) hW)
      | (intro t; intros; (try beta_reduce))
      | dsimp -zeta only [x]
  | succ k ih =>
    unfold State.poolVisit
    repeat' first
      | with_reducible assumption
      | with_reducible apply ih
      | (with_reducible apply State.setDeficit_ok; exact sub_le (by decide) hW)
      | (with_reducible apply State.poolStart_ok; exact sub_le (by decide) hW)
      | with_reducible apply Within.ite
      | (extract_lets +onlyGivenNames x
         first
         | (refine Within.cut (W := W) (s := σ) x ?_ ?_; rotate_left; (clear_value x; intro hx))
         | (refine Within.cut (W := W) (s := σ) x.1 ?_ ?_; rotate_left; (clear_value x; intro hx))
         | (refine Within.cut (W := W) (s := σ) x.2 ?_ ?_; rotate_left; (clear_value x; intro hx))
         | (refine Within.cutF (W := W) (s := σ) x ?_ ?_; rotate_left; (clear_value x; intro hf))
         | clear_value x)
      | split
      | (with_reducible apply Within.upd_adm; exact sub_le (by decide) hW)
      | (intro t; intros; (try beta_reduce))
      | dsimp -zeta only [x]

theorem State.poolGrant_ok {W : Nat} {σ s : State} {a1 : _} (hW : 0xdd90 ||| W = W) (h : Within W σ s) :
    Within W σ (State.poolGrant s a1) := by
  unfold State.poolGrant
  repeat' first
    | with_reducible assumption
    | (with_reducible apply State.poolVisit_ok; exact sub_le (by decide) hW)
    | split
    | (intro t; intros; (try beta_reduce))

theorem State.poolCharge_ok {W : Nat} {σ s : State} {a1 a2 : _} (hW : 0x9010 ||| W = W) (h : Within W σ s) :
    Within W σ (State.poolCharge s a1 a2) := by
  unfold State.poolCharge
  repeat' first
    | with_reducible assumption
    | (with_reducible apply State.setDeficit_ok; exact sub_le (by decide) hW)
    | (with_reducible apply State.updPart_ok; exact sub_le (by decide) hW)
    | (with_reducible apply State.setReg_ok; exact sub_le (by decide) hW)
    | (with_reducible apply State.meter_ok; exact sub_le (by decide) hW)
    | with_reducible apply Within.ite
    | (extract_lets +onlyGivenNames x
       first
       | (refine Within.cut (W := W) (s := σ) x ?_ ?_; rotate_left; (clear_value x; intro hx))
       | (refine Within.cut (W := W) (s := σ) x.1 ?_ ?_; rotate_left; (clear_value x; intro hx))
       | (refine Within.cut (W := W) (s := σ) x.2 ?_ ?_; rotate_left; (clear_value x; intro hx))
       | (refine Within.cutF (W := W) (s := σ) x ?_ ?_; rotate_left; (clear_value x; intro hf))
       | clear_value x)
    | split
    | (with_reducible apply Within.upd_adm; exact sub_le (by decide) hW)
    | (intro t; intros; (try beta_reduce))
    | dsimp -zeta only [x]

theorem State.poolEnded_ok {W : Nat} {σ s : State} {a1 a2 a3 a4 : _} (hW : 0xdd90 ||| W = W) (h : Within W σ s) :
    Within W σ (State.poolEnded s a1 a2 a3 a4) := by
  unfold State.poolEnded
  repeat' first
    | with_reducible assumption
    | (with_reducible apply State.poolCharge_ok; exact sub_le (by decide) hW)
    | (with_reducible apply State.updCluster_ok; exact sub_le (by decide) hW)
    | (with_reducible apply State.poolStart_ok; exact sub_le (by decide) hW)
    | (with_reducible apply State.poolGrant_ok; exact sub_le (by decide) hW)
    | (with_reducible apply State.setDeficit_ok; exact sub_le (by decide) hW)
    | with_reducible apply Within.ite
    | (extract_lets +onlyGivenNames x
       first
       | (refine Within.cut (W := W) (s := σ) x ?_ ?_; rotate_left; (clear_value x; intro hx))
       | (refine Within.cut (W := W) (s := σ) x.1 ?_ ?_; rotate_left; (clear_value x; intro hx))
       | (refine Within.cut (W := W) (s := σ) x.2 ?_ ?_; rotate_left; (clear_value x; intro hx))
       | (refine Within.cutF (W := W) (s := σ) x ?_ ?_; rotate_left; (clear_value x; intro hf))
       | clear_value x)
    | split
    | (intro t; intros; (try beta_reduce))
    | dsimp -zeta only [x]

theorem State.poolArrived_ok {W : Nat} {σ s : State} {a1 : _} (hW : 0xdd90 ||| W = W) (h : Within W σ s) :
    Within W σ (State.poolArrived s a1) := by
  unfold State.poolArrived
  repeat' first
    | with_reducible assumption
    | (with_reducible apply State.poolGrant_ok; exact sub_le (by decide) hW)
    | split
    | (intro t; intros; (try beta_reduce))

theorem State.poolMark_ok {W : Nat} {σ s : State} (hW : 0x4000 ||| W = W) (h : Within W σ s) :
    Within W σ (State.poolMark s) := by
  unfold State.poolMark
  repeat' first
    | with_reducible assumption
    | (with_reducible apply State.updCluster_ok; exact sub_le (by decide) hW)
    | with_reducible apply Within.ite
    | (with_reducible apply Within.fold; (intro t x ht; beta_reduce))
    | (with_reducible apply Within.fold1; (intro t x ht; beta_reduce))
    | (with_reducible apply Within.fold2; (intro t x ht; beta_reduce))
    | with_reducible apply Within.ite1
    | with_reducible apply Within.ite2
    | (extract_lets +onlyGivenNames x
       first
       | (refine Within.cut (W := W) (s := σ) x ?_ ?_; rotate_left; (clear_value x; intro hx))
       | (refine Within.cut (W := W) (s := σ) x.1 ?_ ?_; rotate_left; (clear_value x; intro hx))
       | (refine Within.cut (W := W) (s := σ) x.2 ?_ ?_; rotate_left; (clear_value x; intro hx))
       | (refine Within.cutF (W := W) (s := σ) x ?_ ?_; rotate_left; (clear_value x; intro hf))
       | clear_value x)
    | split
    | (intro t; intros; (try beta_reduce))
    | dsimp -zeta only [x]

theorem State.releaseCluster_ok {W : Nat} {σ s : State} {a1 a2 a3 : _} (hW : 0xdd90 ||| W = W) (h : Within W σ s) :
    Within W σ (State.releaseCluster s a1 a2 a3) := by
  unfold State.releaseCluster
  repeat' first
    | with_reducible assumption
    | (with_reducible apply State.poolEnded_ok; exact sub_le (by decide) hW)
    | (with_reducible apply State.putTask_ok; exact sub_le (by decide) hW)
    | (extract_lets +onlyGivenNames x
       first
       | (refine Within.cut (W := W) (s := σ) x ?_ ?_; rotate_left; (clear_value x; intro hx))
       | (refine Within.cut (W := W) (s := σ) x.1 ?_ ?_; rotate_left; (clear_value x; intro hx))
       | (refine Within.cut (W := W) (s := σ) x.2 ?_ ?_; rotate_left; (clear_value x; intro hx))
       | (refine Within.cutF (W := W) (s := σ) x ?_ ?_; rotate_left; (clear_value x; intro hf))
       | clear_value x)
    | split
    | (intro t; intros; (try beta_reduce))

theorem State.completeAll_ok {W : Nat} {σ s : State} {a1 a2 a3 a4 : _} (hW : 0x6005661d90 ||| W = W) (h : Within W σ s) :
    Within W σ (State.completeAll s a1 a2 a3 a4) := by
  induction a4 generalizing s a1 a2 a3 with
  | nil =>
    unfold State.completeAll
    repeat' first
      | with_reducible assumption
      | with_reducible apply ih
      | (with_reducible apply State.complete_ok; exact sub_le (by decide) hW)
      | (intro t; intros; (try beta_reduce))
  | cons b r ih =>
    unfold State.completeAll
    repeat' first
      | with_reducible assumption
      | with_reducible apply ih
      | (with_reducible apply State.complete_ok; exact sub_le (by decide) hW)
      | (intro t; intros; (try beta_reduce))

theorem State.withdraw_ok {W : Nat} {σ s : State} {a1 a2 : _} (hW : 0x10000 ||| W = W) (h : Within W σ s) :
    Within W σ (State.withdraw s a1 a2) := by
  unfold State.withdraw
  repeat' first
    | with_reducible assumption
    | (extract_lets +onlyGivenNames x
       first
       | (refine Within.cut (W := W) (s := σ) x ?_ ?_; rotate_left; (clear_value x; intro hx))
       | (refine Within.cut (W := W) (s := σ) x.1 ?_ ?_; rotate_left; (clear_value x; intro hx))
       | (refine Within.cut (W := W) (s := σ) x.2 ?_ ?_; rotate_left; (clear_value x; intro hx))
       | (refine Within.cutF (W := W) (s := σ) x ?_ ?_; rotate_left; (clear_value x; intro hf))
       | clear_value x)
    | (with_reducible apply Within.upd_bars; exact sub_le (by decide) hW)
    | (intro t; intros; (try beta_reduce))
    | dsimp -zeta only [x]

theorem State.endTaskCmds_ok {W : Nat} {σ s : State} {a1 a2 a3 a4 a5 a6 : _} (hW : 0x6005671d90 ||| W = W) (h : Within W σ s) :
    Within W σ (State.endTaskCmds s a1 a2 a3 a4 a5 a6) := by
  unfold State.endTaskCmds
  repeat' first
    | with_reducible assumption
    | (with_reducible apply State.withdraw_ok; exact sub_le (by decide) hW)
    | (with_reducible apply State.complete_ok; exact sub_le (by decide) hW)
    | (with_reducible apply State.completeAll_ok; exact sub_le (by decide) hW)
    | (with_reducible apply State.dropPending_ok; exact sub_le (by decide) hW)
    | (with_reducible apply State.havocAll_ok; exact sub_le (by decide) hW)
    | (with_reducible apply Within.fold; (intro t x ht; beta_reduce))
    | (with_reducible apply Within.fold1; (intro t x ht; beta_reduce))
    | (with_reducible apply Within.fold2; (intro t x ht; beta_reduce))
    | (extract_lets +onlyGivenNames x
       first
       | (refine Within.cut (W := W) (s := σ) x ?_ ?_; rotate_left; (clear_value x; intro hx))
       | (refine Within.cut (W := W) (s := σ) x.1 ?_ ?_; rotate_left; (clear_value x; intro hx))
       | (refine Within.cut (W := W) (s := σ) x.2 ?_ ?_; rotate_left; (clear_value x; intro hx))
       | (refine Within.cutF (W := W) (s := σ) x ?_ ?_; rotate_left; (clear_value x; intro hf))
       | clear_value x)
    | split
    | (intro t; intros; (try beta_reduce))
    | dsimp -zeta only [x]

theorem State.abortTask_ok {W : Nat} {σ s : State} {a1 a2 a3 a4 a5 : _} (hW : 0x6005671d90 ||| W = W) (h : Within W σ s) :
    Within W σ (State.abortTask s a1 a2 a3 a4 a5) := by
  unfold State.abortTask
  repeat' first
    | with_reducible assumption
    | (with_reducible apply State.endTaskCmds_ok; exact sub_le (by decide) hW)
    | (with_reducible apply State.putTask_ok; exact sub_le (by decide) hW)
    | (with_reducible apply State.updQueue_ok; exact sub_le (by decide) hW)
    | (with_reducible apply State.bump_ok; exact sub_le (by decide) hW)
    | (with_reducible apply State.qIrq_ok; exact sub_le (by decide) hW)
    | with_reducible apply Within.ite
    | (extract_lets +onlyGivenNames x
       first
       | (refine Within.cut (W := W) (s := σ) x ?_ ?_; rotate_left; (clear_value x; intro hx))
       | (refine Within.cut (W := W) (s := σ) x.1 ?_ ?_; rotate_left; (clear_value x; intro hx))
       | (refine Within.cut (W := W) (s := σ) x.2 ?_ ?_; rotate_left; (clear_value x; intro hx))
       | (refine Within.cutF (W := W) (s := σ) x ?_ ?_; rotate_left; (clear_value x; intro hf))
       | clear_value x)
    | split
    | (intro t; intros; (try beta_reduce))
    | dsimp -zeta only [x]

theorem State.abortWhole_ok {W : Nat} {σ s : State} {a1 a2 a3 : _} (hW : 0x6005671d90 ||| W = W) (h : Within W σ s) :
    Within W σ (State.abortWhole s a1 a2 a3) := by
  unfold State.abortWhole
  repeat' first
    | with_reducible assumption
    | (with_reducible apply State.abortTask_ok; exact sub_le (by decide) hW)
    | (intro t; intros; (try beta_reduce))

theorem State.abortCmd_ok {W : Nat} {σ s : State} {a1 a2 a3 a4 : _} (hW : 0x6005671d90 ||| W = W) (h : Within W σ s) :
    Within W σ (State.abortCmd s a1 a2 a3 a4) := by
  unfold State.abortCmd
  repeat' first
    | with_reducible assumption
    | (with_reducible apply State.abortTask_ok; exact sub_le (by decide) hW)
    | split
    | (intro t; intros; (try beta_reduce))

theorem State.freezeQueue_ok {W : Nat} {σ s : State} {a1 a2 : _} (hW : 0x600567dd90 ||| W = W) (h : Within W σ s) :
    Within W σ (State.freezeQueue s a1 a2) := by
  unfold State.freezeQueue
  repeat' first
    | with_reducible assumption
    | (with_reducible apply State.endTaskCmds_ok; exact sub_le (by decide) hW)
    | (with_reducible apply State.updQueue_ok; exact sub_le (by decide) hW)
    | (with_reducible apply State.releaseCluster_ok; exact sub_le (by decide) hW)
    | (with_reducible apply State.bump_ok; exact sub_le (by decide) hW)
    | (with_reducible apply State.raisePage_ok; exact sub_le (by decide) hW)
    | with_reducible apply Within.ite
    | (with_reducible apply Within.fold; (intro t x ht; beta_reduce))
    | (with_reducible apply Within.fold1; (intro t x ht; beta_reduce))
    | (with_reducible apply Within.fold2; (intro t x ht; beta_reduce))
    | (extract_lets +onlyGivenNames x
       first
       | (refine Within.cut (W := W) (s := σ) x ?_ ?_; rotate_left; (clear_value x; intro hx))
       | (refine Within.cut (W := W) (s := σ) x.1 ?_ ?_; rotate_left; (clear_value x; intro hx))
       | (refine Within.cut (W := W) (s := σ) x.2 ?_ ?_; rotate_left; (clear_value x; intro hx))
       | (refine Within.cutF (W := W) (s := σ) x ?_ ?_; rotate_left; (clear_value x; intro hf))
       | clear_value x)
    | split
    | (intro t; intros; (try beta_reduce))
    | dsimp -zeta only [x]

theorem State.freezeCore_ok {W : Nat} {σ s : State} {a1 : _} (hW : 0x6085661d90 ||| W = W) (h : Within W σ s) :
    Within W σ (State.freezeCore s a1) := by
  unfold State.freezeCore
  repeat' first
    | with_reducible assumption
    | (with_reducible apply State.complete_ok; exact sub_le (by decide) hW)
    | (with_reducible apply State.updDbg_ok; exact sub_le (by decide) hW)
    | (with_reducible apply State.setFld_ok; exact sub_le (by decide) hW)
    | (with_reducible apply State.raisePage_ok; exact sub_le (by decide) hW)
    | (with_reducible apply State.bump_ok; exact sub_le (by decide) hW)
    | with_reducible apply Within.ite
    | (with_reducible apply Within.fold; (intro t x ht; beta_reduce))
    | (with_reducible apply Within.fold1; (intro t x ht; beta_reduce))
    | (with_reducible apply Within.fold2; (intro t x ht; beta_reduce))
    | with_reducible apply Within.ite1
    | with_reducible apply Within.ite2
    | (extract_lets +onlyGivenNames x
       first
       | (refine Within.cut (W := W) (s := σ) x ?_ ?_; rotate_left; (clear_value x; intro hx))
       | (refine Within.cut (W := W) (s := σ) x.1 ?_ ?_; rotate_left; (clear_value x; intro hx))
       | (refine Within.cut (W := W) (s := σ) x.2 ?_ ?_; rotate_left; (clear_value x; intro hx))
       | (refine Within.cutF (W := W) (s := σ) x ?_ ?_; rotate_left; (clear_value x; intro hf))
       | clear_value x)
    | split
    | (intro t; intros; (try beta_reduce))
    | dsimp -zeta only [x]

theorem State.freeze_ok {W : Nat} {σ s : State} {a1 : _} (hW : 0x608567dd90 ||| W = W) (h : Within W σ s) :
    Within W σ (State.freeze s a1) := by
  unfold State.freeze
  repeat' first
    | with_reducible assumption
    | (with_reducible apply State.freezeQueue_ok; exact sub_le (by decide) hW)
    | (with_reducible apply State.raiseBank_ok; exact sub_le (by decide) hW)
    | (with_reducible apply State.bump_ok; exact sub_le (by decide) hW)
    | (with_reducible apply State.updPart_ok; exact sub_le (by decide) hW)
    | (with_reducible apply State.freezeCore_ok; exact sub_le (by decide) hW)
    | with_reducible apply Within.ite
    | (extract_lets +onlyGivenNames x
       first
       | (refine Within.cut (W := W) (s := σ) x ?_ ?_; rotate_left; (clear_value x; intro hx))
       | (refine Within.cut (W := W) (s := σ) x.1 ?_ ?_; rotate_left; (clear_value x; intro hx))
       | (refine Within.cut (W := W) (s := σ) x.2 ?_ ?_; rotate_left; (clear_value x; intro hx))
       | (refine Within.cutF (W := W) (s := σ) x ?_ ?_; rotate_left; (clear_value x; intro hf))
       | clear_value x)
    | split
    | (intro t; intros; (try beta_reduce))

theorem State.violation_ok {W : Nat} {σ s : State} {a1 a2 a3 a4 : _} (hW : 0x608567dd90 ||| W = W) (h : Within W σ s) :
    Within W σ (State.violation s a1 a2 a3 a4) := by
  unfold State.violation
  repeat' first
    | with_reducible assumption
    | (with_reducible apply State.logErr_ok; exact sub_le (by decide) hW)
    | (with_reducible apply State.setReg_ok; exact sub_le (by decide) hW)
    | (with_reducible apply State.meter_ok; exact sub_le (by decide) hW)
    | (with_reducible apply State.freeze_ok; exact sub_le (by decide) hW)
    | (extract_lets +onlyGivenNames x
       first
       | (refine Within.cut (W := W) (s := σ) x ?_ ?_; rotate_left; (clear_value x; intro hx))
       | (refine Within.cut (W := W) (s := σ) x.1 ?_ ?_; rotate_left; (clear_value x; intro hx))
       | (refine Within.cut (W := W) (s := σ) x.2 ?_ ?_; rotate_left; (clear_value x; intro hx))
       | (refine Within.cutF (W := W) (s := σ) x ?_ ?_; rotate_left; (clear_value x; intro hf))
       | clear_value x)
    | (intro t; intros; (try beta_reduce))
    | dsimp -zeta only [x]

theorem State.outside_ok {W : Nat} {σ s : State} {a1 a2 a3 : _} (hW : 0x608567dd90 ||| W = W) (h : Within W σ s) :
    Within W σ (State.outside s a1 a2 a3) := by
  unfold State.outside
  repeat' first
    | with_reducible assumption
    | (with_reducible apply State.violation_ok; exact sub_le (by decide) hW)
    | (intro t; intros; (try beta_reduce))

theorem State.countFreezes_ok {W : Nat} {σ s : State} {a1 : _} (hW : 0x10 ||| W = W) (h : Within W σ s) :
    Within W σ (State.countFreezes s a1) := by
  unfold State.countFreezes
  repeat' first
    | with_reducible assumption
    | (with_reducible apply State.bump_ok; exact sub_le (by decide) hW)
    | (intro t; intros; (try beta_reduce))

theorem State.pfFreeze_ok {W : Nat} {σ s : State} {a1 : _} (hW : 0x600567dd90 ||| W = W) (h : Within W σ s) :
    Within W σ (State.pfFreeze s a1) := by
  unfold State.pfFreeze
  repeat' first
    | with_reducible assumption
    | (with_reducible apply State.countFreezes_ok; exact sub_le (by decide) hW)
    | (with_reducible apply State.freezeQueue_ok; exact sub_le (by decide) hW)
    | (with_reducible apply State.updPart_ok; exact sub_le (by decide) hW)
    | (with_reducible apply State.setFld_ok; exact sub_le (by decide) hW)
    | with_reducible apply Within.ite
    | (with_reducible apply Within.fold; (intro t x ht; beta_reduce))
    | (with_reducible apply Within.fold1; (intro t x ht; beta_reduce))
    | (with_reducible apply Within.fold2; (intro t x ht; beta_reduce))
    | (extract_lets +onlyGivenNames x
       first
       | (refine Within.cut (W := W) (s := σ) x ?_ ?_; rotate_left; (clear_value x; intro hx))
       | (refine Within.cut (W := W) (s := σ) x.1 ?_ ?_; rotate_left; (clear_value x; intro hx))
       | (refine Within.cut (W := W) (s := σ) x.2 ?_ ?_; rotate_left; (clear_value x; intro hx))
       | (refine Within.cutF (W := W) (s := σ) x ?_ ?_; rotate_left; (clear_value x; intro hf))
       | clear_value x)
    | split
    | (intro t; intros; (try beta_reduce))
    | dsimp -zeta only [x]

theorem State.dfFreeze_ok {W : Nat} {σ s : State} (hW : 0x600567dd90 ||| W = W) (h : Within W σ s) :
    Within W σ (State.dfFreeze s) := by
  unfold State.dfFreeze
  repeat' first
    | with_reducible assumption
    | (with_reducible apply State.freezeQueue_ok; exact sub_le (by decide) hW)
    | (with_reducible apply Within.fold; (intro t x ht; beta_reduce))
    | (with_reducible apply Within.fold1; (intro t x ht; beta_reduce))
    | (with_reducible apply Within.fold2; (intro t x ht; beta_reduce))
    | with_reducible apply Within.ite1
    | with_reducible apply Within.ite2
    | (intro t; intros; (try beta_reduce))

theorem State.raiseErr_ok {W : Nat} {σ s : State} {a1 a2 a3 a4 a5 : _} (hW : 0x600567dd90 ||| W = W) (h : Within W σ s) :
    Within W σ (State.raiseErr s a1 a2 a3 a4 a5) := by
  unfold State.raiseErr
  repeat' first
    | with_reducible assumption
    | (with_reducible apply State.logErr_ok; exact sub_le (by decide) hW)
    | (with_reducible apply State.countFreezes_ok; exact sub_le (by decide) hW)
    | (with_reducible apply State.dfFreeze_ok; exact sub_le (by decide) hW)
    | (with_reducible apply State.pfFreeze_ok; exact sub_le (by decide) hW)
    | (with_reducible apply State.abortCmd_ok; exact sub_le (by decide) hW)
    | with_reducible apply Within.ite
    | (extract_lets +onlyGivenNames x
       first
       | (refine Within.cut (W := W) (s := σ) x ?_ ?_; rotate_left; (clear_value x; intro hx))
       | (refine Within.cut (W := W) (s := σ) x.1 ?_ ?_; rotate_left; (clear_value x; intro hx))
       | (refine Within.cut (W := W) (s := σ) x.2 ?_ ?_; rotate_left; (clear_value x; intro hx))
       | (refine Within.cutF (W := W) (s := σ) x ?_ ?_; rotate_left; (clear_value x; intro hf))
       | clear_value x)
    | split
    | (intro t; intros; (try beta_reduce))
    | dsimp -zeta only [x]

theorem State.taskDone_ok {W : Nat} {σ s : State} {a1 a2 a3 : _} (hW : 0x810 ||| W = W) (h : Within W σ s) :
    Within W σ (State.taskDone s a1 a2 a3) := by
  unfold State.taskDone
  repeat' first
    | with_reducible assumption
    | (with_reducible apply State.updQueue_ok; exact sub_le (by decide) hW)
    | (with_reducible apply State.meter_ok; exact sub_le (by decide) hW)
    | with_reducible apply Within.ite
    | (extract_lets +onlyGivenNames x
       first
       | (refine Within.cut (W := W) (s := σ) x ?_ ?_; rotate_left; (clear_value x; intro hx))
       | (refine Within.cut (W := W) (s := σ) x.1 ?_ ?_; rotate_left; (clear_value x; intro hx))
       | (refine Within.cut (W := W) (s := σ) x.2 ?_ ?_; rotate_left; (clear_value x; intro hx))
       | (refine Within.cutF (W := W) (s := σ) x ?_ ?_; rotate_left; (clear_value x; intro hf))
       | clear_value x)
    | split
    | (intro t; intros; (try beta_reduce))
    | dsimp -zeta only [x]

theorem State.setBar_ok {W : Nat} {σ s : State} {a1 : _} (hW : 0x10000 ||| W = W) (h : Within W σ s) :
    Within W σ (State.setBar s a1) := by
  unfold State.setBar
  repeat' first
    | with_reducible assumption
    | with_reducible apply Within.ite
    | (extract_lets +onlyGivenNames x
       first
       | (refine Within.cut (W := W) (s := σ) x ?_ ?_; rotate_left; (clear_value x; intro hx))
       | (refine Within.cut (W := W) (s := σ) x.1 ?_ ?_; rotate_left; (clear_value x; intro hx))
       | (refine Within.cut (W := W) (s := σ) x.2 ?_ ?_; rotate_left; (clear_value x; intro hx))
       | (refine Within.cutF (W := W) (s := σ) x ?_ ?_; rotate_left; (clear_value x; intro hf))
       | clear_value x)
    | split
    | (with_reducible apply Within.upd_bars; exact sub_le (by decide) hW)
    | (intro t; intros; (try beta_reduce))

theorem State.arrive_ok {W : Nat} {σ s : State} {a1 a2 a3 a4 : _} (hW : 0x10010 ||| W = W) (h : Within W σ s) :
    Within W σ (State.arrive s a1 a2 a3 a4) := by
  unfold State.arrive
  repeat' first
    | with_reducible assumption
    | (with_reducible apply State.setBar_ok; exact sub_le (by decide) hW)
    | (with_reducible apply State.setReg_ok; exact sub_le (by decide) hW)
    | with_reducible apply Within.ite
    | (extract_lets +onlyGivenNames x
       first
       | (refine Within.cut (W := W) (s := σ) x ?_ ?_; rotate_left; (clear_value x; intro hx))
       | (refine Within.cut (W := W) (s := σ) x.1 ?_ ?_; rotate_left; (clear_value x; intro hx))
       | (refine Within.cut (W := W) (s := σ) x.2 ?_ ?_; rotate_left; (clear_value x; intro hx))
       | (refine Within.cutF (W := W) (s := σ) x ?_ ?_; rotate_left; (clear_value x; intro hf))
       | clear_value x)
    | split
    | (intro t; intros; (try beta_reduce))
    | dsimp -zeta only [x]

end Sys2Proof.Machine
end

