-- ==== Sys2Proof/Laws/FMeltOps.lean ====
section
/-! SUPPORT. What each operation of MeltOps.lean can change, and that it keeps the tables in canonical form. -/

set_option linter.all false

namespace Sys2Proof.Machine

theorem State.setEnt_ok {W : Nat} {σ s : State} {a1 a2 a3 : _} (hW : 0x10 ||| W = W) (h : Within W σ s) :
    Within W σ (State.setEnt s a1 a2 a3) := by
  unfold State.setEnt
  repeat' first
    | with_reducible assumption
    | (with_reducible apply State.setReg_ok; exact sub_le (by decide) hW)
    | (intro t; intros; (try beta_reduce))

theorem State.setEntFld_ok {W : Nat} {σ s : State} {a1 a2 a3 : _} (hW : 0x10 ||| W = W) (h : Within W σ s) :
    Within W σ (State.setEntFld s a1 a2 a3) := by
  unfold State.setEntFld
  repeat' first
    | with_reducible assumption
    | (with_reducible apply State.setFld_ok; exact sub_le (by decide) hW)
    | (intro t; intros; (try beta_reduce))

end Sys2Proof.Machine
end

