-- ==== Sys2Proof/Laws/FStage.lean ====
section
/-! SUPPORT. What each operation of Stage.lean can change, and that it keeps the tables in canonical form. -/

set_option linter.all false

namespace Sys2Proof.Machine

theorem State.applyKey_ok {W : Nat} {σ s : State} {a1 a2 : _} (hW : 0x10 ||| W = W) (h : Within W σ s) :
    Within W σ (State.applyKey s a1 a2) := by
  unfold State.applyKey
  repeat' first
    | with_reducible assumption
    | (with_reducible apply State.bump_ok; exact sub_le (by decide) hW)
    | (with_reducible apply State.setReg_ok; exact sub_le (by decide) hW)
    | with_reducible apply Within.ite
    | (extract_lets +onlyGivenNames x
       first
       | (refine Within.cut (W := W) (s := σ) x ?_ ?_; rotate_left; (clear_value x; intro hx))
       | (refine Within.cut (W := W) (s := σ) x.1 ?_ ?_; rotate_left; (clear_value x; intro hx))
       | (refine Within.cut (W := W) (s := σ) x.2 ?_ ?_; rotate_left; (clear_value x; intro hx))
       | (refine Within.cutF (W := W) (s := σ) x ?_ ?_; rotate_left; (clear_value x; intro hf))
       | clear_value x)
    | split
    | (intro t; intros; (try beta_reduce))
    | dsimp -zeta only [x]

theorem State.clearRegs_ok {W : Nat} {σ s : State} {a1 a2 a3 a4 : _} (hW : 0x10 ||| W = W) (h : Within W σ s) :
    Within W σ (State.clearRegs s a1 a2 a3 a4) := by
  unfold State.clearRegs
  repeat' first
    | with_reducible assumption
    | with_reducible apply Within.ite1
    | with_reducible apply Within.ite2
    | (intro hs; first | rfl | with_reducible exact hs | with_reducible first | exact hs | exact wf_mset hs _ _ | exact wf_msetBytes _ hs _ | exact wf_filter hs _ | exact rising_sset hs _ _ | exact rising_filter hs _ | exact rising_sdel hs _ | (refine rising_map hs _ ?_; intro e; beta_reduce; first | rfl | (split <;> rfl)))
    | (extract_lets +onlyGivenNames x
       first
       | (refine Within.cut (W := W) (s := σ) x ?_ ?_; rotate_left; (clear_value x; intro hx))
       | (refine Within.cut (W := W) (s := σ) x.1 ?_ ?_; rotate_left; (clear_value x; intro hx))
       | (refine Within.cut (W := W) (s := σ) x.2 ?_ ?_; rotate_left; (clear_value x; intro hx))
       | (refine Within.cutF (W := W) (s := σ) x ?_ ?_; rotate_left; (clear_value x; intro hf))
       | clear_value x)
    | (with_reducible apply Within.upd_regs; exact sub_le (by decide) hW)
    | (intro t; intros; (try beta_reduce))

theorem State.resetEntRo_ok {W : Nat} {σ s : State} {a1 a2 : _} (hW : 0x10 ||| W = W) (h : Within W σ s) :
    Within W σ (State.resetEntRo s a1 a2) := by
  unfold State.resetEntRo
  repeat' first
    | with_reducible assumption
    | with_reducible apply Within.ite1
    | with_reducible apply Within.ite2
    | (intro hs; first | rfl | with_reducible exact hs | with_reducible first | exact hs | exact wf_mset hs _ _ | exact wf_msetBytes _ hs _ | exact wf_filter hs _ | exact rising_sset hs _ _ | exact rising_filter hs _ | exact rising_sdel hs _ | (refine rising_map hs _ ?_; intro e; beta_reduce; first | rfl | (split <;> rfl)))
    | (extract_lets +onlyGivenNames x
       first
       | (refine Within.cut (W := W) (s := σ) x ?_ ?_; rotate_left; (clear_value x; intro hx))
       | (refine Within.cut (W := W) (s := σ) x.1 ?_ ?_; rotate_left; (clear_value x; intro hx))
       | (refine Within.cut (W := W) (s := σ) x.2 ?_ ?_; rotate_left; (clear_value x; intro hx))
       | (refine Within.cutF (W := W) (s := σ) x ?_ ?_; rotate_left; (clear_value x; intro hf))
       | clear_value x)
    | (with_reducible apply Within.upd_regs; exact sub_le (by decide) hW)
    | (intro t; intros; (try beta_reduce))

theorem State.setEntFmts_ok {W : Nat} {σ s : State} {a1 a2 : _} (hW : 0x10 ||| W = W) (h : Within W σ s) :
    Within W σ (State.setEntFmts s a1 a2) := by
  unfold State.setEntFmts
  repeat' first
    | with_reducible assumption
    | (with_reducible apply State.setEntFld_ok; exact sub_le (by decide) hW)
    | (intro t; intros; (try beta_reduce))

theorem State.forceFmt_ok {W : Nat} {σ s : State} {a1 a2 a3 : _} (hW : 0x10 ||| W = W) (h : Within W σ s) :
    Within W σ (State.forceFmt s a1 a2 a3) := by
  unfold State.forceFmt
  repeat' first
    | with_reducible assumption
    | (with_reducible apply State.setEntFld_ok; exact sub_le (by decide) hW)
    | (with_reducible apply State.setEntFmts_ok; exact sub_le (by decide) hW)
    | with_reducible apply Within.ite
    | split
    | (intro t; intros; (try beta_reduce))

theorem State.applyEntry_ok {W : Nat} {σ s : State} {a1 a2 : _} (hW : 0x10 ||| W = W) (h : Within W σ s) :
    Within W σ (State.applyEntry s a1 a2) := by
  unfold State.applyEntry
  repeat' first
    | with_reducible assumption
    | (with_reducible apply State.clearRegs_ok; exact sub_le (by decide) hW)
    | (with_reducible apply State.setEnt_ok; exact sub_le (by decide) hW)
    | (with_reducible apply State.resetEntRo_ok; exact sub_le (by decide) hW)
    | (with_reducible apply State.setReg_ok; exact sub_le (by decide) hW)
    | (with_reducible apply State.setEntFmts_ok; exact sub_le (by decide) hW)
    | (with_reducible apply State.forceFmt_ok; exact sub_le (by decide) hW)
    | (with_reducible apply State.setEntFld_ok; exact sub_le (by decide) hW)
    | with_reducible apply Within.ite
    | (with_reducible apply Within.fold; (intro t x ht; beta_reduce))
    | (with_reducible apply Within.fold1; (intro t x ht; beta_reduce))
    | (with_reducible apply Within.fold2; (intro t x ht; beta_reduce))
    | with_reducible apply Within.ite1
    | with_reducible apply Within.ite2
    | (extract_lets +onlyGivenNames x
       first
       | (refine Within.cut (W := W) (s := σ) x ?_ ?_; rotate_left; (clear_value x; intro hx))
       | (refine Within.cut (W := W) (s := σ) x.1 ?_ ?_; rotate_left; (clear_value x; intro hx))
       | (refine Within.cut (W := W) (s := σ) x.2 ?_ ?_; rotate_left; (clear_value x; intro hx))
       | (refine Within.cutF (W := W) (s := σ) x ?_ ?_; rotate_left; (clear_value x; intro hf))
       | clear_value x)
    | split
    | (intro t; intros; (try beta_reduce))
    | dsimp -zeta only [x]

theorem State.applyKind_ok {W : Nat} {σ s : State} {a1 a2 : _} (hW : 0x30 ||| W = W) (h : Within W σ s) :
    Within W σ (State.applyKind s a1 a2) := by
  unfold State.applyKind
  repeat' first
    | with_reducible assumption
    | (with_reducible apply State.applyKey_ok; exact sub_le (by decide) hW)
    | (with_reducible apply State.applyEntry_ok; exact sub_le (by decide) hW)
    | (with_reducible apply State.setFld_ok; exact sub_le (by decide) hW)
    | (with_reducible apply Within.fold; (intro t x ht; beta_reduce))
    | (with_reducible apply Within.fold1; (intro t x ht; beta_reduce))
    | (with_reducible apply Within.fold2; (intro t x ht; beta_reduce))
    | with_reducible apply Within.ite1
    | with_reducible apply Within.ite2
    | (intro hs; first | rfl | with_reducible exact hs | with_reducible first | exact hs | exact wf_mset hs _ _ | exact wf_msetBytes _ hs _ | exact wf_filter hs _ | exact rising_sset hs _ _ | exact rising_filter hs _ | exact rising_sdel hs _ | (refine rising_map hs _ ?_; intro e; beta_reduce; first | rfl | (split <;> rfl)))
    | (extract_lets +onlyGivenNames x
       first
       | (refine Within.cut (W := W) (s := σ) x ?_ ?_; rotate_left; (clear_value x; intro hx))
       | (refine Within.cut (W := W) (s := σ) x.1 ?_ ?_; rotate_left; (clear_value x; intro hx))
       | (refine Within.cut (W := W) (s := σ) x.2 ?_ ?_; rotate_left; (clear_value x; intro hx))
       | (refine Within.cutF (W := W) (s := σ) x ?_ ?_; rotate_left; (clear_value x; intro hf))
       | clear_value x)
    | (with_reducible apply Within.upd_shadows; exact sub_le (by decide) hW)
    | (intro t; intros; (try beta_reduce))
    | dsimp -zeta only [x]

theorem State.applyPart_ok {W : Nat} {σ s : State} {a1 a2 : _} (hW : 0x30 ||| W = W) (h : Within W σ s) :
    Within W σ (State.applyPart s a1 a2) := by
  unfold State.applyPart
  repeat' first
    | with_reducible assumption
    | (with_reducible apply State.applyKind_ok; exact sub_le (by decide) hW)
    | (intro t; intros; (try beta_reduce))

theorem State.applyPass_ok {W : Nat} {σ s : State} {a1 : _} (hW : 0x30 ||| W = W) (h : Within W σ s) :
    Within W σ (State.applyPass s a1) := by
  unfold State.applyPass
  repeat' first
    | with_reducible assumption
    | (with_reducible apply State.applyKind_ok; exact sub_le (by decide) hW)
    | (intro t; intros; (try beta_reduce))

theorem State.applyCluster_ok {W : Nat} {σ s : State} {a1 a2 : _} (hW : 0x30 ||| W = W) (h : Within W σ s) :
    Within W σ (State.applyCluster s a1 a2) := by
  unfold State.applyCluster
  repeat' first
    | with_reducible assumption
    | (with_reducible apply State.applyKind_ok; exact sub_le (by decide) hW)
    | (intro t; intros; (try beta_reduce))

theorem State.resetPages_ok {W : Nat} {σ s : State} {a1 : _} (hW : 0x2000000030 ||| W = W) (h : Within W σ s) :
    Within W σ (State.resetPages s a1) := by
  unfold State.resetPages
  repeat' first
    | with_reducible assumption
    | (with_reducible apply State.raisePage_ok; exact sub_le (by decide) hW)
    | with_reducible apply Within.ite
    | (with_reducible apply Within.fold; (intro t x ht; beta_reduce))
    | (with_reducible apply Within.fold1; (intro t x ht; beta_reduce))
    | (with_reducible apply Within.fold2; (intro t x ht; beta_reduce))
    | with_reducible apply Within.ite1
    | with_reducible apply Within.ite2
    | (intro hs; first | rfl | with_reducible exact hs | with_reducible first | exact hs | exact wf_mset hs _ _ | exact wf_msetBytes _ hs _ | exact wf_filter hs _ | exact rising_sset hs _ _ | exact rising_filter hs _ | exact rising_sdel hs _ | (refine rising_map hs _ ?_; intro e; beta_reduce; first | rfl | (split <;> rfl)))
    | (extract_lets +onlyGivenNames x
       first
       | (refine Within.cut (W := W) (s := σ) x ?_ ?_; rotate_left; (clear_value x; intro hx))
       | (refine Within.cut (W := W) (s := σ) x.1 ?_ ?_; rotate_left; (clear_value x; intro hx))
       | (refine Within.cut (W := W) (s := σ) x.2 ?_ ?_; rotate_left; (clear_value x; intro hx))
       | (refine Within.cutF (W := W) (s := σ) x ?_ ?_; rotate_left; (clear_value x; intro hf))
       | clear_value x)
    | split
    | (with_reducible apply Within.upd_regs_shadows; exact sub_le (by decide) hW)
    | (intro t; intros; (try beta_reduce))
    | dsimp -zeta only [x]

theorem State.clusterChanges_ok {W : Nat} {σ s : State} {a1 a2 : _} (hW : 0x20800245b0 ||| W = W) (h : Within W σ s) :
    Within W σ (State.clusterChanges s a1 a2) := by
  unfold State.clusterChanges
  repeat' first
    | with_reducible assumption
    | (with_reducible apply State.traceHalt_ok; exact sub_le (by decide) hW)
    | (with_reducible apply State.updDbg_ok; exact sub_le (by decide) hW)
    | (with_reducible apply State.setFld_ok; exact sub_le (by decide) hW)
    | (with_reducible apply State.resetPages_ok; exact sub_le (by decide) hW)
    | (with_reducible apply State.updCluster_ok; exact sub_le (by decide) hW)
    | with_reducible apply Within.ite
    | (extract_lets +onlyGivenNames x
       first
       | (refine Within.cut (W := W) (s := σ) x ?_ ?_; rotate_left; (clear_value x; intro hx))
       | (refine Within.cut (W := W) (s := σ) x.1 ?_ ?_; rotate_left; (clear_value x; intro hx))
       | (refine Within.cut (W := W) (s := σ) x.2 ?_ ?_; rotate_left; (clear_value x; intro hx))
       | (refine Within.cutF (W := W) (s := σ) x ?_ ?_; rotate_left; (clear_value x; intro hf))
       | clear_value x)
    | split
    | (with_reducible apply Within.upd_tiles; exact sub_le (by decide) hW)
    | (intro t; intros; (try beta_reduce))
    | dsimp -zeta only [x]

theorem State.queuesChange_ok {W : Nat} {σ s : State} {a1 : _} (hW : 0x2000000830 ||| W = W) (h : Within W σ s) :
    Within W σ (State.queuesChange s a1) := by
  unfold State.queuesChange
  repeat' first
    | with_reducible assumption
    | (with_reducible apply State.resetPages_ok; exact sub_le (by decide) hW)
    | with_reducible apply Within.ite1
    | with_reducible apply Within.ite2
    | (extract_lets +onlyGivenNames x
       first
       | (refine Within.cut (W := W) (s := σ) x ?_ ?_; rotate_left; (clear_value x; intro hx))
       | (refine Within.cut (W := W) (s := σ) x.1 ?_ ?_; rotate_left; (clear_value x; intro hx))
       | (refine Within.cut (W := W) (s := σ) x.2 ?_ ?_; rotate_left; (clear_value x; intro hx))
       | (refine Within.cutF (W := W) (s := σ) x ?_ ?_; rotate_left; (clear_value x; intro hf))
       | clear_value x)
    | (with_reducible apply Within.upd_queues; exact sub_le (by decide) hW)
    | (intro t; intros; (try beta_reduce))
    | dsimp -zeta only [x]

theorem State.meltChange_ok {W : Nat} {σ s : State} {a1 : _} (hW : 0x30 ||| W = W) (h : Within W σ s) :
    Within W σ (State.meltChange s a1) := by
  unfold State.meltChange
  repeat' first
    | with_reducible assumption
    | with_reducible apply Within.ite1
    | with_reducible apply Within.ite2
    | (intro hs; first | rfl | with_reducible exact hs | with_reducible first | exact hs | exact wf_mset hs _ _ | exact wf_msetBytes _ hs _ | exact wf_filter hs _ | exact rising_sset hs _ _ | exact rising_filter hs _ | exact rising_sdel hs _ | (refine rising_map hs _ ?_; intro e; beta_reduce; first | rfl | (split <;> rfl)))
    | (extract_lets +onlyGivenNames x
       first
       | (refine Within.cut (W := W) (s := σ) x ?_ ?_; rotate_left; (clear_value x; intro hx))
       | (refine Within.cut (W := W) (s := σ) x.1 ?_ ?_; rotate_left; (clear_value x; intro hx))
       | (refine Within.cut (W := W) (s := σ) x.2 ?_ ?_; rotate_left; (clear_value x; intro hx))
       | (refine Within.cutF (W := W) (s := σ) x ?_ ?_; rotate_left; (clear_value x; intro hf))
       | clear_value x)
    | (with_reducible apply Within.upd_regs_shadows; exact sub_le (by decide) hW)
    | (intro t; intros; (try beta_reduce))
    | dsimp -zeta only [x]

theorem State.replaceFenced_ok {W : Nat} {σ s : State} {a1 : _} (hW : 0x2000046010 ||| W = W) (h : Within W σ s) :
    Within W σ (State.replaceFenced s a1) := by
  unfold State.replaceFenced
  repeat' first
    | with_reducible assumption
    | (with_reducible apply State.updCluster_ok; exact sub_le (by decide) hW)
    | (with_reducible apply State.updCore_ok; exact sub_le (by decide) hW)
    | (with_reducible apply State.notice_ok; exact sub_le (by decide) hW)
    | with_reducible apply Within.ite
    | (with_reducible apply Within.fold; (intro t x ht; beta_reduce))
    | (with_reducible apply Within.fold1; (intro t x ht; beta_reduce))
    | (with_reducible apply Within.fold2; (intro t x ht; beta_reduce))
    | (extract_lets +onlyGivenNames x
       first
       | (refine Within.cut (W := W) (s := σ) x ?_ ?_; rotate_left; (clear_value x; intro hx))
       | (refine Within.cut (W := W) (s := σ) x.1 ?_ ?_; rotate_left; (clear_value x; intro hx))
       | (refine Within.cut (W := W) (s := σ) x.2 ?_ ?_; rotate_left; (clear_value x; intro hx))
       | (refine Within.cutF (W := W) (s := σ) x ?_ ?_; rotate_left; (clear_value x; intro hf))
       | clear_value x)
    | split
    | (intro t; intros; (try beta_reduce))
    | dsimp -zeta only [x]

end Sys2Proof.Machine
end

