-- ==== Sys2Proof/Laws/FGovern.lean ====
section
/-! SUPPORT. What each operation of Govern.lean can change, and that it keeps the tables in canonical form. -/

set_option linter.all false

namespace Sys2Proof.Machine

theorem State.clearCurrent_ok {W : Nat} {σ s : State} {a1 : _} (hW : 0x10 ||| W = W) (h : Within W σ s) :
    Within W σ (State.clearCurrent s a1) := by
  unfold State.clearCurrent
  repeat' first
    | with_reducible assumption
    | (with_reducible apply State.setEnt_ok; exact sub_le (by decide) hW)
    | (with_reducible apply State.setEntFld_ok; exact sub_le (by decide) hW)
    | with_reducible apply Within.ite
    | (with_reducible apply Within.fold; (intro t x ht; beta_reduce))
    | (with_reducible apply Within.fold1; (intro t x ht; beta_reduce))
    | (with_reducible apply Within.fold2; (intro t x ht; beta_reduce))
    | (extract_lets +onlyGivenNames x
       first
       | (refine Within.cut (W := W) (s := σ) x ?_ ?_; rotate_left; (clear_value x; intro hx))
       | (refine Within.cut (W := W) (s := σ) x.1 ?_ ?_; rotate_left; (clear_value x; intro hx))
       | (refine Within.cut (W := W) (s := σ) x.2 ?_ ?_; rotate_left; (clear_value x; intro hx))
       | (refine Within.cutF (W := W) (s := σ) x ?_ ?_; rotate_left; (clear_value x; intro hf))
       | clear_value x)
    | split
    | (intro t; intros; (try beta_reduce))
    | dsimp -zeta only [x]

theorem State.rollHist_ok {W : Nat} {σ s : State} {a1 : _} (hW : 0x10 ||| W = W) (h : Within W σ s) :
    Within W σ (State.rollHist s a1) := by
  unfold State.rollHist
  repeat' first
    | with_reducible assumption
    | (with_reducible apply State.setEnt_ok; exact sub_le (by decide) hW)
    | (with_reducible apply Within.fold; (intro t x ht; beta_reduce))
    | (with_reducible apply Within.fold1; (intro t x ht; beta_reduce))
    | (with_reducible apply Within.fold2; (intro t x ht; beta_reduce))
    | (extract_lets +onlyGivenNames x
       first
       | (refine Within.cut (W := W) (s := σ) x ?_ ?_; rotate_left; (clear_value x; intro hx))
       | (refine Within.cut (W := W) (s := σ) x.1 ?_ ?_; rotate_left; (clear_value x; intro hx))
       | (refine Within.cut (W := W) (s := σ) x.2 ?_ ?_; rotate_left; (clear_value x; intro hx))
       | (refine Within.cutF (W := W) (s := σ) x ?_ ?_; rotate_left; (clear_value x; intro hf))
       | clear_value x)
    | (intro t; intros; (try beta_reduce))
    | dsimp -zeta only [x]

theorem State.setInstElems_ok {W : Nat} {σ s : State} {a1 a2 : _} (hW : 0x10 ||| W = W) (h : Within W σ s) :
    Within W σ (State.setInstElems s a1 a2) := by
  unfold State.setInstElems
  repeat' first
    | with_reducible assumption
    | (with_reducible apply State.setReg_ok; exact sub_le (by decide) hW)
    | (intro t; intros; (try beta_reduce))

theorem State.governLadder_ok {W : Nat} {σ s : State} {a1 a2 a3 : _} (hW : 0x10 ||| W = W) (h : Within W σ s) :
    Within W σ (State.governLadder s a1 a2 a3) := by
  unfold State.governLadder
  repeat' first
    | with_reducible assumption
    | (with_reducible apply State.setEntFld_ok; exact sub_le (by decide) hW)
    | (with_reducible apply State.bump_ok; exact sub_le (by decide) hW)
    | (with_reducible apply State.setEnt_ok; exact sub_le (by decide) hW)
    | with_reducible apply Within.ite
    | with_reducible apply Within.ite1
    | with_reducible apply Within.ite2
    | (extract_lets +onlyGivenNames x
       first
       | (refine Within.cut (W := W) (s := σ) x ?_ ?_; rotate_left; (clear_value x; intro hx))
       | (refine Within.cut (W := W) (s := σ) x.1 ?_ ?_; rotate_left; (clear_value x; intro hx))
       | (refine Within.cut (W := W) (s := σ) x.2 ?_ ?_; rotate_left; (clear_value x; intro hx))
       | (refine Within.cutF (W := W) (s := σ) x ?_ ?_; rotate_left; (clear_value x; intro hf))
       | clear_value x)
    | split
    | (intro t; intros; (try beta_reduce))
    | dsimp -zeta only [x]

theorem State.govern_ok {W : Nat} {σ s : State} {a1 a2 a3 : _} (hW : 0x10 ||| W = W) (h : Within W σ s) :
    Within W σ (State.govern s a1 a2 a3) := by
  unfold State.govern
  repeat' first
    | with_reducible assumption
    | (with_reducible apply State.clearCurrent_ok; exact sub_le (by decide) hW)
    | (with_reducible apply State.rollHist_ok; exact sub_le (by decide) hW)
    | (with_reducible apply State.setEntFld_ok; exact sub_le (by decide) hW)
    | (with_reducible apply State.governLadder_ok; exact sub_le (by decide) hW)
    | (with_reducible apply State.setEnt_ok; exact sub_le (by decide) hW)
    | with_reducible apply Within.ite
    | (extract_lets +onlyGivenNames x
       first
       | (refine Within.cut (W := W) (s := σ) x ?_ ?_; rotate_left; (clear_value x; intro hx))
       | (refine Within.cut (W := W) (s := σ) x.1 ?_ ?_; rotate_left; (clear_value x; intro hx))
       | (refine Within.cut (W := W) (s := σ) x.2 ?_ ?_; rotate_left; (clear_value x; intro hx))
       | (refine Within.cutF (W := W) (s := σ) x ?_ ?_; rotate_left; (clear_value x; intro hf))
       | clear_value x)
    | split
    | (intro t; intros; (try beta_reduce))
    | dsimp -zeta only [x]

theorem State.numericEvent_ok {W : Nat} {σ s : State} {a1 a2 a3 : _} (hW : 0x2000040010 ||| W = W) (h : Within W σ s) :
    Within W σ (State.numericEvent s a1 a2 a3) := by
  unfold State.numericEvent
  repeat' first
    | with_reducible assumption
    | (with_reducible apply State.setFld_ok; exact sub_le (by decide) hW)
    | (with_reducible apply State.bump_ok; exact sub_le (by decide) hW)
    | (with_reducible apply State.logErr_ok; exact sub_le (by decide) hW)
    | (intro t; intros; (try beta_reduce))

theorem State.silentUpdate_ok {W : Nat} {σ s : State} {a1 a2 : _} (hW : 0x2000040010 ||| W = W) (h : Within W σ s) :
    Within W σ (State.silentUpdate s a1 a2) := by
  unfold State.silentUpdate
  repeat' first
    | with_reducible assumption
    | (with_reducible apply State.setReg_ok; exact sub_le (by decide) hW)
    | (with_reducible apply State.setEnt_ok; exact sub_le (by decide) hW)
    | (with_reducible apply State.numericEvent_ok; exact sub_le (by decide) hW)
    | with_reducible apply Within.ite
    | (extract_lets +onlyGivenNames x
       first
       | (refine Within.cut (W := W) (s := σ) x ?_ ?_; rotate_left; (clear_value x; intro hx))
       | (refine Within.cut (W := W) (s := σ) x.1 ?_ ?_; rotate_left; (clear_value x; intro hx))
       | (refine Within.cut (W := W) (s := σ) x.2 ?_ ?_; rotate_left; (clear_value x; intro hx))
       | (refine Within.cutF (W := W) (s := σ) x ?_ ?_; rotate_left; (clear_value x; intro hf))
       | clear_value x)
    | split
    | (intro t; intros; (try beta_reduce))
    | dsimp -zeta only [x]

theorem State.govTimed_ok {W : Nat} {σ s : State} {a1 : _} (hW : 0x4000000010 ||| W = W) (h : Within W σ s) :
    Within W σ (State.govTimed s a1) := by
  unfold State.govTimed
  repeat' first
    | with_reducible assumption
    | (with_reducible apply State.freshen_ok; exact sub_le (by decide) hW)
    | (with_reducible apply State.progress_ok; exact sub_le (by decide) hW)
    | (with_reducible apply State.setReg_ok; exact sub_le (by decide) hW)
    | with_reducible apply Within.ite
    | (with_reducible apply Within.fold; (intro t x ht; beta_reduce))
    | (with_reducible apply Within.fold1; (intro t x ht; beta_reduce))
    | (with_reducible apply Within.fold2; (intro t x ht; beta_reduce))
    | (extract_lets +onlyGivenNames x
       first
       | (refine Within.cut (W := W) (s := σ) x ?_ ?_; rotate_left; (clear_value x; intro hx))
       | (refine Within.cut (W := W) (s := σ) x.1 ?_ ?_; rotate_left; (clear_value x; intro hx))
       | (refine Within.cut (W := W) (s := σ) x.2 ?_ ?_; rotate_left; (clear_value x; intro hx))
       | (refine Within.cutF (W := W) (s := σ) x ?_ ?_; rotate_left; (clear_value x; intro hf))
       | clear_value x)
    | split
    | (intro t; intros; (try beta_reduce))
    | dsimp -zeta only [x]

theorem State.governPart_ok {W : Nat} {σ s : State} {a1 a2 a3 : _} (hW : 0x6000040010 ||| W = W) (h : Within W σ s) :
    Within W σ (State.governPart s a1 a2 a3) := by
  unfold State.governPart
  repeat' first
    | with_reducible assumption
    | (with_reducible apply State.silentUpdate_ok; exact sub_le (by decide) hW)
    | (with_reducible apply State.govTimed_ok; exact sub_le (by decide) hW)
    | (with_reducible apply State.govern_ok; exact sub_le (by decide) hW)
    | with_reducible apply Within.ite
    | (with_reducible apply Within.fold; (intro t x ht; beta_reduce))
    | (with_reducible apply Within.fold1; (intro t x ht; beta_reduce))
    | (with_reducible apply Within.fold2; (intro t x ht; beta_reduce))
    | (extract_lets +onlyGivenNames x
       first
       | (refine Within.cut (W := W) (s := σ) x ?_ ?_; rotate_left; (clear_value x; intro hx))
       | (refine Within.cut (W := W) (s := σ) x.1 ?_ ?_; rotate_left; (clear_value x; intro hx))
       | (refine Within.cut (W := W) (s := σ) x.2 ?_ ?_; rotate_left; (clear_value x; intro hx))
       | (refine Within.cutF (W := W) (s := σ) x ?_ ?_; rotate_left; (clear_value x; intro hf))
       | clear_value x)
    | split
    | (intro t; intros; (try beta_reduce))
    | dsimp -zeta only [x]

end Sys2Proof.Machine
end

