-- ==== Sys2Proof/Laws/FContract.lean ====
section
/-! SUPPORT. What each operation of Contract.lean can change, and that it keeps the tables in canonical form. -/

set_option linter.all false

namespace Sys2Proof.Machine

theorem State.zeroUnit_ok {W : Nat} {σ s : State} {a1 : _} (hW : 0x180 ||| W = W) (h : Within W σ s) :
    Within W σ (State.zeroUnit s a1) := by
  unfold State.zeroUnit
  repeat' first
    | with_reducible assumption
    | with_reducible apply Within.ite1
    | with_reducible apply Within.ite2
    | (intro hs; first | rfl | with_reducible exact hs | with_reducible first | exact hs | exact wf_mset hs _ _ | exact wf_msetBytes _ hs _ | exact wf_filter hs _ | exact rising_sset hs _ _ | exact rising_filter hs _ | exact rising_sdel hs _ | (refine rising_map hs _ ?_; intro e; beta_reduce; first | rfl | (split <;> rfl)))
    | (extract_lets +onlyGivenNames x
       first
       | (refine Within.cut (W := W) (s := σ) x ?_ ?_; rotate_left; (clear_value x; intro hx))
       | (refine Within.cut (W := W) (s := σ) x.1 ?_ ?_; rotate_left; (clear_value x; intro hx))
       | (refine Within.cut (W := W) (s := σ) x.2 ?_ ?_; rotate_left; (clear_value x; intro hx))
       | (refine Within.cutF (W := W) (s := σ) x ?_ ?_; rotate_left; (clear_value x; intro hf))
       | clear_value x)
    | (with_reducible apply Within.upd_hbm_hbmBad; exact sub_le (by decide) hW)
    | (intro t; intros; (try beta_reduce))
    | dsimp -zeta only [x]

theorem State.contractDone_ok {W : Nat} {σ s : State} {a1 : _} (hW : 0x1010 ||| W = W) (h : Within W σ s) :
    Within W σ (State.contractDone s a1) := by
  unfold State.contractDone
  repeat' first
    | with_reducible assumption
    | (with_reducible apply State.updPart_ok; exact sub_le (by decide) hW)
    | (with_reducible apply State.setFld_ok; exact sub_le (by decide) hW)
    | (with_reducible apply State.bump_ok; exact sub_le (by decide) hW)
    | (extract_lets +onlyGivenNames x
       first
       | (refine Within.cut (W := W) (s := σ) x ?_ ?_; rotate_left; (clear_value x; intro hx))
       | (refine Within.cut (W := W) (s := σ) x.1 ?_ ?_; rotate_left; (clear_value x; intro hx))
       | (refine Within.cut (W := W) (s := σ) x.2 ?_ ?_; rotate_left; (clear_value x; intro hx))
       | (refine Within.cutF (W := W) (s := σ) x ?_ ?_; rotate_left; (clear_value x; intro hf))
       | clear_value x)
    | (intro t; intros; (try beta_reduce))
    | dsimp -zeta only [x]

theorem State.handOver_ok {W : Nat} {σ s : State} {a1 a2 : _} (hW : 0x2080024db0 ||| W = W) (h : Within W σ s) :
    Within W σ (State.handOver s a1 a2) := by
  unfold State.handOver
  repeat' first
    | with_reducible assumption
    | (with_reducible apply State.clusterChanges_ok; exact sub_le (by decide) hW)
    | (with_reducible apply State.queuesChange_ok; exact sub_le (by decide) hW)
    | (with_reducible apply State.meltChange_ok; exact sub_le (by decide) hW)
    | with_reducible apply Within.ite
    | (with_reducible apply Within.fold; (intro t x ht; beta_reduce))
    | (with_reducible apply Within.fold1; (intro t x ht; beta_reduce))
    | (with_reducible apply Within.fold2; (intro t x ht; beta_reduce))
    | (extract_lets +onlyGivenNames x
       first
       | (refine Within.cut (W := W) (s := σ) x ?_ ?_; rotate_left; (clear_value x; intro hx))
       | (refine Within.cut (W := W) (s := σ) x.1 ?_ ?_; rotate_left; (clear_value x; intro hx))
       | (refine Within.cut (W := W) (s := σ) x.2 ?_ ?_; rotate_left; (clear_value x; intro hx))
       | (refine Within.cutF (W := W) (s := σ) x ?_ ?_; rotate_left; (clear_value x; intro hf))
       | clear_value x)
    | split
    | (intro t; intros; (try beta_reduce))
    | dsimp -zeta only [x]

theorem State.applyContract_ok {W : Nat} {σ s : State} {a1 : _} (hW : 0x208002ddb0 ||| W = W) (h : Within W σ s) :
    Within W σ (State.applyContract s a1) := by
  unfold State.applyContract
  repeat' first
    | with_reducible assumption
    | (with_reducible apply State.handOver_ok; exact sub_le (by decide) hW)
    | (with_reducible apply State.setReg_ok; exact sub_le (by decide) hW)
    | (with_reducible apply State.updPart_ok; exact sub_le (by decide) hW)
    | (with_reducible apply State.poolGrant_ok; exact sub_le (by decide) hW)
    | (with_reducible apply State.contractDone_ok; exact sub_le (by decide) hW)
    | (with_reducible apply State.zeroUnit_ok; exact sub_le (by decide) hW)
    | (with_reducible apply State.progress_ok; exact sub_le (by decide) hW)
    | with_reducible apply Within.ite
    | (with_reducible apply Within.fold; (intro t x ht; beta_reduce))
    | (with_reducible apply Within.fold1; (intro t x ht; beta_reduce))
    | (with_reducible apply Within.fold2; (intro t x ht; beta_reduce))
    | with_reducible apply Within.ite1
    | with_reducible apply Within.ite2
    | (intro hs; first | rfl | with_reducible exact hs | with_reducible first | exact hs | exact wf_mset hs _ _ | exact wf_msetBytes _ hs _ | exact wf_filter hs _ | exact rising_sset hs _ _ | exact rising_filter hs _ | exact rising_sdel hs _ | (refine rising_map hs _ ?_; intro e; beta_reduce; first | rfl | (split <;> rfl)))
    | (extract_lets +onlyGivenNames x
       first
       | (refine Within.cut (W := W) (s := σ) x ?_ ?_; rotate_left; (clear_value x; intro hx))
       | (refine Within.cut (W := W) (s := σ) x.1 ?_ ?_; rotate_left; (clear_value x; intro hx))
       | (refine Within.cut (W := W) (s := σ) x.2 ?_ ?_; rotate_left; (clear_value x; intro hx))
       | (refine Within.cutF (W := W) (s := σ) x ?_ ?_; rotate_left; (clear_value x; intro hf))
       | clear_value x)
    | split
    | (with_reducible apply Within.upd_shadows; exact sub_le (by decide) hW)
    | (intro t; intros; (try beta_reduce))
    | dsimp -zeta only [x]

theorem State.endZeroing_ok {W : Nat} {σ s : State} {a1 : _} (hW : 0x1010 ||| W = W) (h : Within W σ s) :
    Within W σ (State.endZeroing s a1) := by
  unfold State.endZeroing
  repeat' first
    | with_reducible assumption
    | (with_reducible apply State.updPart_ok; exact sub_le (by decide) hW)
    | (with_reducible apply State.progress_ok; exact sub_le (by decide) hW)
    | (with_reducible apply State.bump_ok; exact sub_le (by decide) hW)
    | (with_reducible apply State.contractDone_ok; exact sub_le (by decide) hW)
    | with_reducible apply Within.ite
    | (extract_lets +onlyGivenNames x
       first
       | (refine Within.cut (W := W) (s := σ) x ?_ ?_; rotate_left; (clear_value x; intro hx))
       | (refine Within.cut (W := W) (s := σ) x.1 ?_ ?_; rotate_left; (clear_value x; intro hx))
       | (refine Within.cut (W := W) (s := σ) x.2 ?_ ?_; rotate_left; (clear_value x; intro hx))
       | (refine Within.cutF (W := W) (s := σ) x ?_ ?_; rotate_left; (clear_value x; intro hf))
       | clear_value x)
    | split
    | (intro t; intros; (try beta_reduce))
    | dsimp -zeta only [x]

theorem State.resetBank_ok {W : Nat} {σ s : State} {a1 a2 : _} (hW : 0x2000000030 ||| W = W) (h : Within W σ s) :
    Within W σ (State.resetBank s a1 a2) := by
  unfold State.resetBank
  repeat' first
    | with_reducible assumption
    | (with_reducible apply State.raisePage_ok; exact sub_le (by decide) hW)
    | with_reducible apply Within.ite
    | with_reducible apply Within.ite1
    | with_reducible apply Within.ite2
    | (intro hs; first | rfl | with_reducible exact hs | with_reducible first | exact hs | exact wf_mset hs _ _ | exact wf_msetBytes _ hs _ | exact wf_filter hs _ | exact rising_sset hs _ _ | exact rising_filter hs _ | exact rising_sdel hs _ | (refine rising_map hs _ ?_; intro e; beta_reduce; first | rfl | (split <;> rfl)))
    | (extract_lets +onlyGivenNames x
       first
       | (refine Within.cut (W := W) (s := σ) x ?_ ?_; rotate_left; (clear_value x; intro hx))
       | (refine Within.cut (W := W) (s := σ) x.1 ?_ ?_; rotate_left; (clear_value x; intro hx))
       | (refine Within.cut (W := W) (s := σ) x.2 ?_ ?_; rotate_left; (clear_value x; intro hx))
       | (refine Within.cutF (W := W) (s := σ) x ?_ ?_; rotate_left; (clear_value x; intro hf))
       | clear_value x)
    | split
    | (with_reducible apply Within.upd_regs_shadows; exact sub_le (by decide) hW)
    | (intro t; intros; (try beta_reduce))
    | dsimp -zeta only [x]

theorem State.fwSettle_ok {W : Nat} {σ s : State} (hW : 0x10 ||| W = W) (h : Within W σ s) :
    Within W σ (State.fwSettle s) := by
  unfold State.fwSettle
  repeat' first
    | with_reducible assumption
    | (with_reducible apply State.setFld_ok; exact sub_le (by decide) hW)
    | (with_reducible apply State.setReg_ok; exact sub_le (by decide) hW)
    | with_reducible apply Within.ite
    | with_reducible apply Within.ite1
    | with_reducible apply Within.ite2
    | split
    | (intro t; intros; (try beta_reduce))

theorem State.deleteDone_ok {W : Nat} {σ s : State} {a1 : _} (hW : 0x208003ddb0 ||| W = W) (h : Within W σ s) :
    Within W σ (State.deleteDone s a1) := by
  unfold State.deleteDone
  repeat' first
    | with_reducible assumption
    | (with_reducible apply State.handOver_ok; exact sub_le (by decide) hW)
    | (with_reducible apply State.updDbg_ok; exact sub_le (by decide) hW)
    | (with_reducible apply State.resetBank_ok; exact sub_le (by decide) hW)
    | (with_reducible apply State.fwSettle_ok; exact sub_le (by decide) hW)
    | (with_reducible apply State.poolGrant_ok; exact sub_le (by decide) hW)
    | (with_reducible apply Within.fold; (intro t x ht; beta_reduce))
    | (with_reducible apply Within.fold1; (intro t x ht; beta_reduce))
    | (with_reducible apply Within.fold2; (intro t x ht; beta_reduce))
    | with_reducible apply Within.ite1
    | with_reducible apply Within.ite2
    | (intro hs; first | rfl | with_reducible exact hs | with_reducible first | exact hs | exact wf_mset hs _ _ | exact wf_msetBytes _ hs _ | exact wf_filter hs _ | exact rising_sset hs _ _ | exact rising_filter hs _ | exact rising_sdel hs _ | (refine rising_map hs _ ?_; intro e; beta_reduce; first | rfl | (split <;> rfl)))
    | (extract_lets +onlyGivenNames x
       first
       | (refine Within.cut (W := W) (s := σ) x ?_ ?_; rotate_left; (clear_value x; intro hx))
       | (refine Within.cut (W := W) (s := σ) x.1 ?_ ?_; rotate_left; (clear_value x; intro hx))
       | (refine Within.cut (W := W) (s := σ) x.2 ?_ ?_; rotate_left; (clear_value x; intro hx))
       | (refine Within.cutF (W := W) (s := σ) x ?_ ?_; rotate_left; (clear_value x; intro hf))
       | clear_value x)
    | (with_reducible apply Within.upd_regs_shadows_parts_bars; exact sub_le (by decide) hW)
    | (intro t; intros; (try beta_reduce))
    | dsimp -zeta only [x]

theorem State.tryContract_ok {W : Nat} {σ s : State} {a1 : _} (hW : 0x208003ddb0 ||| W = W) (h : Within W σ s) :
    Within W σ (State.tryContract s a1) := by
  unfold State.tryContract
  repeat' first
    | with_reducible assumption
    | (with_reducible apply State.deleteDone_ok; exact sub_le (by decide) hW)
    | (with_reducible apply State.updPart_ok; exact sub_le (by decide) hW)
    | (with_reducible apply State.applyContract_ok; exact sub_le (by decide) hW)
    | with_reducible apply Within.ite
    | with_reducible apply Within.ite1
    | with_reducible apply Within.ite2
    | (extract_lets +onlyGivenNames x
       first
       | (refine Within.cut (W := W) (s := σ) x ?_ ?_; rotate_left; (clear_value x; intro hx))
       | (refine Within.cut (W := W) (s := σ) x.1 ?_ ?_; rotate_left; (clear_value x; intro hx))
       | (refine Within.cut (W := W) (s := σ) x.2 ?_ ?_; rotate_left; (clear_value x; intro hx))
       | (refine Within.cutF (W := W) (s := σ) x ?_ ?_; rotate_left; (clear_value x; intro hf))
       | clear_value x)
    | split
    | (intro t; intros; (try beta_reduce))
    | dsimp -zeta only [x]

end Sys2Proof.Machine
end

