-- ==== Sys2Proof/Laws/FRelease.lean ====
section
/-! SUPPORT. What each operation of Release.lean can change, and that it keeps the tables in canonical form. -/

set_option linter.all false

namespace Sys2Proof.Machine

theorem State.verdict_ok {W : Nat} {σ s : State} {a1 a2 : _} (hW : 0x10 ||| W = W) (h : Within W σ s) :
    Within W σ (State.verdict s a1 a2) := by
  unfold State.verdict
  repeat' first
    | with_reducible assumption
    | (with_reducible apply State.setReg_ok; exact sub_le (by decide) hW)
    | (with_reducible apply State.setFld_ok; exact sub_le (by decide) hW)
    | with_reducible apply Within.ite
    | (extract_lets +onlyGivenNames x
       first
       | (refine Within.cut (W := W) (s := σ) x ?_ ?_; rotate_left; (clear_value x; intro hx))
       | (refine Within.cut (W := W) (s := σ) x.1 ?_ ?_; rotate_left; (clear_value x; intro hx))
       | (refine Within.cut (W := W) (s := σ) x.2 ?_ ?_; rotate_left; (clear_value x; intro hx))
       | (refine Within.cutF (W := W) (s := σ) x ?_ ?_; rotate_left; (clear_value x; intro hf))
       | clear_value x)
    | split
    | (intro t; intros; (try beta_reduce))
    | dsimp -zeta only [x]

theorem State.addEnt_ok {W : Nat} {σ s : State} {a1 a2 a3 : _} (hW : 0x10 ||| W = W) (h : Within W σ s) :
    Within W σ (State.addEnt s a1 a2 a3) := by
  unfold State.addEnt
  repeat' first
    | with_reducible assumption
    | (with_reducible apply State.setEnt_ok; exact sub_le (by decide) hW)
    | (intro t; intros; (try beta_reduce))

theorem State.recordBlocks_ok {W : Nat} {σ s : State} {a1 a2 a3 a4 a5 a6 a7 : _} (hW : 0x10 ||| W = W) (h : Within W σ s) :
    Within W σ (State.recordBlocks s a1 a2 a3 a4 a5 a6 a7) := by
  unfold State.recordBlocks
  repeat' first
    | with_reducible assumption
    | (with_reducible apply State.addEnt_ok; exact sub_le (by decide) hW)
    | (with_reducible apply State.verdict_ok; exact sub_le (by decide) hW)
    | with_reducible apply Within.ite
    | (extract_lets +onlyGivenNames x
       first
       | (refine Within.cut (W := W) (s := σ) x ?_ ?_; rotate_left; (clear_value x; intro hx))
       | (refine Within.cut (W := W) (s := σ) x.1 ?_ ?_; rotate_left; (clear_value x; intro hx))
       | (refine Within.cut (W := W) (s := σ) x.2 ?_ ?_; rotate_left; (clear_value x; intro hx))
       | (refine Within.cutF (W := W) (s := σ) x ?_ ?_; rotate_left; (clear_value x; intro hf))
       | clear_value x)
    | split
    | (intro t; intros; (try beta_reduce))
    | dsimp -zeta only [x]

theorem State.mergeEntry_ok {W : Nat} {σ s : State} {a1 a2 : _} (hW : 0x10 ||| W = W) (h : Within W σ s) :
    Within W σ (State.mergeEntry s a1 a2) := by
  unfold State.mergeEntry
  repeat' first
    | with_reducible assumption
    | (with_reducible apply State.setEnt_ok; exact sub_le (by decide) hW)
    | (with_reducible apply State.addEnt_ok; exact sub_le (by decide) hW)
    | (with_reducible apply State.setEntFld_ok; exact sub_le (by decide) hW)
    | (with_reducible apply State.verdict_ok; exact sub_le (by decide) hW)
    | with_reducible apply Within.ite
    | (with_reducible apply Within.fold; (intro t x ht; beta_reduce))
    | (with_reducible apply Within.fold1; (intro t x ht; beta_reduce))
    | (with_reducible apply Within.fold2; (intro t x ht; beta_reduce))
    | with_reducible apply Within.ite1
    | with_reducible apply Within.ite2
    | (intro hs; first | rfl | with_reducible exact hs | with_reducible first | exact hs | exact wf_mset hs _ _ | exact wf_msetBytes _ hs _ | exact wf_filter hs _ | exact rising_sset hs _ _ | exact rising_filter hs _ | exact rising_sdel hs _ | (refine rising_map hs _ ?_; intro e; beta_reduce; first | rfl | (split <;> rfl)))
    | (extract_lets +onlyGivenNames x
       first
       | (refine Within.cut (W := W) (s := σ) x ?_ ?_; rotate_left; (clear_value x; intro hx))
       | (refine Within.cut (W := W) (s := σ) x.1 ?_ ?_; rotate_left; (clear_value x; intro hx))
       | (refine Within.cut (W := W) (s := σ) x.2 ?_ ?_; rotate_left; (clear_value x; intro hx))
       | (refine Within.cutF (W := W) (s := σ) x ?_ ?_; rotate_left; (clear_value x; intro hf))
       | clear_value x)
    | split
    | (with_reducible apply Within.upd_regs; exact sub_le (by decide) hW)
    | (intro t; intros; (try beta_reduce))
    | dsimp -zeta only [x]

theorem State.mergeStats_ok {W : Nat} {σ s : State} {a1 : _} (hW : 0x10 ||| W = W) (h : Within W σ s) :
    Within W σ (State.mergeStats s a1) := by
  unfold State.mergeStats
  repeat' first
    | with_reducible assumption
    | (with_reducible apply State.mergeEntry_ok; exact sub_le (by decide) hW)
    | (with_reducible apply Within.fold; (intro t x ht; beta_reduce))
    | (with_reducible apply Within.fold1; (intro t x ht; beta_reduce))
    | (with_reducible apply Within.fold2; (intro t x ht; beta_reduce))
    | (intro t; intros; (try beta_reduce))

theorem State.layerBoundary_ok {W : Nat} {σ s : State} {a1 : _} (hW : 0x1030 ||| W = W) (h : Within W σ s) :
    Within W σ (State.layerBoundary s a1) := by
  unfold State.layerBoundary
  repeat' first
    | with_reducible assumption
    | (with_reducible apply State.applyPart_ok; exact sub_le (by decide) hW)
    | (with_reducible apply State.mergeStats_ok; exact sub_le (by decide) hW)
    | (with_reducible apply State.updPart_ok; exact sub_le (by decide) hW)
    | (extract_lets +onlyGivenNames x
       first
       | (refine Within.cut (W := W) (s := σ) x ?_ ?_; rotate_left; (clear_value x; intro hx))
       | (refine Within.cut (W := W) (s := σ) x.1 ?_ ?_; rotate_left; (clear_value x; intro hx))
       | (refine Within.cut (W := W) (s := σ) x.2 ?_ ?_; rotate_left; (clear_value x; intro hx))
       | (refine Within.cutF (W := W) (s := σ) x ?_ ?_; rotate_left; (clear_value x; intro hf))
       | clear_value x)
    | (intro t; intros; (try beta_reduce))
    | dsimp -zeta only [x]

theorem State.settle_ok {W : Nat} {σ s : State} {a1 a2 a3 : _} (hW : 0x1010 ||| W = W) (h : Within W σ s) :
    Within W σ (State.settle s a1 a2 a3) := by
  unfold State.settle
  repeat' first
    | with_reducible assumption
    | (with_reducible apply State.updPart_ok; exact sub_le (by decide) hW)
    | (with_reducible apply State.setReg_ok; exact sub_le (by decide) hW)
    | (with_reducible apply State.bump_ok; exact sub_le (by decide) hW)
    | with_reducible apply Within.ite
    | (extract_lets +onlyGivenNames x
       first
       | (refine Within.cut (W := W) (s := σ) x ?_ ?_; rotate_left; (clear_value x; intro hx))
       | (refine Within.cut (W := W) (s := σ) x.1 ?_ ?_; rotate_left; (clear_value x; intro hx))
       | (refine Within.cut (W := W) (s := σ) x.2 ?_ ?_; rotate_left; (clear_value x; intro hx))
       | (refine Within.cutF (W := W) (s := σ) x ?_ ?_; rotate_left; (clear_value x; intro hf))
       | clear_value x)
    | split
    | (intro t; intros; (try beta_reduce))
    | dsimp -zeta only [x]

theorem State.jrStepEnd_ok {W : Nat} {σ s : State} {a1 a2 : _} (hW : 0x1010 ||| W = W) (h : Within W σ s) :
    Within W σ (State.jrStepEnd s a1 a2) := by
  unfold State.jrStepEnd
  repeat' first
    | with_reducible assumption
    | (with_reducible apply State.updPart_ok; exact sub_le (by decide) hW)
    | (with_reducible apply State.setFld_ok; exact sub_le (by decide) hW)
    | with_reducible apply Within.ite
    | (extract_lets +onlyGivenNames x
       first
       | (refine Within.cut (W := W) (s := σ) x ?_ ?_; rotate_left; (clear_value x; intro hx))
       | (refine Within.cut (W := W) (s := σ) x.1 ?_ ?_; rotate_left; (clear_value x; intro hx))
       | (refine Within.cut (W := W) (s := σ) x.2 ?_ ?_; rotate_left; (clear_value x; intro hx))
       | (refine Within.cutF (W := W) (s := σ) x ?_ ?_; rotate_left; (clear_value x; intro hf))
       | clear_value x)
    | split
    | (intro t; intros; (try beta_reduce))
    | dsimp -zeta only [x]

theorem State.stepBoundary_ok {W : Nat} {σ s : State} {a1 a2 a3 : _} (hW : 0x6000047030 ||| W = W) (h : Within W σ s) :
    Within W σ (State.stepBoundary s a1 a2 a3) := by
  unfold State.stepBoundary
  repeat' first
    | with_reducible assumption
    | (with_reducible apply State.governPart_ok; exact sub_le (by decide) hW)
    | (with_reducible apply State.applyPart_ok; exact sub_le (by decide) hW)
    | (with_reducible apply State.replaceFenced_ok; exact sub_le (by decide) hW)
    | (with_reducible apply State.setReg_ok; exact sub_le (by decide) hW)
    | (with_reducible apply State.updCluster_ok; exact sub_le (by decide) hW)
    | (with_reducible apply State.updPart_ok; exact sub_le (by decide) hW)
    | (with_reducible apply Within.fold; (intro t x ht; beta_reduce))
    | (with_reducible apply Within.fold1; (intro t x ht; beta_reduce))
    | (with_reducible apply Within.fold2; (intro t x ht; beta_reduce))
    | (extract_lets +onlyGivenNames x
       first
       | (refine Within.cut (W := W) (s := σ) x ?_ ?_; rotate_left; (clear_value x; intro hx))
       | (refine Within.cut (W := W) (s := σ) x.1 ?_ ?_; rotate_left; (clear_value x; intro hx))
       | (refine Within.cut (W := W) (s := σ) x.2 ?_ ?_; rotate_left; (clear_value x; intro hx))
       | (refine Within.cutF (W := W) (s := σ) x ?_ ?_; rotate_left; (clear_value x; intro hf))
       | clear_value x)
    | (intro t; intros; (try beta_reduce))
    | dsimp -zeta only [x]

theorem State.poolTaskEnd_ok {W : Nat} {σ s : State} {a1 a2 a3 : _} (hW : 0x200004fdb0 ||| W = W) (h : Within W σ s) :
    Within W σ (State.poolTaskEnd s a1 a2 a3) := by
  unfold State.poolTaskEnd
  repeat' first
    | with_reducible assumption
    | (with_reducible apply State.applyCluster_ok; exact sub_le (by decide) hW)
    | (with_reducible apply State.releaseCluster_ok; exact sub_le (by decide) hW)
    | (with_reducible apply State.replaceFenced_ok; exact sub_le (by decide) hW)
    | (extract_lets +onlyGivenNames x
       first
       | (refine Within.cut (W := W) (s := σ) x ?_ ?_; rotate_left; (clear_value x; intro hx))
       | (refine Within.cut (W := W) (s := σ) x.1 ?_ ?_; rotate_left; (clear_value x; intro hx))
       | (refine Within.cut (W := W) (s := σ) x.2 ?_ ?_; rotate_left; (clear_value x; intro hx))
       | (refine Within.cutF (W := W) (s := σ) x ?_ ?_; rotate_left; (clear_value x; intro hf))
       | clear_value x)
    | split
    | (intro t; intros; (try beta_reduce))
    | dsimp -zeta only [x]

theorem State.nextHead_ok {W : Nat} {σ s : State} {a1 : _} (hW : 0xdd90 ||| W = W) (h : Within W σ s) :
    Within W σ (State.nextHead s a1) := by
  unfold State.nextHead
  repeat' first
    | with_reducible assumption
    | (with_reducible apply State.poolArrived_ok; exact sub_le (by decide) hW)
    | with_reducible apply Within.ite
    | split
    | (intro t; intros; (try beta_reduce))

theorem State.releaseOne_ok {W : Nat} {σ s : State} {a1 a2 a3 a4 : _} (hW : 0x600566fdb0 ||| W = W) (h : Within W σ s) :
    Within W σ (State.releaseOne s a1 a2 a3 a4) := by
  unfold State.releaseOne
  repeat' first
    | with_reducible assumption
    | (with_reducible apply State.complete_ok; exact sub_le (by decide) hW)
    | (with_reducible apply State.bump_ok; exact sub_le (by decide) hW)
    | (with_reducible apply State.meter_ok; exact sub_le (by decide) hW)
    | (with_reducible apply State.taskDone_ok; exact sub_le (by decide) hW)
    | (with_reducible apply State.nextHead_ok; exact sub_le (by decide) hW)
    | (with_reducible apply State.poolTaskEnd_ok; exact sub_le (by decide) hW)
    | with_reducible apply Within.ite
    | (extract_lets +onlyGivenNames x
       first
       | (refine Within.cut (W := W) (s := σ) x ?_ ?_; rotate_left; (clear_value x; intro hx))
       | (refine Within.cut (W := W) (s := σ) x.1 ?_ ?_; rotate_left; (clear_value x; intro hx))
       | (refine Within.cut (W := W) (s := σ) x.2 ?_ ?_; rotate_left; (clear_value x; intro hx))
       | (refine Within.cutF (W := W) (s := σ) x ?_ ?_; rotate_left; (clear_value x; intro hf))
       | clear_value x)
    | split
    | (intro t; intros; (try beta_reduce))
    | dsimp -zeta only [x]

theorem State.rearrive_ok {W : Nat} {σ s : State} {a1 a2 a3 a4 : _} (hW : 0x10010 ||| W = W) (h : Within W σ s) :
    Within W σ (State.rearrive s a1 a2 a3 a4) := by
  induction a4 generalizing s a1 a2 a3 with
  | nil =>
    unfold State.rearrive
    repeat' first
      | with_reducible assumption
      | with_reducible apply ih
      | (with_reducible apply State.arrive_ok; exact sub_le (by decide) hW)
      | (intro t; intros; (try beta_reduce))
  | cons b r ih =>
    unfold State.rearrive
    repeat' first
      | with_reducible assumption
      | with_reducible apply ih
      | (with_reducible apply State.arrive_ok; exact sub_le (by decide) hW)
      | (intro t; intros; (try beta_reduce))

theorem State.release_ok {W : Nat} {σ s : State} {a1 : _} (hW : 0x608567fdb0 ||| W = W) (h : Within W σ s) :
    Within W σ (State.release s a1) := by
  unfold State.release
  repeat' first
    | with_reducible assumption
    | (with_reducible apply State.setBar_ok; exact sub_le (by decide) hW)
    | (with_reducible apply State.layerBoundary_ok; exact sub_le (by decide) hW)
    | (with_reducible apply State.settle_ok; exact sub_le (by decide) hW)
    | (with_reducible apply State.stepBoundary_ok; exact sub_le (by decide) hW)
    | (with_reducible apply State.releaseOne_ok; exact sub_le (by decide) hW)
    | (with_reducible apply State.tryContract_ok; exact sub_le (by decide) hW)
    | (with_reducible apply State.jrStepEnd_ok; exact sub_le (by decide) hW)
    | (with_reducible apply State.setReg_ok; exact sub_le (by decide) hW)
    | (with_reducible apply State.bump_ok; exact sub_le (by decide) hW)
    | (with_reducible apply State.freshen_ok; exact sub_le (by decide) hW)
    | (with_reducible apply State.rearrive_ok; exact sub_le (by decide) hW)
    | with_reducible apply Within.ite
    | (with_reducible apply Within.fold; (intro t x ht; beta_reduce))
    | (with_reducible apply Within.fold1; (intro t x ht; beta_reduce))
    | (with_reducible apply Within.fold2; (intro t x ht; beta_reduce))
    | (extract_lets +onlyGivenNames x
       first
       | (refine Within.cut (W := W) (s := σ) x ?_ ?_; rotate_left; (clear_value x; intro hx))
       | (refine Within.cut (W := W) (s := σ) x.1 ?_ ?_; rotate_left; (clear_value x; intro hx))
       | (refine Within.cut (W := W) (s := σ) x.2 ?_ ?_; rotate_left; (clear_value x; intro hx))
       | (refine Within.cutF (W := W) (s := σ) x ?_ ?_; rotate_left; (clear_value x; intro hf))
       | clear_value x)
    | split
    | (intro t; intros; (try beta_reduce))
    | dsimp -zeta only [x]

theorem State.settleBars_ok {W : Nat} {σ s : State} {a1 a2 : _} (hW : 0x608567fdb0 ||| W = W) (h : Within W σ s) :
    Within W σ (State.settleBars s a1 a2) := by
  induction a2 generalizing s a1 with
  | zero =>
    unfold State.settleBars
    repeat' first
      | with_reducible assumption
      | with_reducible apply ih
      | (with_reducible apply State.release_ok; exact sub_le (by decide) hW)
      | split
      | (intro t; intros; (try beta_reduce))
  | succ k ih =>
    unfold State.settleBars
    repeat' first
      | with_reducible assumption
      | with_reducible apply ih
      | (with_reducible apply State.release_ok; exact sub_le (by decide) hW)
      | split
      | (intro t; intros; (try beta_reduce))

theorem State.runBars_ok {W : Nat} {σ s : State} {a1 : _} (hW : 0x608567fdb0 ||| W = W) (h : Within W σ s) :
    Within W σ (State.runBars s a1) := by
  unfold State.runBars
  repeat' first
    | with_reducible assumption
    | (with_reducible apply State.settleBars_ok; exact sub_le (by decide) hW)
    | (intro t; intros; (try beta_reduce))

theorem State.arriveAt_ok {W : Nat} {σ s : State} {a1 a2 a3 a4 : _} (hW : 0x608567fdb0 ||| W = W) (h : Within W σ s) :
    Within W σ (State.arriveAt s a1 a2 a3 a4) := by
  unfold State.arriveAt
  repeat' first
    | with_reducible assumption
    | (with_reducible apply State.runBars_ok; exact sub_le (by decide) hW)
    | (with_reducible apply State.arrive_ok; exact sub_le (by decide) hW)
    | (intro t; intros; (try beta_reduce))

end Sys2Proof.Machine
end

