-- ==== Sys2Proof/Laws/FAdmission.lean ====
section
/-! SUPPORT. What each operation of Admission.lean can change, and that it keeps the tables in canonical form. -/

set_option linter.all false

namespace Sys2Proof.Machine

theorem State.wake_ok {W : Nat} {σ s : State} (hW : 0x400000010 ||| W = W) (h : Within W σ s) :
    Within W σ (State.wake s) := by
  unfold State.wake
  repeat' first
    | with_reducible assumption
    | (with_reducible apply State.progress_ok; exact sub_le (by decide) hW)
    | (with_reducible apply State.bump_ok; exact sub_le (by decide) hW)
    | (with_reducible apply State.setFld_ok; exact sub_le (by decide) hW)
    | with_reducible apply Within.ite
    | (extract_lets +onlyGivenNames x
       first
       | (refine Within.cut (W := W) (s := σ) x ?_ ?_; rotate_left; (clear_value x; intro hx))
       | (refine Within.cut (W := W) (s := σ) x.1 ?_ ?_; rotate_left; (clear_value x; intro hx))
       | (refine Within.cut (W := W) (s := σ) x.2 ?_ ?_; rotate_left; (clear_value x; intro hx))
       | (refine Within.cutF (W := W) (s := σ) x ?_ ?_; rotate_left; (clear_value x; intro hf))
       | clear_value x)
    | split
    | (with_reducible apply Within.upd_power; exact sub_le (by decide) hW)
    | (intro t; intros; (try beta_reduce))

theorem State.ringAsk_ok {W : Nat} {σ s : State} {a1 a2 : _} (hW : 0x3000000010 ||| W = W) (h : Within W σ s) :
    Within W σ (State.ringAsk s a1 a2) := by
  unfold State.ringAsk
  repeat' first
    | with_reducible assumption
    | (with_reducible apply State.bump_ok; exact sub_le (by decide) hW)
    | (with_reducible apply State.emit_ok; exact sub_le (by decide) hW)
    | with_reducible apply Within.ite1
    | with_reducible apply Within.ite2
    | (extract_lets +onlyGivenNames x
       first
       | (refine Within.cut (W := W) (s := σ) x ?_ ?_; rotate_left; (clear_value x; intro hx))
       | (refine Within.cut (W := W) (s := σ) x.1 ?_ ?_; rotate_left; (clear_value x; intro hx))
       | (refine Within.cut (W := W) (s := σ) x.2 ?_ ?_; rotate_left; (clear_value x; intro hx))
       | (refine Within.cutF (W := W) (s := σ) x ?_ ?_; rotate_left; (clear_value x; intro hf))
       | clear_value x)
    | (with_reducible apply Within.upd_cxl; exact sub_le (by decide) hW)
    | (intro t; intros; (try beta_reduce))
    | dsimp -zeta only [x]

theorem State.ringRetry_ok {W : Nat} {σ s : State} {a1 : _} (hW : 0x3000000810 ||| W = W) (h : Within W σ s) :
    Within W σ (State.ringRetry s a1) := by
  unfold State.ringRetry
  repeat' first
    | with_reducible assumption
    | (with_reducible apply State.ringAsk_ok; exact sub_le (by decide) hW)
    | (with_reducible apply State.updQueue_ok; exact sub_le (by decide) hW)
    | with_reducible apply Within.ite
    | (with_reducible apply Within.fold; (intro t x ht; beta_reduce))
    | (with_reducible apply Within.fold1; (intro t x ht; beta_reduce))
    | (with_reducible apply Within.fold2; (intro t x ht; beta_reduce))
    | with_reducible apply Within.ite1
    | with_reducible apply Within.ite2
    | (extract_lets +onlyGivenNames x
       first
       | (refine Within.cut (W := W) (s := σ) x ?_ ?_; rotate_left; (clear_value x; intro hx))
       | (refine Within.cut (W := W) (s := σ) x.1 ?_ ?_; rotate_left; (clear_value x; intro hx))
       | (refine Within.cut (W := W) (s := σ) x.2 ?_ ?_; rotate_left; (clear_value x; intro hx))
       | (refine Within.cutF (W := W) (s := σ) x ?_ ?_; rotate_left; (clear_value x; intro hf))
       | clear_value x)
    | split
    | (intro t; intros; (try beta_reduce))

theorem State.readForm_ok {W : Nat} {σ s : State} {a1 a2 : _} (hW : 0x10 ||| W = W) (h : Within W σ s) :
    Within W σ (State.readForm s a1 a2).2 := by
  unfold State.readForm
  repeat' first
    | with_reducible assumption
    | (with_reducible apply State.meter_ok; exact sub_le (by decide) hW)
    | (with_reducible apply State.countBytes_ok; exact sub_le (by decide) hW)
    | with_reducible apply Within.ite
    | with_reducible apply Within.ite1
    | with_reducible apply Within.ite2
    | (extract_lets +onlyGivenNames x
       first
       | (refine Within.cut (W := W) (s := σ) x ?_ ?_; rotate_left; (clear_value x; intro hx))
       | (refine Within.cut (W := W) (s := σ) x.1 ?_ ?_; rotate_left; (clear_value x; intro hx))
       | (refine Within.cut (W := W) (s := σ) x.2 ?_ ?_; rotate_left; (clear_value x; intro hx))
       | (refine Within.cutF (W := W) (s := σ) x ?_ ?_; rotate_left; (clear_value x; intro hf))
       | clear_value x)
    | split
    | (intro t; intros; (try beta_reduce))
    | dsimp -zeta only [x]

theorem State.dropTask_ok {W : Nat} {σ s : State} {a1 a2 a3 : _} (hW : 0x800 ||| W = W) (h : Within W σ s) :
    Within W σ (State.dropTask s a1 a2 a3) := by
  unfold State.dropTask
  repeat' first
    | with_reducible assumption
    | (with_reducible apply State.updQueue_ok; exact sub_le (by decide) hW)
    | with_reducible apply Within.ite
    | (extract_lets +onlyGivenNames x
       first
       | (refine Within.cut (W := W) (s := σ) x ?_ ?_; rotate_left; (clear_value x; intro hx))
       | (refine Within.cut (W := W) (s := σ) x.1 ?_ ?_; rotate_left; (clear_value x; intro hx))
       | (refine Within.cut (W := W) (s := σ) x.2 ?_ ?_; rotate_left; (clear_value x; intro hx))
       | (refine Within.cutF (W := W) (s := σ) x ?_ ?_; rotate_left; (clear_value x; intro hf))
       | clear_value x)
    | split
    | (intro t; intros; (try beta_reduce))
    | dsimp -zeta only [x]

theorem State.closeRefused_ok {W : Nat} {σ s : State} {a1 a2 a3 a4 : _} (hW : 0x608567fdb0 ||| W = W) (h : Within W σ s) :
    Within W σ (State.closeRefused s a1 a2 a3 a4) := by
  unfold State.closeRefused
  repeat' first
    | with_reducible assumption
    | (with_reducible apply State.dropTask_ok; exact sub_le (by decide) hW)
    | (with_reducible apply State.poolTaskEnd_ok; exact sub_le (by decide) hW)
    | (with_reducible apply State.nextHead_ok; exact sub_le (by decide) hW)
    | (with_reducible apply State.arriveAt_ok; exact sub_le (by decide) hW)
    | (extract_lets +onlyGivenNames x
       first
       | (refine Within.cut (W := W) (s := σ) x ?_ ?_; rotate_left; (clear_value x; intro hx))
       | (refine Within.cut (W := W) (s := σ) x.1 ?_ ?_; rotate_left; (clear_value x; intro hx))
       | (refine Within.cut (W := W) (s := σ) x.2 ?_ ?_; rotate_left; (clear_value x; intro hx))
       | (refine Within.cutF (W := W) (s := σ) x ?_ ?_; rotate_left; (clear_value x; intro hf))
       | clear_value x)
    | split
    | (intro t; intros; (try beta_reduce))
    | dsimp -zeta only [x]

theorem State.openTask_ok {W : Nat} {σ s : State} {a1 a2 : _} (hW : 0x8800 ||| W = W) (h : Within W σ s) :
    Within W σ (State.openTask s a1 a2).2 := by
  unfold State.openTask
  repeat' first
    | with_reducible assumption
    | (with_reducible apply State.updQueue_ok; exact sub_le (by decide) hW)
    | with_reducible apply Within.ite1
    | with_reducible apply Within.ite2
    | (extract_lets +onlyGivenNames x
       first
       | (refine Within.cut (W := W) (s := σ) x ?_ ?_; rotate_left; (clear_value x; intro hx))
       | (refine Within.cut (W := W) (s := σ) x.1 ?_ ?_; rotate_left; (clear_value x; intro hx))
       | (refine Within.cut (W := W) (s := σ) x.2 ?_ ?_; rotate_left; (clear_value x; intro hx))
       | (refine Within.cutF (W := W) (s := σ) x ?_ ?_; rotate_left; (clear_value x; intro hf))
       | clear_value x)
    | split
    | (with_reducible apply Within.upd_adm; exact sub_le (by decide) hW)
    | (intro t; intros; (try beta_reduce))
    | dsimp -zeta only [x]

theorem State.refuse_ok {W : Nat} {σ s : State} {a1 a2 a3 : _} (hW : 0x608567fdb0 ||| W = W) (h : Within W σ s) :
    Within W σ (State.refuse s a1 a2 a3) := by
  unfold State.refuse
  repeat' first
    | with_reducible assumption
    | (with_reducible apply State.admRecord_ok; exact sub_le (by decide) hW)
    | (with_reducible apply State.bump_ok; exact sub_le (by decide) hW)
    | (with_reducible apply State.meter_ok; exact sub_le (by decide) hW)
    | (with_reducible apply State.updQueue_ok; exact sub_le (by decide) hW)
    | (with_reducible apply State.qIrq_ok; exact sub_le (by decide) hW)
    | (with_reducible apply State.violation_ok; exact sub_le (by decide) hW)
    | (with_reducible apply State.openTask_ok; exact sub_le (by decide) hW)
    | (with_reducible apply State.endTaskCmds_ok; exact sub_le (by decide) hW)
    | (with_reducible apply State.putTask_ok; exact sub_le (by decide) hW)
    | (with_reducible apply State.updPart_ok; exact sub_le (by decide) hW)
    | (with_reducible apply State.closeRefused_ok; exact sub_le (by decide) hW)
    | with_reducible apply Within.ite
    | with_reducible apply Within.ite1
    | with_reducible apply Within.ite2
    | (extract_lets +onlyGivenNames x
       first
       | (refine Within.cut (W := W) (s := σ) x ?_ ?_; rotate_left; (clear_value x; intro hx))
       | (refine Within.cut (W := W) (s := σ) x.1 ?_ ?_; rotate_left; (clear_value x; intro hx))
       | (refine Within.cut (W := W) (s := σ) x.2 ?_ ?_; rotate_left; (clear_value x; intro hx))
       | (refine Within.cutF (W := W) (s := σ) x ?_ ?_; rotate_left; (clear_value x; intro hf))
       | clear_value x)
    | split
    | (intro t; intros; (try beta_reduce))
    | dsimp -zeta only [x]

theorem State.aliveCheck_ok {W : Nat} {σ s : State} {a1 : _} (hW : 0x810 ||| W = W) (h : Within W σ s) :
    Within W σ (State.aliveCheck s a1).2 := by
  unfold State.aliveCheck
  repeat' first
    | with_reducible assumption
    | (with_reducible apply State.updQueue_ok; exact sub_le (by decide) hW)
    | (with_reducible apply State.setQreg_ok; exact sub_le (by decide) hW)
    | with_reducible apply Within.ite
    | with_reducible apply Within.ite1
    | with_reducible apply Within.ite2
    | (extract_lets +onlyGivenNames x
       first
       | (refine Within.cut (W := W) (s := σ) x ?_ ?_; rotate_left; (clear_value x; intro hx))
       | (refine Within.cut (W := W) (s := σ) x.1 ?_ ?_; rotate_left; (clear_value x; intro hx))
       | (refine Within.cut (W := W) (s := σ) x.2 ?_ ?_; rotate_left; (clear_value x; intro hx))
       | (refine Within.cutF (W := W) (s := σ) x ?_ ?_; rotate_left; (clear_value x; intro hf))
       | clear_value x)
    | split
    | (intro t; intros; (try beta_reduce))
    | dsimp -zeta only [x]

theorem State.tryServe_ok {W : Nat} {σ s : State} {a1 a2 : _} (hW : 0xdd90 ||| W = W) (h : Within W σ s) :
    Within W σ (State.tryServe s a1 a2) := by
  unfold State.tryServe
  repeat' first
    | with_reducible assumption
    | (with_reducible apply State.putTask_ok; exact sub_le (by decide) hW)
    | (with_reducible apply State.poolArrived_ok; exact sub_le (by decide) hW)
    | with_reducible apply Within.ite
    | (extract_lets +onlyGivenNames x
       first
       | (refine Within.cut (W := W) (s := σ) x ?_ ?_; rotate_left; (clear_value x; intro hx))
       | (refine Within.cut (W := W) (s := σ) x.1 ?_ ?_; rotate_left; (clear_value x; intro hx))
       | (refine Within.cut (W := W) (s := σ) x.2 ?_ ?_; rotate_left; (clear_value x; intro hx))
       | (refine Within.cutF (W := W) (s := σ) x ?_ ?_; rotate_left; (clear_value x; intro hf))
       | clear_value x)
    | split
    | (intro t; intros; (try beta_reduce))

theorem State.accept_ok {W : Nat} {σ s : State} {a1 a2 a3 a4 a5 a6 : _} (hW : 0x6005675d90 ||| W = W) (h : Within W σ s) :
    Within W σ (State.accept s a1 a2 a3 a4 a5 a6) := by
  unfold State.accept
  repeat' first
    | with_reducible assumption
    | (with_reducible apply State.updPart_ok; exact sub_le (by decide) hW)
    | (with_reducible apply State.aliveCheck_ok; exact sub_le (by decide) hW)
    | (with_reducible apply State.updQueue_ok; exact sub_le (by decide) hW)
    | (with_reducible apply State.bump_ok; exact sub_le (by decide) hW)
    | (with_reducible apply State.admRecord_ok; exact sub_le (by decide) hW)
    | (with_reducible apply State.putTask_ok; exact sub_le (by decide) hW)
    | (with_reducible apply State.poolMark_ok; exact sub_le (by decide) hW)
    | (with_reducible apply State.abortTask_ok; exact sub_le (by decide) hW)
    | with_reducible apply Within.ite
    | with_reducible apply Within.ite1
    | with_reducible apply Within.ite2
    | (extract_lets +onlyGivenNames x
       first
       | (refine Within.cut (W := W) (s := σ) x ?_ ?_; rotate_left; (clear_value x; intro hx))
       | (refine Within.cut (W := W) (s := σ) x.1 ?_ ?_; rotate_left; (clear_value x; intro hx))
       | (refine Within.cut (W := W) (s := σ) x.2 ?_ ?_; rotate_left; (clear_value x; intro hx))
       | (refine Within.cutF (W := W) (s := σ) x ?_ ?_; rotate_left; (clear_value x; intro hf))
       | clear_value x)
    | split
    | (intro t; intros; (try beta_reduce))
    | dsimp -zeta only [x]

/-- What the checks of a descriptor leave, refused or not. -/
def admitState : Sum (Refuse × State) (State × Nat × (List Range × List Range × List Range) × List Claim × List Nat) → State
  | .inl r => r.2
  | .inr r => r.1

theorem State.admitChecks_ok {W : Nat} {σ s : State} {a1 a2 : _} (hW : 0xdd90 ||| W = W) (h : Within W σ s) :
    Within W σ (admitState (State.admitChecks s a1 a2)) := by
  unfold State.admitChecks
  extract_lets +onlyGivenNames x first tid
  repeat' first
    | with_reducible assumption
    | (extract_lets +onlyGivenNames y)
    | split
    | (dsimp +zetaDelta only [admitState]
       repeat' first
         | with_reducible assumption
         | (with_reducible apply State.bump_ok; exact sub_le (by decide) hW)
         | (with_reducible apply State.setReg_ok; exact sub_le (by decide) hW)
         | (with_reducible apply State.tryServe_ok; exact sub_le (by decide) hW)
         | (with_reducible apply State.openTask_ok; exact sub_le (by decide) hW))

theorem State.admitNext_ok {W : Nat} {σ s : State} {a1 : _} (hW : 0x608567fdb0 ||| W = W) (h : Within W σ s) :
    Within W σ (State.admitNext s a1) := by
  unfold State.admitNext
  extract_lets +onlyGivenNames x slot rf f n wrap s1 adv
  have h1 : Within W σ s1 := by
    dsimp -zeta only [s1]
    refine State.updQueue_ok (sub_le (by decide) hW) ?_
    exact State.readForm_ok (sub_le (by decide) hW) h
  have ha : ∀ t, Within W σ t → Within W σ (adv t) := by
    intro t ht
    dsimp -zeta only [adv]
    exact Within.ite (State.updQueue_ok (sub_le (by decide) hW) ht) ht
  clear_value s1 adv
  refine Within.ite (ha _ (State.refuse_ok (sub_le (by decide) hW) h1)) ?_
  refine Within.ite (ha _ (State.refuse_ok (sub_le (by decide) hW) h1)) ?_
  have hc := State.admitChecks_ok (W := W) (σ := σ) (a1 := f) (a2 := slot) (sub_le (by decide) hW) h1
  split
  all_goals
    rename_i heq
    rw [heq] at hc
    dsimp only [admitState] at hc
  · exact ha _ (State.refuse_ok (sub_le (by decide) hW) hc)
  · exact ha _ (State.accept_ok (sub_le (by decide) hW) hc)

theorem State.admitMany_ok {W : Nat} {σ s : State} {a1 a2 : _} (hW : 0x608567fdb0 ||| W = W) (h : Within W σ s) :
    Within W σ (State.admitMany s a1 a2) := by
  induction a2 generalizing s a1 with
  | zero =>
    unfold State.admitMany
    repeat' first
      | with_reducible assumption
      | with_reducible apply ih
      | (with_reducible apply State.outside_ok; exact sub_le (by decide) hW)
      | (with_reducible apply State.admitNext_ok; exact sub_le (by decide) hW)
      | with_reducible apply Within.ite
      | split
      | (intro t; intros; (try beta_reduce))
  | succ k ih =>
    unfold State.admitMany
    repeat' first
      | with_reducible assumption
      | with_reducible apply ih
      | (with_reducible apply State.outside_ok; exact sub_le (by decide) hW)
      | (with_reducible apply State.admitNext_ok; exact sub_le (by decide) hW)
      | with_reducible apply Within.ite
      | split
      | (intro t; intros; (try beta_reduce))

theorem State.enqueue_ok {W : Nat} {σ s : State} {a1 : _} (hW : 0x8000 ||| W = W) (h : Within W σ s) :
    Within W σ (State.enqueue s a1) := by
  unfold State.enqueue
  repeat' first
    | with_reducible assumption
    | (extract_lets +onlyGivenNames x
       first
       | (refine Within.cut (W := W) (s := σ) x ?_ ?_; rotate_left; (clear_value x; intro hx))
       | (refine Within.cut (W := W) (s := σ) x.1 ?_ ?_; rotate_left; (clear_value x; intro hx))
       | (refine Within.cut (W := W) (s := σ) x.2 ?_ ?_; rotate_left; (clear_value x; intro hx))
       | (refine Within.cutF (W := W) (s := σ) x ?_ ?_; rotate_left; (clear_value x; intro hf))
       | clear_value x)
    | (with_reducible apply Within.upd_adm; exact sub_le (by decide) hW)
    | (intro t; intros; (try beta_reduce))

theorem State.turn_ok {W : Nat} {σ s : State} (hW : 0x608567fdb0 ||| W = W) (h : Within W σ s) :
    Within W σ (State.turn s) := by
  unfold State.turn
  repeat' first
    | with_reducible assumption
    | (with_reducible apply State.admitMany_ok; exact sub_le (by decide) hW)
    | (with_reducible apply State.enqueue_ok; exact sub_le (by decide) hW)
    | with_reducible apply Within.ite
    | (extract_lets +onlyGivenNames x
       first
       | (refine Within.cut (W := W) (s := σ) x ?_ ?_; rotate_left; (clear_value x; intro hx))
       | (refine Within.cut (W := W) (s := σ) x.1 ?_ ?_; rotate_left; (clear_value x; intro hx))
       | (refine Within.cut (W := W) (s := σ) x.2 ?_ ?_; rotate_left; (clear_value x; intro hx))
       | (refine Within.cutF (W := W) (s := σ) x ?_ ?_; rotate_left; (clear_value x; intro hf))
       | clear_value x)
    | split
    | (with_reducible apply Within.upd_adm; exact sub_le (by decide) hW)
    | (intro t; intros; (try beta_reduce))
    | dsimp -zeta only [x]

theorem State.doorbell_ok {W : Nat} {σ s : State} {a1 a2 a3 : _} (hW : 0x608567dd90 ||| W = W) (hk : ∀ t, Within W σ t → Within W σ (a3 t)) (h : Within W σ s) :
    Within W σ (State.doorbell s a1 a2 a3) := by
  unfold State.doorbell
  repeat' first
    | with_reducible assumption
    | with_reducible apply hk
    | (with_reducible apply State.meter_ok; exact sub_le (by decide) hW)
    | (with_reducible apply State.violation_ok; exact sub_le (by decide) hW)
    | (with_reducible apply State.notice_ok; exact sub_le (by decide) hW)
    | with_reducible apply Within.ite
    | split
    | (intro t; intros; (try beta_reduce))

theorem State.badDoorbell_ok {W : Nat} {σ s : State} {a1 : _} (hW : 0x2000040010 ||| W = W) (h : Within W σ s) :
    Within W σ (State.badDoorbell s a1) := by
  unfold State.badDoorbell
  repeat' first
    | with_reducible assumption
    | (with_reducible apply State.notice_ok; exact sub_le (by decide) hW)
    | (intro t; intros; (try beta_reduce))

theorem State.sqTail_ok {W : Nat} {σ s : State} {a1 a2 a3 : _} (hW : 0x748567dd90 ||| W = W) (h : Within W σ s) :
    Within W σ (State.sqTail s a1 a2 a3) := by
  unfold State.sqTail
  repeat' first
    | with_reducible assumption
    | (with_reducible apply State.doorbell_ok; exact sub_le (by decide) hW)
    | (with_reducible apply State.wake_ok; exact sub_le (by decide) hW)
    | (with_reducible apply State.badDoorbell_ok; exact sub_le (by decide) hW)
    | (with_reducible apply State.enqueue_ok; exact sub_le (by decide) hW)
    | (with_reducible apply State.ringRetry_ok; exact sub_le (by decide) hW)
    | (with_reducible apply State.updQueue_ok; exact sub_le (by decide) hW)
    | with_reducible apply Within.ite
    | (extract_lets +onlyGivenNames x
       first
       | (refine Within.cut (W := W) (s := σ) x ?_ ?_; rotate_left; (clear_value x; intro hx))
       | (refine Within.cut (W := W) (s := σ) x.1 ?_ ?_; rotate_left; (clear_value x; intro hx))
       | (refine Within.cut (W := W) (s := σ) x.2 ?_ ?_; rotate_left; (clear_value x; intro hx))
       | (refine Within.cutF (W := W) (s := σ) x ?_ ?_; rotate_left; (clear_value x; intro hf))
       | clear_value x)
    | split
    | (intro t; intros; (try beta_reduce))
    | dsimp -zeta only [x]

theorem State.cqHeadWrite_ok {W : Nat} {σ s : State} {a1 a2 a3 : _} (hW : 0x748567dd90 ||| W = W) (h : Within W σ s) :
    Within W σ (State.cqHeadWrite s a1 a2 a3) := by
  unfold State.cqHeadWrite
  repeat' first
    | with_reducible assumption
    | (with_reducible apply State.doorbell_ok; exact sub_le (by decide) hW)
    | (with_reducible apply State.wake_ok; exact sub_le (by decide) hW)
    | (with_reducible apply State.badDoorbell_ok; exact sub_le (by decide) hW)
    | (with_reducible apply State.ringRetry_ok; exact sub_le (by decide) hW)
    | (with_reducible apply State.updQueue_ok; exact sub_le (by decide) hW)
    | (with_reducible apply State.enqueue_ok; exact sub_le (by decide) hW)
    | with_reducible apply Within.ite
    | (extract_lets +onlyGivenNames x
       first
       | (refine Within.cut (W := W) (s := σ) x ?_ ?_; rotate_left; (clear_value x; intro hx))
       | (refine Within.cut (W := W) (s := σ) x.1 ?_ ?_; rotate_left; (clear_value x; intro hx))
       | (refine Within.cut (W := W) (s := σ) x.2 ?_ ?_; rotate_left; (clear_value x; intro hx))
       | (refine Within.cutF (W := W) (s := σ) x ?_ ?_; rotate_left; (clear_value x; intro hf))
       | clear_value x)
    | split
    | (intro t; intros; (try beta_reduce))
    | dsimp -zeta only [x]

theorem State.restartTask_ok {W : Nat} {σ s : State} {a1 : _} (hW : 0x8810 ||| W = W) (h : Within W σ s) :
    Within W σ (State.restartTask s a1) := by
  unfold State.restartTask
  repeat' first
    | with_reducible assumption
    | (with_reducible apply State.updQueue_ok; exact sub_le (by decide) hW)
    | (with_reducible apply State.enqueue_ok; exact sub_le (by decide) hW)
    | (with_reducible apply State.progress_ok; exact sub_le (by decide) hW)
    | with_reducible apply Within.ite
    | (extract_lets +onlyGivenNames x
       first
       | (refine Within.cut (W := W) (s := σ) x ?_ ?_; rotate_left; (clear_value x; intro hx))
       | (refine Within.cut (W := W) (s := σ) x.1 ?_ ?_; rotate_left; (clear_value x; intro hx))
       | (refine Within.cut (W := W) (s := σ) x.2 ?_ ?_; rotate_left; (clear_value x; intro hx))
       | (refine Within.cutF (W := W) (s := σ) x ?_ ?_; rotate_left; (clear_value x; intro hf))
       | clear_value x)
    | split
    | (intro t; intros; (try beta_reduce))
    | dsimp -zeta only [x]

theorem State.skipTask_ok {W : Nat} {σ s : State} {a1 : _} (hW : 0x608567fdb0 ||| W = W) (h : Within W σ s) :
    Within W σ (State.skipTask s a1) := by
  unfold State.skipTask
  repeat' first
    | with_reducible assumption
    | (with_reducible apply State.updPart_ok; exact sub_le (by decide) hW)
    | (with_reducible apply State.updQueue_ok; exact sub_le (by decide) hW)
    | (with_reducible apply State.meter_ok; exact sub_le (by decide) hW)
    | (with_reducible apply State.putTask_ok; exact sub_le (by decide) hW)
    | (with_reducible apply State.closeRefused_ok; exact sub_le (by decide) hW)
    | (with_reducible apply State.enqueue_ok; exact sub_le (by decide) hW)
    | with_reducible apply Within.ite
    | (extract_lets +onlyGivenNames x
       first
       | (refine Within.cut (W := W) (s := σ) x ?_ ?_; rotate_left; (clear_value x; intro hx))
       | (refine Within.cut (W := W) (s := σ) x.1 ?_ ?_; rotate_left; (clear_value x; intro hx))
       | (refine Within.cut (W := W) (s := σ) x.2 ?_ ?_; rotate_left; (clear_value x; intro hx))
       | (refine Within.cutF (W := W) (s := σ) x ?_ ?_; rotate_left; (clear_value x; intro hf))
       | clear_value x)
    | split
    | (intro t; intros; (try beta_reduce))
    | dsimp -zeta only [x]

theorem State.qcmd_ok {W : Nat} {σ s : State} {a1 a2 a3 : _} (hW : 0x648567fdb0 ||| W = W) (h : Within W σ s) :
    Within W σ (State.qcmd s a1 a2 a3) := by
  unfold State.qcmd
  repeat' first
    | with_reducible assumption
    | (with_reducible apply State.doorbell_ok; exact sub_le (by decide) hW)
    | (with_reducible apply State.wake_ok; exact sub_le (by decide) hW)
    | (with_reducible apply State.restartTask_ok; exact sub_le (by decide) hW)
    | (with_reducible apply State.badDoorbell_ok; exact sub_le (by decide) hW)
    | (with_reducible apply State.skipTask_ok; exact sub_le (by decide) hW)
    | (with_reducible apply State.abortWhole_ok; exact sub_le (by decide) hW)
    | with_reducible apply Within.ite
    | (extract_lets +onlyGivenNames x
       first
       | (refine Within.cut (W := W) (s := σ) x ?_ ?_; rotate_left; (clear_value x; intro hx))
       | (refine Within.cut (W := W) (s := σ) x.1 ?_ ?_; rotate_left; (clear_value x; intro hx))
       | (refine Within.cut (W := W) (s := σ) x.2 ?_ ?_; rotate_left; (clear_value x; intro hx))
       | (refine Within.cutF (W := W) (s := σ) x ?_ ?_; rotate_left; (clear_value x; intro hf))
       | clear_value x)
    | split
    | (intro t; intros; (try beta_reduce))
    | dsimp -zeta only [x]

end Sys2Proof.Machine
end

