-- ==== Sys2Proof/Laws/FStart.lean ====
section
/-! SUPPORT. What each operation of Start.lean can change, and that it keeps the tables in canonical form. -/

set_option linter.all false

namespace Sys2Proof.Machine

theorem State.haltCore_ok {W : Nat} {σ s : State} {a1 a2 a3 : _} (hW : 0x4080000010 ||| W = W) (h : Within W σ s) :
    Within W σ (State.haltCore s a1 a2 a3) := by
  unfold State.haltCore
  repeat' first
    | with_reducible assumption
    | (with_reducible apply State.updDbg_ok; exact sub_le (by decide) hW)
    | (with_reducible apply State.freshen_ok; exact sub_le (by decide) hW)
    | (with_reducible apply State.setFld_ok; exact sub_le (by decide) hW)
    | (with_reducible apply State.setReg_ok; exact sub_le (by decide) hW)
    | (with_reducible apply State.bump_ok; exact sub_le (by decide) hW)
    | (with_reducible apply State.progress_ok; exact sub_le (by decide) hW)
    | with_reducible apply Within.ite
    | (extract_lets +onlyGivenNames x
       first
       | (refine Within.cut (W := W) (s := σ) x ?_ ?_; rotate_left; (clear_value x; intro hx))
       | (refine Within.cut (W := W) (s := σ) x.1 ?_ ?_; rotate_left; (clear_value x; intro hx))
       | (refine Within.cut (W := W) (s := σ) x.2 ?_ ?_; rotate_left; (clear_value x; intro hx))
       | (refine Within.cutF (W := W) (s := σ) x ?_ ?_; rotate_left; (clear_value x; intro hf))
       | clear_value x)
    | split
    | (intro t; intros; (try beta_reduce))
    | dsimp -zeta only [x]

theorem State.pcPassed_ok {W : Nat} {σ s : State} {a1 : _} (hW : 0x4000000000 ||| W = W) (h : Within W σ s) :
    Within W σ (State.pcPassed s a1) := by
  unfold State.pcPassed
  split
  · apply Within.upd_fresh _ h; exact sub_le (by decide) hW
  · exact h

theorem State.bpHalt_ok {W : Nat} {σ s : State} {a1 a2 : _} (hW : 0x4080000010 ||| W = W) (h : Within W σ s) :
    Within W σ (State.bpHalt s a1 a2) := by
  unfold State.bpHalt
  repeat' first
    | with_reducible assumption
    | (with_reducible apply State.setReg_ok; exact sub_le (by decide) hW)
    | (with_reducible apply State.updDbg_ok; exact sub_le (by decide) hW)
    | (with_reducible apply State.pcPassed_ok; exact sub_le (by decide) hW)
    | (with_reducible apply State.haltCore_ok; exact sub_le (by decide) hW)
    | with_reducible apply Within.ite
    | (extract_lets +onlyGivenNames x
       first
       | (refine Within.cut (W := W) (s := σ) x ?_ ?_; rotate_left; (clear_value x; intro hx))
       | (refine Within.cut (W := W) (s := σ) x.1 ?_ ?_; rotate_left; (clear_value x; intro hx))
       | (refine Within.cut (W := W) (s := σ) x.2 ?_ ?_; rotate_left; (clear_value x; intro hx))
       | (refine Within.cutF (W := W) (s := σ) x ?_ ?_; rotate_left; (clear_value x; intro hf))
       | clear_value x)
    | split
    | (intro t; intros; (try beta_reduce))
    | dsimp -zeta only [x]

theorem State.readBad_ok {W : Nat} {σ s : State} {a1 a2 a3 : _} (hW : 0x600567dd90 ||| W = W) (h : Within W σ s) :
    Within W σ (State.readBad s a1 a2 a3) := by
  unfold State.readBad
  repeat' first
    | with_reducible assumption
    | (with_reducible apply State.bump_ok; exact sub_le (by decide) hW)
    | (with_reducible apply State.raisePage_ok; exact sub_le (by decide) hW)
    | (with_reducible apply State.raiseErr_ok; exact sub_le (by decide) hW)
    | with_reducible apply Within.ite1
    | with_reducible apply Within.ite2
    | (extract_lets +onlyGivenNames x
       first
       | (refine Within.cut (W := W) (s := σ) x ?_ ?_; rotate_left; (clear_value x; intro hx))
       | (refine Within.cut (W := W) (s := σ) x.1 ?_ ?_; rotate_left; (clear_value x; intro hx))
       | (refine Within.cut (W := W) (s := σ) x.2 ?_ ?_; rotate_left; (clear_value x; intro hx))
       | (refine Within.cutF (W := W) (s := σ) x ?_ ?_; rotate_left; (clear_value x; intro hf))
       | clear_value x)
    | (intro t; intros; (try beta_reduce))
    | dsimp -zeta only [x]

theorem State.begun_ok {W : Nat} {σ s : State} {a1 a2 a3 : _} (hW : 0x4080002800 ||| W = W) (h : Within W σ s) :
    Within W σ (State.begun s a1 a2 a3) := by
  unfold State.begun
  repeat' first
    | with_reducible assumption
    | (with_reducible apply State.pcPassed_ok; exact sub_le (by decide) hW)
    | (with_reducible apply State.updDbg_ok; exact sub_le (by decide) hW)
    | (with_reducible apply State.putCmd_ok; exact sub_le (by decide) hW)
    | (with_reducible apply State.putTask_ok; exact sub_le (by decide) hW)
    | (with_reducible apply State.updCore_ok; exact sub_le (by decide) hW)
    | with_reducible apply Within.ite
    | (with_reducible apply Within.fold; (intro t x ht; beta_reduce))
    | (with_reducible apply Within.fold1; (intro t x ht; beta_reduce))
    | (with_reducible apply Within.fold2; (intro t x ht; beta_reduce))
    | (extract_lets +onlyGivenNames x
       first
       | (refine Within.cut (W := W) (s := σ) x ?_ ?_; rotate_left; (clear_value x; intro hx))
       | (refine Within.cut (W := W) (s := σ) x.1 ?_ ?_; rotate_left; (clear_value x; intro hx))
       | (refine Within.cut (W := W) (s := σ) x.2 ?_ ?_; rotate_left; (clear_value x; intro hx))
       | (refine Within.cutF (W := W) (s := σ) x ?_ ?_; rotate_left; (clear_value x; intro hf))
       | clear_value x)
    | split
    | (intro t; intros; (try beta_reduce))
    | dsimp -zeta only [x]

theorem State.startCmd_ok {W : Nat} {σ s : State} {a1 a2 a3 a4 a5 : _} (hW : 0x608567fd90 ||| W = W) (hk : ∀ t u0, Within W σ t → Within W σ (a5 t u0)) (h : Within W σ s) :
    Within W σ (State.startCmd s a1 a2 a3 a4 a5) := by
  unfold State.startCmd
  repeat' first
    | with_reducible assumption
    | with_reducible apply hk
    | (with_reducible apply State.bpHalt_ok; exact sub_le (by decide) hW)
    | (with_reducible apply State.begun_ok; exact sub_le (by decide) hW)
    | (with_reducible apply State.readBad_ok; exact sub_le (by decide) hW)
    | with_reducible apply Within.ite
    | with_reducible apply Within.ite1
    | with_reducible apply Within.ite2
    | split
    | (intro t; intros; (try beta_reduce))

theorem State.updCmd_ok {W : Nat} {σ s : State} {a1 a2 a3 : _} (hW : 0x800 ||| W = W) (h : Within W σ s) :
    Within W σ (State.updCmd s a1 a2 a3) := by
  unfold State.updCmd
  repeat' first
    | with_reducible assumption
    | (with_reducible apply State.putCmd_ok; exact sub_le (by decide) hW)
    | split
    | (intro t; intros; (try beta_reduce))

theorem State.finish_ok {W : Nat} {σ s : State} {a1 a2 a3 a4 a5 : _} (hW : 0x800 ||| W = W) (h : Within W σ s) :
    Within W σ (State.finish s a1 a2 a3 a4 a5) := by
  unfold State.finish
  repeat' first
    | with_reducible assumption
    | (with_reducible apply State.updCmd_ok; exact sub_le (by decide) hW)
    | (extract_lets +onlyGivenNames x
       first
       | (refine Within.cut (W := W) (s := σ) x ?_ ?_; rotate_left; (clear_value x; intro hx))
       | (refine Within.cut (W := W) (s := σ) x.1 ?_ ?_; rotate_left; (clear_value x; intro hx))
       | (refine Within.cut (W := W) (s := σ) x.2 ?_ ?_; rotate_left; (clear_value x; intro hx))
       | (refine Within.cutF (W := W) (s := σ) x ?_ ?_; rotate_left; (clear_value x; intro hf))
       | clear_value x)
    | (intro t; intros; (try beta_reduce))

theorem State.progressed_ok {W : Nat} {σ s : State} {a1 a2 : _} (hW : 0x800 ||| W = W) (h : Within W σ s) :
    Within W σ (State.progressed s a1 a2) := by
  unfold State.progressed
  repeat' first
    | with_reducible assumption
    | (with_reducible apply State.updQueue_ok; exact sub_le (by decide) hW)
    | with_reducible apply Within.ite
    | (extract_lets +onlyGivenNames x
       first
       | (refine Within.cut (W := W) (s := σ) x ?_ ?_; rotate_left; (clear_value x; intro hx))
       | (refine Within.cut (W := W) (s := σ) x.1 ?_ ?_; rotate_left; (clear_value x; intro hx))
       | (refine Within.cut (W := W) (s := σ) x.2 ?_ ?_; rotate_left; (clear_value x; intro hx))
       | (refine Within.cutF (W := W) (s := σ) x ?_ ?_; rotate_left; (clear_value x; intro hf))
       | clear_value x)
    | split
    | (intro t; intros; (try beta_reduce))

theorem State.commandDone_ok {W : Nat} {σ s : State} {a1 a2 : _} (hW : 0x6005661d90 ||| W = W) (h : Within W σ s) :
    Within W σ (State.commandDone s a1 a2) := by
  unfold State.commandDone
  repeat' first
    | with_reducible assumption
    | (with_reducible apply State.setEnt_ok; exact sub_le (by decide) hW)
    | (with_reducible apply State.complete_ok; exact sub_le (by decide) hW)
    | (with_reducible apply State.progressed_ok; exact sub_le (by decide) hW)
    | (with_reducible apply State.meter_ok; exact sub_le (by decide) hW)
    | with_reducible apply Within.ite
    | (extract_lets +onlyGivenNames x
       first
       | (refine Within.cut (W := W) (s := σ) x ?_ ?_; rotate_left; (clear_value x; intro hx))
       | (refine Within.cut (W := W) (s := σ) x.1 ?_ ?_; rotate_left; (clear_value x; intro hx))
       | (refine Within.cut (W := W) (s := σ) x.2 ?_ ?_; rotate_left; (clear_value x; intro hx))
       | (refine Within.cutF (W := W) (s := σ) x ?_ ?_; rotate_left; (clear_value x; intro hf))
       | clear_value x)
    | split
    | (intro t; intros; (try beta_reduce))
    | dsimp -zeta only [x]

end Sys2Proof.Machine
end

