-- ==== Sys2Proof/Laws/Commands.lean ====
section
/-! SUPPORT. The record of a waiting or running command: finding it after it has been changed, and at its start. -/

namespace Sys2Proof.Machine

theorem find?_map_swap {α : Type} {p : α → Bool} {l : List α} {c k : α} (h : l.find? p = some c) (hk : p k = true) :
    (l.map (fun d => if p d then k else d)).find? p = some k := by
  induction l with
  | nil => cases h
  | cons d r ih =>
    by_cases hd : p d = true
    · simp [hd, hk]
    · simp only [List.find?_cons, hd] at h
      rw [List.map_cons, if_neg hd, List.find?_cons]
      simp only [hd]
      exact ih h

theorem findCmd_spec {l : List Cmd} {slot : Nat} {c : Cmd} (h : findCmd l slot = some c) : c.slot = slot ∧ c.recorded = false := by
  have := List.find?_some h
  simpa using this

/-- A record put back in its place is found there. -/
theorem findCmd_setCmd {l : List Cmd} {slot : Nat} {c k : Cmd} (h : findCmd l slot = some c) (hs : k.slot = slot) (hr : k.recorded = false) :
    findCmd (setCmd l k) slot = some k := by
  subst hs
  exact find?_map_swap (p := fun (c : Cmd) => c.slot = k.slot && !c.recorded) h (by simp [hr])

theorem State.cmd?_putCmd {s : State} {q slot : Nat} {c k : Cmd} (h : s.cmd? q slot = some c) (hs : k.slot = slot) (hr : k.recorded = false) :
    (s.putCmd q k).cmd? q slot = some k := by
  unfold State.cmd? State.putCmd State.updQueue at *
  rw [State.queue_setQueue]
  exact findCmd_setCmd h hs hr

/-- Changing fields of a command other than its slot and its record. -/
theorem State.cmd?_updCmd {s : State} {q slot : Nat} {c : Cmd} {f : Cmd → Cmd} (h : s.cmd? q slot = some c) (hs : (f c).slot = c.slot)
    (hr : (f c).recorded = c.recorded) : (s.updCmd q slot f).cmd? q slot = some (f c) := by
  have hc := findCmd_spec h
  unfold State.updCmd
  rw [h]
  exact State.cmd?_putCmd h (hs.trans hc.1) (hr.trans hc.2)

theorem State.cmd?_finish {s : State} {q slot code count pos : Nat} {c : Cmd} (h : s.cmd? q slot = some c) :
    (s.finish q slot code count pos).cmd? q slot = some { c with done := true, code := code, count := count, pos := pos, wrote := true } :=
  State.cmd?_updCmd h rfl rfl

/-- The command table of a queue is read from the queue table alone. -/
theorem State.cmd?_congr {s t : State} (hq : t.queues = s.queues) (q slot : Nat) :
    t.cmd? q slot = s.cmd? q slot := by
  unfold State.cmd?
  unfold State.queue
  rw [hq]
  cases hs : sget s.queues q with
  | some x => rfl
  | none => simp only [Option.getD_none]; unfold State.freshQueue; rfl

/-- A started command's record is in its queue. -/
theorem State.cmd?_begun {s : State} {q slot : Nat} {c : Cmd} {t : Task} (h : s.cmd? q slot = some c) :
    (s.begun q c t).cmd? q slot = some (s.begunCmd q c t) := by
  have hc := findCmd_spec h
  unfold State.begun
  dsimp only
  generalize dedup ((s.startMembers q c t).map issuingCore) = l
  generalize hk : s.begunCmd q c t = k
  have hks : k.slot = slot := by rw [← hk]; exact hc.1
  have hkr : k.recorded = false := by rw [← hk]; exact hc.2
  have h1 : ∀ (l : List Nat) (u : State), (l.foldl (fun s m => if (s.dbgOf m).pass || (s.dbgOf m).stepping then
      s.updDbg m (fun d => { d with pass := false, stepping := false }) else s) u).cmd? q slot = u.cmd? q slot := by
    intro l
    induction l with
    | nil => intro u; rfl
    | cons x r ih => intro u; rw [List.foldl_cons, ih]; split <;> rfl
  have h2 : ∀ (l : List Nat) (u : State), (l.foldl (fun s m => if assignedType m = .core then
      s.updCore m (fun x => { x with usedBy := dedup (x.usedBy ++ [c.part]), tileSeq := 0 }) else s) u).cmd? q slot = u.cmd? q slot := by
    intro l
    induction l with
    | nil => intro u; rfl
    | cons x r ih => intro u; rw [List.foldl_cons, ih]; split <;> rfl
  have h3 : ∀ (u : State) (l : List Nat), (u.pcPassed l).cmd? q slot = u.cmd? q slot := by
    intro u l; unfold State.pcPassed; split <;> rfl
  rw [h3, h2]
  unfold State.putTask State.updQueue State.cmd?
  rw [State.queue_setQueue]
  exact State.cmd?_putCmd ((h1 l s).trans h) hks hkr

/-- A command that starts begins and has its effect. -/
theorem State.startCmd_eq {s : State} {q slot op : Nat} {c : Cmd} {t : Task} {g : Nat → Bool} {extra : State → Cmd → Bool} {k : State → Cmd → State}
    (h : s.starts q slot op c t) (hg : g op = true) (he : extra s c = true) : s.startCmd q slot g extra k = k (s.begun q c t) (s.begunCmd q c t) := by
  obtain ⟨h1, h2, h3, h4, h5, h6⟩ := h
  unfold State.startCmd
  rw [h1]
  dsimp only
  rw [h2]
  dsimp only
  rw [if_neg (by rw [h3]; simp [hg, he, h4]), h5]
  dsimp only
  rw [h6]

/-- A movement command whose cluster SRAM is free starts like any other. -/
theorem State.moveCmd_eq {s : State} {q slot op : Nat} {c : Cmd} {t : Task} {k : State → Cmd → State} (h : s.starts q slot op c t)
    (hf : s.sramFree q c = true) : s.moveCmd q slot op k = k (s.begun q c t) (s.begunCmd q c t) := by
  have hw : s.allocWaits q slot op = false := by
    unfold State.allocWaits
    rw [h.1]
    dsimp only
    rw [h.2.1]
    simp [hf]
  unfold State.moveCmd
  rw [hw, if_neg Bool.false_ne_true]
  exact State.startCmd_eq h (by simp) hf

/-- What a register write leaves in every register. -/
theorem State.reg_setReg_if (s : State) (p b o v p' b' o' : Nat) :
    (s.setReg p b o v).reg p' b' o' = if rkey p' b' o' = rkey p b o then v % 2 ^ 64 else s.reg p' b' o' := by
  split
  · next h => unfold State.reg; rw [h]; show (match sget (sset s.regs _ _) _ with | some v => _ | none => _) = _; rw [sget_sset_self]; simp
  · next h => exact State.reg_setReg_ne s v h

/-- Corrected symbols count on their lanes and in LINK_FEC_CORR, and change no other table. -/
theorem State.countSymbols_spec (s : State) (n : Nat) (l : List Nat) :
    (∀ i, i < 4 → (s.countSymbols n l).reg (linkPage n) 0 (R.LINK_LANE_SYM_0 + 4 * i) =
      (s.reg (linkPage n) 0 (R.LINK_LANE_SYM_0 + 4 * i) + l.getD i 0) % 2 ^ 64) ∧
    (s.countSymbols n l).reg (linkPage n) 0 R.LINK_LINK_FEC_UNCORR = s.reg (linkPage n) 0 R.LINK_LINK_FEC_UNCORR ∧
    (s.countSymbols n l).reg (linkPage n) 0 R.LINK_LINK_FEC_CORR = (s.reg (linkPage n) 0 R.LINK_LINK_FEC_CORR + (l.take 4).sum) % 2 ^ 64 ∧
    (s.countSymbols n l) = { s with regs := (s.countSymbols n l).regs } := by
  have hl := fun o => State.reg_lt s (linkPage n) 0 o
  unfold State.countSymbols State.bump
  rcases l with _ | ⟨a, _ | ⟨b, _ | ⟨c, _ | ⟨d, r⟩⟩⟩⟩
  all_goals
    refine ⟨fun i hi => ?_, ?_, ?_, rfl⟩
    · rcases i with _ | _ | _ | _ | i
      all_goals first
        | omega
        | (simp [State.reg_setReg_if, rkey, R.LINK_LANE_SYM_0, R.LINK_LINK_FEC_CORR]; done)
        | (simp [State.reg_setReg_if, rkey, R.LINK_LANE_SYM_0, R.LINK_LINK_FEC_CORR]; exact (Nat.mod_eq_of_lt (hl _)).symm)
    · simp [State.reg_setReg_if, rkey, R.LINK_LANE_SYM_0, R.LINK_LINK_FEC_CORR, R.LINK_LINK_FEC_UNCORR]
    · simp [State.reg_setReg_if, rkey, R.LINK_LANE_SYM_0, R.LINK_LINK_FEC_CORR]

end Sys2Proof.Machine
end

