-- ==== Sys2Proof/Laws/FDrain.lean ====
section
/-! SUPPORT. What each operation of Drain.lean can change, and that it keeps the tables in canonical form. -/

set_option linter.all false

namespace Sys2Proof.Machine

theorem State.setPend_ok {W : Nat} {σ s : State} {a1 a2 a3 : _} (hW : 0x10 ||| W = W) (h : Within W σ s) :
    Within W σ (State.setPend s a1 a2 a3) := by
  unfold State.setPend
  repeat' first
    | with_reducible assumption
    | (with_reducible apply State.setReg_ok; exact sub_le (by decide) hW)
    | (intro t; intros; (try beta_reduce))

theorem State.addPend_ok {W : Nat} {σ s : State} {a1 a2 a3 : _} (hW : 0x10 ||| W = W) (h : Within W σ s) :
    Within W σ (State.addPend s a1 a2 a3) := by
  unfold State.addPend
  repeat' first
    | with_reducible assumption
    | (with_reducible apply State.setPend_ok; exact sub_le (by decide) hW)
    | (intro t; intros; (try beta_reduce))

theorem State.maxPend_ok {W : Nat} {σ s : State} {a1 a2 a3 : _} (hW : 0x10 ||| W = W) (h : Within W σ s) :
    Within W σ (State.maxPend s a1 a2 a3) := by
  unfold State.maxPend
  repeat' first
    | with_reducible assumption
    | (with_reducible apply State.setPend_ok; exact sub_le (by decide) hW)
    | (intro t; intros; (try beta_reduce))

theorem State.dotFlags_ok {W : Nat} {σ s : State} {a1 a2 a3 : _} (hW : 0x10 ||| W = W) (h : Within W σ s) :
    Within W σ (State.dotFlags s a1 a2 a3) := by
  unfold State.dotFlags
  repeat' first
    | with_reducible assumption
    | (with_reducible apply State.setReg_ok; exact sub_le (by decide) hW)
    | (with_reducible apply State.setFld_ok; exact sub_le (by decide) hW)
    | with_reducible apply Within.ite
    | (extract_lets +onlyGivenNames x
       first
       | (refine Within.cut (W := W) (s := σ) x ?_ ?_; rotate_left; (clear_value x; intro hx))
       | (refine Within.cut (W := W) (s := σ) x.1 ?_ ?_; rotate_left; (clear_value x; intro hx))
       | (refine Within.cut (W := W) (s := σ) x.2 ?_ ?_; rotate_left; (clear_value x; intro hx))
       | (refine Within.cutF (W := W) (s := σ) x ?_ ?_; rotate_left; (clear_value x; intro hf))
       | clear_value x)
    | split
    | (intro t; intros; (try beta_reduce))
    | dsimp -zeta only [x]

theorem State.countCvt_ok {W : Nat} {σ s : State} {a1 a2 a3 : _} (hW : 0x10 ||| W = W) (h : Within W σ s) :
    Within W σ (State.countCvt s a1 a2 a3) := by
  unfold State.countCvt
  repeat' first
    | with_reducible assumption
    | with_reducible apply hf
    | (with_reducible apply State.bump_ok; exact sub_le (by decide) hW)
    | (with_reducible apply State.dotFlags_ok; exact sub_le (by decide) hW)
    | with_reducible apply Within.ite
    | (extract_lets +onlyGivenNames x
       first
       | (refine Within.cut (W := W) (s := σ) x ?_ ?_; rotate_left; (clear_value x; intro hx))
       | (refine Within.cut (W := W) (s := σ) x.1 ?_ ?_; rotate_left; (clear_value x; intro hx))
       | (refine Within.cut (W := W) (s := σ) x.2 ?_ ?_; rotate_left; (clear_value x; intro hx))
       | (refine Within.cutF (W := W) (s := σ) x ?_ ?_; rotate_left; (clear_value x; intro hf))
       | clear_value x)
    | split
    | (intro t; intros; (try beta_reduce))
    | dsimp -zeta only [x]

theorem State.divisorFetch_ok {W : Nat} {σ s : State} {a1 a2 a3 a4 a5 : _} (hW : 0x580 ||| W = W) (h : Within W σ s) :
    Within W σ (State.divisorFetch s a1 a2 a3 a4 a5).2 := by
  unfold State.divisorFetch
  repeat' first
    | with_reducible assumption
    | (with_reducible apply State.wrLE_ok; exact sub_le (by decide) hW)
    | with_reducible apply Within.ite
    | with_reducible apply Within.ite1
    | with_reducible apply Within.ite2
    | (extract_lets +onlyGivenNames x
       first
       | (refine Within.cut (W := W) (s := σ) x ?_ ?_; rotate_left; (clear_value x; intro hx))
       | (refine Within.cut (W := W) (s := σ) x.1 ?_ ?_; rotate_left; (clear_value x; intro hx))
       | (refine Within.cut (W := W) (s := σ) x.2 ?_ ?_; rotate_left; (clear_value x; intro hx))
       | (refine Within.cutF (W := W) (s := σ) x ?_ ?_; rotate_left; (clear_value x; intro hf))
       | clear_value x)
    | split
    | (intro t; intros; (try beta_reduce))
    | dsimp -zeta only [x]

theorem State.divisorReport_ok {W : Nat} {σ s : State} {a1 a2 a3 a4 a5 a6 a7 a8 : _} (hW : 0x580 ||| W = W) (h : Within W σ s) :
    Within W σ (State.divisorReport s a1 a2 a3 a4 a5 a6 a7 a8).2 := by
  unfold State.divisorReport
  repeat' first
    | with_reducible assumption
    | (with_reducible apply State.wrLE_ok; exact sub_le (by decide) hW)
    | with_reducible apply Within.ite
    | with_reducible apply Within.ite1
    | with_reducible apply Within.ite2
    | (extract_lets +onlyGivenNames x
       first
       | (refine Within.cut (W := W) (s := σ) x ?_ ?_; rotate_left; (clear_value x; intro hx))
       | (refine Within.cut (W := W) (s := σ) x.1 ?_ ?_; rotate_left; (clear_value x; intro hx))
       | (refine Within.cut (W := W) (s := σ) x.2 ?_ ?_; rotate_left; (clear_value x; intro hx))
       | (refine Within.cutF (W := W) (s := σ) x ?_ ?_; rotate_left; (clear_value x; intro hf))
       | clear_value x)
    | split
    | (intro t; intros; (try beta_reduce))
    | dsimp -zeta only [x]

theorem State.accumSeg_ok {W : Nat} {σ s : State} {a1 a2 a3 a4 a5 : _} (hW : 0x4000000000 ||| W = W) (h : Within W σ s) :
    Within W σ (State.accumSeg s a1 a2 a3 a4 a5).2.2 := by
  unfold State.accumSeg
  extract_lets r
  refine Within.foldP (fun a : List Nat × Nat × State => a.2.2) (fun u x hu => ?_) h
  beta_reduce
  extract_lets i open_ old v
  exact Within.ite (State.freshen_ok (sub_le (by decide) hW) hu) hu

theorem State.wantRerun_ok {W : Nat} {σ s : State} {a1 a2 a3 : _} (hW : 0x1000 ||| W = W) (h : Within W σ s) :
    Within W σ (State.wantRerun s a1 a2 a3) := by
  unfold State.wantRerun
  repeat' first
    | with_reducible assumption
    | (with_reducible apply State.updPart_ok; exact sub_le (by decide) hW)
    | (extract_lets +onlyGivenNames x
       first
       | (refine Within.cut (W := W) (s := σ) x ?_ ?_; rotate_left; (clear_value x; intro hx))
       | (refine Within.cut (W := W) (s := σ) x.1 ?_ ?_; rotate_left; (clear_value x; intro hx))
       | (refine Within.cut (W := W) (s := σ) x.2 ?_ ?_; rotate_left; (clear_value x; intro hx))
       | (refine Within.cutF (W := W) (s := σ) x ?_ ?_; rotate_left; (clear_value x; intro hf))
       | clear_value x)
    | (intro t; intros; (try beta_reduce))

theorem State.putCodes_ok {W : Nat} {σ s : State} {a1 a2 a3 a4 a5 : _} (hW : 0x580 ||| W = W) (h : Within W σ s) :
    Within W σ (State.putCodes s a1 a2 a3 a4 a5) := by
  unfold State.putCodes
  repeat' first
    | with_reducible assumption
    | (with_reducible apply State.wrBytes_ok; exact sub_le (by decide) hW)
    | (with_reducible apply State.putElem_ok; exact sub_le (by decide) hW)
    | with_reducible apply Within.ite
    | (with_reducible apply Within.fold; (intro t x ht; beta_reduce))
    | (with_reducible apply Within.fold1; (intro t x ht; beta_reduce))
    | (with_reducible apply Within.fold2; (intro t x ht; beta_reduce))
    | split
    | (intro t; intros; (try beta_reduce))

theorem State.padScale_ok {W : Nat} {σ s : State} {a1 a2 a3 a4 : _} (hW : 0x580 ||| W = W) (h : Within W σ s) :
    Within W σ (State.padScale s a1 a2 a3 a4) := by
  unfold State.padScale
  repeat' first
    | with_reducible assumption
    | (with_reducible apply State.wrBytes_ok; exact sub_le (by decide) hW)
    | with_reducible apply Within.ite
    | (extract_lets +onlyGivenNames x
       first
       | (refine Within.cut (W := W) (s := σ) x ?_ ?_; rotate_left; (clear_value x; intro hx))
       | (refine Within.cut (W := W) (s := σ) x.1 ?_ ?_; rotate_left; (clear_value x; intro hx))
       | (refine Within.cut (W := W) (s := σ) x.2 ?_ ?_; rotate_left; (clear_value x; intro hx))
       | (refine Within.cutF (W := W) (s := σ) x ?_ ?_; rotate_left; (clear_value x; intro hf))
       | clear_value x)
    | split
    | (intro t; intros; (try beta_reduce))
    | dsimp -zeta only [x]

theorem State.freeCodes_ok {W : Nat} {σ s : State} {a1 : _} (hW : 0x4000000000 ||| W = W) (h : Within W σ s) :
    Within W σ (State.freeCodes s a1).2 := by
  unfold State.freeCodes
  repeat' first
    | with_reducible assumption
    | with_reducible apply Within.ite1
    | with_reducible apply Within.ite2
    | (extract_lets +onlyGivenNames x
       first
       | (refine Within.cut (W := W) (s := σ) x ?_ ?_; rotate_left; (clear_value x; intro hx))
       | (refine Within.cut (W := W) (s := σ) x.1 ?_ ?_; rotate_left; (clear_value x; intro hx))
       | (refine Within.cut (W := W) (s := σ) x.2 ?_ ?_; rotate_left; (clear_value x; intro hx))
       | (refine Within.cutF (W := W) (s := σ) x ?_ ?_; rotate_left; (clear_value x; intro hf))
       | clear_value x)
    | (with_reducible apply Within.upd_fresh; exact sub_le (by decide) hW)
    | (intro t; intros; (try beta_reduce))

theorem State.putG16_ok {W : Nat} {σ s : State} {a1 a2 a3 a4 a5 a6 a7 a8 a9 : _} (hW : 0x4000000580 ||| W = W) (h : Within W σ s) :
    Within W σ (State.putG16 s a1 a2 a3 a4 a5 a6 a7 a8 a9).1 := by
  unfold State.putG16
  repeat' first
    | with_reducible assumption
    | (with_reducible apply State.divisorFetch_ok; exact sub_le (by decide) hW)
    | (with_reducible apply State.divisorReport_ok; exact sub_le (by decide) hW)
    | (with_reducible apply State.freeCodes_ok; exact sub_le (by decide) hW)
    | (with_reducible apply State.padScale_ok; exact sub_le (by decide) hW)
    | (with_reducible apply State.putCodes_ok; exact sub_le (by decide) hW)
    | with_reducible apply Within.ite
    | with_reducible apply Within.ite1
    | with_reducible apply Within.ite2
    | (extract_lets +onlyGivenNames x
       first
       | (refine Within.cut (W := W) (s := σ) x ?_ ?_; rotate_left; (clear_value x; intro hx))
       | (refine Within.cut (W := W) (s := σ) x.1 ?_ ?_; rotate_left; (clear_value x; intro hx))
       | (refine Within.cut (W := W) (s := σ) x.2 ?_ ?_; rotate_left; (clear_value x; intro hx))
       | (refine Within.cutF (W := W) (s := σ) x ?_ ?_; rotate_left; (clear_value x; intro hf))
       | clear_value x)
    | split
    | (intro t; intros; (try beta_reduce))
    | dsimp -zeta only [x]

theorem State.putSeg_ok {W : Nat} {σ s : State} {a1 a2 a3 a4 a5 a6 a7 a8 : _} (hW : 0x4000000580 ||| W = W) (h : Within W σ s) :
    Within W σ (State.putSeg s a1 a2 a3 a4 a5 a6 a7 a8).1 := by
  unfold State.putSeg
  repeat' first
    | with_reducible assumption
    | (with_reducible apply State.putG16_ok; exact sub_le (by decide) hW)
    | (with_reducible apply State.wrLE_ok; exact sub_le (by decide) hW)
    | (with_reducible apply State.putCodes_ok; exact sub_le (by decide) hW)
    | (with_reducible apply State.padScale_ok; exact sub_le (by decide) hW)
    | with_reducible apply Within.ite
    | (with_reducible apply Within.fold; (intro t x ht; beta_reduce))
    | (with_reducible apply Within.fold1; (intro t x ht; beta_reduce))
    | (with_reducible apply Within.fold2; (intro t x ht; beta_reduce))
    | with_reducible apply Within.ite1
    | with_reducible apply Within.ite2
    | (extract_lets +onlyGivenNames x
       first
       | (refine Within.cut (W := W) (s := σ) x ?_ ?_; rotate_left; (clear_value x; intro hx))
       | (refine Within.cut (W := W) (s := σ) x.1 ?_ ?_; rotate_left; (clear_value x; intro hx))
       | (refine Within.cut (W := W) (s := σ) x.2 ?_ ?_; rotate_left; (clear_value x; intro hx))
       | (refine Within.cutF (W := W) (s := σ) x ?_ ?_; rotate_left; (clear_value x; intro hf))
       | clear_value x)
    | split
    | (intro t; intros; (try beta_reduce))
    | dsimp -zeta only [x]

theorem State.putRisers_ok {W : Nat} {σ s : State} {a1 a2 a3 a4 a5 a6 a7 : _} (hW : 0x4000000580 ||| W = W) (h : Within W σ s) :
    Within W σ (State.putRisers s a1 a2 a3 a4 a5 a6 a7) := by
  unfold State.putRisers
  repeat' first
    | with_reducible assumption
    | (with_reducible apply State.wrLE_ok; exact sub_le (by decide) hW)
    | (with_reducible apply Within.fold; (intro t x ht; beta_reduce))
    | (with_reducible apply Within.fold1; (intro t x ht; beta_reduce))
    | (with_reducible apply Within.fold2; (intro t x ht; beta_reduce))
    | with_reducible apply Within.ite1
    | with_reducible apply Within.ite2
    | (extract_lets +onlyGivenNames x
       first
       | (refine Within.cut (W := W) (s := σ) x ?_ ?_; rotate_left; (clear_value x; intro hx))
       | (refine Within.cut (W := W) (s := σ) x.1 ?_ ?_; rotate_left; (clear_value x; intro hx))
       | (refine Within.cut (W := W) (s := σ) x.2 ?_ ?_; rotate_left; (clear_value x; intro hx))
       | (refine Within.cutF (W := W) (s := σ) x ?_ ?_; rotate_left; (clear_value x; intro hf))
       | clear_value x)
    | (with_reducible apply Within.upd_fresh; exact sub_le (by decide) hW)
    | (intro t; intros; (try beta_reduce))
    | dsimp -zeta only [x]

theorem State.putRiserHeader_ok {W : Nat} {σ s : State} {a1 a2 : _} (hW : 0x580 ||| W = W) (h : Within W σ s) :
    Within W σ (State.putRiserHeader s a1 a2) := by
  unfold State.putRiserHeader
  repeat' first
    | with_reducible assumption
    | (with_reducible apply State.wrLE_ok; exact sub_le (by decide) hW)
    | with_reducible apply Within.ite
    | (extract_lets +onlyGivenNames x
       first
       | (refine Within.cut (W := W) (s := σ) x ?_ ?_; rotate_left; (clear_value x; intro hx))
       | (refine Within.cut (W := W) (s := σ) x.1 ?_ ?_; rotate_left; (clear_value x; intro hx))
       | (refine Within.cut (W := W) (s := σ) x.2 ?_ ?_; rotate_left; (clear_value x; intro hx))
       | (refine Within.cutF (W := W) (s := σ) x ?_ ?_; rotate_left; (clear_value x; intro hf))
       | clear_value x)
    | split
    | (intro t; intros; (try beta_reduce))
    | dsimp -zeta only [x]

theorem State.passOne_ok {W : Nat} {σ s : State} {a1 a2 a3 a4 a5 a6 a7 : _} (hW : 0x10 ||| W = W) (h : Within W σ s) :
    Within W σ (State.passOne s a1 a2 a3 a4 a5 a6 a7) := by
  unfold State.passOne
  repeat' first
    | with_reducible assumption
    | (with_reducible apply State.setReg_ok; exact sub_le (by decide) hW)
    | (with_reducible apply State.setFld_ok; exact sub_le (by decide) hW)
    | (with_reducible apply State.bump_ok; exact sub_le (by decide) hW)
    | (with_reducible apply State.maxPend_ok; exact sub_le (by decide) hW)
    | (with_reducible apply State.addPend_ok; exact sub_le (by decide) hW)
    | (with_reducible apply State.setPend_ok; exact sub_le (by decide) hW)
    | (with_reducible apply State.setInstElems_ok; exact sub_le (by decide) hW)
    | with_reducible apply Within.ite
    | (extract_lets +onlyGivenNames x
       first
       | (refine Within.cut (W := W) (s := σ) x ?_ ?_; rotate_left; (clear_value x; intro hx))
       | (refine Within.cut (W := W) (s := σ) x.1 ?_ ?_; rotate_left; (clear_value x; intro hx))
       | (refine Within.cut (W := W) (s := σ) x.2 ?_ ?_; rotate_left; (clear_value x; intro hx))
       | (refine Within.cutF (W := W) (s := σ) x ?_ ?_; rotate_left; (clear_value x; intro hf))
       | clear_value x)
    | split
    | (intro t; intros; (try beta_reduce))
    | dsimp -zeta only [x]

theorem State.twoPasses_ok {W : Nat} {σ s : State} {a1 a2 a3 a4 : _} (hW : 0x4000001590 ||| W = W) (h : Within W σ s) :
    Within W σ (State.twoPasses s a1 a2 a3 a4) := by
  unfold State.twoPasses
  repeat' first
    | with_reducible assumption
    | (with_reducible apply State.passOne_ok; exact sub_le (by decide) hW)
    | (with_reducible apply State.setFld_ok; exact sub_le (by decide) hW)
    | (with_reducible apply State.wantRerun_ok; exact sub_le (by decide) hW)
    | (with_reducible apply State.bump_ok; exact sub_le (by decide) hW)
    | (with_reducible apply State.putSeg_ok; exact sub_le (by decide) hW)
    | (with_reducible apply State.countCvt_ok; exact sub_le (by decide) hW)
    | (with_reducible apply State.countBytes_ok; exact sub_le (by decide) hW)
    | (with_reducible apply State.addPend_ok; exact sub_le (by decide) hW)
    | (with_reducible apply State.setPend_ok; exact sub_le (by decide) hW)
    | (with_reducible apply State.putRisers_ok; exact sub_le (by decide) hW)
    | with_reducible apply Within.ite
    | (with_reducible apply Within.fold; (intro t x ht; beta_reduce))
    | (with_reducible apply Within.fold1; (intro t x ht; beta_reduce))
    | (with_reducible apply Within.fold2; (intro t x ht; beta_reduce))
    | with_reducible apply Within.ite1
    | with_reducible apply Within.ite2
    | (extract_lets +onlyGivenNames x
       first
       | (refine Within.cut (W := W) (s := σ) x ?_ ?_; rotate_left; (clear_value x; intro hx))
       | (refine Within.cut (W := W) (s := σ) x.1 ?_ ?_; rotate_left; (clear_value x; intro hx))
       | (refine Within.cut (W := W) (s := σ) x.2 ?_ ?_; rotate_left; (clear_value x; intro hx))
       | (refine Within.cutF (W := W) (s := σ) x ?_ ?_; rotate_left; (clear_value x; intro hf))
       | clear_value x)
    | split
    | (intro t; intros; (try beta_reduce))
    | dsimp -zeta only [x]

theorem State.drainPiece_ok {W : Nat} {σ s : State} {a1 a2 a3 a4 : _} (hW : 0x4000001590 ||| W = W) (h : Within W σ s) :
    Within W σ (State.drainPiece s a1 a2 a3 a4) := by
  unfold State.drainPiece
  repeat' first
    | with_reducible assumption
    | (with_reducible apply State.accumSeg_ok; exact sub_le (by decide) hW)
    | (with_reducible apply State.dotFlags_ok; exact sub_le (by decide) hW)
    | (with_reducible apply State.countCvt_ok; exact sub_le (by decide) hW)
    | (with_reducible apply State.twoPasses_ok; exact sub_le (by decide) hW)
    | with_reducible apply Within.ite
    | (with_reducible apply Within.fold; (intro t x ht; beta_reduce))
    | (with_reducible apply Within.fold1; (intro t x ht; beta_reduce))
    | (with_reducible apply Within.fold2; (intro t x ht; beta_reduce))
    | with_reducible apply Within.ite1
    | with_reducible apply Within.ite2
    | (extract_lets +onlyGivenNames x
       first
       | (refine Within.cut (W := W) (s := σ) x ?_ ?_; rotate_left; (clear_value x; intro hx))
       | (refine Within.cut (W := W) (s := σ) x.1 ?_ ?_; rotate_left; (clear_value x; intro hx))
       | (refine Within.cut (W := W) (s := σ) x.2 ?_ ?_; rotate_left; (clear_value x; intro hx))
       | (refine Within.cutF (W := W) (s := σ) x ?_ ?_; rotate_left; (clear_value x; intro hf))
       | clear_value x)
    | split
    | (intro t; intros; (try beta_reduce))
    | dsimp -zeta only [x]

end Sys2Proof.Machine
end

