-- ==== Sys2Proof/Laws/FPasses.lean ====
section
/-! SUPPORT. What each operation of Passes.lean can change, and that it keeps the tables in canonical form. -/

set_option linter.all false

namespace Sys2Proof.Machine

theorem State.swapPass_ok {W : Nat} {σ s : State} {a1 a2 a3 : _} (hW : 0x2010 ||| W = W) (h : Within W σ s) :
    Within W σ (State.swapPass s a1 a2 a3) := by
  unfold State.swapPass
  repeat' first
    | with_reducible assumption
    | (with_reducible apply State.setReg_ok; exact sub_le (by decide) hW)
    | (with_reducible apply State.updCore_ok; exact sub_le (by decide) hW)
    | (with_reducible apply State.setFld_ok; exact sub_le (by decide) hW)
    | (with_reducible apply State.bump_ok; exact sub_le (by decide) hW)
    | with_reducible apply Within.ite
    | (extract_lets +onlyGivenNames x
       first
       | (refine Within.cut (W := W) (s := σ) x ?_ ?_; rotate_left; (clear_value x; intro hx))
       | (refine Within.cut (W := W) (s := σ) x.1 ?_ ?_; rotate_left; (clear_value x; intro hx))
       | (refine Within.cut (W := W) (s := σ) x.2 ?_ ?_; rotate_left; (clear_value x; intro hx))
       | (refine Within.cutF (W := W) (s := σ) x ?_ ?_; rotate_left; (clear_value x; intro hf))
       | clear_value x)
    | split
    | (intro t; intros; (try beta_reduce))
    | dsimp -zeta only [x]

theorem State.passStart_ok {W : Nat} {σ s : State} {a1 a2 a3 a4 a5 : _} (hW : 0x600567fd90 ||| W = W) (h : Within W σ s) :
    Within W σ (State.passStart s a1 a2 a3 a4 a5) := by
  unfold State.passStart
  repeat' first
    | with_reducible assumption
    | (with_reducible apply State.passInvalid_ok; exact sub_le (by decide) hW)
    | (with_reducible apply State.setFld_ok; exact sub_le (by decide) hW)
    | (with_reducible apply State.swapPass_ok; exact sub_le (by decide) hW)
    | with_reducible apply Within.ite
    | (extract_lets +onlyGivenNames x
       first
       | (refine Within.cut (W := W) (s := σ) x ?_ ?_; rotate_left; (clear_value x; intro hx))
       | (refine Within.cut (W := W) (s := σ) x.1 ?_ ?_; rotate_left; (clear_value x; intro hx))
       | (refine Within.cut (W := W) (s := σ) x.2 ?_ ?_; rotate_left; (clear_value x; intro hx))
       | (refine Within.cutF (W := W) (s := σ) x ?_ ?_; rotate_left; (clear_value x; intro hf))
       | clear_value x)
    | split
    | (intro t; intros; (try beta_reduce))
    | dsimp -zeta only [x]

theorem State.patCycles_ok {W : Nat} {σ s : State} {a1 : _} (hW : 0x4000000010 ||| W = W) (h : Within W σ s) :
    Within W σ (State.patCycles s a1) := by
  unfold State.patCycles
  repeat' first
    | with_reducible assumption
    | (with_reducible apply State.freshen_ok; exact sub_le (by decide) hW)
    | (with_reducible apply State.setReg_ok; exact sub_le (by decide) hW)
    | with_reducible apply Within.ite
    | (extract_lets +onlyGivenNames x
       first
       | (refine Within.cut (W := W) (s := σ) x ?_ ?_; rotate_left; (clear_value x; intro hx))
       | (refine Within.cut (W := W) (s := σ) x.1 ?_ ?_; rotate_left; (clear_value x; intro hx))
       | (refine Within.cut (W := W) (s := σ) x.2 ?_ ?_; rotate_left; (clear_value x; intro hx))
       | (refine Within.cutF (W := W) (s := σ) x ?_ ?_; rotate_left; (clear_value x; intro hf))
       | clear_value x)
    | split
    | (intro t; intros; (try beta_reduce))
    | dsimp -zeta only [x]

theorem State.passEnd_ok {W : Nat} {σ s : State} {a1 : _} (hW : 0x4000020830 ||| W = W) (h : Within W σ s) :
    Within W σ (State.passEnd s a1) := by
  unfold State.passEnd
  repeat' first
    | with_reducible assumption
    | (with_reducible apply State.patCycles_ok; exact sub_le (by decide) hW)
    | (with_reducible apply State.setFld_ok; exact sub_le (by decide) hW)
    | (with_reducible apply State.bump_ok; exact sub_le (by decide) hW)
    | (with_reducible apply State.applyPass_ok; exact sub_le (by decide) hW)
    | (with_reducible apply State.progressed_ok; exact sub_le (by decide) hW)
    | (with_reducible apply State.stagePass_ok; exact sub_le (by decide) hW)
    | with_reducible apply Within.ite
    | (extract_lets +onlyGivenNames x
       first
       | (refine Within.cut (W := W) (s := σ) x ?_ ?_; rotate_left; (clear_value x; intro hx))
       | (refine Within.cut (W := W) (s := σ) x.1 ?_ ?_; rotate_left; (clear_value x; intro hx))
       | (refine Within.cut (W := W) (s := σ) x.2 ?_ ?_; rotate_left; (clear_value x; intro hx))
       | (refine Within.cutF (W := W) (s := σ) x ?_ ?_; rotate_left; (clear_value x; intro hf))
       | clear_value x)
    | split
    | (with_reducible apply Within.upd_tiles; exact sub_le (by decide) hW)
    | (intro t; intros; (try beta_reduce))
    | dsimp -zeta only [x]

theorem State.gemmEnd_ok {W : Nat} {σ s : State} {a1 a2 : _} (hW : 0xd80 ||| W = W) (h : Within W σ s) :
    Within W σ (State.gemmEnd s a1 a2) := by
  unfold State.gemmEnd
  repeat' first
    | with_reducible assumption
    | (with_reducible apply State.finish_ok; exact sub_le (by decide) hW)
    | (with_reducible apply State.putRiserHeader_ok; exact sub_le (by decide) hW)
    | (with_reducible apply State.updCmd_ok; exact sub_le (by decide) hW)
    | with_reducible apply Within.ite
    | (extract_lets +onlyGivenNames x
       first
       | (refine Within.cut (W := W) (s := σ) x ?_ ?_; rotate_left; (clear_value x; intro hx))
       | (refine Within.cut (W := W) (s := σ) x.1 ?_ ?_; rotate_left; (clear_value x; intro hx))
       | (refine Within.cut (W := W) (s := σ) x.2 ?_ ?_; rotate_left; (clear_value x; intro hx))
       | (refine Within.cutF (W := W) (s := σ) x ?_ ?_; rotate_left; (clear_value x; intro hf))
       | clear_value x)
    | split
    | (intro t; intros; (try beta_reduce))
    | dsimp -zeta only [x]

theorem State.dropTile_ok {W : Nat} {σ s : State} {a1 : _} (hW : 0x20000 ||| W = W) (h : Within W σ s) :
    Within W σ (State.dropTile s a1) := by
  unfold State.dropTile
  repeat' first
    | with_reducible assumption
    | (extract_lets +onlyGivenNames x
       first
       | (refine Within.cut (W := W) (s := σ) x ?_ ?_; rotate_left; (clear_value x; intro hx))
       | (refine Within.cut (W := W) (s := σ) x.1 ?_ ?_; rotate_left; (clear_value x; intro hx))
       | (refine Within.cut (W := W) (s := σ) x.2 ?_ ?_; rotate_left; (clear_value x; intro hx))
       | (refine Within.cutF (W := W) (s := σ) x ?_ ?_; rotate_left; (clear_value x; intro hf))
       | clear_value x)
    | (with_reducible apply Within.upd_tiles; exact sub_le (by decide) hW)
    | (intro t; intros; (try beta_reduce))

theorem State.tileRelease_ok {W : Nat} {σ s : State} {a1 : _} (hW : 0x600567dd90 ||| W = W) (h : Within W σ s) :
    Within W σ (State.tileRelease s a1) := by
  unfold State.tileRelease
  repeat' first
    | with_reducible assumption
    | (with_reducible apply State.dropTile_ok; exact sub_le (by decide) hW)
    | (with_reducible apply State.raiseErr_ok; exact sub_le (by decide) hW)
    | (with_reducible apply State.raisePage_ok; exact sub_le (by decide) hW)
    | (with_reducible apply State.setFld_ok; exact sub_le (by decide) hW)
    | (with_reducible apply State.dotFlags_ok; exact sub_le (by decide) hW)
    | (with_reducible apply State.drainPiece_ok; exact sub_le (by decide) hW)
    | (with_reducible apply State.updCmd_ok; exact sub_le (by decide) hW)
    | (with_reducible apply State.gemmEnd_ok; exact sub_le (by decide) hW)
    | with_reducible apply Within.ite
    | with_reducible apply Within.ite1
    | with_reducible apply Within.ite2
    | (extract_lets +onlyGivenNames x
       first
       | (refine Within.cut (W := W) (s := σ) x ?_ ?_; rotate_left; (clear_value x; intro hx))
       | (refine Within.cut (W := W) (s := σ) x.1 ?_ ?_; rotate_left; (clear_value x; intro hx))
       | (refine Within.cut (W := W) (s := σ) x.2 ?_ ?_; rotate_left; (clear_value x; intro hx))
       | (refine Within.cutF (W := W) (s := σ) x ?_ ?_; rotate_left; (clear_value x; intro hf))
       | clear_value x)
    | split
    | (intro t; intros; (try beta_reduce))
    | dsimp -zeta only [x]

theorem State.rerunEntry_ok {W : Nat} {σ s : State} {a1 a2 a3 : _} (hW : 0x10 ||| W = W) (h : Within W σ s) :
    Within W σ (State.rerunEntry s a1 a2 a3) := by
  unfold State.rerunEntry
  repeat' first
    | with_reducible assumption
    | (with_reducible apply State.setEntFld_ok; exact sub_le (by decide) hW)
    | (with_reducible apply State.bump_ok; exact sub_le (by decide) hW)
    | (with_reducible apply State.progress_ok; exact sub_le (by decide) hW)
    | (with_reducible apply State.setEnt_ok; exact sub_le (by decide) hW)
    | with_reducible apply Within.ite
    | (with_reducible apply Within.fold; (intro t x ht; beta_reduce))
    | (with_reducible apply Within.fold1; (intro t x ht; beta_reduce))
    | (with_reducible apply Within.fold2; (intro t x ht; beta_reduce))
    | (extract_lets +onlyGivenNames x
       first
       | (refine Within.cut (W := W) (s := σ) x ?_ ?_; rotate_left; (clear_value x; intro hx))
       | (refine Within.cut (W := W) (s := σ) x.1 ?_ ?_; rotate_left; (clear_value x; intro hx))
       | (refine Within.cut (W := W) (s := σ) x.2 ?_ ?_; rotate_left; (clear_value x; intro hx))
       | (refine Within.cutF (W := W) (s := σ) x ?_ ?_; rotate_left; (clear_value x; intro hf))
       | clear_value x)
    | split
    | (intro t; intros; (try beta_reduce))
    | dsimp -zeta only [x]

theorem State.runGemmClass_ok {W : Nat} {σ s : State} {a1 a2 : _} (hW : 0x600567fd90 ||| W = W) (h : Within W σ s) :
    Within W σ (State.runGemmClass s a1 a2) := by
  unfold State.runGemmClass
  repeat' first
    | with_reducible assumption
    | (with_reducible apply State.gemmEnd_ok; exact sub_le (by decide) hW)
    | (with_reducible apply State.vectorRun_ok; exact sub_le (by decide) hW)
    | (with_reducible apply State.launch_ok; exact sub_le (by decide) hW)
    | with_reducible apply Within.ite
    | split
    | (intro t; intros; (try beta_reduce))

theorem State.rerunCmd_ok {W : Nat} {σ s : State} {a1 a2 : _} (hW : 0x4000000d90 ||| W = W) (h : Within W σ s) :
    Within W σ (State.rerunCmd s a1 a2) := by
  unfold State.rerunCmd
  repeat' first
    | with_reducible assumption
    | (with_reducible apply State.setReg_ok; exact sub_le (by decide) hW)
    | (with_reducible apply State.setFld_ok; exact sub_le (by decide) hW)
    | (with_reducible apply State.havocAll_ok; exact sub_le (by decide) hW)
    | (with_reducible apply State.updCmd_ok; exact sub_le (by decide) hW)
    | (with_reducible apply Within.fold; (intro t x ht; beta_reduce))
    | (with_reducible apply Within.fold1; (intro t x ht; beta_reduce))
    | (with_reducible apply Within.fold2; (intro t x ht; beta_reduce))
    | (extract_lets +onlyGivenNames x
       first
       | (refine Within.cut (W := W) (s := σ) x ?_ ?_; rotate_left; (clear_value x; intro hx))
       | (refine Within.cut (W := W) (s := σ) x.1 ?_ ?_; rotate_left; (clear_value x; intro hx))
       | (refine Within.cut (W := W) (s := σ) x.2 ?_ ?_; rotate_left; (clear_value x; intro hx))
       | (refine Within.cutF (W := W) (s := σ) x ?_ ?_; rotate_left; (clear_value x; intro hf))
       | clear_value x)
    | (intro t; intros; (try beta_reduce))
    | dsimp -zeta only [x]

theorem State.rerun_ok {W : Nat} {σ s : State} {a1 : _} (hW : 0x600567fdb0 ||| W = W) (h : Within W σ s) :
    Within W σ (State.rerun s a1) := by
  unfold State.rerun
  repeat' first
    | with_reducible assumption
    | (with_reducible apply State.dropPending_ok; exact sub_le (by decide) hW)
    | (with_reducible apply State.rerunEntry_ok; exact sub_le (by decide) hW)
    | (with_reducible apply State.updPart_ok; exact sub_le (by decide) hW)
    | (with_reducible apply State.applyPart_ok; exact sub_le (by decide) hW)
    | (with_reducible apply State.rerunCmd_ok; exact sub_le (by decide) hW)
    | (with_reducible apply State.runGemmClass_ok; exact sub_le (by decide) hW)
    | with_reducible apply Within.ite
    | (with_reducible apply Within.fold; (intro t x ht; beta_reduce))
    | (with_reducible apply Within.fold1; (intro t x ht; beta_reduce))
    | (with_reducible apply Within.fold2; (intro t x ht; beta_reduce))
    | with_reducible apply Within.ite1
    | with_reducible apply Within.ite2
    | (extract_lets +onlyGivenNames x
       first
       | (refine Within.cut (W := W) (s := σ) x ?_ ?_; rotate_left; (clear_value x; intro hx))
       | (refine Within.cut (W := W) (s := σ) x.1 ?_ ?_; rotate_left; (clear_value x; intro hx))
       | (refine Within.cut (W := W) (s := σ) x.2 ?_ ?_; rotate_left; (clear_value x; intro hx))
       | (refine Within.cutF (W := W) (s := σ) x ?_ ?_; rotate_left; (clear_value x; intro hf))
       | clear_value x)
    | split
    | (with_reducible apply Within.upd_tiles; exact sub_le (by decide) hW)
    | (intro t; intros; (try beta_reduce))
    | dsimp -zeta only [x]

theorem State.compareRun_ok {W : Nat} {σ s : State} {a1 a2 a3 : _} (hW : 0x4000000590 ||| W = W) (h : Within W σ s) :
    Within W σ (State.compareRun s a1 a2 a3) := by
  unfold State.compareRun
  repeat' first
    | with_reducible assumption
    | (with_reducible apply State.wrBytes_ok; exact sub_le (by decide) hW)
    | (with_reducible apply State.setReg_ok; exact sub_le (by decide) hW)
    | (with_reducible apply State.setEnt_ok; exact sub_le (by decide) hW)
    | with_reducible apply Within.ite
    | (with_reducible apply Within.fold; (intro t x ht; beta_reduce))
    | (with_reducible apply Within.fold1; (intro t x ht; beta_reduce))
    | (with_reducible apply Within.fold2; (intro t x ht; beta_reduce))
    | with_reducible apply Within.ite1
    | with_reducible apply Within.ite2
    | (extract_lets +onlyGivenNames x
       first
       | (refine Within.cut (W := W) (s := σ) x ?_ ?_; rotate_left; (clear_value x; intro hx))
       | (refine Within.cut (W := W) (s := σ) x.1 ?_ ?_; rotate_left; (clear_value x; intro hx))
       | (refine Within.cut (W := W) (s := σ) x.2 ?_ ?_; rotate_left; (clear_value x; intro hx))
       | (refine Within.cutF (W := W) (s := σ) x ?_ ?_; rotate_left; (clear_value x; intro hf))
       | clear_value x)
    | split
    | (with_reducible apply Within.upd_fresh; exact sub_le (by decide) hW)
    | (intro t; intros; (try beta_reduce))
    | dsimp -zeta only [x]

theorem State.endWaits_ok {W : Nat} {σ s : State} {a1 a2 : _} (hW : 0x800 ||| W = W) (h : Within W σ s) :
    Within W σ (State.endWaits s a1 a2) := by
  unfold State.endWaits
  repeat' first
    | with_reducible assumption
    | (with_reducible apply State.finish_ok; exact sub_le (by decide) hW)
    | (with_reducible apply State.updCmd_ok; exact sub_le (by decide) hW)
    | with_reducible apply Within.ite
    | (extract_lets +onlyGivenNames x
       first
       | (refine Within.cut (W := W) (s := σ) x ?_ ?_; rotate_left; (clear_value x; intro hx))
       | (refine Within.cut (W := W) (s := σ) x.1 ?_ ?_; rotate_left; (clear_value x; intro hx))
       | (refine Within.cut (W := W) (s := σ) x.2 ?_ ?_; rotate_left; (clear_value x; intro hx))
       | (refine Within.cutF (W := W) (s := σ) x ?_ ?_; rotate_left; (clear_value x; intro hf))
       | clear_value x)
    | split
    | (intro t; intros; (try beta_reduce))
    | dsimp -zeta only [x]

theorem State.completeCmd_ok {W : Nat} {σ s : State} {a1 a2 : _} (hW : 0x6005661d90 ||| W = W) (h : Within W σ s) :
    Within W σ (State.completeCmd s a1 a2) := by
  unfold State.completeCmd
  repeat' first
    | with_reducible assumption
    | (with_reducible apply State.endWaits_ok; exact sub_le (by decide) hW)
    | (with_reducible apply State.compareRun_ok; exact sub_le (by decide) hW)
    | (with_reducible apply State.commandDone_ok; exact sub_le (by decide) hW)
    | with_reducible apply Within.ite
    | (extract_lets +onlyGivenNames x
       first
       | (refine Within.cut (W := W) (s := σ) x ?_ ?_; rotate_left; (clear_value x; intro hx))
       | (refine Within.cut (W := W) (s := σ) x.1 ?_ ?_; rotate_left; (clear_value x; intro hx))
       | (refine Within.cut (W := W) (s := σ) x.2 ?_ ?_; rotate_left; (clear_value x; intro hx))
       | (refine Within.cutF (W := W) (s := σ) x ?_ ?_; rotate_left; (clear_value x; intro hf))
       | clear_value x)
    | split
    | (intro t; intros; (try beta_reduce))
    | dsimp -zeta only [x]

theorem State.gemmStart_ok {W : Nat} {σ s : State} {a1 a2 : _} (hW : 0x608567fd90 ||| W = W) (h : Within W σ s) :
    Within W σ (State.gemmStart s a1 a2) := by
  unfold State.gemmStart
  repeat' first
    | with_reducible assumption
    | (with_reducible apply State.outside_ok; exact sub_le (by decide) hW)
    | (with_reducible apply State.runGemmClass_ok; exact sub_le (by decide) hW)
    | (with_reducible apply State.updPart_ok; exact sub_le (by decide) hW)
    | (extract_lets +onlyGivenNames x
       first
       | (refine Within.cut (W := W) (s := σ) x ?_ ?_; rotate_left; (clear_value x; intro hx))
       | (refine Within.cut (W := W) (s := σ) x.1 ?_ ?_; rotate_left; (clear_value x; intro hx))
       | (refine Within.cut (W := W) (s := σ) x.2 ?_ ?_; rotate_left; (clear_value x; intro hx))
       | (refine Within.cutF (W := W) (s := σ) x ?_ ?_; rotate_left; (clear_value x; intro hf))
       | clear_value x)
    | split
    | (intro t; intros; (try beta_reduce))

end Sys2Proof.Machine
end

