-- ==== Sys2Proof/Laws/FMovement.lean ====
section
/-! SUPPORT. What each operation of Movement.lean can change, and that it keeps the tables in canonical form. -/

set_option linter.all false

namespace Sys2Proof.Machine

theorem State.bumpIf_ok {W : Nat} {σ s : State} {a1 a2 a3 : _} (hW : 0x10 ||| W = W) (h : Within W σ s) :
    Within W σ (State.bumpIf s a1 a2 a3) := by
  unfold State.bumpIf
  repeat' first
    | with_reducible assumption
    | (with_reducible apply State.bump_ok; exact sub_le (by decide) hW)
    | with_reducible apply Within.ite
    | split
    | (intro t; intros; (try beta_reduce))

theorem State.ladleBytes_ok {W : Nat} {σ s : State} {a1 a2 a3 a4 : _} (hW : 0x10 ||| W = W) (h : Within W σ s) :
    Within W σ (State.ladleBytes s a1 a2 a3 a4) := by
  unfold State.ladleBytes
  repeat' first
    | with_reducible assumption
    | (with_reducible apply State.bumpIf_ok; exact sub_le (by decide) hW)
    | with_reducible apply Within.ite
    | (extract_lets +onlyGivenNames x
       first
       | (refine Within.cut (W := W) (s := σ) x ?_ ?_; rotate_left; (clear_value x; intro hx))
       | (refine Within.cut (W := W) (s := σ) x.1 ?_ ?_; rotate_left; (clear_value x; intro hx))
       | (refine Within.cut (W := W) (s := σ) x.2 ?_ ?_; rotate_left; (clear_value x; intro hx))
       | (refine Within.cutF (W := W) (s := σ) x ?_ ?_; rotate_left; (clear_value x; intro hf))
       | clear_value x)
    | split
    | (intro t; intros; (try beta_reduce))
    | dsimp -zeta only [x]

theorem State.ladleCvt_ok {W : Nat} {σ s : State} {a1 a2 : _} (hW : 0x10 ||| W = W) (h : Within W σ s) :
    Within W σ (State.ladleCvt s a1 a2) := by
  unfold State.ladleCvt
  repeat' first
    | with_reducible assumption
    | (with_reducible apply State.bumpIf_ok; exact sub_le (by decide) hW)
    | (intro t; intros; (try beta_reduce))

theorem State.putOutRow_ok {W : Nat} {σ s : State} {a1 a2 a3 : _} (hW : 0x580 ||| W = W) (h : Within W σ s) :
    Within W σ (State.putOutRow s a1 a2 a3) := by
  unfold State.putOutRow
  repeat' first
    | with_reducible assumption
    | (with_reducible apply State.wrBytes_ok; exact sub_le (by decide) hW)
    | with_reducible apply Within.ite
    | (extract_lets +onlyGivenNames x
       first
       | (refine Within.cut (W := W) (s := σ) x ?_ ?_; rotate_left; (clear_value x; intro hx))
       | (refine Within.cut (W := W) (s := σ) x.1 ?_ ?_; rotate_left; (clear_value x; intro hx))
       | (refine Within.cut (W := W) (s := σ) x.2 ?_ ?_; rotate_left; (clear_value x; intro hx))
       | (refine Within.cutF (W := W) (s := σ) x ?_ ?_; rotate_left; (clear_value x; intro hf))
       | clear_value x)
    | split
    | (intro t; intros; (try beta_reduce))
    | dsimp -zeta only [x]

theorem State.countClasses_ok {W : Nat} {σ s : State} {a1 a2 a3 : _} (hW : 0x10 ||| W = W) (h : Within W σ s) :
    Within W σ (State.countClasses s a1 a2 a3) := by
  unfold State.countClasses
  repeat' first
    | with_reducible assumption
    | (with_reducible apply State.recordBlocks_ok; exact sub_le (by decide) hW)
    | split
    | (intro t; intros; (try beta_reduce))

theorem State.moveCopy_ok {W : Nat} {σ s : State} {a1 a2 : _} (hW : 0x590 ||| W = W) (h : Within W σ s) :
    Within W σ (State.moveCopy s a1 a2) := by
  unfold State.moveCopy
  repeat' first
    | with_reducible assumption
    | with_reducible apply hf
    | (with_reducible apply State.ladleBytes_ok; exact sub_le (by decide) hW)
    | (with_reducible apply State.ladleCvt_ok; exact sub_le (by decide) hW)
    | (with_reducible apply State.putOutRow_ok; exact sub_le (by decide) hW)
    | (with_reducible apply State.countClasses_ok; exact sub_le (by decide) hW)
    | (with_reducible apply State.countBytes_ok; exact sub_le (by decide) hW)
    | with_reducible apply Within.ite
    | (with_reducible apply Within.fold; (intro t x ht; beta_reduce))
    | (with_reducible apply Within.fold1; (intro t x ht; beta_reduce))
    | (with_reducible apply Within.fold2; (intro t x ht; beta_reduce))
    | with_reducible apply Within.ite1
    | with_reducible apply Within.ite2
    | (extract_lets +onlyGivenNames x
       first
       | (refine Within.cut (W := W) (s := σ) x ?_ ?_; rotate_left; (clear_value x; intro hx))
       | (refine Within.cut (W := W) (s := σ) x.1 ?_ ?_; rotate_left; (clear_value x; intro hx))
       | (refine Within.cut (W := W) (s := σ) x.2 ?_ ?_; rotate_left; (clear_value x; intro hx))
       | (refine Within.cutF (W := W) (s := σ) x ?_ ?_; rotate_left; (clear_value x; intro hf))
       | clear_value x)
    | split
    | (intro t; intros; (try beta_reduce))
    | dsimp -zeta only [x]

theorem State.moveRow_ok {W : Nat} {σ s : State} {a1 a2 a3 a4 : _} (hW : 0x580 ||| W = W) (h : Within W σ s) :
    Within W σ (State.moveRow s a1 a2 a3 a4) := by
  unfold State.moveRow
  repeat' first
    | with_reducible assumption
    | (with_reducible apply State.wrBytes_ok; exact sub_le (by decide) hW)
    | with_reducible apply Within.ite
    | with_reducible apply Within.ite1
    | with_reducible apply Within.ite2
    | (extract_lets +onlyGivenNames x
       first
       | (refine Within.cut (W := W) (s := σ) x ?_ ?_; rotate_left; (clear_value x; intro hx))
       | (refine Within.cut (W := W) (s := σ) x.1 ?_ ?_; rotate_left; (clear_value x; intro hx))
       | (refine Within.cut (W := W) (s := σ) x.2 ?_ ?_; rotate_left; (clear_value x; intro hx))
       | (refine Within.cutF (W := W) (s := σ) x ?_ ?_; rotate_left; (clear_value x; intro hf))
       | clear_value x)
    | split
    | (intro t; intros; (try beta_reduce))
    | dsimp -zeta only [x]

theorem State.listPhase_ok {W : Nat} {σ s : State} {a1 a2 a3 : _} (hW : 0x10 ||| W = W) (h : Within W σ s) :
    Within W σ (State.listPhase s a1 a2 a3) := by
  unfold State.listPhase
  repeat' first
    | with_reducible assumption
    | (with_reducible apply State.ladleBytes_ok; exact sub_le (by decide) hW)
    | (with_reducible apply State.countBytes_ok; exact sub_le (by decide) hW)
    | (with_reducible apply State.progress_ok; exact sub_le (by decide) hW)
    | (with_reducible apply State.bump_ok; exact sub_le (by decide) hW)
    | with_reducible apply Within.ite
    | (with_reducible apply Within.fold; (intro t x ht; beta_reduce))
    | (with_reducible apply Within.fold1; (intro t x ht; beta_reduce))
    | (with_reducible apply Within.fold2; (intro t x ht; beta_reduce))
    | (extract_lets +onlyGivenNames x
       first
       | (refine Within.cut (W := W) (s := σ) x ?_ ?_; rotate_left; (clear_value x; intro hx))
       | (refine Within.cut (W := W) (s := σ) x.1 ?_ ?_; rotate_left; (clear_value x; intro hx))
       | (refine Within.cut (W := W) (s := σ) x.2 ?_ ?_; rotate_left; (clear_value x; intro hx))
       | (refine Within.cutF (W := W) (s := σ) x ?_ ?_; rotate_left; (clear_value x; intro hf))
       | clear_value x)
    | split
    | (intro t; intros; (try beta_reduce))
    | dsimp -zeta only [x]

theorem State.moveGather_ok {W : Nat} {σ s : State} {a1 a2 a3 : _} (hW : 0x590 ||| W = W) (h : Within W σ s) :
    Within W σ (State.moveGather s a1 a2 a3) := by
  unfold State.moveGather
  repeat' first
    | with_reducible assumption
    | (with_reducible apply State.moveRow_ok; exact sub_le (by decide) hW)
    | (with_reducible apply State.bumpIf_ok; exact sub_le (by decide) hW)
    | (with_reducible apply State.ladleBytes_ok; exact sub_le (by decide) hW)
    | (with_reducible apply State.countBytes_ok; exact sub_le (by decide) hW)
    | with_reducible apply Within.ite
    | (with_reducible apply Within.fold; (intro t x ht; beta_reduce))
    | (with_reducible apply Within.fold1; (intro t x ht; beta_reduce))
    | (with_reducible apply Within.fold2; (intro t x ht; beta_reduce))
    | with_reducible apply Within.ite1
    | with_reducible apply Within.ite2
    | (extract_lets +onlyGivenNames x
       first
       | (refine Within.cut (W := W) (s := σ) x ?_ ?_; rotate_left; (clear_value x; intro hx))
       | (refine Within.cut (W := W) (s := σ) x.1 ?_ ?_; rotate_left; (clear_value x; intro hx))
       | (refine Within.cut (W := W) (s := σ) x.2 ?_ ?_; rotate_left; (clear_value x; intro hx))
       | (refine Within.cutF (W := W) (s := σ) x ?_ ?_; rotate_left; (clear_value x; intro hf))
       | clear_value x)
    | split
    | (intro t; intros; (try beta_reduce))
    | dsimp -zeta only [x]

theorem State.moveScatter_ok {W : Nat} {σ s : State} {a1 a2 a3 : _} (hW : 0x590 ||| W = W) (h : Within W σ s) :
    Within W σ (State.moveScatter s a1 a2 a3) := by
  unfold State.moveScatter
  repeat' first
    | with_reducible assumption
    | (with_reducible apply State.moveRow_ok; exact sub_le (by decide) hW)
    | (with_reducible apply State.ladleBytes_ok; exact sub_le (by decide) hW)
    | (with_reducible apply State.countBytes_ok; exact sub_le (by decide) hW)
    | (with_reducible apply Within.fold; (intro t x ht; beta_reduce))
    | (with_reducible apply Within.fold1; (intro t x ht; beta_reduce))
    | (with_reducible apply Within.fold2; (intro t x ht; beta_reduce))
    | (extract_lets +onlyGivenNames x
       first
       | (refine Within.cut (W := W) (s := σ) x ?_ ?_; rotate_left; (clear_value x; intro hx))
       | (refine Within.cut (W := W) (s := σ) x.1 ?_ ?_; rotate_left; (clear_value x; intro hx))
       | (refine Within.cut (W := W) (s := σ) x.2 ?_ ?_; rotate_left; (clear_value x; intro hx))
       | (refine Within.cutF (W := W) (s := σ) x ?_ ?_; rotate_left; (clear_value x; intro hf))
       | clear_value x)
    | (intro t; intros; (try beta_reduce))
    | dsimp -zeta only [x]

theorem State.moveScatterAdd_ok {W : Nat} {σ s : State} {a1 a2 a3 : _} (hW : 0x590 ||| W = W) (h : Within W σ s) :
    Within W σ (State.moveScatterAdd s a1 a2 a3) := by
  unfold State.moveScatterAdd
  repeat' first
    | with_reducible assumption
    | (with_reducible apply State.wrBytes_ok; exact sub_le (by decide) hW)
    | (with_reducible apply State.ladleCvt_ok; exact sub_le (by decide) hW)
    | (with_reducible apply State.ladleBytes_ok; exact sub_le (by decide) hW)
    | (with_reducible apply State.countBytes_ok; exact sub_le (by decide) hW)
    | with_reducible apply Within.ite
    | (with_reducible apply Within.fold; (intro t x ht; beta_reduce))
    | (with_reducible apply Within.fold1; (intro t x ht; beta_reduce))
    | (with_reducible apply Within.fold2; (intro t x ht; beta_reduce))
    | with_reducible apply Within.ite1
    | with_reducible apply Within.ite2
    | (extract_lets +onlyGivenNames x
       first
       | (refine Within.cut (W := W) (s := σ) x ?_ ?_; rotate_left; (clear_value x; intro hx))
       | (refine Within.cut (W := W) (s := σ) x.1 ?_ ?_; rotate_left; (clear_value x; intro hx))
       | (refine Within.cut (W := W) (s := σ) x.2 ?_ ?_; rotate_left; (clear_value x; intro hx))
       | (refine Within.cutF (W := W) (s := σ) x ?_ ?_; rotate_left; (clear_value x; intro hf))
       | clear_value x)
    | split
    | (intro t; intros; (try beta_reduce))
    | dsimp -zeta only [x]

theorem State.scanData_ok {W : Nat} {σ s : State} {a1 a2 : _} (hW : 0x6005671d90 ||| W = W) (h : Within W σ s) :
    Within W σ (State.scanData s a1 a2) := by
  unfold State.scanData
  repeat' first
    | with_reducible assumption
    | (with_reducible apply State.progress_ok; exact sub_le (by decide) hW)
    | (with_reducible apply State.countBytes_ok; exact sub_le (by decide) hW)
    | (with_reducible apply State.bump_ok; exact sub_le (by decide) hW)
    | (with_reducible apply State.setReg_ok; exact sub_le (by decide) hW)
    | (with_reducible apply State.finish_ok; exact sub_le (by decide) hW)
    | (with_reducible apply State.raisePage_ok; exact sub_le (by decide) hW)
    | (with_reducible apply State.notice_ok; exact sub_le (by decide) hW)
    | (with_reducible apply State.verdict_ok; exact sub_le (by decide) hW)
    | (with_reducible apply State.abortCmd_ok; exact sub_le (by decide) hW)
    | with_reducible apply Within.ite
    | (extract_lets +onlyGivenNames x
       first
       | (refine Within.cut (W := W) (s := σ) x ?_ ?_; rotate_left; (clear_value x; intro hx))
       | (refine Within.cut (W := W) (s := σ) x.1 ?_ ?_; rotate_left; (clear_value x; intro hx))
       | (refine Within.cut (W := W) (s := σ) x.2 ?_ ?_; rotate_left; (clear_value x; intro hx))
       | (refine Within.cutF (W := W) (s := σ) x ?_ ?_; rotate_left; (clear_value x; intro hf))
       | clear_value x)
    | split
    | (intro t; intros; (try beta_reduce))
    | dsimp -zeta only [x]

theorem State.ladleSet_ok {W : Nat} {σ s : State} {a1 a2 : _} (hW : 0x10 ||| W = W) (h : Within W σ s) :
    Within W σ (State.ladleSet s a1 a2) := by
  unfold State.ladleSet
  repeat' first
    | with_reducible assumption
    | (with_reducible apply State.setFld_ok; exact sub_le (by decide) hW)
    | with_reducible apply Within.ite
    | (with_reducible apply Within.fold; (intro t x ht; beta_reduce))
    | (with_reducible apply Within.fold1; (intro t x ht; beta_reduce))
    | (with_reducible apply Within.fold2; (intro t x ht; beta_reduce))
    | split
    | (intro t; intros; (try beta_reduce))

theorem State.ladleBump_ok {W : Nat} {σ s : State} {a1 a2 : _} (hW : 0x10 ||| W = W) (h : Within W σ s) :
    Within W σ (State.ladleBump s a1 a2) := by
  unfold State.ladleBump
  repeat' first
    | with_reducible assumption
    | (with_reducible apply State.bump_ok; exact sub_le (by decide) hW)
    | with_reducible apply Within.ite
    | split
    | (intro t; intros; (try beta_reduce))

theorem State.requestAts_ok {W : Nat} {σ s : State} {a1 a2 : _} (hW : 0x2000000010 ||| W = W) (h : Within W σ s) :
    Within W σ (State.requestAts s a1 a2) := by
  unfold State.requestAts
  repeat' first
    | with_reducible assumption
    | (with_reducible apply State.bump_ok; exact sub_le (by decide) hW)
    | (with_reducible apply State.emit_ok; exact sub_le (by decide) hW)
    | (intro t; intros; (try beta_reduce))

theorem State.preTouch_ok {W : Nat} {σ s : State} {a1 a2 : _} (hW : 0x2000000810 ||| W = W) (h : Within W σ s) :
    Within W σ (State.preTouch s a1 a2) := by
  unfold State.preTouch
  repeat' first
    | with_reducible assumption
    | (with_reducible apply State.requestAts_ok; exact sub_le (by decide) hW)
    | (with_reducible apply State.progress_ok; exact sub_le (by decide) hW)
    | (with_reducible apply State.ladleSet_ok; exact sub_le (by decide) hW)
    | (with_reducible apply State.updCmd_ok; exact sub_le (by decide) hW)
    | with_reducible apply Within.ite
    | (with_reducible apply Within.fold; (intro t x ht; beta_reduce))
    | (with_reducible apply Within.fold1; (intro t x ht; beta_reduce))
    | (with_reducible apply Within.fold2; (intro t x ht; beta_reduce))
    | (extract_lets +onlyGivenNames x
       first
       | (refine Within.cut (W := W) (s := σ) x ?_ ?_; rotate_left; (clear_value x; intro hx))
       | (refine Within.cut (W := W) (s := σ) x.1 ?_ ?_; rotate_left; (clear_value x; intro hx))
       | (refine Within.cut (W := W) (s := σ) x.2 ?_ ?_; rotate_left; (clear_value x; intro hx))
       | (refine Within.cutF (W := W) (s := σ) x ?_ ?_; rotate_left; (clear_value x; intro hf))
       | clear_value x)
    | split
    | (intro t; intros; (try beta_reduce))
    | dsimp -zeta only [x]

theorem State.moveData_ok {W : Nat} {σ s : State} {a1 a2 : _} (hW : 0x6005671d90 ||| W = W) (h : Within W σ s) :
    Within W σ (State.moveData s a1 a2) := by
  unfold State.moveData
  repeat' first
    | with_reducible assumption
    | (with_reducible apply State.scanData_ok; exact sub_le (by decide) hW)
    | (with_reducible apply State.progress_ok; exact sub_le (by decide) hW)
    | (with_reducible apply State.ladleSet_ok; exact sub_le (by decide) hW)
    | (with_reducible apply State.finish_ok; exact sub_le (by decide) hW)
    | (with_reducible apply State.moveCopy_ok; exact sub_le (by decide) hW)
    | (with_reducible apply State.updCmd_ok; exact sub_le (by decide) hW)
    | (with_reducible apply State.moveGather_ok; exact sub_le (by decide) hW)
    | (with_reducible apply State.moveScatter_ok; exact sub_le (by decide) hW)
    | (with_reducible apply State.moveScatterAdd_ok; exact sub_le (by decide) hW)
    | with_reducible apply Within.ite
    | (with_reducible apply Within.fold; (intro t x ht; beta_reduce))
    | (with_reducible apply Within.fold1; (intro t x ht; beta_reduce))
    | (with_reducible apply Within.fold2; (intro t x ht; beta_reduce))
    | with_reducible apply Within.ite1
    | with_reducible apply Within.ite2
    | (extract_lets +onlyGivenNames x
       first
       | (refine Within.cut (W := W) (s := σ) x ?_ ?_; rotate_left; (clear_value x; intro hx))
       | (refine Within.cut (W := W) (s := σ) x.1 ?_ ?_; rotate_left; (clear_value x; intro hx))
       | (refine Within.cut (W := W) (s := σ) x.2 ?_ ?_; rotate_left; (clear_value x; intro hx))
       | (refine Within.cutF (W := W) (s := σ) x ?_ ?_; rotate_left; (clear_value x; intro hf))
       | clear_value x)
    | split
    | (intro t; intros; (try beta_reduce))
    | dsimp -zeta only [x]

theorem State.windowHeld_ok {W : Nat} {σ s : State} {a1 a2 : _} (hW : 0x6005671d90 ||| W = W) (h : Within W σ s) :
    Within W σ (State.windowHeld s a1 a2) := by
  unfold State.windowHeld
  repeat' first
    | with_reducible assumption
    | (with_reducible apply State.preTouch_ok; exact sub_le (by decide) hW)
    | (with_reducible apply State.updCmd_ok; exact sub_le (by decide) hW)
    | (with_reducible apply State.moveData_ok; exact sub_le (by decide) hW)
    | with_reducible apply Within.ite
    | (extract_lets +onlyGivenNames x
       first
       | (refine Within.cut (W := W) (s := σ) x ?_ ?_; rotate_left; (clear_value x; intro hx))
       | (refine Within.cut (W := W) (s := σ) x.1 ?_ ?_; rotate_left; (clear_value x; intro hx))
       | (refine Within.cut (W := W) (s := σ) x.2 ?_ ?_; rotate_left; (clear_value x; intro hx))
       | (refine Within.cutF (W := W) (s := σ) x ?_ ?_; rotate_left; (clear_value x; intro hf))
       | clear_value x)
    | split
    | (intro t; intros; (try beta_reduce))

theorem State.moveStart_ok {W : Nat} {σ s : State} {a1 a2 : _} (hW : 0x6005671d90 ||| W = W) (h : Within W σ s) :
    Within W σ (State.moveStart s a1 a2) := by
  unfold State.moveStart
  repeat' first
    | with_reducible assumption
    | (with_reducible apply State.updCmd_ok; exact sub_le (by decide) hW)
    | (with_reducible apply State.moveData_ok; exact sub_le (by decide) hW)
    | (with_reducible apply State.preTouch_ok; exact sub_le (by decide) hW)
    | with_reducible apply Within.ite
    | (extract_lets +onlyGivenNames x
       first
       | (refine Within.cut (W := W) (s := σ) x ?_ ?_; rotate_left; (clear_value x; intro hx))
       | (refine Within.cut (W := W) (s := σ) x.1 ?_ ?_; rotate_left; (clear_value x; intro hx))
       | (refine Within.cut (W := W) (s := σ) x.2 ?_ ?_; rotate_left; (clear_value x; intro hx))
       | (refine Within.cutF (W := W) (s := σ) x ?_ ?_; rotate_left; (clear_value x; intro hf))
       | clear_value x)
    | split
    | (intro t; intros; (try beta_reduce))
    | dsimp -zeta only [x]

theorem State.abortMove_ok {W : Nat} {σ s : State} {a1 a2 a3 a4 a5 : _} (hW : 0x6005671d90 ||| W = W) (h : Within W σ s) :
    Within W σ (State.abortMove s a1 a2 a3 a4 a5) := by
  unfold State.abortMove
  repeat' first
    | with_reducible assumption
    | (with_reducible apply State.raisePage_ok; exact sub_le (by decide) hW)
    | (with_reducible apply State.abortCmd_ok; exact sub_le (by decide) hW)
    | (with_reducible apply State.updCmd_ok; exact sub_le (by decide) hW)
    | with_reducible apply Within.ite
    | (with_reducible apply Within.fold; (intro t x ht; beta_reduce))
    | (with_reducible apply Within.fold1; (intro t x ht; beta_reduce))
    | (with_reducible apply Within.fold2; (intro t x ht; beta_reduce))
    | (extract_lets +onlyGivenNames x
       first
       | (refine Within.cut (W := W) (s := σ) x ?_ ?_; rotate_left; (clear_value x; intro hx))
       | (refine Within.cut (W := W) (s := σ) x.1 ?_ ?_; rotate_left; (clear_value x; intro hx))
       | (refine Within.cut (W := W) (s := σ) x.2 ?_ ?_; rotate_left; (clear_value x; intro hx))
       | (refine Within.cutF (W := W) (s := σ) x ?_ ?_; rotate_left; (clear_value x; intro hf))
       | clear_value x)
    | split
    | (intro t; intros; (try beta_reduce))
    | dsimp -zeta only [x]

theorem State.ladlesTake_ok {W : Nat} {σ s : State} {a1 a2 a3 : _} (hW : 0x10 ||| W = W) (h : Within W σ s) :
    Within W σ (State.ladlesTake s a1 a2 a3) := by
  unfold State.ladlesTake
  repeat' first
    | with_reducible assumption
    | (with_reducible apply State.setFld_ok; exact sub_le (by decide) hW)
    | (with_reducible apply Within.fold; (intro t x ht; beta_reduce))
    | (with_reducible apply Within.fold1; (intro t x ht; beta_reduce))
    | (with_reducible apply Within.fold2; (intro t x ht; beta_reduce))
    | (extract_lets +onlyGivenNames x
       first
       | (refine Within.cut (W := W) (s := σ) x ?_ ?_; rotate_left; (clear_value x; intro hx))
       | (refine Within.cut (W := W) (s := σ) x.1 ?_ ?_; rotate_left; (clear_value x; intro hx))
       | (refine Within.cut (W := W) (s := σ) x.2 ?_ ?_; rotate_left; (clear_value x; intro hx))
       | (refine Within.cutF (W := W) (s := σ) x ?_ ?_; rotate_left; (clear_value x; intro hf))
       | clear_value x)
    | (intro t; intros; (try beta_reduce))
    | dsimp -zeta only [x]

theorem State.copyStart_ok {W : Nat} {σ s : State} {a1 a2 : _} (hW : 0x6005671d90 ||| W = W) (h : Within W σ s) :
    Within W σ (State.copyStart s a1 a2) := by
  unfold State.copyStart
  repeat' first
    | with_reducible assumption
    | (with_reducible apply State.ladlesTake_ok; exact sub_le (by decide) hW)
    | (with_reducible apply State.moveStart_ok; exact sub_le (by decide) hW)
    | with_reducible apply Within.ite
    | (extract_lets +onlyGivenNames x
       first
       | (refine Within.cut (W := W) (s := σ) x ?_ ?_; rotate_left; (clear_value x; intro hx))
       | (refine Within.cut (W := W) (s := σ) x.1 ?_ ?_; rotate_left; (clear_value x; intro hx))
       | (refine Within.cut (W := W) (s := σ) x.2 ?_ ?_; rotate_left; (clear_value x; intro hx))
       | (refine Within.cutF (W := W) (s := σ) x ?_ ?_; rotate_left; (clear_value x; intro hf))
       | clear_value x)
    | split
    | (intro t; intros; (try beta_reduce))
    | dsimp -zeta only [x]

theorem State.listStart_ok {W : Nat} {σ s : State} {a1 a2 : _} (hW : 0x6005671d90 ||| W = W) (h : Within W σ s) :
    Within W σ (State.listStart s a1 a2) := by
  unfold State.listStart
  repeat' first
    | with_reducible assumption
    | (with_reducible apply State.listPhase_ok; exact sub_le (by decide) hW)
    | (with_reducible apply State.ladlesTake_ok; exact sub_le (by decide) hW)
    | (with_reducible apply State.abortMove_ok; exact sub_le (by decide) hW)
    | (with_reducible apply State.updCmd_ok; exact sub_le (by decide) hW)
    | (with_reducible apply State.moveStart_ok; exact sub_le (by decide) hW)
    | with_reducible apply Within.ite
    | with_reducible apply Within.ite1
    | with_reducible apply Within.ite2
    | (extract_lets +onlyGivenNames x
       first
       | (refine Within.cut (W := W) (s := σ) x ?_ ?_; rotate_left; (clear_value x; intro hx))
       | (refine Within.cut (W := W) (s := σ) x.1 ?_ ?_; rotate_left; (clear_value x; intro hx))
       | (refine Within.cut (W := W) (s := σ) x.2 ?_ ?_; rotate_left; (clear_value x; intro hx))
       | (refine Within.cutF (W := W) (s := σ) x ?_ ?_; rotate_left; (clear_value x; intro hf))
       | clear_value x)
    | split
    | (intro t; intros; (try beta_reduce))
    | dsimp -zeta only [x]

theorem State.ringAnswer_ok {W : Nat} {σ s : State} {a1 a2 a3 : _} (hW : 0x3000008010 ||| W = W) (h : Within W σ s) :
    Within W σ (State.ringAnswer s a1 a2 a3) := by
  unfold State.ringAnswer
  repeat' first
    | with_reducible assumption
    | (with_reducible apply State.enqueue_ok; exact sub_le (by decide) hW)
    | (with_reducible apply State.bump_ok; exact sub_le (by decide) hW)
    | (with_reducible apply State.emit_ok; exact sub_le (by decide) hW)
    | with_reducible apply Within.ite
    | with_reducible apply Within.ite1
    | with_reducible apply Within.ite2
    | (extract_lets +onlyGivenNames x
       first
       | (refine Within.cut (W := W) (s := σ) x ?_ ?_; rotate_left; (clear_value x; intro hx))
       | (refine Within.cut (W := W) (s := σ) x.1 ?_ ?_; rotate_left; (clear_value x; intro hx))
       | (refine Within.cut (W := W) (s := σ) x.2 ?_ ?_; rotate_left; (clear_value x; intro hx))
       | (refine Within.cutF (W := W) (s := σ) x ?_ ?_; rotate_left; (clear_value x; intro hf))
       | clear_value x)
    | split
    | (with_reducible apply Within.upd_cxl; exact sub_le (by decide) hW)
    | (intro t; intros; (try beta_reduce))
    | dsimp -zeta only [x]

theorem State.ringPri_ok {W : Nat} {σ s : State} {a1 a2 : _} (hW : 0x3000040810 ||| W = W) (h : Within W σ s) :
    Within W σ (State.ringPri s a1 a2) := by
  unfold State.ringPri
  repeat' first
    | with_reducible assumption
    | (with_reducible apply State.ringAsk_ok; exact sub_le (by decide) hW)
    | (with_reducible apply State.notice_ok; exact sub_le (by decide) hW)
    | (with_reducible apply State.raisePage_ok; exact sub_le (by decide) hW)
    | (with_reducible apply State.updQueue_ok; exact sub_le (by decide) hW)
    | with_reducible apply Within.ite
    | with_reducible apply Within.ite1
    | with_reducible apply Within.ite2
    | (extract_lets +onlyGivenNames x
       first
       | (refine Within.cut (W := W) (s := σ) x ?_ ?_; rotate_left; (clear_value x; intro hx))
       | (refine Within.cut (W := W) (s := σ) x.1 ?_ ?_; rotate_left; (clear_value x; intro hx))
       | (refine Within.cut (W := W) (s := σ) x.2 ?_ ?_; rotate_left; (clear_value x; intro hx))
       | (refine Within.cutF (W := W) (s := σ) x ?_ ?_; rotate_left; (clear_value x; intro hf))
       | clear_value x)
    | split
    | (with_reducible apply Within.upd_cxl; exact sub_le (by decide) hW)
    | (intro t; intros; (try beta_reduce))
    | dsimp -zeta only [x]

theorem State.ringInval_ok {W : Nat} {σ s : State} {a1 a2 : _} (hW : 0x3000000010 ||| W = W) (h : Within W σ s) :
    Within W σ (State.ringInval s a1 a2) := by
  unfold State.ringInval
  repeat' first
    | with_reducible assumption
    | (with_reducible apply State.ringAsk_ok; exact sub_le (by decide) hW)
    | with_reducible apply Within.ite
    | (with_reducible apply Within.fold; (intro t x ht; beta_reduce))
    | (with_reducible apply Within.fold1; (intro t x ht; beta_reduce))
    | (with_reducible apply Within.fold2; (intro t x ht; beta_reduce))
    | split
    | (intro t; intros; (try beta_reduce))

theorem State.atsResponse_ok {W : Nat} {σ s : State} {a1 a2 a3 a4 : _} (hW : 0x7005679d90 ||| W = W) (h : Within W σ s) :
    Within W σ (State.atsResponse s a1 a2 a3 a4) := by
  unfold State.atsResponse
  repeat' first
    | with_reducible assumption
    | (with_reducible apply State.ringAnswer_ok; exact sub_le (by decide) hW)
    | (with_reducible apply State.updCmd_ok; exact sub_le (by decide) hW)
    | (with_reducible apply State.setFld_ok; exact sub_le (by decide) hW)
    | (with_reducible apply State.bump_ok; exact sub_le (by decide) hW)
    | (with_reducible apply State.progressed_ok; exact sub_le (by decide) hW)
    | (with_reducible apply State.windowHeld_ok; exact sub_le (by decide) hW)
    | (with_reducible apply State.ladleBump_ok; exact sub_le (by decide) hW)
    | (with_reducible apply State.setReg_ok; exact sub_le (by decide) hW)
    | (with_reducible apply State.emit_ok; exact sub_le (by decide) hW)
    | (with_reducible apply State.ladleSet_ok; exact sub_le (by decide) hW)
    | with_reducible apply Within.ite
    | (with_reducible apply Within.fold; (intro t x ht; beta_reduce))
    | (with_reducible apply Within.fold1; (intro t x ht; beta_reduce))
    | (with_reducible apply Within.fold2; (intro t x ht; beta_reduce))
    | (extract_lets +onlyGivenNames x
       first
       | (refine Within.cut (W := W) (s := σ) x ?_ ?_; rotate_left; (clear_value x; intro hx))
       | (refine Within.cut (W := W) (s := σ) x.1 ?_ ?_; rotate_left; (clear_value x; intro hx))
       | (refine Within.cut (W := W) (s := σ) x.2 ?_ ?_; rotate_left; (clear_value x; intro hx))
       | (refine Within.cutF (W := W) (s := σ) x ?_ ?_; rotate_left; (clear_value x; intro hf))
       | clear_value x)
    | split
    | (intro t; intros; (try beta_reduce))
    | dsimp -zeta only [x]

theorem State.priAnswer_ok {W : Nat} {σ s : State} {a1 a2 a3 : _} (hW : 0x7005671d90 ||| W = W) (h : Within W σ s) :
    Within W σ (State.priAnswer s a1 a2 a3) := by
  unfold State.priAnswer
  repeat' first
    | with_reducible assumption
    | (with_reducible apply State.ringPri_ok; exact sub_le (by decide) hW)
    | (with_reducible apply State.updCmd_ok; exact sub_le (by decide) hW)
    | (with_reducible apply State.requestAts_ok; exact sub_le (by decide) hW)
    | (with_reducible apply State.ladleSet_ok; exact sub_le (by decide) hW)
    | (with_reducible apply State.abortMove_ok; exact sub_le (by decide) hW)
    | (with_reducible apply State.freshen_ok; exact sub_le (by decide) hW)
    | with_reducible apply Within.ite
    | (extract_lets +onlyGivenNames x
       first
       | (refine Within.cut (W := W) (s := σ) x ?_ ?_; rotate_left; (clear_value x; intro hx))
       | (refine Within.cut (W := W) (s := σ) x.1 ?_ ?_; rotate_left; (clear_value x; intro hx))
       | (refine Within.cut (W := W) (s := σ) x.2 ?_ ?_; rotate_left; (clear_value x; intro hx))
       | (refine Within.cutF (W := W) (s := σ) x ?_ ?_; rotate_left; (clear_value x; intro hf))
       | clear_value x)
    | split
    | (intro t; intros; (try beta_reduce))
    | dsimp -zeta only [x]

theorem State.invalCmd_ok {W : Nat} {σ s : State} {a1 a2 a3 : _} (hW : 0x6005671d90 ||| W = W) (h : Within W σ s) :
    Within W σ (State.invalCmd s a1 a2 a3) := by
  unfold State.invalCmd
  repeat' first
    | with_reducible assumption
    | (with_reducible apply State.ladleBump_ok; exact sub_le (by decide) hW)
    | (with_reducible apply State.setReg_ok; exact sub_le (by decide) hW)
    | (with_reducible apply State.freshen_ok; exact sub_le (by decide) hW)
    | (with_reducible apply State.abortMove_ok; exact sub_le (by decide) hW)
    | (with_reducible apply State.requestAts_ok; exact sub_le (by decide) hW)
    | (with_reducible apply State.updCmd_ok; exact sub_le (by decide) hW)
    | with_reducible apply Within.ite
    | (extract_lets +onlyGivenNames x
       first
       | (refine Within.cut (W := W) (s := σ) x ?_ ?_; rotate_left; (clear_value x; intro hx))
       | (refine Within.cut (W := W) (s := σ) x.1 ?_ ?_; rotate_left; (clear_value x; intro hx))
       | (refine Within.cut (W := W) (s := σ) x.2 ?_ ?_; rotate_left; (clear_value x; intro hx))
       | (refine Within.cutF (W := W) (s := σ) x ?_ ?_; rotate_left; (clear_value x; intro hf))
       | clear_value x)
    | split
    | (intro t; intros; (try beta_reduce))
    | dsimp -zeta only [x]

theorem State.pushHit_ok {W : Nat} {σ s : State} {a1 a2 : _} (hW : 0x10 ||| W = W) (h : Within W σ s) :
    Within W σ (State.pushHit s a1 a2) := by
  unfold State.pushHit
  repeat' first
    | with_reducible assumption
    | (with_reducible apply State.setFld_ok; exact sub_le (by decide) hW)
    | with_reducible apply Within.ite
    | (extract_lets +onlyGivenNames x
       first
       | (refine Within.cut (W := W) (s := σ) x ?_ ?_; rotate_left; (clear_value x; intro hx))
       | (refine Within.cut (W := W) (s := σ) x.1 ?_ ?_; rotate_left; (clear_value x; intro hx))
       | (refine Within.cut (W := W) (s := σ) x.2 ?_ ?_; rotate_left; (clear_value x; intro hx))
       | (refine Within.cutF (W := W) (s := σ) x ?_ ?_; rotate_left; (clear_value x; intro hf))
       | clear_value x)
    | split
    | (intro t; intros; (try beta_reduce))
    | dsimp -zeta only [x]

theorem State.invalidate_ok {W : Nat} {σ s : State} {a1 a2 : _} (hW : 0x7005671d90 ||| W = W) (h : Within W σ s) :
    Within W σ (State.invalidate s a1 a2) := by
  unfold State.invalidate
  repeat' first
    | with_reducible assumption
    | (with_reducible apply State.invalCmd_ok; exact sub_le (by decide) hW)
    | (with_reducible apply State.pushHit_ok; exact sub_le (by decide) hW)
    | (with_reducible apply State.ringInval_ok; exact sub_le (by decide) hW)
    | (with_reducible apply State.emit_ok; exact sub_le (by decide) hW)
    | (with_reducible apply State.bump_ok; exact sub_le (by decide) hW)
    | (with_reducible apply Within.fold; (intro t x ht; beta_reduce))
    | (with_reducible apply Within.fold1; (intro t x ht; beta_reduce))
    | (with_reducible apply Within.fold2; (intro t x ht; beta_reduce))
    | with_reducible apply Within.ite1
    | with_reducible apply Within.ite2
    | (extract_lets +onlyGivenNames x
       first
       | (refine Within.cut (W := W) (s := σ) x ?_ ?_; rotate_left; (clear_value x; intro hx))
       | (refine Within.cut (W := W) (s := σ) x.1 ?_ ?_; rotate_left; (clear_value x; intro hx))
       | (refine Within.cut (W := W) (s := σ) x.2 ?_ ?_; rotate_left; (clear_value x; intro hx))
       | (refine Within.cutF (W := W) (s := σ) x ?_ ?_; rotate_left; (clear_value x; intro hf))
       | clear_value x)
    | (intro t; intros; (try beta_reduce))
    | dsimp -zeta only [x]

theorem State.scanStart_ok {W : Nat} {σ s : State} {a1 a2 : _} (hW : 0x6005671d90 ||| W = W) (h : Within W σ s) :
    Within W σ (State.scanStart s a1 a2) := by
  unfold State.scanStart
  repeat' first
    | with_reducible assumption
    | (with_reducible apply State.moveStart_ok; exact sub_le (by decide) hW)
    | (with_reducible apply State.setReg_ok; exact sub_le (by decide) hW)
    | (with_reducible apply Within.fold; (intro t x ht; beta_reduce))
    | (with_reducible apply Within.fold1; (intro t x ht; beta_reduce))
    | (with_reducible apply Within.fold2; (intro t x ht; beta_reduce))
    | (intro t; intros; (try beta_reduce))

end Sys2Proof.Machine
end

