-- ==== Sys2Proof/Laws/FSignals.lean ====
section
/-! SUPPORT. What each operation of Signals.lean can change, and that it keeps the tables in canonical form. -/

set_option linter.all false

namespace Sys2Proof.Machine

theorem State.barrierArrives_ok {W : Nat} {σ s : State} {a1 a2 : _} (hW : 0x608567fdb0 ||| W = W) (h : Within W σ s) :
    Within W σ (State.barrierArrives s a1 a2) := by
  unfold State.barrierArrives
  repeat' first
    | with_reducible assumption
    | (with_reducible apply State.abortCmd_ok; exact sub_le (by decide) hW)
    | (with_reducible apply State.raisePage_ok; exact sub_le (by decide) hW)
    | (with_reducible apply State.arriveAt_ok; exact sub_le (by decide) hW)
    | with_reducible apply Within.ite
    | (extract_lets +onlyGivenNames x
       first
       | (refine Within.cut (W := W) (s := σ) x ?_ ?_; rotate_left; (clear_value x; intro hx))
       | (refine Within.cut (W := W) (s := σ) x.1 ?_ ?_; rotate_left; (clear_value x; intro hx))
       | (refine Within.cut (W := W) (s := σ) x.2 ?_ ?_; rotate_left; (clear_value x; intro hx))
       | (refine Within.cutF (W := W) (s := σ) x ?_ ?_; rotate_left; (clear_value x; intro hf))
       | clear_value x)
    | split
    | (intro t; intros; (try beta_reduce))
    | dsimp -zeta only [x]

theorem State.putStream_ok {W : Nat} {σ s : State} {a1 a2 a3 : _} (hW : 0x580 ||| W = W) (h : Within W σ s) :
    Within W σ (State.putStream s a1 a2 a3) := by
  unfold State.putStream
  repeat' first
    | with_reducible assumption
    | (with_reducible apply State.wrBytes_ok; exact sub_le (by decide) hW)
    | (with_reducible apply Within.fold; (intro t x ht; beta_reduce))
    | (with_reducible apply Within.fold1; (intro t x ht; beta_reduce))
    | (with_reducible apply Within.fold2; (intro t x ht; beta_reduce))
    | with_reducible apply Within.ite1
    | with_reducible apply Within.ite2
    | (intro t; intros; (try beta_reduce))

theorem State.statsRead_ok {W : Nat} {σ s : State} {a1 a2 : _} (hW : 0xd90 ||| W = W) (h : Within W σ s) :
    Within W σ (State.statsRead s a1 a2) := by
  unfold State.statsRead
  repeat' first
    | with_reducible assumption
    | (with_reducible apply State.countBytes_ok; exact sub_le (by decide) hW)
    | (with_reducible apply State.putStream_ok; exact sub_le (by decide) hW)
    | (with_reducible apply State.ladleSet_ok; exact sub_le (by decide) hW)
    | (with_reducible apply State.ladleBytes_ok; exact sub_le (by decide) hW)
    | (with_reducible apply State.finish_ok; exact sub_le (by decide) hW)
    | (with_reducible apply Within.fold; (intro t x ht; beta_reduce))
    | (with_reducible apply Within.fold1; (intro t x ht; beta_reduce))
    | (with_reducible apply Within.fold2; (intro t x ht; beta_reduce))
    | (extract_lets +onlyGivenNames x
       first
       | (refine Within.cut (W := W) (s := σ) x ?_ ?_; rotate_left; (clear_value x; intro hx))
       | (refine Within.cut (W := W) (s := σ) x.1 ?_ ?_; rotate_left; (clear_value x; intro hx))
       | (refine Within.cut (W := W) (s := σ) x.2 ?_ ?_; rotate_left; (clear_value x; intro hx))
       | (refine Within.cutF (W := W) (s := σ) x ?_ ?_; rotate_left; (clear_value x; intro hf))
       | clear_value x)
    | split
    | (intro t; intros; (try beta_reduce))
    | dsimp -zeta only [x]

theorem State.signalEvent_ok {W : Nat} {σ s : State} {a1 a2 : _} (hW : 0x608567dd90 ||| W = W) (h : Within W σ s) :
    Within W σ (State.signalEvent s a1 a2) := by
  unfold State.signalEvent
  repeat' first
    | with_reducible assumption
    | (with_reducible apply State.outside_ok; exact sub_le (by decide) hW)
    | (with_reducible apply State.wrLE_ok; exact sub_le (by decide) hW)
    | (with_reducible apply State.finish_ok; exact sub_le (by decide) hW)
    | with_reducible apply Within.ite
    | (extract_lets +onlyGivenNames x
       first
       | (refine Within.cut (W := W) (s := σ) x ?_ ?_; rotate_left; (clear_value x; intro hx))
       | (refine Within.cut (W := W) (s := σ) x.1 ?_ ?_; rotate_left; (clear_value x; intro hx))
       | (refine Within.cut (W := W) (s := σ) x.2 ?_ ?_; rotate_left; (clear_value x; intro hx))
       | (refine Within.cutF (W := W) (s := σ) x ?_ ?_; rotate_left; (clear_value x; intro hf))
       | clear_value x)
    | split
    | (intro t; intros; (try beta_reduce))
    | dsimp -zeta only [x]

theorem State.barrierTimeout_ok {W : Nat} {σ s : State} {a1 a2 : _} (hW : 0x6005671d90 ||| W = W) (h : Within W σ s) :
    Within W σ (State.barrierTimeout s a1 a2) := by
  unfold State.barrierTimeout
  repeat' first
    | with_reducible assumption
    | (with_reducible apply State.setBar_ok; exact sub_le (by decide) hW)
    | (with_reducible apply State.setReg_ok; exact sub_le (by decide) hW)
    | (with_reducible apply State.bump_ok; exact sub_le (by decide) hW)
    | (with_reducible apply State.abortCmd_ok; exact sub_le (by decide) hW)
    | (with_reducible apply State.rearrive_ok; exact sub_le (by decide) hW)
    | with_reducible apply Within.ite
    | (with_reducible apply Within.fold; (intro t x ht; beta_reduce))
    | (with_reducible apply Within.fold1; (intro t x ht; beta_reduce))
    | (with_reducible apply Within.fold2; (intro t x ht; beta_reduce))
    | (extract_lets +onlyGivenNames x
       first
       | (refine Within.cut (W := W) (s := σ) x ?_ ?_; rotate_left; (clear_value x; intro hx))
       | (refine Within.cut (W := W) (s := σ) x.1 ?_ ?_; rotate_left; (clear_value x; intro hx))
       | (refine Within.cut (W := W) (s := σ) x.2 ?_ ?_; rotate_left; (clear_value x; intro hx))
       | (refine Within.cutF (W := W) (s := σ) x ?_ ?_; rotate_left; (clear_value x; intro hf))
       | clear_value x)
    | split
    | (intro t; intros; (try beta_reduce))
    | dsimp -zeta only [x]

theorem State.stallOut_ok {W : Nat} {σ s : State} {a1 : _} (hW : 0x6005671d90 ||| W = W) (h : Within W σ s) :
    Within W σ (State.stallOut s a1) := by
  unfold State.stallOut
  repeat' first
    | with_reducible assumption
    | (with_reducible apply State.abortWhole_ok; exact sub_le (by decide) hW)
    | with_reducible apply Within.ite
    | (extract_lets +onlyGivenNames x
       first
       | (refine Within.cut (W := W) (s := σ) x ?_ ?_; rotate_left; (clear_value x; intro hx))
       | (refine Within.cut (W := W) (s := σ) x.1 ?_ ?_; rotate_left; (clear_value x; intro hx))
       | (refine Within.cut (W := W) (s := σ) x.2 ?_ ?_; rotate_left; (clear_value x; intro hx))
       | (refine Within.cutF (W := W) (s := σ) x ?_ ?_; rotate_left; (clear_value x; intro hf))
       | clear_value x)
    | split
    | (intro t; intros; (try beta_reduce))
    | dsimp -zeta only [x]

theorem State.deadlineOut_ok {W : Nat} {σ s : State} {a1 a2 : _} (hW : 0x6005671d90 ||| W = W) (h : Within W σ s) :
    Within W σ (State.deadlineOut s a1 a2) := by
  unfold State.deadlineOut
  repeat' first
    | with_reducible assumption
    | (with_reducible apply State.abortCmd_ok; exact sub_le (by decide) hW)
    | with_reducible apply Within.ite
    | split
    | (intro t; intros; (try beta_reduce))

theorem State.eventOut_ok {W : Nat} {σ s : State} {a1 a2 : _} (hW : 0x6005671d90 ||| W = W) (h : Within W σ s) :
    Within W σ (State.eventOut s a1 a2) := by
  unfold State.eventOut
  repeat' first
    | with_reducible assumption
    | (with_reducible apply State.abortCmd_ok; exact sub_le (by decide) hW)
    | with_reducible apply Within.ite
    | (extract_lets +onlyGivenNames x
       first
       | (refine Within.cut (W := W) (s := σ) x ?_ ?_; rotate_left; (clear_value x; intro hx))
       | (refine Within.cut (W := W) (s := σ) x.1 ?_ ?_; rotate_left; (clear_value x; intro hx))
       | (refine Within.cut (W := W) (s := σ) x.2 ?_ ?_; rotate_left; (clear_value x; intro hx))
       | (refine Within.cutF (W := W) (s := σ) x ?_ ?_; rotate_left; (clear_value x; intro hf))
       | clear_value x)
    | split
    | (intro t; intros; (try beta_reduce))
    | dsimp -zeta only [x]

end Sys2Proof.Machine
end

