-- ==== Sys2Proof/Laws/FLinks.lean ====
section
/-! SUPPORT. What each operation of Links.lean can change, and that it keeps the tables in canonical form. -/

set_option linter.all false

namespace Sys2Proof.Machine

theorem State.fault_ok {W : Nat} {σ s : State} {a1 a2 a3 : _} (hW : 0x600567dd90 ||| W = W) (h : Within W σ s) :
    Within W σ (State.fault s a1 a2 a3) := by
  unfold State.fault
  repeat' first
    | with_reducible assumption
    | (with_reducible apply State.raiseErr_ok; exact sub_le (by decide) hW)
    | (intro t; intros; (try beta_reduce))

theorem State.setTimeFld_ok {W : Nat} {σ s : State} {a1 a2 : _} (hW : 0x10 ||| W = W) (h : Within W σ s) :
    Within W σ (State.setTimeFld s a1 a2) := by
  unfold State.setTimeFld
  repeat' first
    | with_reducible assumption
    | (with_reducible apply State.setFld_ok; exact sub_le (by decide) hW)
    | (intro t; intros; (try beta_reduce))

theorem State.sendTree_ok {W : Nat} {σ s : State} {a1 : _} (hW : 0x6004200010 ||| W = W) (h : Within W σ s) :
    Within W σ (State.sendTree s a1) := by
  unfold State.sendTree
  repeat' first
    | with_reducible assumption
    | (with_reducible apply State.ctrlMsg_ok; exact sub_le (by decide) hW)
    | (with_reducible apply Within.fold; (intro t x ht; beta_reduce))
    | (with_reducible apply Within.fold1; (intro t x ht; beta_reduce))
    | (with_reducible apply Within.fold2; (intro t x ht; beta_reduce))
    | (extract_lets +onlyGivenNames x
       first
       | (refine Within.cut (W := W) (s := σ) x ?_ ?_; rotate_left; (clear_value x; intro hx))
       | (refine Within.cut (W := W) (s := σ) x.1 ?_ ?_; rotate_left; (clear_value x; intro hx))
       | (refine Within.cut (W := W) (s := σ) x.2 ?_ ?_; rotate_left; (clear_value x; intro hx))
       | (refine Within.cutF (W := W) (s := σ) x ?_ ?_; rotate_left; (clear_value x; intro hf))
       | clear_value x)
    | (intro t; intros; (try beta_reduce))
    | dsimp -zeta only [x]

theorem State.align_ok {W : Nat} {σ s : State} {a1 a2 a3 a4 : _} (hW : 0x6044200590 ||| W = W) (h : Within W σ s) :
    Within W σ (State.align s a1 a2 a3 a4) := by
  unfold State.align
  repeat' first
    | with_reducible assumption
    | (with_reducible apply State.setReg_ok; exact sub_le (by decide) hW)
    | (with_reducible apply State.progress_ok; exact sub_le (by decide) hW)
    | (with_reducible apply State.sendTree_ok; exact sub_le (by decide) hW)
    | (with_reducible apply State.traceTime_ok; exact sub_le (by decide) hW)
    | with_reducible apply Within.ite
    | (extract_lets +onlyGivenNames x
       first
       | (refine Within.cut (W := W) (s := σ) x ?_ ?_; rotate_left; (clear_value x; intro hx))
       | (refine Within.cut (W := W) (s := σ) x.1 ?_ ?_; rotate_left; (clear_value x; intro hx))
       | (refine Within.cut (W := W) (s := σ) x.2 ?_ ?_; rotate_left; (clear_value x; intro hx))
       | (refine Within.cutF (W := W) (s := σ) x ?_ ?_; rotate_left; (clear_value x; intro hf))
       | clear_value x)
    | split
    | (with_reducible apply Within.upd_timeX; exact sub_le (by decide) hW)
    | (intro t; intros; (try beta_reduce))
    | dsimp -zeta only [x]

theorem State.alignRoot_ok {W : Nat} {σ s : State} (hW : 0x6044200590 ||| W = W) (h : Within W σ s) :
    Within W σ (State.alignRoot s) := by
  unfold State.alignRoot
  repeat' first
    | with_reducible assumption
    | (with_reducible apply State.align_ok; exact sub_le (by decide) hW)
    | (intro t; intros; (try beta_reduce))

theorem State.alignFrom_ok {W : Nat} {σ s : State} {a1 : _} (hW : 0x6044200590 ||| W = W) (h : Within W σ s) :
    Within W σ (State.alignFrom s a1) := by
  unfold State.alignFrom
  repeat' first
    | with_reducible assumption
    | (with_reducible apply State.align_ok; exact sub_le (by decide) hW)
    | with_reducible apply Within.ite1
    | with_reducible apply Within.ite2
    | (intro t; intros; (try beta_reduce))

theorem State.timeInvalid_ok {W : Nat} {σ s : State} (hW : 0x590 ||| W = W) (h : Within W σ s) :
    Within W σ (State.timeInvalid s) := by
  unfold State.timeInvalid
  repeat' first
    | with_reducible assumption
    | (with_reducible apply State.traceTime_ok; exact sub_le (by decide) hW)
    | (with_reducible apply State.setTimeFld_ok; exact sub_le (by decide) hW)
    | with_reducible apply Within.ite
    | split
    | (intro t; intros; (try beta_reduce))

theorem State.timeTree_ok {W : Nat} {σ s : State} {a1 a2 a3 a4 : _} (hW : 0x6044200590 ||| W = W) (h : Within W σ s) :
    Within W σ (State.timeTree s a1 a2 a3 a4) := by
  unfold State.timeTree
  repeat' first
    | with_reducible assumption
    | (with_reducible apply State.updLink_ok; exact sub_le (by decide) hW)
    | (with_reducible apply State.alignFrom_ok; exact sub_le (by decide) hW)
    | with_reducible apply Within.ite
    | with_reducible apply Within.ite1
    | with_reducible apply Within.ite2
    | (extract_lets +onlyGivenNames x
       first
       | (refine Within.cut (W := W) (s := σ) x ?_ ?_; rotate_left; (clear_value x; intro hx))
       | (refine Within.cut (W := W) (s := σ) x.1 ?_ ?_; rotate_left; (clear_value x; intro hx))
       | (refine Within.cut (W := W) (s := σ) x.2 ?_ ?_; rotate_left; (clear_value x; intro hx))
       | (refine Within.cutF (W := W) (s := σ) x ?_ ?_; rotate_left; (clear_value x; intro hf))
       | clear_value x)
    | split
    | (intro t; intros; (try beta_reduce))
    | dsimp -zeta only [x]

theorem State.linksWake_ok {W : Nat} {σ s : State} (hW : 0x400000010 ||| W = W) (h : Within W σ s) :
    Within W σ (State.linksWake s) := by
  unfold State.linksWake
  repeat' first
    | with_reducible assumption
    | (with_reducible apply State.setFld_ok; exact sub_le (by decide) hW)
    | with_reducible apply Within.ite
    | (extract_lets +onlyGivenNames x
       first
       | (refine Within.cut (W := W) (s := σ) x ?_ ?_; rotate_left; (clear_value x; intro hx))
       | (refine Within.cut (W := W) (s := σ) x.1 ?_ ?_; rotate_left; (clear_value x; intro hx))
       | (refine Within.cut (W := W) (s := σ) x.2 ?_ ?_; rotate_left; (clear_value x; intro hx))
       | (refine Within.cutF (W := W) (s := σ) x ?_ ?_; rotate_left; (clear_value x; intro hf))
       | clear_value x)
    | split
    | (with_reducible apply Within.upd_power; exact sub_le (by decide) hW)
    | (intro t; intros; (try beta_reduce))

theorem State.sendProbe_ok {W : Nat} {σ s : State} {a1 : _} (hW : 0x6004200010 ||| W = W) (h : Within W σ s) :
    Within W σ (State.sendProbe s a1) := by
  unfold State.sendProbe
  repeat' first
    | with_reducible assumption
    | (with_reducible apply State.setLink_ok; exact sub_le (by decide) hW)
    | (with_reducible apply State.ctrlMsg_ok; exact sub_le (by decide) hW)
    | (extract_lets +onlyGivenNames x
       first
       | (refine Within.cut (W := W) (s := σ) x ?_ ?_; rotate_left; (clear_value x; intro hx))
       | (refine Within.cut (W := W) (s := σ) x.1 ?_ ?_; rotate_left; (clear_value x; intro hx))
       | (refine Within.cut (W := W) (s := σ) x.2 ?_ ?_; rotate_left; (clear_value x; intro hx))
       | (refine Within.cutF (W := W) (s := σ) x ?_ ?_; rotate_left; (clear_value x; intro hf))
       | clear_value x)
    | (intro t; intros; (try beta_reduce))
    | dsimp -zeta only [x]

theorem State.startProbes_ok {W : Nat} {σ s : State} {a1 a2 : _} (hW : 0x6004200010 ||| W = W) (h : Within W σ s) :
    Within W σ (State.startProbes s a1 a2) := by
  unfold State.startProbes
  repeat' first
    | with_reducible assumption
    | (with_reducible apply State.sendProbe_ok; exact sub_le (by decide) hW)
    | (with_reducible apply State.updLink_ok; exact sub_le (by decide) hW)
    | (extract_lets +onlyGivenNames x
       first
       | (refine Within.cut (W := W) (s := σ) x ?_ ?_; rotate_left; (clear_value x; intro hx))
       | (refine Within.cut (W := W) (s := σ) x.1 ?_ ?_; rotate_left; (clear_value x; intro hx))
       | (refine Within.cut (W := W) (s := σ) x.2 ?_ ?_; rotate_left; (clear_value x; intro hx))
       | (refine Within.cutF (W := W) (s := σ) x ?_ ?_; rotate_left; (clear_value x; intro hf))
       | clear_value x)
    | (intro t; intros; (try beta_reduce))

theorem State.probeTick_ok {W : Nat} {σ s : State} {a1 : _} (hW : 0x6004200010 ||| W = W) (h : Within W σ s) :
    Within W σ (State.probeTick s a1) := by
  unfold State.probeTick
  repeat' first
    | with_reducible assumption
    | (with_reducible apply State.sendProbe_ok; exact sub_le (by decide) hW)
    | with_reducible apply Within.ite
    | (extract_lets +onlyGivenNames x
       first
       | (refine Within.cut (W := W) (s := σ) x ?_ ?_; rotate_left; (clear_value x; intro hx))
       | (refine Within.cut (W := W) (s := σ) x.1 ?_ ?_; rotate_left; (clear_value x; intro hx))
       | (refine Within.cut (W := W) (s := σ) x.2 ?_ ?_; rotate_left; (clear_value x; intro hx))
       | (refine Within.cutF (W := W) (s := σ) x ?_ ?_; rotate_left; (clear_value x; intro hf))
       | clear_value x)
    | split
    | (intro t; intros; (try beta_reduce))
    | dsimp -zeta only [x]

theorem State.judgeDrift_ok {W : Nat} {σ s : State} {a1 : _} (hW : 0x2040040590 ||| W = W) (h : Within W σ s) :
    Within W σ (State.judgeDrift s a1) := by
  unfold State.judgeDrift
  repeat' first
    | with_reducible assumption
    | (with_reducible apply State.setReg_ok; exact sub_le (by decide) hW)
    | (with_reducible apply State.notice_ok; exact sub_le (by decide) hW)
    | (with_reducible apply State.setTimeFld_ok; exact sub_le (by decide) hW)
    | (with_reducible apply State.timeInvalid_ok; exact sub_le (by decide) hW)
    | with_reducible apply Within.ite
    | (extract_lets +onlyGivenNames x
       first
       | (refine Within.cut (W := W) (s := σ) x ?_ ?_; rotate_left; (clear_value x; intro hx))
       | (refine Within.cut (W := W) (s := σ) x.1 ?_ ?_; rotate_left; (clear_value x; intro hx))
       | (refine Within.cut (W := W) (s := σ) x.2 ?_ ?_; rotate_left; (clear_value x; intro hx))
       | (refine Within.cutF (W := W) (s := σ) x ?_ ?_; rotate_left; (clear_value x; intro hf))
       | clear_value x)
    | split
    | (with_reducible apply Within.upd_timeX; exact sub_le (by decide) hW)
    | (intro t; intros; (try beta_reduce))
    | dsimp -zeta only [x]

theorem State.resend_ok {W : Nat} {σ s : State} {a1 : _} (hW : 0x2000200010 ||| W = W) (h : Within W σ s) :
    Within W σ (State.resend s a1) := by
  unfold State.resend
  repeat' first
    | with_reducible assumption
    | (with_reducible apply State.setLink_ok; exact sub_le (by decide) hW)
    | (with_reducible apply State.bump_ok; exact sub_le (by decide) hW)
    | (with_reducible apply Within.fold; (intro t x ht; beta_reduce))
    | (with_reducible apply Within.fold1; (intro t x ht; beta_reduce))
    | (with_reducible apply Within.fold2; (intro t x ht; beta_reduce))
    | (extract_lets +onlyGivenNames x
       first
       | (refine Within.cut (W := W) (s := σ) x ?_ ?_; rotate_left; (clear_value x; intro hx))
       | (refine Within.cut (W := W) (s := σ) x.1 ?_ ?_; rotate_left; (clear_value x; intro hx))
       | (refine Within.cut (W := W) (s := σ) x.2 ?_ ?_; rotate_left; (clear_value x; intro hx))
       | (refine Within.cutF (W := W) (s := σ) x ?_ ?_; rotate_left; (clear_value x; intro hf))
       | clear_value x)
    | (with_reducible apply Within.upd_out; exact sub_le (by decide) hW)
    | (intro t; intros; (try beta_reduce))
    | dsimp -zeta only [x]

theorem State.linkReady_ok {W : Nat} {σ s : State} {a1 : _} (hW : 0x6004200010 ||| W = W) (h : Within W σ s) :
    Within W σ (State.linkReady s a1) := by
  unfold State.linkReady
  repeat' first
    | with_reducible assumption
    | (with_reducible apply State.setLinkSt_ok; exact sub_le (by decide) hW)
    | (with_reducible apply State.setFld_ok; exact sub_le (by decide) hW)
    | (with_reducible apply State.updLink_ok; exact sub_le (by decide) hW)
    | (with_reducible apply State.resend_ok; exact sub_le (by decide) hW)
    | (with_reducible apply State.pump_ok; exact sub_le (by decide) hW)
    | (with_reducible apply State.sendTree_ok; exact sub_le (by decide) hW)
    | with_reducible apply Within.ite
    | (extract_lets +onlyGivenNames x
       first
       | (refine Within.cut (W := W) (s := σ) x ?_ ?_; rotate_left; (clear_value x; intro hx))
       | (refine Within.cut (W := W) (s := σ) x.1 ?_ ?_; rotate_left; (clear_value x; intro hx))
       | (refine Within.cut (W := W) (s := σ) x.2 ?_ ?_; rotate_left; (clear_value x; intro hx))
       | (refine Within.cutF (W := W) (s := σ) x ?_ ?_; rotate_left; (clear_value x; intro hf))
       | clear_value x)
    | split
    | (intro t; intros; (try beta_reduce))
    | dsimp -zeta only [x]

theorem State.tryUp_ok {W : Nat} {σ s : State} {a1 : _} (hW : 0x6004200010 ||| W = W) (h : Within W σ s) :
    Within W σ (State.tryUp s a1) := by
  unfold State.tryUp
  repeat' first
    | with_reducible assumption
    | (with_reducible apply State.linkReady_ok; exact sub_le (by decide) hW)
    | with_reducible apply Within.ite
    | (extract_lets +onlyGivenNames x
       first
       | (refine Within.cut (W := W) (s := σ) x ?_ ?_; rotate_left; (clear_value x; intro hx))
       | (refine Within.cut (W := W) (s := σ) x.1 ?_ ?_; rotate_left; (clear_value x; intro hx))
       | (refine Within.cut (W := W) (s := σ) x.2 ?_ ?_; rotate_left; (clear_value x; intro hx))
       | (refine Within.cutF (W := W) (s := σ) x ?_ ?_; rotate_left; (clear_value x; intro hf))
       | clear_value x)
    | split
    | (intro t; intros; (try beta_reduce))
    | dsimp -zeta only [x]

theorem State.probesDone_ok {W : Nat} {σ s : State} {a1 : _} (hW : 0x6044240590 ||| W = W) (h : Within W σ s) :
    Within W σ (State.probesDone s a1) := by
  unfold State.probesDone
  repeat' first
    | with_reducible assumption
    | (with_reducible apply State.setReg_ok; exact sub_le (by decide) hW)
    | (with_reducible apply State.updLink_ok; exact sub_le (by decide) hW)
    | (with_reducible apply State.judgeDrift_ok; exact sub_le (by decide) hW)
    | (with_reducible apply State.alignFrom_ok; exact sub_le (by decide) hW)
    | (with_reducible apply State.tryUp_ok; exact sub_le (by decide) hW)
    | with_reducible apply Within.ite
    | with_reducible apply Within.ite1
    | with_reducible apply Within.ite2
    | (extract_lets +onlyGivenNames x
       first
       | (refine Within.cut (W := W) (s := σ) x ?_ ?_; rotate_left; (clear_value x; intro hx))
       | (refine Within.cut (W := W) (s := σ) x.1 ?_ ?_; rotate_left; (clear_value x; intro hx))
       | (refine Within.cut (W := W) (s := σ) x.2 ?_ ?_; rotate_left; (clear_value x; intro hx))
       | (refine Within.cutF (W := W) (s := σ) x ?_ ?_; rotate_left; (clear_value x; intro hf))
       | clear_value x)
    | split
    | (intro t; intros; (try beta_reduce))
    | dsimp -zeta only [x]

theorem State.probeAnswer_ok {W : Nat} {σ s : State} {a1 a2 a3 a4 a5 : _} (hW : 0x6044240590 ||| W = W) (h : Within W σ s) :
    Within W σ (State.probeAnswer s a1 a2 a3 a4 a5) := by
  unfold State.probeAnswer
  repeat' first
    | with_reducible assumption
    | (with_reducible apply State.setLink_ok; exact sub_le (by decide) hW)
    | (with_reducible apply State.probesDone_ok; exact sub_le (by decide) hW)
    | with_reducible apply Within.ite
    | (extract_lets +onlyGivenNames x
       first
       | (refine Within.cut (W := W) (s := σ) x ?_ ?_; rotate_left; (clear_value x; intro hx))
       | (refine Within.cut (W := W) (s := σ) x.1 ?_ ?_; rotate_left; (clear_value x; intro hx))
       | (refine Within.cut (W := W) (s := σ) x.2 ?_ ?_; rotate_left; (clear_value x; intro hx))
       | (refine Within.cutF (W := W) (s := σ) x ?_ ?_; rotate_left; (clear_value x; intro hf))
       | clear_value x)
    | split
    | (intro t; intros; (try beta_reduce))
    | dsimp -zeta only [x]

theorem State.probeIn_ok {W : Nat} {σ s : State} {a1 a2 a3 : _} (hW : 0x6404200010 ||| W = W) (h : Within W σ s) :
    Within W σ (State.probeIn s a1 a2 a3) := by
  unfold State.probeIn
  repeat' first
    | with_reducible assumption
    | (with_reducible apply State.ctrlMsg_ok; exact sub_le (by decide) hW)
    | (with_reducible apply State.linksWake_ok; exact sub_le (by decide) hW)
    | with_reducible apply Within.ite
    | split
    | (intro t; intros; (try beta_reduce))

theorem State.rerouteHeld_ok {W : Nat} {σ s : State} {a1 : _} (hW : 0x6004240010 ||| W = W) (h : Within W σ s) :
    Within W σ (State.rerouteHeld s a1) := by
  unfold State.rerouteHeld
  repeat' first
    | with_reducible assumption
    | (with_reducible apply State.routeAt_ok; exact sub_le (by decide) hW)
    | (with_reducible apply Within.fold; (intro t x ht; beta_reduce))
    | (with_reducible apply Within.fold1; (intro t x ht; beta_reduce))
    | (with_reducible apply Within.fold2; (intro t x ht; beta_reduce))
    | (extract_lets +onlyGivenNames x
       first
       | (refine Within.cut (W := W) (s := σ) x ?_ ?_; rotate_left; (clear_value x; intro hx))
       | (refine Within.cut (W := W) (s := σ) x.1 ?_ ?_; rotate_left; (clear_value x; intro hx))
       | (refine Within.cut (W := W) (s := σ) x.2 ?_ ?_; rotate_left; (clear_value x; intro hx))
       | (refine Within.cutF (W := W) (s := σ) x ?_ ?_; rotate_left; (clear_value x; intro hf))
       | clear_value x)
    | (with_reducible apply Within.upd_routed; exact sub_le (by decide) hW)
    | (intro t; intros; (try beta_reduce))
    | dsimp -zeta only [x]

theorem State.endSends_ok {W : Nat} {σ s : State} (hW : 0x400800 ||| W = W) (h : Within W σ s) :
    Within W σ (State.endSends s) := by
  unfold State.endSends
  repeat' first
    | with_reducible assumption
    | (with_reducible apply State.finish_ok; exact sub_le (by decide) hW)
    | with_reducible apply Within.ite
    | (with_reducible apply Within.fold; (intro t x ht; beta_reduce))
    | (with_reducible apply Within.fold1; (intro t x ht; beta_reduce))
    | (with_reducible apply Within.fold2; (intro t x ht; beta_reduce))
    | (extract_lets +onlyGivenNames x
       first
       | (refine Within.cut (W := W) (s := σ) x ?_ ?_; rotate_left; (clear_value x; intro hx))
       | (refine Within.cut (W := W) (s := σ) x.1 ?_ ?_; rotate_left; (clear_value x; intro hx))
       | (refine Within.cut (W := W) (s := σ) x.2 ?_ ?_; rotate_left; (clear_value x; intro hx))
       | (refine Within.cutF (W := W) (s := σ) x ?_ ?_; rotate_left; (clear_value x; intro hf))
       | clear_value x)
    | split
    | (with_reducible apply Within.upd_xfers; exact sub_le (by decide) hW)
    | (intro t; intros; (try beta_reduce))
    | dsimp -zeta only [x]

theorem State.parentLost_ok {W : Nat} {σ s : State} {a1 : _} (hW : 0x6044200590 ||| W = W) (h : Within W σ s) :
    Within W σ (State.parentLost s a1) := by
  unfold State.parentLost
  repeat' first
    | with_reducible assumption
    | (with_reducible apply State.updLink_ok; exact sub_le (by decide) hW)
    | (with_reducible apply State.timeInvalid_ok; exact sub_le (by decide) hW)
    | (with_reducible apply State.alignFrom_ok; exact sub_le (by decide) hW)
    | with_reducible apply Within.ite
    | (extract_lets +onlyGivenNames x
       first
       | (refine Within.cut (W := W) (s := σ) x ?_ ?_; rotate_left; (clear_value x; intro hx))
       | (refine Within.cut (W := W) (s := σ) x.1 ?_ ?_; rotate_left; (clear_value x; intro hx))
       | (refine Within.cut (W := W) (s := σ) x.2 ?_ ?_; rotate_left; (clear_value x; intro hx))
       | (refine Within.cutF (W := W) (s := σ) x ?_ ?_; rotate_left; (clear_value x; intro hf))
       | clear_value x)
    | split
    | (intro t; intros; (try beta_reduce))
    | dsimp -zeta only [x]

theorem State.linkDown_ok {W : Nat} {σ s : State} {a1 a2 a3 : _} (hW : 0x604567dd90 ||| W = W) (h : Within W σ s) :
    Within W σ (State.linkDown s a1 a2 a3) := by
  unfold State.linkDown
  repeat' first
    | with_reducible assumption
    | (with_reducible apply State.setLinkSt_ok; exact sub_le (by decide) hW)
    | (with_reducible apply State.setFld_ok; exact sub_le (by decide) hW)
    | (with_reducible apply State.setLink_ok; exact sub_le (by decide) hW)
    | (with_reducible apply State.parentLost_ok; exact sub_le (by decide) hW)
    | (with_reducible apply State.bump_ok; exact sub_le (by decide) hW)
    | (with_reducible apply State.rerouteHeld_ok; exact sub_le (by decide) hW)
    | (with_reducible apply State.endSends_ok; exact sub_le (by decide) hW)
    | (with_reducible apply State.fault_ok; exact sub_le (by decide) hW)
    | (extract_lets +onlyGivenNames x
       first
       | (refine Within.cut (W := W) (s := σ) x ?_ ?_; rotate_left; (clear_value x; intro hx))
       | (refine Within.cut (W := W) (s := σ) x.1 ?_ ?_; rotate_left; (clear_value x; intro hx))
       | (refine Within.cut (W := W) (s := σ) x.2 ?_ ?_; rotate_left; (clear_value x; intro hx))
       | (refine Within.cutF (W := W) (s := σ) x ?_ ?_; rotate_left; (clear_value x; intro hf))
       | clear_value x)
    | (intro t; intros; (try beta_reduce))
    | dsimp -zeta only [x]

theorem State.trainFail_ok {W : Nat} {σ s : State} {a1 a2 : _} (hW : 0x604567dd90 ||| W = W) (h : Within W σ s) :
    Within W σ (State.trainFail s a1 a2) := by
  unfold State.trainFail
  repeat' first
    | with_reducible assumption
    | (with_reducible apply State.setFld_ok; exact sub_le (by decide) hW)
    | (with_reducible apply State.linkDown_ok; exact sub_le (by decide) hW)
    | (with_reducible apply State.setLinkSt_ok; exact sub_le (by decide) hW)
    | with_reducible apply Within.ite
    | (extract_lets +onlyGivenNames x
       first
       | (refine Within.cut (W := W) (s := σ) x ?_ ?_; rotate_left; (clear_value x; intro hx))
       | (refine Within.cut (W := W) (s := σ) x.1 ?_ ?_; rotate_left; (clear_value x; intro hx))
       | (refine Within.cut (W := W) (s := σ) x.2 ?_ ?_; rotate_left; (clear_value x; intro hx))
       | (refine Within.cutF (W := W) (s := σ) x ?_ ?_; rotate_left; (clear_value x; intro hf))
       | clear_value x)
    | split
    | (intro t; intros; (try beta_reduce))
    | dsimp -zeta only [x]

theorem State.retrainLink_ok {W : Nat} {σ s : State} {a1 : _} (hW : 0x200010 ||| W = W) (h : Within W σ s) :
    Within W σ (State.retrainLink s a1) := by
  unfold State.retrainLink
  repeat' first
    | with_reducible assumption
    | (with_reducible apply State.setLinkSt_ok; exact sub_le (by decide) hW)
    | (with_reducible apply State.updLink_ok; exact sub_le (by decide) hW)
    | (with_reducible apply State.setFld_ok; exact sub_le (by decide) hW)
    | (extract_lets +onlyGivenNames x
       first
       | (refine Within.cut (W := W) (s := σ) x ?_ ?_; rotate_left; (clear_value x; intro hx))
       | (refine Within.cut (W := W) (s := σ) x.1 ?_ ?_; rotate_left; (clear_value x; intro hx))
       | (refine Within.cut (W := W) (s := σ) x.2 ?_ ?_; rotate_left; (clear_value x; intro hx))
       | (refine Within.cutF (W := W) (s := σ) x ?_ ?_; rotate_left; (clear_value x; intro hf))
       | clear_value x)
    | (intro t; intros; (try beta_reduce))
    | dsimp -zeta only [x]

theorem State.startTraining_ok {W : Nat} {σ s : State} {a1 : _} (hW : 0x200010 ||| W = W) (h : Within W σ s) :
    Within W σ (State.startTraining s a1) := by
  unfold State.startTraining
  repeat' first
    | with_reducible assumption
    | (with_reducible apply State.setFld_ok; exact sub_le (by decide) hW)
    | (with_reducible apply State.retrainLink_ok; exact sub_le (by decide) hW)
    | with_reducible apply Within.ite
    | split
    | (intro t; intros; (try beta_reduce))

theorem State.linkEnable_ok {W : Nat} {σ s : State} {a1 a2 : _} (hW : 0x604567dd90 ||| W = W) (h : Within W σ s) :
    Within W σ (State.linkEnable s a1 a2) := by
  unfold State.linkEnable
  repeat' first
    | with_reducible assumption
    | (with_reducible apply State.startTraining_ok; exact sub_le (by decide) hW)
    | (with_reducible apply State.linkDown_ok; exact sub_le (by decide) hW)
    | with_reducible apply Within.ite
    | split
    | (intro t; intros; (try beta_reduce))

theorem State.linkNarrow_ok {W : Nat} {σ s : State} {a1 a2 : _} (hW : 0x600567dd90 ||| W = W) (h : Within W σ s) :
    Within W σ (State.linkNarrow s a1 a2) := by
  unfold State.linkNarrow
  repeat' first
    | with_reducible assumption
    | (with_reducible apply State.setFld_ok; exact sub_le (by decide) hW)
    | (with_reducible apply State.fault_ok; exact sub_le (by decide) hW)
    | (with_reducible apply State.bump_ok; exact sub_le (by decide) hW)
    | (extract_lets +onlyGivenNames x
       first
       | (refine Within.cut (W := W) (s := σ) x ?_ ?_; rotate_left; (clear_value x; intro hx))
       | (refine Within.cut (W := W) (s := σ) x.1 ?_ ?_; rotate_left; (clear_value x; intro hx))
       | (refine Within.cut (W := W) (s := σ) x.2 ?_ ?_; rotate_left; (clear_value x; intro hx))
       | (refine Within.cutF (W := W) (s := σ) x ?_ ?_; rotate_left; (clear_value x; intro hf))
       | clear_value x)
    | (intro t; intros; (try beta_reduce))
    | dsimp -zeta only [x]

theorem State.narrowOrDown_ok {W : Nat} {σ s : State} {a1 a2 : _} (hW : 0x604567dd90 ||| W = W) (h : Within W σ s) :
    Within W σ (State.narrowOrDown s a1 a2) := by
  unfold State.narrowOrDown
  repeat' first
    | with_reducible assumption
    | (with_reducible apply State.linkDown_ok; exact sub_le (by decide) hW)
    | (with_reducible apply State.linkNarrow_ok; exact sub_le (by decide) hW)
    | (with_reducible apply State.ctrlMsg_ok; exact sub_le (by decide) hW)
    | with_reducible apply Within.ite
    | split
    | (intro t; intros; (try beta_reduce))

theorem State.laneLoss_ok {W : Nat} {σ s : State} {a1 a2 : _} (hW : 0x604567dd90 ||| W = W) (h : Within W σ s) :
    Within W σ (State.laneLoss s a1 a2) := by
  unfold State.laneLoss
  repeat' first
    | with_reducible assumption
    | (with_reducible apply State.narrowOrDown_ok; exact sub_le (by decide) hW)
    | with_reducible apply Within.ite
    | split
    | (intro t; intros; (try beta_reduce))

theorem State.partnerDetect_ok {W : Nat} {σ s : State} {a1 : _} (hW : 0x2000200010 ||| W = W) (h : Within W σ s) :
    Within W σ (State.partnerDetect s a1) := by
  unfold State.partnerDetect
  repeat' first
    | with_reducible assumption
    | (with_reducible apply State.emit_ok; exact sub_le (by decide) hW)
    | (with_reducible apply State.setLinkSt_ok; exact sub_le (by decide) hW)
    | with_reducible apply Within.ite
    | split
    | (intro t; intros; (try beta_reduce))

theorem State.trainConverge_ok {W : Nat} {σ s : State} {a1 a2 a3 : _} (hW : 0x600567dd90 ||| W = W) (h : Within W σ s) :
    Within W σ (State.trainConverge s a1 a2 a3) := by
  unfold State.trainConverge
  repeat' first
    | with_reducible assumption
    | (with_reducible apply State.setReg_ok; exact sub_le (by decide) hW)
    | (with_reducible apply State.setLinkSt_ok; exact sub_le (by decide) hW)
    | (with_reducible apply State.setFld_ok; exact sub_le (by decide) hW)
    | (with_reducible apply State.linkNarrow_ok; exact sub_le (by decide) hW)
    | with_reducible apply Within.ite
    | (with_reducible apply Within.fold; (intro t x ht; beta_reduce))
    | (with_reducible apply Within.fold1; (intro t x ht; beta_reduce))
    | (with_reducible apply Within.fold2; (intro t x ht; beta_reduce))
    | (extract_lets +onlyGivenNames x
       first
       | (refine Within.cut (W := W) (s := σ) x ?_ ?_; rotate_left; (clear_value x; intro hx))
       | (refine Within.cut (W := W) (s := σ) x.1 ?_ ?_; rotate_left; (clear_value x; intro hx))
       | (refine Within.cut (W := W) (s := σ) x.2 ?_ ?_; rotate_left; (clear_value x; intro hx))
       | (refine Within.cutF (W := W) (s := σ) x ?_ ?_; rotate_left; (clear_value x; intro hf))
       | clear_value x)
    | split
    | (intro t; intros; (try beta_reduce))
    | dsimp -zeta only [x]

theorem State.alignLock_ok {W : Nat} {σ s : State} {a1 : _} (hW : 0x6004200010 ||| W = W) (h : Within W σ s) :
    Within W σ (State.alignLock s a1) := by
  unfold State.alignLock
  repeat' first
    | with_reducible assumption
    | (with_reducible apply State.ctrlMsg_ok; exact sub_le (by decide) hW)
    | (with_reducible apply State.setLinkSt_ok; exact sub_le (by decide) hW)
    | (with_reducible apply State.startProbes_ok; exact sub_le (by decide) hW)
    | with_reducible apply Within.ite
    | (extract_lets +onlyGivenNames x
       first
       | (refine Within.cut (W := W) (s := σ) x ?_ ?_; rotate_left; (clear_value x; intro hx))
       | (refine Within.cut (W := W) (s := σ) x.1 ?_ ?_; rotate_left; (clear_value x; intro hx))
       | (refine Within.cut (W := W) (s := σ) x.2 ?_ ?_; rotate_left; (clear_value x; intro hx))
       | (refine Within.cutF (W := W) (s := σ) x ?_ ?_; rotate_left; (clear_value x; intro hf))
       | clear_value x)
    | split
    | (intro t; intros; (try beta_reduce))
    | dsimp -zeta only [x]

theorem State.identIn_ok {W : Nat} {σ s : State} {a1 a2 a3 a4 : _} (hW : 0x604567dd90 ||| W = W) (h : Within W σ s) :
    Within W σ (State.identIn s a1 a2 a3 a4) := by
  unfold State.identIn
  repeat' first
    | with_reducible assumption
    | (with_reducible apply State.logErr_ok; exact sub_le (by decide) hW)
    | (with_reducible apply State.trainFail_ok; exact sub_le (by decide) hW)
    | (with_reducible apply State.setReg_ok; exact sub_le (by decide) hW)
    | (with_reducible apply State.linkNarrow_ok; exact sub_le (by decide) hW)
    | (with_reducible apply State.tryUp_ok; exact sub_le (by decide) hW)
    | (with_reducible apply State.updLink_ok; exact sub_le (by decide) hW)
    | with_reducible apply Within.ite
    | (extract_lets +onlyGivenNames x
       first
       | (refine Within.cut (W := W) (s := σ) x ?_ ?_; rotate_left; (clear_value x; intro hx))
       | (refine Within.cut (W := W) (s := σ) x.1 ?_ ?_; rotate_left; (clear_value x; intro hx))
       | (refine Within.cut (W := W) (s := σ) x.2 ?_ ?_; rotate_left; (clear_value x; intro hx))
       | (refine Within.cutF (W := W) (s := σ) x ?_ ?_; rotate_left; (clear_value x; intro hf))
       | clear_value x)
    | split
    | (intro t; intros; (try beta_reduce))
    | dsimp -zeta only [x]

theorem State.trainTimeout_ok {W : Nat} {σ s : State} {a1 : _} (hW : 0x604567dd90 ||| W = W) (h : Within W σ s) :
    Within W σ (State.trainTimeout s a1) := by
  unfold State.trainTimeout
  repeat' first
    | with_reducible assumption
    | (with_reducible apply State.trainFail_ok; exact sub_le (by decide) hW)
    | with_reducible apply Within.ite
    | split
    | (intro t; intros; (try beta_reduce))

theorem State.narrowIn_ok {W : Nat} {σ s : State} {a1 a2 : _} (hW : 0x600567dd90 ||| W = W) (h : Within W σ s) :
    Within W σ (State.narrowIn s a1 a2) := by
  unfold State.narrowIn
  repeat' first
    | with_reducible assumption
    | (with_reducible apply State.linkNarrow_ok; exact sub_le (by decide) hW)
    | with_reducible apply Within.ite
    | split
    | (intro t; intros; (try beta_reduce))

theorem State.ackTo_ok {W : Nat} {σ s : State} {a1 a2 : _} (hW : 0x200000 ||| W = W) (h : Within W σ s) :
    Within W σ (State.ackTo s a1 a2) := by
  unfold State.ackTo
  repeat' first
    | with_reducible assumption
    | (with_reducible apply State.setLink_ok; exact sub_le (by decide) hW)
    | (extract_lets +onlyGivenNames x
       first
       | (refine Within.cut (W := W) (s := σ) x ?_ ?_; rotate_left; (clear_value x; intro hx))
       | (refine Within.cut (W := W) (s := σ) x.1 ?_ ?_; rotate_left; (clear_value x; intro hx))
       | (refine Within.cut (W := W) (s := σ) x.2 ?_ ?_; rotate_left; (clear_value x; intro hx))
       | (refine Within.cutF (W := W) (s := σ) x ?_ ?_; rotate_left; (clear_value x; intro hf))
       | clear_value x)
    | split
    | (intro t; intros; (try beta_reduce))
    | dsimp -zeta only [x]

theorem State.replayLink_ok {W : Nat} {σ s : State} {a1 : _} (hW : 0x2000200010 ||| W = W) (h : Within W σ s) :
    Within W σ (State.replayLink s a1) := by
  unfold State.replayLink
  repeat' first
    | with_reducible assumption
    | (with_reducible apply State.retrainLink_ok; exact sub_le (by decide) hW)
    | (with_reducible apply State.updLink_ok; exact sub_le (by decide) hW)
    | (with_reducible apply State.resend_ok; exact sub_le (by decide) hW)
    | with_reducible apply Within.ite
    | (extract_lets +onlyGivenNames x
       first
       | (refine Within.cut (W := W) (s := σ) x ?_ ?_; rotate_left; (clear_value x; intro hx))
       | (refine Within.cut (W := W) (s := σ) x.1 ?_ ?_; rotate_left; (clear_value x; intro hx))
       | (refine Within.cut (W := W) (s := σ) x.2 ?_ ?_; rotate_left; (clear_value x; intro hx))
       | (refine Within.cutF (W := W) (s := σ) x ?_ ?_; rotate_left; (clear_value x; intro hf))
       | clear_value x)
    | split
    | (intro t; intros; (try beta_reduce))
    | dsimp -zeta only [x]

theorem State.creditIn_ok {W : Nat} {σ s : State} {a1 a2 : _} (hW : 0x200000 ||| W = W) (h : Within W σ s) :
    Within W σ (State.creditIn s a1 a2) := by
  unfold State.creditIn
  repeat' first
    | with_reducible assumption
    | (with_reducible apply State.updLink_ok; exact sub_le (by decide) hW)
    | with_reducible apply Within.ite
    | (extract_lets +onlyGivenNames x
       first
       | (refine Within.cut (W := W) (s := σ) x ?_ ?_; rotate_left; (clear_value x; intro hx))
       | (refine Within.cut (W := W) (s := σ) x.1 ?_ ?_; rotate_left; (clear_value x; intro hx))
       | (refine Within.cut (W := W) (s := σ) x.2 ?_ ?_; rotate_left; (clear_value x; intro hx))
       | (refine Within.cutF (W := W) (s := σ) x ?_ ?_; rotate_left; (clear_value x; intro hf))
       | clear_value x)
    | split
    | (intro t; intros; (try beta_reduce))
    | dsimp -zeta only [x]

theorem State.deliverFlit_ok {W : Nat} {σ s : State} {a1 a2 : _} (hW : 0x600567dd90 ||| W = W) (h : Within W σ s) :
    Within W σ (State.deliverFlit s a1 a2) := by
  unfold State.deliverFlit
  repeat' first
    | with_reducible assumption
    | (with_reducible apply State.retrainLink_ok; exact sub_le (by decide) hW)
    | (with_reducible apply State.fault_ok; exact sub_le (by decide) hW)
    | (with_reducible apply State.setLink_ok; exact sub_le (by decide) hW)
    | (with_reducible apply State.bump_ok; exact sub_le (by decide) hW)
    | (with_reducible apply State.sendNull_ok; exact sub_le (by decide) hW)
    | with_reducible apply Within.ite
    | (extract_lets +onlyGivenNames x
       first
       | (refine Within.cut (W := W) (s := σ) x ?_ ?_; rotate_left; (clear_value x; intro hx))
       | (refine Within.cut (W := W) (s := σ) x.1 ?_ ?_; rotate_left; (clear_value x; intro hx))
       | (refine Within.cut (W := W) (s := σ) x.2 ?_ ?_; rotate_left; (clear_value x; intro hx))
       | (refine Within.cutF (W := W) (s := σ) x ?_ ?_; rotate_left; (clear_value x; intro hf))
       | clear_value x)
    | split
    | (intro t; intros; (try beta_reduce))
    | dsimp -zeta only [x]

theorem State.countSymbols_ok {W : Nat} {σ s : State} {a1 a2 : _} (hW : 0x10 ||| W = W) (h : Within W σ s) :
    Within W σ (State.countSymbols s a1 a2) := by
  unfold State.countSymbols
  dsimp only
  apply State.bump_ok (sub_le (by decide) hW)
  apply Within.fold _ h
  intro t x ht
  exact State.bump_ok (sub_le (by decide) hW) ht

theorem State.flitIn_ok {W : Nat} {σ s : State} {a1 a2 : _} (hW : 0x600567dd90 ||| W = W) (h : Within W σ s) :
    Within W σ (State.flitIn s a1 a2) := by
  unfold State.flitIn
  repeat' first
    | with_reducible assumption
    | (with_reducible apply State.countSymbols_ok; exact sub_le (by decide) hW)
    | (with_reducible apply State.sendNull_ok; exact sub_le (by decide) hW)
    | (with_reducible apply State.bump_ok; exact sub_le (by decide) hW)
    | (with_reducible apply State.ackTo_ok; exact sub_le (by decide) hW)
    | (with_reducible apply State.replayLink_ok; exact sub_le (by decide) hW)
    | (with_reducible apply State.creditIn_ok; exact sub_le (by decide) hW)
    | (with_reducible apply State.deliverFlit_ok; exact sub_le (by decide) hW)
    | (with_reducible apply State.endSends_ok; exact sub_le (by decide) hW)
    | (with_reducible apply State.pump_ok; exact sub_le (by decide) hW)
    | with_reducible apply Within.ite
    | (extract_lets +onlyGivenNames x
       first
       | (refine Within.cut (W := W) (s := σ) x ?_ ?_; rotate_left; (clear_value x; intro hx))
       | (refine Within.cut (W := W) (s := σ) x.1 ?_ ?_; rotate_left; (clear_value x; intro hx))
       | (refine Within.cut (W := W) (s := σ) x.2 ?_ ?_; rotate_left; (clear_value x; intro hx))
       | (refine Within.cutF (W := W) (s := σ) x ?_ ?_; rotate_left; (clear_value x; intro hf))
       | clear_value x)
    | split
    | (intro t; intros; (try beta_reduce))
    | dsimp -zeta only [x]

theorem State.windowEval_ok {W : Nat} {σ s : State} {a1 : _} (hW : 0x604567dd90 ||| W = W) (h : Within W σ s) :
    Within W σ (State.windowEval s a1) := by
  unfold State.windowEval
  repeat' first
    | with_reducible assumption
    | (with_reducible apply State.setLink_ok; exact sub_le (by decide) hW)
    | (with_reducible apply State.narrowOrDown_ok; exact sub_le (by decide) hW)
    | (with_reducible apply State.fault_ok; exact sub_le (by decide) hW)
    | with_reducible apply Within.ite
    | (extract_lets +onlyGivenNames x
       first
       | (refine Within.cut (W := W) (s := σ) x ?_ ?_; rotate_left; (clear_value x; intro hx))
       | (refine Within.cut (W := W) (s := σ) x.1 ?_ ?_; rotate_left; (clear_value x; intro hx))
       | (refine Within.cut (W := W) (s := σ) x.2 ?_ ?_; rotate_left; (clear_value x; intro hx))
       | (refine Within.cutF (W := W) (s := σ) x ?_ ?_; rotate_left; (clear_value x; intro hf))
       | clear_value x)
    | split
    | (intro t; intros; (try beta_reduce))
    | dsimp -zeta only [x]

theorem State.forward_ok {W : Nat} {σ s : State} {a1 a2 : _} (hW : 0x6404240010 ||| W = W) (h : Within W σ s) :
    Within W σ (State.forward s a1 a2) := by
  unfold State.forward
  repeat' first
    | with_reducible assumption
    | (with_reducible apply State.routeAt_ok; exact sub_le (by decide) hW)
    | (with_reducible apply State.bump_ok; exact sub_le (by decide) hW)
    | (with_reducible apply State.linksWake_ok; exact sub_le (by decide) hW)
    | with_reducible apply Within.ite
    | split
    | (intro t; intros; (try beta_reduce))

theorem State.routeStuck_ok {W : Nat} {σ s : State} {a1 : _} (hW : 0x2004040010 ||| W = W) (h : Within W σ s) :
    Within W σ (State.routeStuck s a1) := by
  unfold State.routeStuck
  repeat' first
    | with_reducible assumption
    | (with_reducible apply State.notice_ok; exact sub_le (by decide) hW)
    | (with_reducible apply State.bump_ok; exact sub_le (by decide) hW)
    | with_reducible apply Within.ite
    | (with_reducible apply Within.fold; (intro t x ht; beta_reduce))
    | (with_reducible apply Within.fold1; (intro t x ht; beta_reduce))
    | (with_reducible apply Within.fold2; (intro t x ht; beta_reduce))
    | (extract_lets +onlyGivenNames x
       first
       | (refine Within.cut (W := W) (s := σ) x ?_ ?_; rotate_left; (clear_value x; intro hx))
       | (refine Within.cut (W := W) (s := σ) x.1 ?_ ?_; rotate_left; (clear_value x; intro hx))
       | (refine Within.cut (W := W) (s := σ) x.2 ?_ ?_; rotate_left; (clear_value x; intro hx))
       | (refine Within.cutF (W := W) (s := σ) x ?_ ?_; rotate_left; (clear_value x; intro hf))
       | clear_value x)
    | split
    | (with_reducible apply Within.upd_routed; exact sub_le (by decide) hW)
    | (intro t; intros; (try beta_reduce))
    | dsimp -zeta only [x]

theorem State.takeNotice_ok {W : Nat} {σ s : State} {a1 : _} (hW : 0x9000000 ||| W = W) (h : Within W σ s) :
    Within W σ (State.takeNotice s a1) := by
  unfold State.takeNotice
  repeat' first
    | with_reducible assumption
    | (extract_lets +onlyGivenNames x
       first
       | (refine Within.cut (W := W) (s := σ) x ?_ ?_; rotate_left; (clear_value x; intro hx))
       | (refine Within.cut (W := W) (s := σ) x.1 ?_ ?_; rotate_left; (clear_value x; intro hx))
       | (refine Within.cut (W := W) (s := σ) x.2 ?_ ?_; rotate_left; (clear_value x; intro hx))
       | (refine Within.cutF (W := W) (s := σ) x ?_ ?_; rotate_left; (clear_value x; intro hf))
       | clear_value x)
    | (with_reducible apply Within.upd_colls_notices; exact sub_le (by decide) hW)
    | (intro t; intros; (try beta_reduce))

theorem State.noticeIn_ok {W : Nat} {σ s : State} {a1 a2 a3 a4 a5 a6 : _} (hW : 0x600d200010 ||| W = W) (h : Within W σ s) :
    Within W σ (State.noticeIn s a1 a2 a3 a4 a5 a6) := by
  unfold State.noticeIn
  repeat' first
    | with_reducible assumption
    | (with_reducible apply State.takeNotice_ok; exact sub_le (by decide) hW)
    | (with_reducible apply State.ctrlMsg_ok; exact sub_le (by decide) hW)
    | with_reducible apply Within.ite
    | (with_reducible apply Within.fold; (intro t x ht; beta_reduce))
    | (with_reducible apply Within.fold1; (intro t x ht; beta_reduce))
    | (with_reducible apply Within.fold2; (intro t x ht; beta_reduce))
    | (extract_lets +onlyGivenNames x
       first
       | (refine Within.cut (W := W) (s := σ) x ?_ ?_; rotate_left; (clear_value x; intro hx))
       | (refine Within.cut (W := W) (s := σ) x.1 ?_ ?_; rotate_left; (clear_value x; intro hx))
       | (refine Within.cut (W := W) (s := σ) x.2 ?_ ?_; rotate_left; (clear_value x; intro hx))
       | (refine Within.cutF (W := W) (s := σ) x ?_ ?_; rotate_left; (clear_value x; intro hf))
       | clear_value x)
    | split
    | (intro t; intros; (try beta_reduce))
    | dsimp -zeta only [x]

theorem State.driftProbe_ok {W : Nat} {σ s : State} (hW : 0x6004200010 ||| W = W) (h : Within W σ s) :
    Within W σ (State.driftProbe s) := by
  unfold State.driftProbe
  repeat' first
    | with_reducible assumption
    | (with_reducible apply State.startProbes_ok; exact sub_le (by decide) hW)
    | with_reducible apply Within.ite
    | split
    | (intro t; intros; (try beta_reduce))

theorem State.remeasureTime_ok {W : Nat} {σ s : State} (hW : 0x6044200590 ||| W = W) (h : Within W σ s) :
    Within W σ (State.remeasureTime s) := by
  unfold State.remeasureTime
  repeat' first
    | with_reducible assumption
    | (with_reducible apply State.alignRoot_ok; exact sub_le (by decide) hW)
    | (with_reducible apply State.startProbes_ok; exact sub_le (by decide) hW)
    | (with_reducible apply State.progress_ok; exact sub_le (by decide) hW)
    | with_reducible apply Within.ite
    | split
    | (intro t; intros; (try beta_reduce))

end Sys2Proof.Machine
end

