-- ==== Sys2Proof/Laws/FSnapshot.lean ====
section
/-! SUPPORT. What each operation of Snapshot.lean can change, and that it keeps the tables in canonical form. -/

set_option linter.all false

namespace Sys2Proof.Machine

theorem State.setSnapFld_ok {W : Nat} {σ s : State} {a1 a2 a3 : _} (hW : 0x10 ||| W = W) (h : Within W σ s) :
    Within W σ (State.setSnapFld s a1 a2 a3) := by
  unfold State.setSnapFld
  repeat' first
    | with_reducible assumption
    | (with_reducible apply State.setFld_ok; exact sub_le (by decide) hW)
    | (intro t; intros; (try beta_reduce))

theorem State.updSnap_ok {W : Nat} {σ s : State} {a1 a2 : _} (hW : 0x1000 ||| W = W) (h : Within W σ s) :
    Within W σ (State.updSnap s a1 a2) := by
  unfold State.updSnap
  repeat' first
    | with_reducible assumption
    | (with_reducible apply State.updPart_ok; exact sub_le (by decide) hW)
    | (extract_lets +onlyGivenNames x
       first
       | (refine Within.cut (W := W) (s := σ) x ?_ ?_; rotate_left; (clear_value x; intro hx))
       | (refine Within.cut (W := W) (s := σ) x.1 ?_ ?_; rotate_left; (clear_value x; intro hx))
       | (refine Within.cut (W := W) (s := σ) x.2 ?_ ?_; rotate_left; (clear_value x; intro hx))
       | (refine Within.cutF (W := W) (s := σ) x ?_ ?_; rotate_left; (clear_value x; intro hf))
       | clear_value x)
    | (intro t; intros; (try beta_reduce))

theorem State.snapErr_ok {W : Nat} {σ s : State} {a1 a2 : _} (hW : 0x10 ||| W = W) (h : Within W σ s) :
    Within W σ (State.snapErr s a1 a2) := by
  unfold State.snapErr
  repeat' first
    | with_reducible assumption
    | (with_reducible apply State.setSnapFld_ok; exact sub_le (by decide) hW)
    | (intro t; intros; (try beta_reduce))

theorem State.sendStream_ok {W : Nat} {σ s : State} {a1 a2 a3 a4 a5 a6 a7 : _} (hW : 0x6004640010 ||| W = W) (h : Within W σ s) :
    Within W σ (State.sendStream s a1 a2 a3 a4 a5 a6 a7) := by
  unfold State.sendStream
  repeat' first
    | with_reducible assumption
    | (with_reducible apply State.sendPk_ok; exact sub_le (by decide) hW)
    | (extract_lets +onlyGivenNames x
       first
       | (refine Within.cut (W := W) (s := σ) x ?_ ?_; rotate_left; (clear_value x; intro hx))
       | (refine Within.cut (W := W) (s := σ) x.1 ?_ ?_; rotate_left; (clear_value x; intro hx))
       | (refine Within.cut (W := W) (s := σ) x.2 ?_ ?_; rotate_left; (clear_value x; intro hx))
       | (refine Within.cutF (W := W) (s := σ) x ?_ ?_; rotate_left; (clear_value x; intro hf))
       | clear_value x)
    | (with_reducible apply Within.upd_xfers; exact sub_le (by decide) hW)
    | (intro t; intros; (try beta_reduce))
    | dsimp -zeta only [x]

theorem State.fillStage_ok {W : Nat} {σ s : State} {a1 a2 a3 : _} (hW : 0x1590 ||| W = W) (h : Within W σ s) :
    Within W σ (State.fillStage s a1 a2 a3) := by
  unfold State.fillStage
  repeat' first
    | with_reducible assumption
    | (with_reducible apply State.meter_ok; exact sub_le (by decide) hW)
    | (with_reducible apply State.wrBytes_ok; exact sub_le (by decide) hW)
    | (with_reducible apply State.updSnap_ok; exact sub_le (by decide) hW)
    | (with_reducible apply State.progress_ok; exact sub_le (by decide) hW)
    | (extract_lets +onlyGivenNames x
       first
       | (refine Within.cut (W := W) (s := σ) x ?_ ?_; rotate_left; (clear_value x; intro hx))
       | (refine Within.cut (W := W) (s := σ) x.1 ?_ ?_; rotate_left; (clear_value x; intro hx))
       | (refine Within.cut (W := W) (s := σ) x.2 ?_ ?_; rotate_left; (clear_value x; intro hx))
       | (refine Within.cutF (W := W) (s := σ) x ?_ ?_; rotate_left; (clear_value x; intro hf))
       | clear_value x)
    | (intro t; intros; (try beta_reduce))
    | dsimp -zeta only [x]

theorem State.snapFail_ok {W : Nat} {σ s : State} {a1 a2 a3 : _} (hW : 0x6005671d90 ||| W = W) (h : Within W σ s) :
    Within W σ (State.snapFail s a1 a2 a3) := by
  unfold State.snapFail
  repeat' first
    | with_reducible assumption
    | (with_reducible apply State.abortCmd_ok; exact sub_le (by decide) hW)
    | (with_reducible apply State.snapErr_ok; exact sub_le (by decide) hW)
    | (intro t; intros; (try beta_reduce))

theorem State.countSnap_ok {W : Nat} {σ s : State} {a1 : _} (hW : 0x10 ||| W = W) (h : Within W σ s) :
    Within W σ (State.countSnap s a1) := by
  unfold State.countSnap
  repeat' first
    | with_reducible assumption
    | (with_reducible apply State.setReg_ok; exact sub_le (by decide) hW)
    | (with_reducible apply State.bump_ok; exact sub_le (by decide) hW)
    | (intro t; intros; (try beta_reduce))

theorem State.pause_ok {W : Nat} {σ s : State} {a1 : _} (hW : 0x1000 ||| W = W) (h : Within W σ s) :
    Within W σ (State.pause s a1) := by
  unfold State.pause
  repeat' first
    | with_reducible assumption
    | (with_reducible apply State.updPart_ok; exact sub_le (by decide) hW)
    | (extract_lets +onlyGivenNames x
       first
       | (refine Within.cut (W := W) (s := σ) x ?_ ?_; rotate_left; (clear_value x; intro hx))
       | (refine Within.cut (W := W) (s := σ) x.1 ?_ ?_; rotate_left; (clear_value x; intro hx))
       | (refine Within.cut (W := W) (s := σ) x.2 ?_ ?_; rotate_left; (clear_value x; intro hx))
       | (refine Within.cutF (W := W) (s := σ) x ?_ ?_; rotate_left; (clear_value x; intro hf))
       | clear_value x)
    | (intro t; intros; (try beta_reduce))

theorem State.localStage_ok {W : Nat} {σ s : State} {a1 a2 : _} (hW : 0x6005671d90 ||| W = W) (h : Within W σ s) :
    Within W σ (State.localStage s a1 a2) := by
  unfold State.localStage
  repeat' first
    | with_reducible assumption
    | (with_reducible apply State.snapFail_ok; exact sub_le (by decide) hW)
    | (with_reducible apply State.updCmd_ok; exact sub_le (by decide) hW)
    | (with_reducible apply State.countSnap_ok; exact sub_le (by decide) hW)
    | (with_reducible apply State.fillStage_ok; exact sub_le (by decide) hW)
    | (with_reducible apply State.pause_ok; exact sub_le (by decide) hW)
    | (with_reducible apply State.sendStream_ok; exact sub_le (by decide) hW)
    | (with_reducible apply State.setSnapFld_ok; exact sub_le (by decide) hW)
    | (with_reducible apply State.finish_ok; exact sub_le (by decide) hW)
    | with_reducible apply Within.ite
    | (extract_lets +onlyGivenNames x
       first
       | (refine Within.cut (W := W) (s := σ) x ?_ ?_; rotate_left; (clear_value x; intro hx))
       | (refine Within.cut (W := W) (s := σ) x.1 ?_ ?_; rotate_left; (clear_value x; intro hx))
       | (refine Within.cut (W := W) (s := σ) x.2 ?_ ?_; rotate_left; (clear_value x; intro hx))
       | (refine Within.cutF (W := W) (s := σ) x ?_ ?_; rotate_left; (clear_value x; intro hf))
       | clear_value x)
    | split
    | (intro t; intros; (try beta_reduce))
    | dsimp -zeta only [x]

theorem State.direct_ok {W : Nat} {σ s : State} {a1 a2 : _} (hW : 0x6005671d90 ||| W = W) (h : Within W σ s) :
    Within W σ (State.direct s a1 a2) := by
  unfold State.direct
  repeat' first
    | with_reducible assumption
    | (with_reducible apply State.snapFail_ok; exact sub_le (by decide) hW)
    | (with_reducible apply State.setSnapFld_ok; exact sub_le (by decide) hW)
    | (with_reducible apply State.countSnap_ok; exact sub_le (by decide) hW)
    | (with_reducible apply State.pause_ok; exact sub_le (by decide) hW)
    | (with_reducible apply State.sendStream_ok; exact sub_le (by decide) hW)
    | with_reducible apply Within.ite
    | (extract_lets +onlyGivenNames x
       first
       | (refine Within.cut (W := W) (s := σ) x ?_ ?_; rotate_left; (clear_value x; intro hx))
       | (refine Within.cut (W := W) (s := σ) x.1 ?_ ?_; rotate_left; (clear_value x; intro hx))
       | (refine Within.cut (W := W) (s := σ) x.2 ?_ ?_; rotate_left; (clear_value x; intro hx))
       | (refine Within.cutF (W := W) (s := σ) x ?_ ?_; rotate_left; (clear_value x; intro hf))
       | clear_value x)
    | split
    | (intro t; intros; (try beta_reduce))
    | dsimp -zeta only [x]

theorem State.streamDone_ok {W : Nat} {σ s : State} {a1 : _} (hW : 0x400010 ||| W = W) (h : Within W σ s) :
    Within W σ (State.streamDone s a1) := by
  unfold State.streamDone
  repeat' first
    | with_reducible assumption
    | (with_reducible apply State.progress_ok; exact sub_le (by decide) hW)
    | (with_reducible apply State.setSnapFld_ok; exact sub_le (by decide) hW)
    | (extract_lets +onlyGivenNames x
       first
       | (refine Within.cut (W := W) (s := σ) x ?_ ?_; rotate_left; (clear_value x; intro hx))
       | (refine Within.cut (W := W) (s := σ) x.1 ?_ ?_; rotate_left; (clear_value x; intro hx))
       | (refine Within.cut (W := W) (s := σ) x.2 ?_ ?_; rotate_left; (clear_value x; intro hx))
       | (refine Within.cutF (W := W) (s := σ) x ?_ ?_; rotate_left; (clear_value x; intro hf))
       | clear_value x)
    | split
    | (with_reducible apply Within.upd_xfers; exact sub_le (by decide) hW)
    | (intro t; intros; (try beta_reduce))
    | dsimp -zeta only [x]

theorem State.streamLost_ok {W : Nat} {σ s : State} {a1 : _} (hW : 0x10 ||| W = W) (h : Within W σ s) :
    Within W σ (State.streamLost s a1) := by
  unfold State.streamLost
  repeat' first
    | with_reducible assumption
    | (with_reducible apply State.setSnapFld_ok; exact sub_le (by decide) hW)
    | with_reducible apply Within.ite
    | split
    | (intro t; intros; (try beta_reduce))

theorem State.tryPair_ok {W : Nat} {σ s : State} {a1 : _} (hW : 0x6005671d90 ||| W = W) (h : Within W σ s) :
    Within W σ (State.tryPair s a1) := by
  unfold State.tryPair
  repeat' first
    | with_reducible assumption
    | (with_reducible apply State.updSnap_ok; exact sub_le (by decide) hW)
    | (with_reducible apply State.snapFail_ok; exact sub_le (by decide) hW)
    | (with_reducible apply State.raisePage_ok; exact sub_le (by decide) hW)
    | (with_reducible apply State.notice_ok; exact sub_le (by decide) hW)
    | (with_reducible apply State.finish_ok; exact sub_le (by decide) hW)
    | (with_reducible apply State.setReg_ok; exact sub_le (by decide) hW)
    | with_reducible apply Within.ite
    | (extract_lets +onlyGivenNames x
       first
       | (refine Within.cut (W := W) (s := σ) x ?_ ?_; rotate_left; (clear_value x; intro hx))
       | (refine Within.cut (W := W) (s := σ) x.1 ?_ ?_; rotate_left; (clear_value x; intro hx))
       | (refine Within.cut (W := W) (s := σ) x.2 ?_ ?_; rotate_left; (clear_value x; intro hx))
       | (refine Within.cutF (W := W) (s := σ) x ?_ ?_; rotate_left; (clear_value x; intro hf))
       | clear_value x)
    | split
    | (intro t; intros; (try beta_reduce))
    | dsimp -zeta only [x]

theorem State.pairStart_ok {W : Nat} {σ s : State} {a1 a2 : _} (hW : 0x6005671d90 ||| W = W) (h : Within W σ s) :
    Within W σ (State.pairStart s a1 a2) := by
  unfold State.pairStart
  repeat' first
    | with_reducible assumption
    | (with_reducible apply State.abortCmd_ok; exact sub_le (by decide) hW)
    | (with_reducible apply State.updSnap_ok; exact sub_le (by decide) hW)
    | (with_reducible apply State.tryPair_ok; exact sub_le (by decide) hW)
    | (with_reducible apply State.sendStream_ok; exact sub_le (by decide) hW)
    | with_reducible apply Within.ite
    | (extract_lets +onlyGivenNames x
       first
       | (refine Within.cut (W := W) (s := σ) x ?_ ?_; rotate_left; (clear_value x; intro hx))
       | (refine Within.cut (W := W) (s := σ) x.1 ?_ ?_; rotate_left; (clear_value x; intro hx))
       | (refine Within.cut (W := W) (s := σ) x.2 ?_ ?_; rotate_left; (clear_value x; intro hx))
       | (refine Within.cutF (W := W) (s := σ) x ?_ ?_; rotate_left; (clear_value x; intro hf))
       | clear_value x)
    | split
    | (intro t; intros; (try beta_reduce))
    | dsimp -zeta only [x]

theorem State.blockIn_ok {W : Nat} {σ s : State} {a1 a2 a3 : _} (hW : 0x6005671d90 ||| W = W) (h : Within W σ s) :
    Within W σ (State.blockIn s a1 a2 a3) := by
  unfold State.blockIn
  repeat' first
    | with_reducible assumption
    | (with_reducible apply State.updSnap_ok; exact sub_le (by decide) hW)
    | (with_reducible apply State.tryPair_ok; exact sub_le (by decide) hW)
    | (with_reducible apply State.freshen_ok; exact sub_le (by decide) hW)
    | (with_reducible apply State.sendStream_ok; exact sub_le (by decide) hW)
    | with_reducible apply Within.ite
    | (extract_lets +onlyGivenNames x
       first
       | (refine Within.cut (W := W) (s := σ) x ?_ ?_; rotate_left; (clear_value x; intro hx))
       | (refine Within.cut (W := W) (s := σ) x.1 ?_ ?_; rotate_left; (clear_value x; intro hx))
       | (refine Within.cut (W := W) (s := σ) x.2 ?_ ?_; rotate_left; (clear_value x; intro hx))
       | (refine Within.cutF (W := W) (s := σ) x ?_ ?_; rotate_left; (clear_value x; intro hf))
       | clear_value x)
    | split
    | (intro t; intros; (try beta_reduce))
    | dsimp -zeta only [x]

theorem State.blockNotices_ok {W : Nat} {σ s : State} {a1 a2 : _} (hW : 0x2000040010 ||| W = W) (h : Within W σ s) :
    Within W σ (State.blockNotices s a1 a2) := by
  unfold State.blockNotices
  repeat' first
    | with_reducible assumption
    | (with_reducible apply State.notice_ok; exact sub_le (by decide) hW)
    | (with_reducible apply Within.fold; (intro t x ht; beta_reduce))
    | (with_reducible apply Within.fold1; (intro t x ht; beta_reduce))
    | (with_reducible apply Within.fold2; (intro t x ht; beta_reduce))
    | with_reducible apply Within.ite1
    | with_reducible apply Within.ite2
    | (intro t; intros; (try beta_reduce))

theorem State.slotIn_ok {W : Nat} {σ s : State} {a1 a2 a3 a4 a5 : _} (hW : 0x2000040010 ||| W = W) (h : Within W σ s) :
    Within W σ (State.slotIn s a1 a2 a3 a4 a5) := by
  unfold State.slotIn
  repeat' first
    | with_reducible assumption
    | (with_reducible apply State.blockNotices_ok; exact sub_le (by decide) hW)
    | (with_reducible apply State.setReg_ok; exact sub_le (by decide) hW)
    | with_reducible apply Within.ite
    | (extract_lets +onlyGivenNames x
       first
       | (refine Within.cut (W := W) (s := σ) x ?_ ?_; rotate_left; (clear_value x; intro hx))
       | (refine Within.cut (W := W) (s := σ) x.1 ?_ ?_; rotate_left; (clear_value x; intro hx))
       | (refine Within.cut (W := W) (s := σ) x.2 ?_ ?_; rotate_left; (clear_value x; intro hx))
       | (refine Within.cutF (W := W) (s := σ) x ?_ ?_; rotate_left; (clear_value x; intro hf))
       | clear_value x)
    | split
    | (intro t; intros; (try beta_reduce))
    | dsimp -zeta only [x]

theorem State.snapClosed_ok {W : Nat} {σ s : State} {a1 : _} (hW : 0x6005671d90 ||| W = W) (h : Within W σ s) :
    Within W σ (State.snapClosed s a1) := by
  unfold State.snapClosed
  extract_lets +onlyGivenNames p s1
  have h1 : Within W σ s1 := Within.upd_xfers (sub_le (by decide) hW) h
  clear_value s1
  refine Within.ite (State.blockIn_ok (sub_le (by decide) hW) h1) ?_
  refine Within.ite ?_ (State.slotIn_ok (sub_le (by decide) hW) h1)
  extract_lets +onlyGivenNames bs s2 s3
  have h2 : Within W σ s2 := State.blockNotices_ok (sub_le (by decide) hW) h1
  have h3 : Within W σ s3 := by
    dsimp -zeta only [s3]
    exact State.updSnap_ok (sub_le (by decide) hW) h2
  clear_value s3
  split
  · exact State.finish_ok (sub_le (by decide) hW) h3
  · exact h3

theorem State.snapData_ok {W : Nat} {σ s : State} {a1 a2 : _} (hW : 0x6005671d90 ||| W = W) (h : Within W σ s) :
    Within W σ (State.snapData s a1 a2) := by
  unfold State.snapData
  repeat' first
    | with_reducible assumption
    | (with_reducible apply State.setReg_ok; exact sub_le (by decide) hW)
    | (with_reducible apply State.meter_ok; exact sub_le (by decide) hW)
    | (with_reducible apply State.wrBytes_ok; exact sub_le (by decide) hW)
    | (with_reducible apply State.snapClosed_ok; exact sub_le (by decide) hW)
    | with_reducible apply Within.ite
    | (extract_lets +onlyGivenNames x
       first
       | (refine Within.cut (W := W) (s := σ) x ?_ ?_; rotate_left; (clear_value x; intro hx))
       | (refine Within.cut (W := W) (s := σ) x.1 ?_ ?_; rotate_left; (clear_value x; intro hx))
       | (refine Within.cut (W := W) (s := σ) x.2 ?_ ?_; rotate_left; (clear_value x; intro hx))
       | (refine Within.cutF (W := W) (s := σ) x ?_ ?_; rotate_left; (clear_value x; intro hf))
       | clear_value x)
    | split
    | (with_reducible apply Within.upd_xfers; exact sub_le (by decide) hW)
    | (intro t; intros; (try beta_reduce))
    | dsimp -zeta only [x]

theorem State.fetchStart_ok {W : Nat} {σ s : State} {a1 a2 : _} (hW : 0x6005671d90 ||| W = W) (h : Within W σ s) :
    Within W σ (State.fetchStart s a1 a2) := by
  unfold State.fetchStart
  repeat' first
    | with_reducible assumption
    | (with_reducible apply State.abortCmd_ok; exact sub_le (by decide) hW)
    | (with_reducible apply State.emit_ok; exact sub_le (by decide) hW)
    | (with_reducible apply State.updSnap_ok; exact sub_le (by decide) hW)
    | with_reducible apply Within.ite
    | (extract_lets +onlyGivenNames x
       first
       | (refine Within.cut (W := W) (s := σ) x ?_ ?_; rotate_left; (clear_value x; intro hx))
       | (refine Within.cut (W := W) (s := σ) x.1 ?_ ?_; rotate_left; (clear_value x; intro hx))
       | (refine Within.cut (W := W) (s := σ) x.2 ?_ ?_; rotate_left; (clear_value x; intro hx))
       | (refine Within.cutF (W := W) (s := σ) x ?_ ?_; rotate_left; (clear_value x; intro hf))
       | clear_value x)
    | split
    | (intro t; intros; (try beta_reduce))
    | dsimp -zeta only [x]

theorem State.loadEntry_ok {W : Nat} {σ s : State} {a1 a2 : _} (hW : 0x30 ||| W = W) (h : Within W σ s) :
    Within W σ (State.loadEntry s a1 a2) := by
  unfold State.loadEntry
  repeat' first
    | with_reducible assumption
    | (with_reducible apply State.meltChange_ok; exact sub_le (by decide) hW)
    | (with_reducible apply State.setEnt_ok; exact sub_le (by decide) hW)
    | with_reducible apply Within.ite
    | (with_reducible apply Within.fold; (intro t x ht; beta_reduce))
    | (with_reducible apply Within.fold1; (intro t x ht; beta_reduce))
    | (with_reducible apply Within.fold2; (intro t x ht; beta_reduce))
    | with_reducible apply Within.ite1
    | with_reducible apply Within.ite2
    | (extract_lets +onlyGivenNames x
       first
       | (refine Within.cut (W := W) (s := σ) x ?_ ?_; rotate_left; (clear_value x; intro hx))
       | (refine Within.cut (W := W) (s := σ) x.1 ?_ ?_; rotate_left; (clear_value x; intro hx))
       | (refine Within.cut (W := W) (s := σ) x.2 ?_ ?_; rotate_left; (clear_value x; intro hx))
       | (refine Within.cutF (W := W) (s := σ) x ?_ ?_; rotate_left; (clear_value x; intro hf))
       | clear_value x)
    | split
    | (intro t; intros; (try beta_reduce))
    | dsimp -zeta only [x]

theorem State.loadSection_ok {W : Nat} {σ s : State} {a1 a2 a3 : _} (hW : 0x1030 ||| W = W) (h : Within W σ s) :
    Within W σ (State.loadSection s a1 a2 a3) := by
  unfold State.loadSection
  repeat' first
    | with_reducible assumption
    | (with_reducible apply State.setReg_ok; exact sub_le (by decide) hW)
    | (with_reducible apply State.loadEntry_ok; exact sub_le (by decide) hW)
    | (with_reducible apply State.meltChange_ok; exact sub_le (by decide) hW)
    | (with_reducible apply State.updPart_ok; exact sub_le (by decide) hW)
    | with_reducible apply Within.ite
    | (with_reducible apply Within.fold; (intro t x ht; beta_reduce))
    | (with_reducible apply Within.fold1; (intro t x ht; beta_reduce))
    | (with_reducible apply Within.fold2; (intro t x ht; beta_reduce))
    | with_reducible apply Within.ite1
    | with_reducible apply Within.ite2
    | (extract_lets +onlyGivenNames x
       first
       | (refine Within.cut (W := W) (s := σ) x ?_ ?_; rotate_left; (clear_value x; intro hx))
       | (refine Within.cut (W := W) (s := σ) x.1 ?_ ?_; rotate_left; (clear_value x; intro hx))
       | (refine Within.cut (W := W) (s := σ) x.2 ?_ ?_; rotate_left; (clear_value x; intro hx))
       | (refine Within.cutF (W := W) (s := σ) x ?_ ?_; rotate_left; (clear_value x; intro hf))
       | clear_value x)
    | split
    | (intro t; intros; (try beta_reduce))
    | dsimp -zeta only [x]

theorem State.restore_ok {W : Nat} {σ s : State} {a1 a2 : _} (hW : 0x6005671db0 ||| W = W) (h : Within W σ s) :
    Within W σ (State.restore s a1 a2) := by
  unfold State.restore
  repeat' first
    | with_reducible assumption
    | (with_reducible apply State.pause_ok; exact sub_le (by decide) hW)
    | (with_reducible apply State.abortCmd_ok; exact sub_le (by decide) hW)
    | (with_reducible apply State.snapErr_ok; exact sub_le (by decide) hW)
    | (with_reducible apply State.updCmd_ok; exact sub_le (by decide) hW)
    | (with_reducible apply State.wrBytes_ok; exact sub_le (by decide) hW)
    | (with_reducible apply State.loadSection_ok; exact sub_le (by decide) hW)
    | (with_reducible apply State.finish_ok; exact sub_le (by decide) hW)
    | (with_reducible apply State.progress_ok; exact sub_le (by decide) hW)
    | (with_reducible apply State.meter_ok; exact sub_le (by decide) hW)
    | with_reducible apply Within.ite
    | (with_reducible apply Within.fold; (intro t x ht; beta_reduce))
    | (with_reducible apply Within.fold1; (intro t x ht; beta_reduce))
    | (with_reducible apply Within.fold2; (intro t x ht; beta_reduce))
    | with_reducible apply Within.ite1
    | with_reducible apply Within.ite2
    | (extract_lets +onlyGivenNames x
       first
       | (refine Within.cut (W := W) (s := σ) x ?_ ?_; rotate_left; (clear_value x; intro hx))
       | (refine Within.cut (W := W) (s := σ) x.1 ?_ ?_; rotate_left; (clear_value x; intro hx))
       | (refine Within.cut (W := W) (s := σ) x.2 ?_ ?_; rotate_left; (clear_value x; intro hx))
       | (refine Within.cutF (W := W) (s := σ) x ?_ ?_; rotate_left; (clear_value x; intro hf))
       | clear_value x)
    | split
    | (intro t; intros; (try beta_reduce))
    | dsimp -zeta only [x]

theorem State.ckptErr_ok {W : Nat} {σ s : State} {a1 a2 : _} (hW : 0x10 ||| W = W) (h : Within W σ s) :
    Within W σ (State.ckptErr s a1 a2) := by
  unfold State.ckptErr
  repeat' first
    | with_reducible assumption
    | (with_reducible apply State.setSnapFld_ok; exact sub_le (by decide) hW)
    | (intro t; intros; (try beta_reduce))

theorem State.ckptOut_ok {W : Nat} {σ s : State} {a1 : _} (hW : 0x1010 ||| W = W) (h : Within W σ s) :
    Within W σ (State.ckptOut s a1) := by
  unfold State.ckptOut
  repeat' first
    | with_reducible assumption
    | (with_reducible apply State.setSnapFld_ok; exact sub_le (by decide) hW)
    | (with_reducible apply State.ckptErr_ok; exact sub_le (by decide) hW)
    | (with_reducible apply State.bump_ok; exact sub_le (by decide) hW)
    | (with_reducible apply State.updSnap_ok; exact sub_le (by decide) hW)
    | (with_reducible apply State.setReg_ok; exact sub_le (by decide) hW)
    | with_reducible apply Within.ite
    | (extract_lets +onlyGivenNames x
       first
       | (refine Within.cut (W := W) (s := σ) x ?_ ?_; rotate_left; (clear_value x; intro hx))
       | (refine Within.cut (W := W) (s := σ) x.1 ?_ ?_; rotate_left; (clear_value x; intro hx))
       | (refine Within.cut (W := W) (s := σ) x.2 ?_ ?_; rotate_left; (clear_value x; intro hx))
       | (refine Within.cutF (W := W) (s := σ) x ?_ ?_; rotate_left; (clear_value x; intro hf))
       | clear_value x)
    | split
    | (intro t; intros; (try beta_reduce))
    | dsimp -zeta only [x]

theorem State.ckptPushDone_ok {W : Nat} {σ s : State} {a1 : _} (hW : 0x1590 ||| W = W) (h : Within W σ s) :
    Within W σ (State.ckptPushDone s a1) := by
  unfold State.ckptPushDone
  repeat' first
    | with_reducible assumption
    | (with_reducible apply State.wrBytes_ok; exact sub_le (by decide) hW)
    | (with_reducible apply State.wrLE_ok; exact sub_le (by decide) hW)
    | (with_reducible apply State.meter_ok; exact sub_le (by decide) hW)
    | (with_reducible apply State.setReg_ok; exact sub_le (by decide) hW)
    | (with_reducible apply State.setSnapFld_ok; exact sub_le (by decide) hW)
    | (with_reducible apply State.progress_ok; exact sub_le (by decide) hW)
    | (with_reducible apply State.bump_ok; exact sub_le (by decide) hW)
    | (with_reducible apply State.updSnap_ok; exact sub_le (by decide) hW)
    | with_reducible apply Within.ite
    | (extract_lets +onlyGivenNames x
       first
       | (refine Within.cut (W := W) (s := σ) x ?_ ?_; rotate_left; (clear_value x; intro hx))
       | (refine Within.cut (W := W) (s := σ) x.1 ?_ ?_; rotate_left; (clear_value x; intro hx))
       | (refine Within.cut (W := W) (s := σ) x.2 ?_ ?_; rotate_left; (clear_value x; intro hx))
       | (refine Within.cutF (W := W) (s := σ) x ?_ ?_; rotate_left; (clear_value x; intro hf))
       | clear_value x)
    | split
    | (intro t; intros; (try beta_reduce))
    | dsimp -zeta only [x]

theorem State.ckptFree_ok {W : Nat} {σ s : State} {a1 : _} (hW : 0x1010 ||| W = W) (h : Within W σ s) :
    Within W σ (State.ckptFree s a1) := by
  unfold State.ckptFree
  repeat' first
    | with_reducible assumption
    | (with_reducible apply State.updSnap_ok; exact sub_le (by decide) hW)
    | (with_reducible apply State.setSnapFld_ok; exact sub_le (by decide) hW)
    | with_reducible apply Within.ite
    | (extract_lets +onlyGivenNames x
       first
       | (refine Within.cut (W := W) (s := σ) x ?_ ?_; rotate_left; (clear_value x; intro hx))
       | (refine Within.cut (W := W) (s := σ) x.1 ?_ ?_; rotate_left; (clear_value x; intro hx))
       | (refine Within.cut (W := W) (s := σ) x.2 ?_ ?_; rotate_left; (clear_value x; intro hx))
       | (refine Within.cutF (W := W) (s := σ) x ?_ ?_; rotate_left; (clear_value x; intro hf))
       | clear_value x)
    | split
    | (intro t; intros; (try beta_reduce))

end Sys2Proof.Machine
end

