-- ==== Sys2Proof/Laws/FTransfers.lean ====
section
/-! SUPPORT. What each operation of Transfers.lean can change, and that it keeps the tables in canonical form. -/

set_option linter.all false

namespace Sys2Proof.Machine

theorem State.answer_ok {W : Nat} {σ s : State} {a1 a2 : _} (hW : 0x6004240010 ||| W = W) (h : Within W σ s) :
    Within W σ (State.answer s a1 a2) := by
  unfold State.answer
  repeat' first
    | with_reducible assumption
    | (with_reducible apply State.sendPk_ok; exact sub_le (by decide) hW)
    | (with_reducible apply State.freshen_ok; exact sub_le (by decide) hW)
    | (extract_lets +onlyGivenNames x
       first
       | (refine Within.cut (W := W) (s := σ) x ?_ ?_; rotate_left; (clear_value x; intro hx))
       | (refine Within.cut (W := W) (s := σ) x.1 ?_ ?_; rotate_left; (clear_value x; intro hx))
       | (refine Within.cut (W := W) (s := σ) x.2 ?_ ?_; rotate_left; (clear_value x; intro hx))
       | (refine Within.cutF (W := W) (s := σ) x ?_ ?_; rotate_left; (clear_value x; intro hf))
       | clear_value x)
    | (intro t; intros; (try beta_reduce))
    | dsimp -zeta only [x]

theorem State.tagReject_ok {W : Nat} {σ s : State} {a1 a2 : _} (hW : 0x6004240010 ||| W = W) (h : Within W σ s) :
    Within W σ (State.tagReject s a1 a2) := by
  unfold State.tagReject
  repeat' first
    | with_reducible assumption
    | (with_reducible apply State.notice_ok; exact sub_le (by decide) hW)
    | (with_reducible apply State.bump_ok; exact sub_le (by decide) hW)
    | (with_reducible apply State.answer_ok; exact sub_le (by decide) hW)
    | with_reducible apply Within.ite
    | (extract_lets +onlyGivenNames x
       first
       | (refine Within.cut (W := W) (s := σ) x ?_ ?_; rotate_left; (clear_value x; intro hx))
       | (refine Within.cut (W := W) (s := σ) x.1 ?_ ?_; rotate_left; (clear_value x; intro hx))
       | (refine Within.cut (W := W) (s := σ) x.2 ?_ ?_; rotate_left; (clear_value x; intro hx))
       | (refine Within.cutF (W := W) (s := σ) x ?_ ?_; rotate_left; (clear_value x; intro hf))
       | clear_value x)
    | split
    | (intro t; intros; (try beta_reduce))
    | dsimp -zeta only [x]

theorem State.deliver_ok {W : Nat} {σ s : State} {a1 a2 a3 : _} (hW : 0x6404240010 ||| W = W) (hk : ∀ t, Within W σ t → Within W σ (a3 t)) (h : Within W σ s) :
    Within W σ (State.deliver s a1 a2 a3) := by
  unfold State.deliver
  repeat' first
    | with_reducible assumption
    | with_reducible apply hk
    | (with_reducible apply State.bump_ok; exact sub_le (by decide) hW)
    | (with_reducible apply State.wake_ok; exact sub_le (by decide) hW)
    | (with_reducible apply State.tagReject_ok; exact sub_le (by decide) hW)
    | with_reducible apply Within.ite
    | (extract_lets +onlyGivenNames x
       first
       | (refine Within.cut (W := W) (s := σ) x ?_ ?_; rotate_left; (clear_value x; intro hx))
       | (refine Within.cut (W := W) (s := σ) x.1 ?_ ?_; rotate_left; (clear_value x; intro hx))
       | (refine Within.cut (W := W) (s := σ) x.2 ?_ ?_; rotate_left; (clear_value x; intro hx))
       | (refine Within.cutF (W := W) (s := σ) x ?_ ?_; rotate_left; (clear_value x; intro hf))
       | clear_value x)
    | split
    | (intro t; intros; (try beta_reduce))
    | dsimp -zeta only [x]

theorem State.putAt_ok {W : Nat} {σ s : State} {a1 a2 a3 a4 : _} (hW : 0x580 ||| W = W) (h : Within W σ s) :
    Within W σ (State.putAt s a1 a2 a3 a4) := by
  unfold State.putAt
  repeat' first
    | with_reducible assumption
    | (with_reducible apply State.wrBytes_ok; exact sub_le (by decide) hW)
    | with_reducible apply Within.ite
    | (with_reducible apply Within.fold; (intro t x ht; beta_reduce))
    | (with_reducible apply Within.fold1; (intro t x ht; beta_reduce))
    | (with_reducible apply Within.fold2; (intro t x ht; beta_reduce))
    | with_reducible apply Within.ite1
    | with_reducible apply Within.ite2
    | split
    | (intro t; intros; (try beta_reduce))

theorem State.linkErr_ok {W : Nat} {σ s : State} {a1 a2 a3 : _} (hW : 0x10 ||| W = W) (h : Within W σ s) :
    Within W σ (State.linkErr s a1 a2 a3) := by
  unfold State.linkErr
  repeat' first
    | with_reducible assumption
    | (with_reducible apply State.setReg_ok; exact sub_le (by decide) hW)
    | (intro t; intros; (try beta_reduce))

theorem State.sendStart_ok {W : Nat} {σ s : State} {a1 a2 : _} (hW : 0x6005671d90 ||| W = W) (h : Within W σ s) :
    Within W σ (State.sendStart s a1 a2) := by
  unfold State.sendStart
  repeat' first
    | with_reducible assumption
    | (with_reducible apply State.abortCmd_ok; exact sub_le (by decide) hW)
    | (with_reducible apply State.linkErr_ok; exact sub_le (by decide) hW)
    | (with_reducible apply State.sendPk_ok; exact sub_le (by decide) hW)
    | with_reducible apply Within.ite
    | (extract_lets +onlyGivenNames x
       first
       | (refine Within.cut (W := W) (s := σ) x ?_ ?_; rotate_left; (clear_value x; intro hx))
       | (refine Within.cut (W := W) (s := σ) x.1 ?_ ?_; rotate_left; (clear_value x; intro hx))
       | (refine Within.cut (W := W) (s := σ) x.2 ?_ ?_; rotate_left; (clear_value x; intro hx))
       | (refine Within.cutF (W := W) (s := σ) x ?_ ?_; rotate_left; (clear_value x; intro hf))
       | clear_value x)
    | split
    | (with_reducible apply Within.upd_xfers; exact sub_le (by decide) hW)
    | (intro t; intros; (try beta_reduce))
    | dsimp -zeta only [x]

theorem State.putXfer_ok {W : Nat} {σ s : State} {a1 a2 : _} (hW : 0x400000 ||| W = W) (h : Within W σ s) :
    Within W σ (State.putXfer s a1 a2) := by
  unfold State.putXfer
  repeat' first
    | with_reducible assumption
    | with_reducible apply Within.ite
    | (extract_lets +onlyGivenNames x
       first
       | (refine Within.cut (W := W) (s := σ) x ?_ ?_; rotate_left; (clear_value x; intro hx))
       | (refine Within.cut (W := W) (s := σ) x.1 ?_ ?_; rotate_left; (clear_value x; intro hx))
       | (refine Within.cut (W := W) (s := σ) x.2 ?_ ?_; rotate_left; (clear_value x; intro hx))
       | (refine Within.cutF (W := W) (s := σ) x ?_ ?_; rotate_left; (clear_value x; intro hf))
       | clear_value x)
    | split
    | (with_reducible apply Within.upd_xfers; exact sub_le (by decide) hW)
    | (intro t; intros; (try beta_reduce))

theorem State.sendData_ok {W : Nat} {σ s : State} {a1 : _} (hW : 0x6004640810 ||| W = W) (h : Within W σ s) :
    Within W σ (State.sendData s a1) := by
  unfold State.sendData
  repeat' first
    | with_reducible assumption
    | (with_reducible apply State.putXfer_ok; exact sub_le (by decide) hW)
    | (with_reducible apply State.updCmd_ok; exact sub_le (by decide) hW)
    | (with_reducible apply State.sendPk_ok; exact sub_le (by decide) hW)
    | (with_reducible apply State.endSends_ok; exact sub_le (by decide) hW)
    | (with_reducible apply State.meter_ok; exact sub_le (by decide) hW)
    | with_reducible apply Within.ite
    | (with_reducible apply Within.fold; (intro t x ht; beta_reduce))
    | (with_reducible apply Within.fold1; (intro t x ht; beta_reduce))
    | (with_reducible apply Within.fold2; (intro t x ht; beta_reduce))
    | with_reducible apply Within.ite1
    | with_reducible apply Within.ite2
    | (extract_lets +onlyGivenNames x
       first
       | (refine Within.cut (W := W) (s := σ) x ?_ ?_; rotate_left; (clear_value x; intro hx))
       | (refine Within.cut (W := W) (s := σ) x.1 ?_ ?_; rotate_left; (clear_value x; intro hx))
       | (refine Within.cut (W := W) (s := σ) x.2 ?_ ?_; rotate_left; (clear_value x; intro hx))
       | (refine Within.cutF (W := W) (s := σ) x ?_ ?_; rotate_left; (clear_value x; intro hf))
       | clear_value x)
    | split
    | (intro t; intros; (try beta_reduce))
    | dsimp -zeta only [x]

theorem State.clearIn_ok {W : Nat} {σ s : State} {a1 : _} (hW : 0x6004640810 ||| W = W) (h : Within W σ s) :
    Within W σ (State.clearIn s a1) := by
  unfold State.clearIn
  repeat' first
    | with_reducible assumption
    | (with_reducible apply State.sendData_ok; exact sub_le (by decide) hW)
    | split
    | (intro t; intros; (try beta_reduce))

theorem State.xferFail_ok {W : Nat} {σ s : State} {a1 a2 : _} (hW : 0x6005671d90 ||| W = W) (h : Within W σ s) :
    Within W σ (State.xferFail s a1 a2) := by
  unfold State.xferFail
  repeat' first
    | with_reducible assumption
    | (with_reducible apply State.linkErr_ok; exact sub_le (by decide) hW)
    | (with_reducible apply State.streamLost_ok; exact sub_le (by decide) hW)
    | (with_reducible apply State.abortCmd_ok; exact sub_le (by decide) hW)
    | with_reducible apply Within.ite
    | (extract_lets +onlyGivenNames x
       first
       | (refine Within.cut (W := W) (s := σ) x ?_ ?_; rotate_left; (clear_value x; intro hx))
       | (refine Within.cut (W := W) (s := σ) x.1 ?_ ?_; rotate_left; (clear_value x; intro hx))
       | (refine Within.cut (W := W) (s := σ) x.2 ?_ ?_; rotate_left; (clear_value x; intro hx))
       | (refine Within.cutF (W := W) (s := σ) x ?_ ?_; rotate_left; (clear_value x; intro hf))
       | clear_value x)
    | split
    | (with_reducible apply Within.upd_xfers; exact sub_le (by decide) hW)
    | (intro t; intros; (try beta_reduce))
    | dsimp -zeta only [x]

theorem State.matchOne_ok {W : Nat} {σ s : State} {a1 a2 : _} (hW : 0x6004e40010 ||| W = W) (h : Within W σ s) :
    Within W σ (State.matchOne s a1 a2) := by
  unfold State.matchOne
  repeat' first
    | with_reducible assumption
    | (with_reducible apply State.answer_ok; exact sub_le (by decide) hW)
    | (with_reducible apply State.putXfer_ok; exact sub_le (by decide) hW)
    | with_reducible apply Within.ite
    | (extract_lets +onlyGivenNames x
       first
       | (refine Within.cut (W := W) (s := σ) x ?_ ?_; rotate_left; (clear_value x; intro hx))
       | (refine Within.cut (W := W) (s := σ) x.1 ?_ ?_; rotate_left; (clear_value x; intro hx))
       | (refine Within.cut (W := W) (s := σ) x.2 ?_ ?_; rotate_left; (clear_value x; intro hx))
       | (refine Within.cutF (W := W) (s := σ) x ?_ ?_; rotate_left; (clear_value x; intro hf))
       | clear_value x)
    | split
    | (with_reducible apply Within.upd_reqs; exact sub_le (by decide) hW)
    | (intro t; intros; (try beta_reduce))
    | dsimp -zeta only [x]

theorem State.matchReqs_ok {W : Nat} {σ s : State} {a1 a2 a3 : _} (hW : 0x6004e40010 ||| W = W) (h : Within W σ s) :
    Within W σ (State.matchReqs s a1 a2 a3) := by
  induction a3 generalizing s a1 a2 with
  | zero =>
    unfold State.matchReqs
    repeat' first
      | with_reducible assumption
      | with_reducible apply ih
      | (with_reducible apply State.matchOne_ok; exact sub_le (by decide) hW)
      | split
      | (intro t; intros; (try beta_reduce))
  | succ k ih =>
    unfold State.matchReqs
    repeat' first
      | with_reducible assumption
      | with_reducible apply ih
      | (with_reducible apply State.matchOne_ok; exact sub_le (by decide) hW)
      | split
      | (intro t; intros; (try beta_reduce))

theorem State.reqIn_ok {W : Nat} {σ s : State} {a1 a2 : _} (hW : 0x6004e40010 ||| W = W) (h : Within W σ s) :
    Within W σ (State.reqIn s a1 a2) := by
  unfold State.reqIn
  repeat' first
    | with_reducible assumption
    | (with_reducible apply State.answer_ok; exact sub_le (by decide) hW)
    | (with_reducible apply State.matchReqs_ok; exact sub_le (by decide) hW)
    | with_reducible apply Within.ite
    | (extract_lets +onlyGivenNames x
       first
       | (refine Within.cut (W := W) (s := σ) x ?_ ?_; rotate_left; (clear_value x; intro hx))
       | (refine Within.cut (W := W) (s := σ) x.1 ?_ ?_; rotate_left; (clear_value x; intro hx))
       | (refine Within.cut (W := W) (s := σ) x.2 ?_ ?_; rotate_left; (clear_value x; intro hx))
       | (refine Within.cutF (W := W) (s := σ) x ?_ ?_; rotate_left; (clear_value x; intro hf))
       | clear_value x)
    | split
    | (with_reducible apply Within.upd_reqs; exact sub_le (by decide) hW)
    | (with_reducible apply Within.upd_xfers; exact sub_le (by decide) hW)
    | (intro t; intros; (try beta_reduce))
    | dsimp -zeta only [x]

theorem State.recvStart_ok {W : Nat} {σ s : State} {a1 a2 : _} (hW : 0x6004e40010 ||| W = W) (h : Within W σ s) :
    Within W σ (State.recvStart s a1 a2) := by
  unfold State.recvStart
  repeat' first
    | with_reducible assumption
    | (with_reducible apply State.matchReqs_ok; exact sub_le (by decide) hW)
    | (extract_lets +onlyGivenNames x
       first
       | (refine Within.cut (W := W) (s := σ) x ?_ ?_; rotate_left; (clear_value x; intro hx))
       | (refine Within.cut (W := W) (s := σ) x.1 ?_ ?_; rotate_left; (clear_value x; intro hx))
       | (refine Within.cut (W := W) (s := σ) x.2 ?_ ?_; rotate_left; (clear_value x; intro hx))
       | (refine Within.cutF (W := W) (s := σ) x ?_ ?_; rotate_left; (clear_value x; intro hf))
       | clear_value x)
    | (with_reducible apply Within.upd_xfers; exact sub_le (by decide) hW)
    | (intro t; intros; (try beta_reduce))
    | dsimp -zeta only [x]

theorem State.dataIn_ok {W : Nat} {σ s : State} {a1 : _} (hW : 0x6005671d90 ||| W = W) (h : Within W σ s) :
    Within W σ (State.dataIn s a1) := by
  unfold State.dataIn
  repeat' first
    | with_reducible assumption
    | (with_reducible apply State.putXfer_ok; exact sub_le (by decide) hW)
    | (with_reducible apply State.snapData_ok; exact sub_le (by decide) hW)
    | (with_reducible apply State.meter_ok; exact sub_le (by decide) hW)
    | (with_reducible apply State.putAt_ok; exact sub_le (by decide) hW)
    | (with_reducible apply State.progressed_ok; exact sub_le (by decide) hW)
    | (with_reducible apply State.updCmd_ok; exact sub_le (by decide) hW)
    | (with_reducible apply State.finish_ok; exact sub_le (by decide) hW)
    | with_reducible apply Within.ite
    | (extract_lets +onlyGivenNames x
       first
       | (refine Within.cut (W := W) (s := σ) x ?_ ?_; rotate_left; (clear_value x; intro hx))
       | (refine Within.cut (W := W) (s := σ) x.1 ?_ ?_; rotate_left; (clear_value x; intro hx))
       | (refine Within.cut (W := W) (s := σ) x.2 ?_ ?_; rotate_left; (clear_value x; intro hx))
       | (refine Within.cutF (W := W) (s := σ) x ?_ ?_; rotate_left; (clear_value x; intro hf))
       | clear_value x)
    | split
    | (with_reducible apply Within.upd_xfers; exact sub_le (by decide) hW)
    | (intro t; intros; (try beta_reduce))
    | dsimp -zeta only [x]

theorem State.cancelIn_ok {W : Nat} {σ s : State} {a1 : _} (hW : 0x6005e71d90 ||| W = W) (h : Within W σ s) :
    Within W σ (State.cancelIn s a1) := by
  unfold State.cancelIn
  repeat' first
    | with_reducible assumption
    | (with_reducible apply State.xferFail_ok; exact sub_le (by decide) hW)
    | (extract_lets +onlyGivenNames x
       first
       | (refine Within.cut (W := W) (s := σ) x ?_ ?_; rotate_left; (clear_value x; intro hx))
       | (refine Within.cut (W := W) (s := σ) x.1 ?_ ?_; rotate_left; (clear_value x; intro hx))
       | (refine Within.cut (W := W) (s := σ) x.2 ?_ ?_; rotate_left; (clear_value x; intro hx))
       | (refine Within.cutF (W := W) (s := σ) x ?_ ?_; rotate_left; (clear_value x; intro hf))
       | clear_value x)
    | split
    | (with_reducible apply Within.upd_reqs; exact sub_le (by decide) hW)
    | (intro t; intros; (try beta_reduce))

theorem State.rejectIn_ok {W : Nat} {σ s : State} {a1 : _} (hW : 0x6005671d90 ||| W = W) (h : Within W σ s) :
    Within W σ (State.rejectIn s a1) := by
  unfold State.rejectIn
  repeat' first
    | with_reducible assumption
    | (with_reducible apply State.xferFail_ok; exact sub_le (by decide) hW)
    | (with_reducible apply State.freshen_ok; exact sub_le (by decide) hW)
    | split
    | (intro t; intros; (try beta_reduce))

theorem State.busyIn_ok {W : Nat} {σ s : State} {a1 : _} (hW : 0x1400000 ||| W = W) (h : Within W σ s) :
    Within W σ (State.busyIn s a1) := by
  unfold State.busyIn
  repeat' first
    | with_reducible assumption
    | (with_reducible apply State.putXfer_ok; exact sub_le (by decide) hW)
    | with_reducible apply Within.ite
    | (extract_lets +onlyGivenNames x
       first
       | (refine Within.cut (W := W) (s := σ) x ?_ ?_; rotate_left; (clear_value x; intro hx))
       | (refine Within.cut (W := W) (s := σ) x.1 ?_ ?_; rotate_left; (clear_value x; intro hx))
       | (refine Within.cut (W := W) (s := σ) x.2 ?_ ?_; rotate_left; (clear_value x; intro hx))
       | (refine Within.cutF (W := W) (s := σ) x ?_ ?_; rotate_left; (clear_value x; intro hf))
       | clear_value x)
    | split
    | (with_reducible apply Within.upd_colls; exact sub_le (by decide) hW)
    | (intro t; intros; (try beta_reduce))
    | dsimp -zeta only [x]

theorem State.sendReady_ok {W : Nat} {σ s : State} {a1 a2 : _} (hW : 0x6004240010 ||| W = W) (h : Within W σ s) :
    Within W σ (State.sendReady s a1 a2) := by
  unfold State.sendReady
  repeat' first
    | with_reducible assumption
    | (with_reducible apply State.collTo_ok; exact sub_le (by decide) hW)
    | (extract_lets +onlyGivenNames x
       first
       | (refine Within.cut (W := W) (s := σ) x ?_ ?_; rotate_left; (clear_value x; intro hx))
       | (refine Within.cut (W := W) (s := σ) x.1 ?_ ?_; rotate_left; (clear_value x; intro hx))
       | (refine Within.cut (W := W) (s := σ) x.2 ?_ ?_; rotate_left; (clear_value x; intro hx))
       | (refine Within.cutF (W := W) (s := σ) x ?_ ?_; rotate_left; (clear_value x; intro hf))
       | clear_value x)
    | (intro t; intros; (try beta_reduce))

theorem State.retrySends_ok {W : Nat} {σ s : State} {a1 : _} (hW : 0x6005640010 ||| W = W) (h : Within W σ s) :
    Within W σ (State.retrySends s a1) := by
  unfold State.retrySends
  repeat' first
    | with_reducible assumption
    | (with_reducible apply State.sendPk_ok; exact sub_le (by decide) hW)
    | (with_reducible apply State.putXfer_ok; exact sub_le (by decide) hW)
    | (with_reducible apply State.sendReady_ok; exact sub_le (by decide) hW)
    | with_reducible apply Within.ite
    | (with_reducible apply Within.fold; (intro t x ht; beta_reduce))
    | (with_reducible apply Within.fold1; (intro t x ht; beta_reduce))
    | (with_reducible apply Within.fold2; (intro t x ht; beta_reduce))
    | (extract_lets +onlyGivenNames x
       first
       | (refine Within.cut (W := W) (s := σ) x ?_ ?_; rotate_left; (clear_value x; intro hx))
       | (refine Within.cut (W := W) (s := σ) x.1 ?_ ?_; rotate_left; (clear_value x; intro hx))
       | (refine Within.cut (W := W) (s := σ) x.2 ?_ ?_; rotate_left; (clear_value x; intro hx))
       | (refine Within.cutF (W := W) (s := σ) x ?_ ?_; rotate_left; (clear_value x; intro hf))
       | clear_value x)
    | split
    | (with_reducible apply Within.upd_colls; exact sub_le (by decide) hW)
    | (intro t; intros; (try beta_reduce))
    | dsimp -zeta only [x]

theorem State.recvTimeout_ok {W : Nat} {σ s : State} {a1 a2 : _} (hW : 0x6005671d90 ||| W = W) (h : Within W σ s) :
    Within W σ (State.recvTimeout s a1 a2) := by
  unfold State.recvTimeout
  repeat' first
    | with_reducible assumption
    | (with_reducible apply State.abortCmd_ok; exact sub_le (by decide) hW)
    | (with_reducible apply State.linkErr_ok; exact sub_le (by decide) hW)
    | with_reducible apply Within.ite
    | (extract_lets +onlyGivenNames x
       first
       | (refine Within.cut (W := W) (s := σ) x ?_ ?_; rotate_left; (clear_value x; intro hx))
       | (refine Within.cut (W := W) (s := σ) x.1 ?_ ?_; rotate_left; (clear_value x; intro hx))
       | (refine Within.cut (W := W) (s := σ) x.2 ?_ ?_; rotate_left; (clear_value x; intro hx))
       | (refine Within.cutF (W := W) (s := σ) x ?_ ?_; rotate_left; (clear_value x; intro hf))
       | clear_value x)
    | split
    | (intro t; intros; (try beta_reduce))
    | dsimp -zeta only [x]

end Sys2Proof.Machine
end

