-- ==== Sys2Proof/Laws/FCollective.lean ====
section
/-! SUPPORT. What each operation of Collective.lean can change, and that it keeps the tables in canonical form. -/

set_option linter.all false

namespace Sys2Proof.Machine

theorem State.putColl_ok {W : Nat} {σ s : State} {a1 : _} (hW : 0x1000010 ||| W = W) (h : Within W σ s) :
    Within W σ (State.putColl s a1) := by
  unfold State.putColl
  repeat' first
    | with_reducible assumption
    | (with_reducible apply State.setReg_ok; exact sub_le (by decide) hW)
    | with_reducible apply Within.ite
    | (extract_lets +onlyGivenNames x
       first
       | (refine Within.cut (W := W) (s := σ) x ?_ ?_; rotate_left; (clear_value x; intro hx))
       | (refine Within.cut (W := W) (s := σ) x.1 ?_ ?_; rotate_left; (clear_value x; intro hx))
       | (refine Within.cut (W := W) (s := σ) x.2 ?_ ?_; rotate_left; (clear_value x; intro hx))
       | (refine Within.cutF (W := W) (s := σ) x ?_ ?_; rotate_left; (clear_value x; intro hf))
       | clear_value x)
    | split
    | (with_reducible apply Within.upd_colls; exact sub_le (by decide) hW)
    | (intro t; intros; (try beta_reduce))
    | dsimp -zeta only [x]

theorem State.collErr_ok {W : Nat} {σ s : State} {a1 a2 : _} (hW : 0x10 ||| W = W) (h : Within W σ s) :
    Within W σ (State.collErr s a1 a2) := by
  unfold State.collErr
  repeat' first
    | with_reducible assumption
    | (with_reducible apply State.setReg_ok; exact sub_le (by decide) hW)
    | (intro t; intros; (try beta_reduce))

theorem State.collFail_ok {W : Nat} {σ s : State} {a1 a2 : _} (hW : 0x6005671d90 ||| W = W) (h : Within W σ s) :
    Within W σ (State.collFail s a1 a2) := by
  unfold State.collFail
  repeat' first
    | with_reducible assumption
    | (with_reducible apply State.abortCmd_ok; exact sub_le (by decide) hW)
    | (with_reducible apply State.setFld_ok; exact sub_le (by decide) hW)
    | (with_reducible apply State.collErr_ok; exact sub_le (by decide) hW)
    | (intro t; intros; (try beta_reduce))

theorem State.countColl_ok {W : Nat} {σ s : State} {a1 a2 a3 : _} (hW : 0x10 ||| W = W) (h : Within W σ s) :
    Within W σ (State.countColl s a1 a2 a3) := by
  unfold State.countColl
  repeat' first
    | with_reducible assumption
    | with_reducible apply hf
    | (with_reducible apply State.bump_ok; exact sub_le (by decide) hW)
    | with_reducible apply Within.ite
    | (extract_lets +onlyGivenNames x
       first
       | (refine Within.cut (W := W) (s := σ) x ?_ ?_; rotate_left; (clear_value x; intro hx))
       | (refine Within.cut (W := W) (s := σ) x.1 ?_ ?_; rotate_left; (clear_value x; intro hx))
       | (refine Within.cut (W := W) (s := σ) x.2 ?_ ?_; rotate_left; (clear_value x; intro hx))
       | (refine Within.cutF (W := W) (s := σ) x ?_ ?_; rotate_left; (clear_value x; intro hf))
       | clear_value x)
    | split
    | (intro t; intros; (try beta_reduce))
    | dsimp -zeta only [x]

theorem State.chunkOf_ok {W : Nat} {σ s : State} {a1 a2 : _} (hW : 0x4000000010 ||| W = W) (h : Within W σ s) :
    Within W σ (State.chunkOf s a1 a2).1 := by
  unfold State.chunkOf
  repeat' first
    | with_reducible assumption
    | (with_reducible apply State.countColl_ok; exact sub_le (by decide) hW)
    | (with_reducible apply State.freshen_ok; exact sub_le (by decide) hW)
    | with_reducible apply Within.ite1
    | with_reducible apply Within.ite2
    | (extract_lets +onlyGivenNames x
       first
       | (refine Within.cut (W := W) (s := σ) x ?_ ?_; rotate_left; (clear_value x; intro hx))
       | (refine Within.cut (W := W) (s := σ) x.1 ?_ ?_; rotate_left; (clear_value x; intro hx))
       | (refine Within.cut (W := W) (s := σ) x.2 ?_ ?_; rotate_left; (clear_value x; intro hx))
       | (refine Within.cutF (W := W) (s := σ) x ?_ ?_; rotate_left; (clear_value x; intro hf))
       | clear_value x)
    | split
    | (intro t; intros; (try beta_reduce))
    | dsimp -zeta only [x]

theorem State.ownChunk_ok {W : Nat} {σ s : State} {a1 a2 : _} (hW : 0x4000000010 ||| W = W) (h : Within W σ s) :
    Within W σ (State.ownChunk s a1 a2).1 := by
  unfold State.ownChunk
  repeat' first
    | with_reducible assumption
    | (with_reducible apply State.freshen_ok; exact sub_le (by decide) hW)
    | (with_reducible apply State.chunkOf_ok; exact sub_le (by decide) hW)
    | (with_reducible apply State.countColl_ok; exact sub_le (by decide) hW)
    | with_reducible apply Within.ite
    | with_reducible apply Within.ite1
    | with_reducible apply Within.ite2
    | (extract_lets +onlyGivenNames x
       first
       | (refine Within.cut (W := W) (s := σ) x ?_ ?_; rotate_left; (clear_value x; intro hx))
       | (refine Within.cut (W := W) (s := σ) x.1 ?_ ?_; rotate_left; (clear_value x; intro hx))
       | (refine Within.cut (W := W) (s := σ) x.2 ?_ ?_; rotate_left; (clear_value x; intro hx))
       | (refine Within.cutF (W := W) (s := σ) x ?_ ?_; rotate_left; (clear_value x; intro hf))
       | clear_value x)
    | split
    | (intro t; intros; (try beta_reduce))
    | dsimp -zeta only [x]

theorem State.writeFinal_ok {W : Nat} {σ s : State} {a1 a2 a3 : _} (hW : 0x4000000d90 ||| W = W) (h : Within W σ s) :
    Within W σ (State.writeFinal s a1 a2 a3).1 := by
  unfold State.writeFinal
  repeat' first
    | with_reducible assumption
    | (with_reducible apply State.updCmd_ok; exact sub_le (by decide) hW)
    | (with_reducible apply State.putElem_ok; exact sub_le (by decide) hW)
    | (with_reducible apply State.padScale_ok; exact sub_le (by decide) hW)
    | (with_reducible apply State.wrLE_ok; exact sub_le (by decide) hW)
    | (with_reducible apply State.freshen_ok; exact sub_le (by decide) hW)
    | (with_reducible apply State.countColl_ok; exact sub_le (by decide) hW)
    | (with_reducible apply State.recordBlocks_ok; exact sub_le (by decide) hW)
    | with_reducible apply Within.ite
    | (with_reducible apply Within.fold; (intro t x ht; beta_reduce))
    | (with_reducible apply Within.fold1; (intro t x ht; beta_reduce))
    | (with_reducible apply Within.fold2; (intro t x ht; beta_reduce))
    | with_reducible apply Within.ite1
    | with_reducible apply Within.ite2
    | (extract_lets +onlyGivenNames x
       first
       | (refine Within.cut (W := W) (s := σ) x ?_ ?_; rotate_left; (clear_value x; intro hx))
       | (refine Within.cut (W := W) (s := σ) x.1 ?_ ?_; rotate_left; (clear_value x; intro hx))
       | (refine Within.cut (W := W) (s := σ) x.2 ?_ ?_; rotate_left; (clear_value x; intro hx))
       | (refine Within.cutF (W := W) (s := σ) x ?_ ?_; rotate_left; (clear_value x; intro hf))
       | clear_value x)
    | split
    | (intro t; intros; (try beta_reduce))
    | dsimp -zeta only [x]

theorem State.collSend_ok {W : Nat} {σ s : State} {a1 a2 a3 a4 : _} (hW : 0x6004240010 ||| W = W) (h : Within W σ s) :
    Within W σ (State.collSend s a1 a2 a3 a4).1 := by
  unfold State.collSend
  repeat' first
    | with_reducible assumption
    | (with_reducible apply State.collTo_ok; exact sub_le (by decide) hW)
    | with_reducible apply Within.ite
    | with_reducible apply Within.ite1
    | with_reducible apply Within.ite2
    | (extract_lets +onlyGivenNames x
       first
       | (refine Within.cut (W := W) (s := σ) x ?_ ?_; rotate_left; (clear_value x; intro hx))
       | (refine Within.cut (W := W) (s := σ) x.1 ?_ ?_; rotate_left; (clear_value x; intro hx))
       | (refine Within.cut (W := W) (s := σ) x.2 ?_ ?_; rotate_left; (clear_value x; intro hx))
       | (refine Within.cutF (W := W) (s := σ) x ?_ ?_; rotate_left; (clear_value x; intro hf))
       | clear_value x)
    | split
    | (intro t; intros; (try beta_reduce))
    | dsimp -zeta only [x]

theorem State.collRelease_ok {W : Nat} {σ s : State} {a1 a2 : _} (hW : 0x6004240010 ||| W = W) (h : Within W σ s) :
    Within W σ (State.collRelease s a1 a2).1 := by
  unfold State.collRelease
  repeat' first
    | with_reducible assumption
    | (with_reducible apply State.collSend_ok; exact sub_le (by decide) hW)
    | (with_reducible apply Within.fold; (intro t x ht; beta_reduce))
    | (with_reducible apply Within.fold1; (intro t x ht; beta_reduce))
    | (with_reducible apply Within.fold2; (intro t x ht; beta_reduce))
    | with_reducible apply Within.ite1
    | with_reducible apply Within.ite2
    | (extract_lets +onlyGivenNames x
       first
       | (refine Within.cut (W := W) (s := σ) x ?_ ?_; rotate_left; (clear_value x; intro hx))
       | (refine Within.cut (W := W) (s := σ) x.1 ?_ ?_; rotate_left; (clear_value x; intro hx))
       | (refine Within.cut (W := W) (s := σ) x.2 ?_ ?_; rotate_left; (clear_value x; intro hx))
       | (refine Within.cutF (W := W) (s := σ) x ?_ ?_; rotate_left; (clear_value x; intro hf))
       | clear_value x)
    | (intro t; intros; (try beta_reduce))
    | dsimp -zeta only [x]

theorem State.sendAll_ok {W : Nat} {σ s : State} {a1 a2 a3 a4 : _} (hW : 0x6004240010 ||| W = W) (h : Within W σ s) :
    Within W σ (State.sendAll s a1 a2 a3 a4).1 := by
  unfold State.sendAll
  repeat' first
    | with_reducible assumption
    | (with_reducible apply State.collSend_ok; exact sub_le (by decide) hW)
    | (with_reducible apply Within.fold; (intro t x ht; beta_reduce))
    | (with_reducible apply Within.fold1; (intro t x ht; beta_reduce))
    | (with_reducible apply Within.fold2; (intro t x ht; beta_reduce))
    | with_reducible apply Within.ite1
    | with_reducible apply Within.ite2
    | (intro t; intros; (try beta_reduce))

theorem State.finalHere_ok {W : Nat} {σ s : State} {a1 a2 a3 : _} (hW : 0x6004240d90 ||| W = W) (h : Within W σ s) :
    Within W σ (State.finalHere s a1 a2 a3).1 := by
  unfold State.finalHere
  repeat' first
    | with_reducible assumption
    | (with_reducible apply State.writeFinal_ok; exact sub_le (by decide) hW)
    | (with_reducible apply State.sendAll_ok; exact sub_le (by decide) hW)
    | with_reducible apply Within.ite
    | with_reducible apply Within.ite1
    | with_reducible apply Within.ite2
    | (extract_lets +onlyGivenNames x
       first
       | (refine Within.cut (W := W) (s := σ) x ?_ ?_; rotate_left; (clear_value x; intro hx))
       | (refine Within.cut (W := W) (s := σ) x.1 ?_ ?_; rotate_left; (clear_value x; intro hx))
       | (refine Within.cut (W := W) (s := σ) x.2 ?_ ?_; rotate_left; (clear_value x; intro hx))
       | (refine Within.cutF (W := W) (s := σ) x ?_ ?_; rotate_left; (clear_value x; intro hf))
       | clear_value x)
    | split
    | (intro t; intros; (try beta_reduce))
    | dsimp -zeta only [x]

theorem State.collBegin_ok {W : Nat} {σ s : State} {a1 a2 : _} (hW : 0x6004240d90 ||| W = W) (h : Within W σ s) :
    Within W σ (State.collBegin s a1 a2).1 := by
  unfold State.collBegin
  repeat' first
    | with_reducible assumption
    | (with_reducible apply State.ownChunk_ok; exact sub_le (by decide) hW)
    | (with_reducible apply State.finalHere_ok; exact sub_le (by decide) hW)
    | (with_reducible apply State.sendAll_ok; exact sub_le (by decide) hW)
    | (with_reducible apply State.collSend_ok; exact sub_le (by decide) hW)
    | with_reducible apply Within.ite
    | with_reducible apply Within.ite1
    | with_reducible apply Within.ite2
    | (extract_lets +onlyGivenNames x
       first
       | (refine Within.cut (W := W) (s := σ) x ?_ ?_; rotate_left; (clear_value x; intro hx))
       | (refine Within.cut (W := W) (s := σ) x.1 ?_ ?_; rotate_left; (clear_value x; intro hx))
       | (refine Within.cut (W := W) (s := σ) x.2 ?_ ?_; rotate_left; (clear_value x; intro hx))
       | (refine Within.cutF (W := W) (s := σ) x ?_ ?_; rotate_left; (clear_value x; intro hf))
       | clear_value x)
    | split
    | (intro t; intros; (try beta_reduce))
    | dsimp -zeta only [x]

theorem State.ringSum_ok {W : Nat} {σ s : State} {a1 a2 a3 : _} (hW : 0x6004240d90 ||| W = W) (h : Within W σ s) :
    Within W σ (State.ringSum s a1 a2 a3).1 := by
  unfold State.ringSum
  repeat' first
    | with_reducible assumption
    | (with_reducible apply State.countColl_ok; exact sub_le (by decide) hW)
    | (with_reducible apply State.chunkOf_ok; exact sub_le (by decide) hW)
    | (with_reducible apply State.finalHere_ok; exact sub_le (by decide) hW)
    | (with_reducible apply State.collSend_ok; exact sub_le (by decide) hW)
    | with_reducible apply Within.ite
    | with_reducible apply Within.ite1
    | with_reducible apply Within.ite2
    | (extract_lets +onlyGivenNames x
       first
       | (refine Within.cut (W := W) (s := σ) x ?_ ?_; rotate_left; (clear_value x; intro hx))
       | (refine Within.cut (W := W) (s := σ) x.1 ?_ ?_; rotate_left; (clear_value x; intro hx))
       | (refine Within.cut (W := W) (s := σ) x.2 ?_ ?_; rotate_left; (clear_value x; intro hx))
       | (refine Within.cutF (W := W) (s := σ) x ?_ ?_; rotate_left; (clear_value x; intro hf))
       | clear_value x)
    | split
    | (intro t; intros; (try beta_reduce))
    | dsimp -zeta only [x]

theorem State.ringIn_ok {W : Nat} {σ s : State} {a1 a2 a3 : _} (hW : 0x6004240d90 ||| W = W) (h : Within W σ s) :
    Within W σ (State.ringIn s a1 a2 a3).1 := by
  unfold State.ringIn
  repeat' first
    | with_reducible assumption
    | (with_reducible apply State.ringSum_ok; exact sub_le (by decide) hW)
    | (with_reducible apply State.writeFinal_ok; exact sub_le (by decide) hW)
    | (with_reducible apply State.collSend_ok; exact sub_le (by decide) hW)
    | with_reducible apply Within.ite
    | with_reducible apply Within.ite1
    | with_reducible apply Within.ite2
    | (extract_lets +onlyGivenNames x
       first
       | (refine Within.cut (W := W) (s := σ) x ?_ ?_; rotate_left; (clear_value x; intro hx))
       | (refine Within.cut (W := W) (s := σ) x.1 ?_ ?_; rotate_left; (clear_value x; intro hx))
       | (refine Within.cut (W := W) (s := σ) x.2 ?_ ?_; rotate_left; (clear_value x; intro hx))
       | (refine Within.cutF (W := W) (s := σ) x ?_ ?_; rotate_left; (clear_value x; intro hf))
       | clear_value x)
    | split
    | (intro t; intros; (try beta_reduce))
    | dsimp -zeta only [x]

theorem State.treeIn_ok {W : Nat} {σ s : State} {a1 a2 a3 a4 : _} (hW : 0x6004240d90 ||| W = W) (h : Within W σ s) :
    Within W σ (State.treeIn s a1 a2 a3 a4).1 := by
  unfold State.treeIn
  repeat' first
    | with_reducible assumption
    | (with_reducible apply State.countColl_ok; exact sub_le (by decide) hW)
    | (with_reducible apply State.chunkOf_ok; exact sub_le (by decide) hW)
    | (with_reducible apply State.finalHere_ok; exact sub_le (by decide) hW)
    | (with_reducible apply State.sendAll_ok; exact sub_le (by decide) hW)
    | (with_reducible apply State.writeFinal_ok; exact sub_le (by decide) hW)
    | with_reducible apply Within.ite
    | (with_reducible apply Within.fold; (intro t x ht; beta_reduce))
    | (with_reducible apply Within.fold1; (intro t x ht; beta_reduce))
    | (with_reducible apply Within.fold2; (intro t x ht; beta_reduce))
    | with_reducible apply Within.ite1
    | with_reducible apply Within.ite2
    | (extract_lets +onlyGivenNames x
       first
       | (refine Within.cut (W := W) (s := σ) x ?_ ?_; rotate_left; (clear_value x; intro hx))
       | (refine Within.cut (W := W) (s := σ) x.1 ?_ ?_; rotate_left; (clear_value x; intro hx))
       | (refine Within.cut (W := W) (s := σ) x.2 ?_ ?_; rotate_left; (clear_value x; intro hx))
       | (refine Within.cutF (W := W) (s := σ) x ?_ ?_; rotate_left; (clear_value x; intro hf))
       | clear_value x)
    | split
    | (intro t; intros; (try beta_reduce))
    | dsimp -zeta only [x]

theorem State.dropColl_ok {W : Nat} {σ s : State} {a1 : _} (hW : 0x1000010 ||| W = W) (h : Within W σ s) :
    Within W σ (State.dropColl s a1) := by
  unfold State.dropColl
  repeat' first
    | with_reducible assumption
    | (with_reducible apply State.setFld_ok; exact sub_le (by decide) hW)
    | (extract_lets +onlyGivenNames x
       first
       | (refine Within.cut (W := W) (s := σ) x ?_ ?_; rotate_left; (clear_value x; intro hx))
       | (refine Within.cut (W := W) (s := σ) x.1 ?_ ?_; rotate_left; (clear_value x; intro hx))
       | (refine Within.cut (W := W) (s := σ) x.2 ?_ ?_; rotate_left; (clear_value x; intro hx))
       | (refine Within.cutF (W := W) (s := σ) x ?_ ?_; rotate_left; (clear_value x; intro hf))
       | clear_value x)
    | (with_reducible apply Within.upd_colls; exact sub_le (by decide) hW)
    | (intro t; intros; (try beta_reduce))

theorem State.closeStep_ok {W : Nat} {σ s : State} {a1 a2 a3 : _} (hW : 0x608567fdb0 ||| W = W) (h : Within W σ s) :
    Within W σ (State.closeStep s a1 a2 a3) := by
  unfold State.closeStep
  repeat' first
    | with_reducible assumption
    | (with_reducible apply State.bump_ok; exact sub_le (by decide) hW)
    | (with_reducible apply State.dropColl_ok; exact sub_le (by decide) hW)
    | (with_reducible apply State.finish_ok; exact sub_le (by decide) hW)
    | (with_reducible apply State.runBars_ok; exact sub_le (by decide) hW)
    | (with_reducible apply State.applySeal_ok; exact sub_le (by decide) hW)
    | with_reducible apply Within.ite
    | (extract_lets +onlyGivenNames x
       first
       | (refine Within.cut (W := W) (s := σ) x ?_ ?_; rotate_left; (clear_value x; intro hx))
       | (refine Within.cut (W := W) (s := σ) x.1 ?_ ?_; rotate_left; (clear_value x; intro hx))
       | (refine Within.cut (W := W) (s := σ) x.2 ?_ ?_; rotate_left; (clear_value x; intro hx))
       | (refine Within.cutF (W := W) (s := σ) x ?_ ?_; rotate_left; (clear_value x; intro hf))
       | clear_value x)
    | split
    | (intro t; intros; (try beta_reduce))
    | dsimp -zeta only [x]

theorem State.sealed_ok {W : Nat} {σ s : State} {a1 a2 : _} (hW : 0x608567fdb0 ||| W = W) (h : Within W σ s) :
    Within W σ (State.sealed s a1 a2) := by
  unfold State.sealed
  repeat' first
    | with_reducible assumption
    | (with_reducible apply State.collTo_ok; exact sub_le (by decide) hW)
    | (with_reducible apply State.closeStep_ok; exact sub_le (by decide) hW)
    | (with_reducible apply State.bump_ok; exact sub_le (by decide) hW)
    | (with_reducible apply Within.fold; (intro t x ht; beta_reduce))
    | (with_reducible apply Within.fold1; (intro t x ht; beta_reduce))
    | (with_reducible apply Within.fold2; (intro t x ht; beta_reduce))
    | (extract_lets +onlyGivenNames x
       first
       | (refine Within.cut (W := W) (s := σ) x ?_ ?_; rotate_left; (clear_value x; intro hx))
       | (refine Within.cut (W := W) (s := σ) x.1 ?_ ?_; rotate_left; (clear_value x; intro hx))
       | (refine Within.cut (W := W) (s := σ) x.2 ?_ ?_; rotate_left; (clear_value x; intro hx))
       | (refine Within.cutF (W := W) (s := σ) x ?_ ?_; rotate_left; (clear_value x; intro hf))
       | clear_value x)
    | (intro t; intros; (try beta_reduce))
    | dsimp -zeta only [x]

theorem State.tryAck_ok {W : Nat} {σ s : State} {a1 : _} (hW : 0x608567fdb0 ||| W = W) (h : Within W σ s) :
    Within W σ (State.tryAck s a1) := by
  unfold State.tryAck
  repeat' first
    | with_reducible assumption
    | (with_reducible apply State.collTo_ok; exact sub_le (by decide) hW)
    | (with_reducible apply State.putColl_ok; exact sub_le (by decide) hW)
    | (with_reducible apply State.sealed_ok; exact sub_le (by decide) hW)
    | with_reducible apply Within.ite
    | (with_reducible apply Within.fold; (intro t x ht; beta_reduce))
    | (with_reducible apply Within.fold1; (intro t x ht; beta_reduce))
    | (with_reducible apply Within.fold2; (intro t x ht; beta_reduce))
    | (extract_lets +onlyGivenNames x
       first
       | (refine Within.cut (W := W) (s := σ) x ?_ ?_; rotate_left; (clear_value x; intro hx))
       | (refine Within.cut (W := W) (s := σ) x.1 ?_ ?_; rotate_left; (clear_value x; intro hx))
       | (refine Within.cut (W := W) (s := σ) x.2 ?_ ?_; rotate_left; (clear_value x; intro hx))
       | (refine Within.cutF (W := W) (s := σ) x ?_ ?_; rotate_left; (clear_value x; intro hf))
       | clear_value x)
    | split
    | (intro t; intros; (try beta_reduce))
    | dsimp -zeta only [x]

theorem State.collGoOn_ok {W : Nat} {σ s : State} {a1 : _} (hW : 0x608567fdb0 ||| W = W) (h : Within W σ s) :
    Within W σ (State.collGoOn s a1) := by
  unfold State.collGoOn
  repeat' first
    | with_reducible assumption
    | (with_reducible apply State.putColl_ok; exact sub_le (by decide) hW)
    | (with_reducible apply State.tryAck_ok; exact sub_le (by decide) hW)
    | (with_reducible apply State.meter_ok; exact sub_le (by decide) hW)
    | (with_reducible apply State.finish_ok; exact sub_le (by decide) hW)
    | (with_reducible apply State.bump_ok; exact sub_le (by decide) hW)
    | (with_reducible apply State.dropColl_ok; exact sub_le (by decide) hW)
    | with_reducible apply Within.ite
    | (extract_lets +onlyGivenNames x
       first
       | (refine Within.cut (W := W) (s := σ) x ?_ ?_; rotate_left; (clear_value x; intro hx))
       | (refine Within.cut (W := W) (s := σ) x.1 ?_ ?_; rotate_left; (clear_value x; intro hx))
       | (refine Within.cut (W := W) (s := σ) x.2 ?_ ?_; rotate_left; (clear_value x; intro hx))
       | (refine Within.cutF (W := W) (s := σ) x ?_ ?_; rotate_left; (clear_value x; intro hf))
       | clear_value x)
    | split
    | (intro t; intros; (try beta_reduce))
    | dsimp -zeta only [x]

theorem State.collRefuse_ok {W : Nat} {σ s : State} {a1 a2 a3 : _} (hW : 0x6005671d90 ||| W = W) (h : Within W σ s) :
    Within W σ (State.collRefuse s a1 a2 a3) := by
  unfold State.collRefuse
  repeat' first
    | with_reducible assumption
    | (with_reducible apply State.collFail_ok; exact sub_le (by decide) hW)
    | (with_reducible apply State.answer_ok; exact sub_le (by decide) hW)
    | (intro t; intros; (try beta_reduce))

theorem State.readyFor_ok {W : Nat} {σ s : State} {a1 a2 : _} (hW : 0x608567fdb0 ||| W = W) (h : Within W σ s) :
    Within W σ (State.readyFor s a1 a2) := by
  unfold State.readyFor
  repeat' first
    | with_reducible assumption
    | (with_reducible apply State.collRefuse_ok; exact sub_le (by decide) hW)
    | (with_reducible apply State.collRelease_ok; exact sub_le (by decide) hW)
    | (with_reducible apply State.collGoOn_ok; exact sub_le (by decide) hW)
    | with_reducible apply Within.ite
    | with_reducible apply Within.ite1
    | with_reducible apply Within.ite2
    | (extract_lets +onlyGivenNames x
       first
       | (refine Within.cut (W := W) (s := σ) x ?_ ?_; rotate_left; (clear_value x; intro hx))
       | (refine Within.cut (W := W) (s := σ) x.1 ?_ ?_; rotate_left; (clear_value x; intro hx))
       | (refine Within.cut (W := W) (s := σ) x.2 ?_ ?_; rotate_left; (clear_value x; intro hx))
       | (refine Within.cutF (W := W) (s := σ) x ?_ ?_; rotate_left; (clear_value x; intro hf))
       | clear_value x)
    | split
    | (intro t; intros; (try beta_reduce))
    | dsimp -zeta only [x]

theorem State.ackFor_ok {W : Nat} {σ s : State} {a1 a2 : _} (hW : 0x608567fdb0 ||| W = W) (h : Within W σ s) :
    Within W σ (State.ackFor s a1 a2) := by
  unfold State.ackFor
  repeat' first
    | with_reducible assumption
    | (with_reducible apply State.tryAck_ok; exact sub_le (by decide) hW)
    | (with_reducible apply State.putColl_ok; exact sub_le (by decide) hW)
    | (extract_lets +onlyGivenNames x
       first
       | (refine Within.cut (W := W) (s := σ) x ?_ ?_; rotate_left; (clear_value x; intro hx))
       | (refine Within.cut (W := W) (s := σ) x.1 ?_ ?_; rotate_left; (clear_value x; intro hx))
       | (refine Within.cut (W := W) (s := σ) x.2 ?_ ?_; rotate_left; (clear_value x; intro hx))
       | (refine Within.cutF (W := W) (s := σ) x ?_ ?_; rotate_left; (clear_value x; intro hf))
       | clear_value x)
    | split
    | (intro t; intros; (try beta_reduce))
    | dsimp -zeta only [x]

theorem State.readyIn_ok {W : Nat} {σ s : State} {a1 a2 : _} (hW : 0x608767fdb0 ||| W = W) (h : Within W σ s) :
    Within W σ (State.readyIn s a1 a2) := by
  unfold State.readyIn
  repeat' first
    | with_reducible assumption
    | (with_reducible apply State.readyFor_ok; exact sub_le (by decide) hW)
    | (with_reducible apply State.answer_ok; exact sub_le (by decide) hW)
    | with_reducible apply Within.ite
    | (extract_lets +onlyGivenNames x
       first
       | (refine Within.cut (W := W) (s := σ) x ?_ ?_; rotate_left; (clear_value x; intro hx))
       | (refine Within.cut (W := W) (s := σ) x.1 ?_ ?_; rotate_left; (clear_value x; intro hx))
       | (refine Within.cut (W := W) (s := σ) x.2 ?_ ?_; rotate_left; (clear_value x; intro hx))
       | (refine Within.cutF (W := W) (s := σ) x ?_ ?_; rotate_left; (clear_value x; intro hf))
       | clear_value x)
    | split
    | (with_reducible apply Within.upd_earlyReady; exact sub_le (by decide) hW)
    | (intro t; intros; (try beta_reduce))
    | dsimp -zeta only [x]

theorem State.collDataIn_ok {W : Nat} {σ s : State} {a1 : _} (hW : 0x608567fdb0 ||| W = W) (h : Within W σ s) :
    Within W σ (State.collDataIn s a1) := by
  unfold State.collDataIn
  repeat' first
    | with_reducible assumption
    | (with_reducible apply State.collRefuse_ok; exact sub_le (by decide) hW)
    | (with_reducible apply State.treeIn_ok; exact sub_le (by decide) hW)
    | (with_reducible apply State.ringIn_ok; exact sub_le (by decide) hW)
    | (with_reducible apply State.progressed_ok; exact sub_le (by decide) hW)
    | (with_reducible apply State.updCmd_ok; exact sub_le (by decide) hW)
    | (with_reducible apply State.collGoOn_ok; exact sub_le (by decide) hW)
    | with_reducible apply Within.ite
    | with_reducible apply Within.ite1
    | with_reducible apply Within.ite2
    | (extract_lets +onlyGivenNames x
       first
       | (refine Within.cut (W := W) (s := σ) x ?_ ?_; rotate_left; (clear_value x; intro hx))
       | (refine Within.cut (W := W) (s := σ) x.1 ?_ ?_; rotate_left; (clear_value x; intro hx))
       | (refine Within.cut (W := W) (s := σ) x.2 ?_ ?_; rotate_left; (clear_value x; intro hx))
       | (refine Within.cutF (W := W) (s := σ) x ?_ ?_; rotate_left; (clear_value x; intro hf))
       | clear_value x)
    | split
    | (intro t; intros; (try beta_reduce))
    | dsimp -zeta only [x]

theorem State.ackIn_ok {W : Nat} {σ s : State} {a1 a2 : _} (hW : 0x608767fdb0 ||| W = W) (h : Within W σ s) :
    Within W σ (State.ackIn s a1 a2) := by
  unfold State.ackIn
  repeat' first
    | with_reducible assumption
    | (with_reducible apply State.ackFor_ok; exact sub_le (by decide) hW)
    | with_reducible apply Within.ite
    | (extract_lets +onlyGivenNames x
       first
       | (refine Within.cut (W := W) (s := σ) x ?_ ?_; rotate_left; (clear_value x; intro hx))
       | (refine Within.cut (W := W) (s := σ) x.1 ?_ ?_; rotate_left; (clear_value x; intro hx))
       | (refine Within.cut (W := W) (s := σ) x.2 ?_ ?_; rotate_left; (clear_value x; intro hx))
       | (refine Within.cutF (W := W) (s := σ) x ?_ ?_; rotate_left; (clear_value x; intro hf))
       | clear_value x)
    | split
    | (with_reducible apply Within.upd_earlyReady; exact sub_le (by decide) hW)
    | (intro t; intros; (try beta_reduce))
    | dsimp -zeta only [x]

theorem State.sealIn_ok {W : Nat} {σ s : State} {a1 : _} (hW : 0x608567fdb0 ||| W = W) (h : Within W σ s) :
    Within W σ (State.sealIn s a1) := by
  unfold State.sealIn
  repeat' first
    | with_reducible assumption
    | (with_reducible apply State.sealed_ok; exact sub_le (by decide) hW)
    | with_reducible apply Within.ite
    | split
    | (intro t; intros; (try beta_reduce))

theorem State.collCancelIn_ok {W : Nat} {σ s : State} {a1 : _} (hW : 0x6005671d90 ||| W = W) (h : Within W σ s) :
    Within W σ (State.collCancelIn s a1) := by
  unfold State.collCancelIn
  repeat' first
    | with_reducible assumption
    | (with_reducible apply State.collFail_ok; exact sub_le (by decide) hW)
    | (with_reducible apply State.freshen_ok; exact sub_le (by decide) hW)
    | split
    | (intro t; intros; (try beta_reduce))

theorem State.takeEarly_ok {W : Nat} {σ s : State} {a1 a2 : _} (hW : 0x608767fdb0 ||| W = W) (h : Within W σ s) :
    Within W σ (State.takeEarly s a1 a2) := by
  unfold State.takeEarly
  repeat' first
    | with_reducible assumption
    | (with_reducible apply State.readyFor_ok; exact sub_le (by decide) hW)
    | (with_reducible apply State.ackFor_ok; exact sub_le (by decide) hW)
    | with_reducible apply Within.ite
    | (with_reducible apply Within.fold; (intro t x ht; beta_reduce))
    | (with_reducible apply Within.fold1; (intro t x ht; beta_reduce))
    | (with_reducible apply Within.fold2; (intro t x ht; beta_reduce))
    | (extract_lets +onlyGivenNames x
       first
       | (refine Within.cut (W := W) (s := σ) x ?_ ?_; rotate_left; (clear_value x; intro hx))
       | (refine Within.cut (W := W) (s := σ) x.1 ?_ ?_; rotate_left; (clear_value x; intro hx))
       | (refine Within.cut (W := W) (s := σ) x.2 ?_ ?_; rotate_left; (clear_value x; intro hx))
       | (refine Within.cutF (W := W) (s := σ) x ?_ ?_; rotate_left; (clear_value x; intro hf))
       | clear_value x)
    | split
    | (with_reducible apply Within.upd_earlyReady; exact sub_le (by decide) hW)
    | (intro t; intros; (try beta_reduce))
    | dsimp -zeta only [x]

theorem State.collStart_ok {W : Nat} {σ s : State} {a1 a2 : _} (hW : 0x608767fdb0 ||| W = W) (h : Within W σ s) :
    Within W σ (State.collStart s a1 a2) := by
  unfold State.collStart
  repeat' first
    | with_reducible assumption
    | (with_reducible apply State.finish_ok; exact sub_le (by decide) hW)
    | (with_reducible apply State.updPart_ok; exact sub_le (by decide) hW)
    | (with_reducible apply State.collFail_ok; exact sub_le (by decide) hW)
    | (with_reducible apply State.setReg_ok; exact sub_le (by decide) hW)
    | (with_reducible apply State.sendReady_ok; exact sub_le (by decide) hW)
    | (with_reducible apply State.meter_ok; exact sub_le (by decide) hW)
    | (with_reducible apply State.collBegin_ok; exact sub_le (by decide) hW)
    | (with_reducible apply State.takeEarly_ok; exact sub_le (by decide) hW)
    | (with_reducible apply State.collGoOn_ok; exact sub_le (by decide) hW)
    | with_reducible apply Within.ite
    | (with_reducible apply Within.fold; (intro t x ht; beta_reduce))
    | (with_reducible apply Within.fold1; (intro t x ht; beta_reduce))
    | (with_reducible apply Within.fold2; (intro t x ht; beta_reduce))
    | with_reducible apply Within.ite1
    | with_reducible apply Within.ite2
    | (extract_lets +onlyGivenNames x
       first
       | (refine Within.cut (W := W) (s := σ) x ?_ ?_; rotate_left; (clear_value x; intro hx))
       | (refine Within.cut (W := W) (s := σ) x.1 ?_ ?_; rotate_left; (clear_value x; intro hx))
       | (refine Within.cut (W := W) (s := σ) x.2 ?_ ?_; rotate_left; (clear_value x; intro hx))
       | (refine Within.cutF (W := W) (s := σ) x ?_ ?_; rotate_left; (clear_value x; intro hf))
       | clear_value x)
    | split
    | (with_reducible apply Within.upd_colls; exact sub_le (by decide) hW)
    | (intro t; intros; (try beta_reduce))
    | dsimp -zeta only [x]

theorem State.collTimeout_ok {W : Nat} {σ s : State} {a1 a2 : _} (hW : 0x608567fdb0 ||| W = W) (h : Within W σ s) :
    Within W σ (State.collTimeout s a1 a2) := by
  unfold State.collTimeout
  repeat' first
    | with_reducible assumption
    | (with_reducible apply State.bump_ok; exact sub_le (by decide) hW)
    | (with_reducible apply State.closeStep_ok; exact sub_le (by decide) hW)
    | (with_reducible apply State.collFail_ok; exact sub_le (by decide) hW)
    | with_reducible apply Within.ite
    | (extract_lets +onlyGivenNames x
       first
       | (refine Within.cut (W := W) (s := σ) x ?_ ?_; rotate_left; (clear_value x; intro hx))
       | (refine Within.cut (W := W) (s := σ) x.1 ?_ ?_; rotate_left; (clear_value x; intro hx))
       | (refine Within.cut (W := W) (s := σ) x.2 ?_ ?_; rotate_left; (clear_value x; intro hx))
       | (refine Within.cutF (W := W) (s := σ) x ?_ ?_; rotate_left; (clear_value x; intro hf))
       | clear_value x)
    | split
    | (intro t; intros; (try beta_reduce))
    | dsimp -zeta only [x]

end Sys2Proof.Machine
end

