-- ==== Sys2Proof/Laws/FRegView.lean ====
section
/-! SUPPORT. What each operation of RegView.lean can change, and that it keeps the tables in canonical form. -/

set_option linter.all false

namespace Sys2Proof.Machine

theorem State.busyDrop_ok {W : Nat} {σ s : State} {a1 a2 a3 : _} (hW : 0x2000040010 ||| W = W) (h : Within W σ s) :
    Within W σ (State.busyDrop s a1 a2 a3) := by
  unfold State.busyDrop
  repeat' first
    | with_reducible assumption
    | (with_reducible apply State.notice_ok; exact sub_le (by decide) hW)
    | (with_reducible apply State.bump_ok; exact sub_le (by decide) hW)
    | (with_reducible apply State.raisePage_ok; exact sub_le (by decide) hW)
    | (intro t; intros; (try beta_reduce))

theorem State.progressRead_ok {W : Nat} {σ s : State} {a1 a2 : _} (hW : 0x2000000040 ||| W = W) (h : Within W σ s) :
    Within W σ (State.progressRead s a1 a2) := by
  unfold State.progressRead
  repeat' first
    | with_reducible assumption
    | (with_reducible apply State.emit_ok; exact sub_le (by decide) hW)
    | (intro hs; first | rfl | with_reducible exact hs | with_reducible first | exact hs | exact wf_mset hs _ _ | exact wf_msetBytes _ hs _ | exact wf_filter hs _ | exact rising_sset hs _ _ | exact rising_filter hs _ | exact rising_sdel hs _ | (refine rising_map hs _ ?_; intro e; beta_reduce; first | rfl | (split <;> rfl)))
    | (extract_lets +onlyGivenNames x
       first
       | (refine Within.cut (W := W) (s := σ) x ?_ ?_; rotate_left; (clear_value x; intro hx))
       | (refine Within.cut (W := W) (s := σ) x.1 ?_ ?_; rotate_left; (clear_value x; intro hx))
       | (refine Within.cut (W := W) (s := σ) x.2 ?_ ?_; rotate_left; (clear_value x; intro hx))
       | (refine Within.cutF (W := W) (s := σ) x ?_ ?_; rotate_left; (clear_value x; intro hf))
       | clear_value x)
    | (with_reducible apply Within.upd_latches; exact sub_le (by decide) hW)
    | (intro t; intros; (try beta_reduce))
    | dsimp -zeta only [x]

theorem State.lowHalfRead_ok {W : Nat} {σ s : State} {a1 a2 a3 : _} (hW : 0x2000040050 ||| W = W) (h : Within W σ s) :
    Within W σ (State.lowHalfRead s a1 a2 a3) := by
  unfold State.lowHalfRead
  repeat' first
    | with_reducible assumption
    | (with_reducible apply State.emit_ok; exact sub_le (by decide) hW)
    | (with_reducible apply State.progressRead_ok; exact sub_le (by decide) hW)
    | (with_reducible apply State.notice_ok; exact sub_le (by decide) hW)
    | (with_reducible apply State.raisePage_ok; exact sub_le (by decide) hW)
    | with_reducible apply Within.ite
    | (intro hs; first | rfl | with_reducible exact hs | with_reducible first | exact hs | exact wf_mset hs _ _ | exact wf_msetBytes _ hs _ | exact wf_filter hs _ | exact rising_sset hs _ _ | exact rising_filter hs _ | exact rising_sdel hs _ | exact rising_sset (rising_sdel hs _) _ _ | (split <;> first | exact rising_sset (rising_sdel hs _) _ _ | exact rising_sdel hs _) | (refine rising_map hs _ ?_; intro e; beta_reduce; first | rfl | (split <;> rfl)))
    | (extract_lets +onlyGivenNames x
       first
       | (refine Within.cut (W := W) (s := σ) x ?_ ?_; rotate_left; (clear_value x; intro hx))
       | (refine Within.cut (W := W) (s := σ) x.1 ?_ ?_; rotate_left; (clear_value x; intro hx))
       | (refine Within.cut (W := W) (s := σ) x.2 ?_ ?_; rotate_left; (clear_value x; intro hx))
       | (refine Within.cutF (W := W) (s := σ) x ?_ ?_; rotate_left; (clear_value x; intro hf))
       | clear_value x)
    | split
    | (with_reducible apply Within.upd_latches; exact sub_le (by decide) hW)
    | (intro t; intros; (try beta_reduce))
    | dsimp -zeta only [x]

theorem State.sprueRead_ok {W : Nat} {σ s : State} {a1 a2 : _} (hW : 0x2000000010 ||| W = W) (h : Within W σ s) :
    Within W σ (State.sprueRead s a1 a2) := by
  unfold State.sprueRead
  repeat' first
    | with_reducible assumption
    | (with_reducible apply State.emit_ok; exact sub_le (by decide) hW)
    | (with_reducible apply State.setFld_ok; exact sub_le (by decide) hW)
    | with_reducible apply Within.ite
    | (extract_lets +onlyGivenNames x
       first
       | (refine Within.cut (W := W) (s := σ) x ?_ ?_; rotate_left; (clear_value x; intro hx))
       | (refine Within.cut (W := W) (s := σ) x.1 ?_ ?_; rotate_left; (clear_value x; intro hx))
       | (refine Within.cut (W := W) (s := σ) x.2 ?_ ?_; rotate_left; (clear_value x; intro hx))
       | (refine Within.cutF (W := W) (s := σ) x ?_ ?_; rotate_left; (clear_value x; intro hf))
       | clear_value x)
    | split
    | (intro t; intros; (try beta_reduce))
    | dsimp -zeta only [x]

end Sys2Proof.Machine
end

