-- ==== Sys2Proof/Laws/FSideband.lean ====
section
/-! SUPPORT. What each operation of Sideband.lean can change, and that it keeps the tables in canonical form. -/

set_option linter.all false

namespace Sys2Proof.Machine

theorem State.pldm_ok {W : Nat} {σ s : State} {a1 : _} (hW : 0x10 ||| W = W) (hk : ∀ t, Within W σ t → Within W σ (a1 t)) (h : Within W σ s) :
    Within W σ (State.pldm s a1) := by
  unfold State.pldm
  repeat' first
    | with_reducible assumption
    | with_reducible apply hk
    | (with_reducible apply State.bump_ok; exact sub_le (by decide) hW)
    | with_reducible apply Within.ite
    | split
    | (intro t; intros; (try beta_reduce))

theorem State.say_ok {W : Nat} {σ s : State} {a1 : _} (hW : 0x2000000000 ||| W = W) (h : Within W σ s) :
    Within W σ (State.say s a1) := by
  unfold State.say
  repeat' first
    | with_reducible assumption
    | (with_reducible apply State.emit_ok; exact sub_le (by decide) hW)
    | (intro t; intros; (try beta_reduce))

theorem State.sbEvent_ok {W : Nat} {σ s : State} {a1 a2 : _} (hW : 0x2800000010 ||| W = W) (h : Within W σ s) :
    Within W σ (State.sbEvent s a1 a2) := by
  unfold State.sbEvent
  repeat' first
    | with_reducible assumption
    | (with_reducible apply State.say_ok; exact sub_le (by decide) hW)
    | (with_reducible apply State.bump_ok; exact sub_le (by decide) hW)
    | with_reducible apply Within.ite
    | (extract_lets +onlyGivenNames x
       first
       | (refine Within.cut (W := W) (s := σ) x ?_ ?_; rotate_left; (clear_value x; intro hx))
       | (refine Within.cut (W := W) (s := σ) x.1 ?_ ?_; rotate_left; (clear_value x; intro hx))
       | (refine Within.cut (W := W) (s := σ) x.2 ?_ ?_; rotate_left; (clear_value x; intro hx))
       | (refine Within.cutF (W := W) (s := σ) x ?_ ?_; rotate_left; (clear_value x; intro hf))
       | clear_value x)
    | split
    | (with_reducible apply Within.upd_sb; exact sub_le (by decide) hW)
    | (intro t; intros; (try beta_reduce))
    | dsimp -zeta only [x]

theorem State.sbEvents_ok {W : Nat} {σ s : State} (hW : 0x2800000010 ||| W = W) (h : Within W σ s) :
    Within W σ (State.sbEvents s) := by
  unfold State.sbEvents
  repeat' first
    | with_reducible assumption
    | (with_reducible apply State.sbEvent_ok; exact sub_le (by decide) hW)
    | (with_reducible apply Within.fold; (intro t x ht; beta_reduce))
    | (with_reducible apply Within.fold1; (intro t x ht; beta_reduce))
    | (with_reducible apply Within.fold2; (intro t x ht; beta_reduce))
    | (intro t; intros; (try beta_reduce))

theorem State.sbLevels_ok {W : Nat} {σ s : State} (hW : 0x2800000010 ||| W = W) (h : Within W σ s) :
    Within W σ (State.sbLevels s) := by
  unfold State.sbLevels
  repeat' first
    | with_reducible assumption
    | (with_reducible apply State.sbEvent_ok; exact sub_le (by decide) hW)
    | (with_reducible apply Within.fold; (intro t x ht; beta_reduce))
    | (with_reducible apply Within.fold1; (intro t x ht; beta_reduce))
    | (with_reducible apply Within.fold2; (intro t x ht; beta_reduce))
    | (intro t; intros; (try beta_reduce))

theorem State.eventAccepted_ok {W : Nat} {σ s : State} (hW : 0x800000000 ||| W = W) (h : Within W σ s) :
    Within W σ (State.eventAccepted s) := by
  unfold State.eventAccepted
  repeat' first
    | with_reducible assumption
    | (extract_lets +onlyGivenNames x
       first
       | (refine Within.cut (W := W) (s := σ) x ?_ ?_; rotate_left; (clear_value x; intro hx))
       | (refine Within.cut (W := W) (s := σ) x.1 ?_ ?_; rotate_left; (clear_value x; intro hx))
       | (refine Within.cut (W := W) (s := σ) x.2 ?_ ?_; rotate_left; (clear_value x; intro hx))
       | (refine Within.cutF (W := W) (s := σ) x ?_ ?_; rotate_left; (clear_value x; intro hf))
       | clear_value x)
    | split
    | (with_reducible apply Within.upd_sb; exact sub_le (by decide) hW)
    | (intro t; intros; (try beta_reduce))

theorem State.takeAddress_ok {W : Nat} {σ s : State} {a1 : _} (hW : 0x2800000000 ||| W = W) (h : Within W σ s) :
    Within W σ (State.takeAddress s a1) := by
  unfold State.takeAddress
  repeat' first
    | with_reducible assumption
    | (with_reducible apply State.emit_ok; exact sub_le (by decide) hW)
    | with_reducible apply Within.ite
    | (extract_lets +onlyGivenNames x
       first
       | (refine Within.cut (W := W) (s := σ) x ?_ ?_; rotate_left; (clear_value x; intro hx))
       | (refine Within.cut (W := W) (s := σ) x.1 ?_ ?_; rotate_left; (clear_value x; intro hx))
       | (refine Within.cut (W := W) (s := σ) x.2 ?_ ?_; rotate_left; (clear_value x; intro hx))
       | (refine Within.cutF (W := W) (s := σ) x ?_ ?_; rotate_left; (clear_value x; intro hf))
       | clear_value x)
    | split
    | (with_reducible apply Within.upd_sb; exact sub_le (by decide) hW)
    | (intro t; intros; (try beta_reduce))
    | dsimp -zeta only [x]

theorem State.dropAddress_ok {W : Nat} {σ s : State} (hW : 0x800000000 ||| W = W) (h : Within W σ s) :
    Within W σ (State.dropAddress s) := by
  unfold State.dropAddress
  repeat' first
    | with_reducible assumption
    | (extract_lets +onlyGivenNames x
       first
       | (refine Within.cut (W := W) (s := σ) x ?_ ?_; rotate_left; (clear_value x; intro hx))
       | (refine Within.cut (W := W) (s := σ) x.1 ?_ ?_; rotate_left; (clear_value x; intro hx))
       | (refine Within.cut (W := W) (s := σ) x.2 ?_ ?_; rotate_left; (clear_value x; intro hx))
       | (refine Within.cutF (W := W) (s := σ) x ?_ ?_; rotate_left; (clear_value x; intro hf))
       | clear_value x)
    | (with_reducible apply Within.upd_sb; exact sub_le (by decide) hW)
    | (intro t; intros; (try beta_reduce))

theorem State.setEid_ok {W : Nat} {σ s : State} {a1 : _} (hW : 0x2800000010 ||| W = W) (h : Within W σ s) :
    Within W σ (State.setEid s a1) := by
  unfold State.setEid
  repeat' first
    | with_reducible assumption
    | (with_reducible apply State.pldm_ok; exact sub_le (by decide) hW)
    | (with_reducible apply State.emit_ok; exact sub_le (by decide) hW)
    | with_reducible apply Within.ite
    | (extract_lets +onlyGivenNames x
       first
       | (refine Within.cut (W := W) (s := σ) x ?_ ?_; rotate_left; (clear_value x; intro hx))
       | (refine Within.cut (W := W) (s := σ) x.1 ?_ ?_; rotate_left; (clear_value x; intro hx))
       | (refine Within.cut (W := W) (s := σ) x.2 ?_ ?_; rotate_left; (clear_value x; intro hx))
       | (refine Within.cutF (W := W) (s := σ) x ?_ ?_; rotate_left; (clear_value x; intro hf))
       | clear_value x)
    | split
    | (with_reducible apply Within.upd_sb; exact sub_le (by decide) hW)
    | (intro t; intros; (try beta_reduce))

theorem State.alertResponse_ok {W : Nat} {σ s : State} (hW : 0x2000000000 ||| W = W) (h : Within W σ s) :
    Within W σ (State.alertResponse s) := by
  unfold State.alertResponse
  repeat' first
    | with_reducible assumption
    | (with_reducible apply State.emit_ok; exact sub_le (by decide) hW)
    | with_reducible apply Within.ite
    | split
    | (intro t; intros; (try beta_reduce))

theorem State.pdrInfo_ok {W : Nat} {σ s : State} (hW : 0x2000000010 ||| W = W) (h : Within W σ s) :
    Within W σ (State.pdrInfo s) := by
  unfold State.pdrInfo
  repeat' first
    | with_reducible assumption
    | (with_reducible apply State.pldm_ok; exact sub_le (by decide) hW)
    | (with_reducible apply State.say_ok; exact sub_le (by decide) hW)
    | (intro t; intros; (try beta_reduce))

theorem State.getPdr_ok {W : Nat} {σ s : State} {a1 : _} (hW : 0x2000000010 ||| W = W) (h : Within W σ s) :
    Within W σ (State.getPdr s a1) := by
  unfold State.getPdr
  repeat' first
    | with_reducible assumption
    | (with_reducible apply State.pldm_ok; exact sub_le (by decide) hW)
    | (with_reducible apply State.say_ok; exact sub_le (by decide) hW)
    | with_reducible apply Within.ite
    | with_reducible apply Within.ite1
    | with_reducible apply Within.ite2
    | (extract_lets +onlyGivenNames x
       first
       | (refine Within.cut (W := W) (s := σ) x ?_ ?_; rotate_left; (clear_value x; intro hx))
       | (refine Within.cut (W := W) (s := σ) x.1 ?_ ?_; rotate_left; (clear_value x; intro hx))
       | (refine Within.cut (W := W) (s := σ) x.2 ?_ ?_; rotate_left; (clear_value x; intro hx))
       | (refine Within.cutF (W := W) (s := σ) x ?_ ?_; rotate_left; (clear_value x; intro hf))
       | clear_value x)
    | split
    | (intro t; intros; (try beta_reduce))
    | dsimp -zeta only [x]

theorem State.sensorReading_ok {W : Nat} {σ s : State} {a1 : _} (hW : 0x2000000010 ||| W = W) (h : Within W σ s) :
    Within W σ (State.sensorReading s a1) := by
  unfold State.sensorReading
  repeat' first
    | with_reducible assumption
    | (with_reducible apply State.pldm_ok; exact sub_le (by decide) hW)
    | (with_reducible apply State.say_ok; exact sub_le (by decide) hW)
    | with_reducible apply Within.ite
    | split
    | (intro t; intros; (try beta_reduce))

theorem State.stateReadings_ok {W : Nat} {σ s : State} {a1 : _} (hW : 0x2000000010 ||| W = W) (h : Within W σ s) :
    Within W σ (State.stateReadings s a1) := by
  unfold State.stateReadings
  repeat' first
    | with_reducible assumption
    | (with_reducible apply State.pldm_ok; exact sub_le (by decide) hW)
    | (with_reducible apply State.say_ok; exact sub_le (by decide) hW)
    | with_reducible apply Within.ite
    | split
    | (intro t; intros; (try beta_reduce))

theorem State.setReceiver_ok {W : Nat} {σ s : State} {a1 : _} (hW : 0x2800000010 ||| W = W) (h : Within W σ s) :
    Within W σ (State.setReceiver s a1) := by
  unfold State.setReceiver
  repeat' first
    | with_reducible assumption
    | (with_reducible apply State.pldm_ok; exact sub_le (by decide) hW)
    | (with_reducible apply State.say_ok; exact sub_le (by decide) hW)
    | (extract_lets +onlyGivenNames x
       first
       | (refine Within.cut (W := W) (s := σ) x ?_ ?_; rotate_left; (clear_value x; intro hx))
       | (refine Within.cut (W := W) (s := σ) x.1 ?_ ?_; rotate_left; (clear_value x; intro hx))
       | (refine Within.cut (W := W) (s := σ) x.2 ?_ ?_; rotate_left; (clear_value x; intro hx))
       | (refine Within.cutF (W := W) (s := σ) x ?_ ?_; rotate_left; (clear_value x; intro hf))
       | clear_value x)
    | (with_reducible apply Within.upd_sb; exact sub_le (by decide) hW)
    | (intro t; intros; (try beta_reduce))

end Sys2Proof.Machine
end

