-- ==== Sys2Proof/Laws/FHealth.lean ====
section
/-! SUPPORT. What each operation of Health.lean can change, and that it keeps the tables in canonical form. -/

set_option linter.all false

namespace Sys2Proof.Machine

theorem State.dropTracked_ok {W : Nat} {σ s : State} {a1 a2 a3 : _} (hW : 0x80000 ||| W = W) (h : Within W σ s) :
    Within W σ (State.dropTracked s a1 a2 a3) := by
  unfold State.dropTracked
  repeat' first
    | with_reducible assumption
    | with_reducible apply Within.ite
    | (with_reducible apply Within.fold; (intro t x ht; beta_reduce))
    | (with_reducible apply Within.fold1; (intro t x ht; beta_reduce))
    | (with_reducible apply Within.fold2; (intro t x ht; beta_reduce))
    | with_reducible apply Within.ite1
    | with_reducible apply Within.ite2
    | (extract_lets +onlyGivenNames x
       first
       | (refine Within.cut (W := W) (s := σ) x ?_ ?_; rotate_left; (clear_value x; intro hx))
       | (refine Within.cut (W := W) (s := σ) x.1 ?_ ?_; rotate_left; (clear_value x; intro hx))
       | (refine Within.cut (W := W) (s := σ) x.2 ?_ ?_; rotate_left; (clear_value x; intro hx))
       | (refine Within.cutF (W := W) (s := σ) x ?_ ?_; rotate_left; (clear_value x; intro hf))
       | clear_value x)
    | split
    | (with_reducible apply Within.upd_faultTimes; exact sub_le (by decide) hW)
    | (intro t; intros; (try beta_reduce))
    | dsimp -zeta only [x]

theorem State.countFault_ok {W : Nat} {σ s : State} {a1 a2 a3 : _} (hW : 0x80000 ||| W = W) (h : Within W σ s) :
    Within W σ (State.countFault s a1 a2 a3).1 := by
  unfold State.countFault
  repeat' first
    | with_reducible assumption
    | with_reducible apply Within.ite
    | with_reducible apply Within.ite1
    | with_reducible apply Within.ite2
    | (extract_lets +onlyGivenNames x
       first
       | (refine Within.cut (W := W) (s := σ) x ?_ ?_; rotate_left; (clear_value x; intro hx))
       | (refine Within.cut (W := W) (s := σ) x.1 ?_ ?_; rotate_left; (clear_value x; intro hx))
       | (refine Within.cut (W := W) (s := σ) x.2 ?_ ?_; rotate_left; (clear_value x; intro hx))
       | (refine Within.cutF (W := W) (s := σ) x ?_ ?_; rotate_left; (clear_value x; intro hf))
       | clear_value x)
    | split
    | (with_reducible apply Within.upd_faultTimes; exact sub_le (by decide) hW)
    | (intro t; intros; (try beta_reduce))
    | dsimp -zeta only [x]

theorem State.fenceCore_ok {W : Nat} {σ s : State} {a1 : _} (hW : 0x2000042010 ||| W = W) (h : Within W σ s) :
    Within W σ (State.fenceCore s a1) := by
  unfold State.fenceCore
  repeat' first
    | with_reducible assumption
    | (with_reducible apply State.notice_ok; exact sub_le (by decide) hW)
    | (with_reducible apply State.updCore_ok; exact sub_le (by decide) hW)
    | (extract_lets +onlyGivenNames x
       first
       | (refine Within.cut (W := W) (s := σ) x ?_ ?_; rotate_left; (clear_value x; intro hx))
       | (refine Within.cut (W := W) (s := σ) x.1 ?_ ?_; rotate_left; (clear_value x; intro hx))
       | (refine Within.cut (W := W) (s := σ) x.2 ?_ ?_; rotate_left; (clear_value x; intro hx))
       | (refine Within.cutF (W := W) (s := σ) x ?_ ?_; rotate_left; (clear_value x; intro hf))
       | clear_value x)
    | (intro t; intros; (try beta_reduce))

theorem State.assayBusy_ok {W : Nat} {σ s : State} {a1 : _} (hW : 0x4000000010 ||| W = W) (h : Within W σ s) :
    Within W σ (State.assayBusy s a1) := by
  unfold State.assayBusy
  repeat' first
    | with_reducible assumption
    | (with_reducible apply State.freshen_ok; exact sub_le (by decide) hW)
    | (with_reducible apply State.bump_ok; exact sub_le (by decide) hW)
    | (intro t; intros; (try beta_reduce))

theorem State.assayFailed_ok {W : Nat} {σ s : State} {a1 : _} (hW : 0x60056ffd90 ||| W = W) (h : Within W σ s) :
    Within W σ (State.assayFailed s a1) := by
  unfold State.assayFailed
  repeat' first
    | with_reducible assumption
    | (with_reducible apply State.raiseErr_ok; exact sub_le (by decide) hW)
    | (with_reducible apply State.verdict_ok; exact sub_le (by decide) hW)
    | (with_reducible apply State.updCore_ok; exact sub_le (by decide) hW)
    | (with_reducible apply State.countFault_ok; exact sub_le (by decide) hW)
    | (with_reducible apply State.fenceCore_ok; exact sub_le (by decide) hW)
    | with_reducible apply Within.ite
    | (with_reducible apply Within.fold; (intro t x ht; beta_reduce))
    | (with_reducible apply Within.fold1; (intro t x ht; beta_reduce))
    | (with_reducible apply Within.fold2; (intro t x ht; beta_reduce))
    | with_reducible apply Within.ite1
    | with_reducible apply Within.ite2
    | (extract_lets +onlyGivenNames x
       first
       | (refine Within.cut (W := W) (s := σ) x ?_ ?_; rotate_left; (clear_value x; intro hx))
       | (refine Within.cut (W := W) (s := σ) x.1 ?_ ?_; rotate_left; (clear_value x; intro hx))
       | (refine Within.cut (W := W) (s := σ) x.2 ?_ ?_; rotate_left; (clear_value x; intro hx))
       | (refine Within.cutF (W := W) (s := σ) x ?_ ?_; rotate_left; (clear_value x; intro hf))
       | clear_value x)
    | split
    | (intro t; intros; (try beta_reduce))
    | dsimp -zeta only [x]

theorem State.assaySpare_ok {W : Nat} {σ s : State} {a1 a2 : _} (hW : 0x60056fdd90 ||| W = W) (h : Within W σ s) :
    Within W σ (State.assaySpare s a1 a2) := by
  unfold State.assaySpare
  repeat' first
    | with_reducible assumption
    | (with_reducible apply State.raiseErr_ok; exact sub_le (by decide) hW)
    | (with_reducible apply State.countFault_ok; exact sub_le (by decide) hW)
    | (with_reducible apply State.notice_ok; exact sub_le (by decide) hW)
    | (with_reducible apply State.updCluster_ok; exact sub_le (by decide) hW)
    | with_reducible apply Within.ite
    | with_reducible apply Within.ite1
    | with_reducible apply Within.ite2
    | (extract_lets +onlyGivenNames x
       first
       | (refine Within.cut (W := W) (s := σ) x ?_ ?_; rotate_left; (clear_value x; intro hx))
       | (refine Within.cut (W := W) (s := σ) x.1 ?_ ?_; rotate_left; (clear_value x; intro hx))
       | (refine Within.cut (W := W) (s := σ) x.2 ?_ ?_; rotate_left; (clear_value x; intro hx))
       | (refine Within.cutF (W := W) (s := σ) x ?_ ?_; rotate_left; (clear_value x; intro hf))
       | clear_value x)
    | split
    | (intro t; intros; (try beta_reduce))
    | dsimp -zeta only [x]

theorem State.assay_ok {W : Nat} {σ s : State} {a1 a2 : _} (hW : 0x60856ffdb0 ||| W = W) (h : Within W σ s) :
    Within W σ (State.assay s a1 a2) := by
  unfold State.assay
  repeat' first
    | with_reducible assumption
    | (with_reducible apply State.assaySpare_ok; exact sub_le (by decide) hW)
    | (with_reducible apply State.assayBusy_ok; exact sub_le (by decide) hW)
    | (with_reducible apply State.updCore_ok; exact sub_le (by decide) hW)
    | (with_reducible apply State.assayFailed_ok; exact sub_le (by decide) hW)
    | (with_reducible apply State.runBars_ok; exact sub_le (by decide) hW)
    | with_reducible apply Within.ite
    | (extract_lets +onlyGivenNames x
       first
       | (refine Within.cut (W := W) (s := σ) x ?_ ?_; rotate_left; (clear_value x; intro hx))
       | (refine Within.cut (W := W) (s := σ) x.1 ?_ ?_; rotate_left; (clear_value x; intro hx))
       | (refine Within.cut (W := W) (s := σ) x.2 ?_ ?_; rotate_left; (clear_value x; intro hx))
       | (refine Within.cutF (W := W) (s := σ) x ?_ ?_; rotate_left; (clear_value x; intro hf))
       | clear_value x)
    | split
    | (intro t; intros; (try beta_reduce))
    | dsimp -zeta only [x]

theorem State.markDue_ok {W : Nat} {σ s : State} {a1 : _} (hW : 0x2000 ||| W = W) (h : Within W σ s) :
    Within W σ (State.markDue s a1) := by
  unfold State.markDue
  repeat' first
    | with_reducible assumption
    | (with_reducible apply State.updCore_ok; exact sub_le (by decide) hW)
    | with_reducible apply Within.ite
    | (extract_lets +onlyGivenNames x
       first
       | (refine Within.cut (W := W) (s := σ) x ?_ ?_; rotate_left; (clear_value x; intro hx))
       | (refine Within.cut (W := W) (s := σ) x.1 ?_ ?_; rotate_left; (clear_value x; intro hx))
       | (refine Within.cut (W := W) (s := σ) x.2 ?_ ?_; rotate_left; (clear_value x; intro hx))
       | (refine Within.cutF (W := W) (s := σ) x ?_ ?_; rotate_left; (clear_value x; intro hf))
       | clear_value x)
    | split
    | (intro t; intros; (try beta_reduce))

theorem State.retireRow_ok {W : Nat} {σ s : State} {a1 a2 a3 : _} (hW : 0x6000140010 ||| W = W) (h : Within W σ s) :
    Within W σ (State.retireRow s a1 a2 a3) := by
  unfold State.retireRow
  repeat' first
    | with_reducible assumption
    | (with_reducible apply State.freshen_ok; exact sub_le (by decide) hW)
    | (with_reducible apply State.bump_ok; exact sub_le (by decide) hW)
    | (with_reducible apply State.logErr_ok; exact sub_le (by decide) hW)
    | (with_reducible apply State.setReg_ok; exact sub_le (by decide) hW)
    | with_reducible apply Within.ite
    | (extract_lets +onlyGivenNames x
       first
       | (refine Within.cut (W := W) (s := σ) x ?_ ?_; rotate_left; (clear_value x; intro hx))
       | (refine Within.cut (W := W) (s := σ) x.1 ?_ ?_; rotate_left; (clear_value x; intro hx))
       | (refine Within.cut (W := W) (s := σ) x.2 ?_ ?_; rotate_left; (clear_value x; intro hx))
       | (refine Within.cutF (W := W) (s := σ) x ?_ ?_; rotate_left; (clear_value x; intro hf))
       | clear_value x)
    | split
    | (with_reducible apply Within.upd_retireFailed; exact sub_le (by decide) hW)
    | (intro t; intros; (try beta_reduce))
    | dsimp -zeta only [x]

theorem State.hbmCorrected_ok {W : Nat} {σ s : State} {a1 a2 a3 a4 : _} (hW : 0x60057fdd90 ||| W = W) (h : Within W σ s) :
    Within W σ (State.hbmCorrected s a1 a2 a3 a4) := by
  unfold State.hbmCorrected
  repeat' first
    | with_reducible assumption
    | (with_reducible apply State.bump_ok; exact sub_le (by decide) hW)
    | (with_reducible apply State.raisePage_ok; exact sub_le (by decide) hW)
    | (with_reducible apply State.raiseErr_ok; exact sub_le (by decide) hW)
    | (with_reducible apply State.dropTracked_ok; exact sub_le (by decide) hW)
    | (with_reducible apply State.countFault_ok; exact sub_le (by decide) hW)
    | (with_reducible apply State.retireRow_ok; exact sub_le (by decide) hW)
    | with_reducible apply Within.ite
    | with_reducible apply Within.ite1
    | with_reducible apply Within.ite2
    | (extract_lets +onlyGivenNames x
       first
       | (refine Within.cut (W := W) (s := σ) x ?_ ?_; rotate_left; (clear_value x; intro hx))
       | (refine Within.cut (W := W) (s := σ) x.1 ?_ ?_; rotate_left; (clear_value x; intro hx))
       | (refine Within.cut (W := W) (s := σ) x.2 ?_ ?_; rotate_left; (clear_value x; intro hx))
       | (refine Within.cutF (W := W) (s := σ) x ?_ ?_; rotate_left; (clear_value x; intro hf))
       | clear_value x)
    | split
    | (intro t; intros; (try beta_reduce))
    | dsimp -zeta only [x]

theorem State.hbmError_ok {W : Nat} {σ s : State} {a1 a2 a3 a4 a5 : _} (hW : 0x60057fdd90 ||| W = W) (h : Within W σ s) :
    Within W σ (State.hbmError s a1 a2 a3 a4 a5) := by
  unfold State.hbmError
  repeat' first
    | with_reducible assumption
    | (with_reducible apply State.bump_ok; exact sub_le (by decide) hW)
    | (with_reducible apply State.raisePage_ok; exact sub_le (by decide) hW)
    | (with_reducible apply State.raiseErr_ok; exact sub_le (by decide) hW)
    | (with_reducible apply State.hbmCorrected_ok; exact sub_le (by decide) hW)
    | with_reducible apply Within.ite
    | (extract_lets +onlyGivenNames x
       first
       | (refine Within.cut (W := W) (s := σ) x ?_ ?_; rotate_left; (clear_value x; intro hx))
       | (refine Within.cut (W := W) (s := σ) x.1 ?_ ?_; rotate_left; (clear_value x; intro hx))
       | (refine Within.cut (W := W) (s := σ) x.2 ?_ ?_; rotate_left; (clear_value x; intro hx))
       | (refine Within.cutF (W := W) (s := σ) x ?_ ?_; rotate_left; (clear_value x; intro hf))
       | clear_value x)
    | split
    | (with_reducible apply Within.upd_hbmBad; exact sub_le (by decide) hW)
    | (intro t; intros; (try beta_reduce))
    | dsimp -zeta only [x]

theorem State.havocRegs_ok {W : Nat} {σ s : State} {a1 a2 a3 : _} (hW : 0x4000000010 ||| W = W) (h : Within W σ s) :
    Within W σ (State.havocRegs s a1 a2 a3) := by
  induction a3 generalizing s a1 a2 with
  | nil =>
    unfold State.havocRegs
    repeat' first
      | with_reducible assumption
      | with_reducible apply ih
      | (with_reducible apply State.freshen_ok; exact sub_le (by decide) hW)
      | (with_reducible apply State.setReg_ok; exact sub_le (by decide) hW)
      | (intro t; intros; (try beta_reduce))
  | cons b r ih =>
    unfold State.havocRegs
    repeat' first
      | with_reducible assumption
      | with_reducible apply ih
      | (with_reducible apply State.freshen_ok; exact sub_le (by decide) hW)
      | (with_reducible apply State.setReg_ok; exact sub_le (by decide) hW)
      | (intro t; intros; (try beta_reduce))

theorem State.heldSpoiled_ok {W : Nat} {σ s : State} {a1 a2 : _} (hW : 0x4000008010 ||| W = W) (h : Within W σ s) :
    Within W σ (State.heldSpoiled s a1 a2) := by
  unfold State.heldSpoiled
  repeat' first
    | with_reducible assumption
    | (with_reducible apply State.havocRegs_ok; exact sub_le (by decide) hW)
    | (extract_lets +onlyGivenNames x
       first
       | (refine Within.cut (W := W) (s := σ) x ?_ ?_; rotate_left; (clear_value x; intro hx))
       | (refine Within.cut (W := W) (s := σ) x.1 ?_ ?_; rotate_left; (clear_value x; intro hx))
       | (refine Within.cut (W := W) (s := σ) x.2 ?_ ?_; rotate_left; (clear_value x; intro hx))
       | (refine Within.cutF (W := W) (s := σ) x ?_ ?_; rotate_left; (clear_value x; intro hf))
       | clear_value x)
    | split
    | (with_reducible apply Within.upd_adm_fresh; exact sub_le (by decide) hW)
    | (intro t; intros; (try beta_reduce))

theorem State.clusterSram_ok {W : Nat} {σ s : State} {a1 a2 a3 a4 a5 : _} (hW : 0x60056fdd90 ||| W = W) (h : Within W σ s) :
    Within W σ (State.clusterSram s a1 a2 a3 a4 a5) := by
  unfold State.clusterSram
  repeat' first
    | with_reducible assumption
    | (with_reducible apply State.setReg_ok; exact sub_le (by decide) hW)
    | (with_reducible apply State.raiseErr_ok; exact sub_le (by decide) hW)
    | (with_reducible apply State.bump_ok; exact sub_le (by decide) hW)
    | (with_reducible apply State.raisePage_ok; exact sub_le (by decide) hW)
    | (with_reducible apply State.countFault_ok; exact sub_le (by decide) hW)
    | (with_reducible apply State.logErr_ok; exact sub_le (by decide) hW)
    | with_reducible apply Within.ite
    | with_reducible apply Within.ite1
    | with_reducible apply Within.ite2
    | (extract_lets +onlyGivenNames x
       first
       | (refine Within.cut (W := W) (s := σ) x ?_ ?_; rotate_left; (clear_value x; intro hx))
       | (refine Within.cut (W := W) (s := σ) x.1 ?_ ?_; rotate_left; (clear_value x; intro hx))
       | (refine Within.cut (W := W) (s := σ) x.2 ?_ ?_; rotate_left; (clear_value x; intro hx))
       | (refine Within.cutF (W := W) (s := σ) x ?_ ?_; rotate_left; (clear_value x; intro hf))
       | clear_value x)
    | split
    | (intro t; intros; (try beta_reduce))
    | dsimp -zeta only [x]

theorem State.coreSram_ok {W : Nat} {σ s : State} {a1 a2 a3 a4 a5 : _} (hW : 0x60056ffd90 ||| W = W) (h : Within W σ s) :
    Within W σ (State.coreSram s a1 a2 a3 a4 a5) := by
  unfold State.coreSram
  repeat' first
    | with_reducible assumption
    | (with_reducible apply State.raiseErr_ok; exact sub_le (by decide) hW)
    | (with_reducible apply State.raisePage_ok; exact sub_le (by decide) hW)
    | (with_reducible apply State.bump_ok; exact sub_le (by decide) hW)
    | (with_reducible apply State.countFault_ok; exact sub_le (by decide) hW)
    | (with_reducible apply State.fenceCore_ok; exact sub_le (by decide) hW)
    | with_reducible apply Within.ite
    | with_reducible apply Within.ite1
    | with_reducible apply Within.ite2
    | (extract_lets +onlyGivenNames x
       first
       | (refine Within.cut (W := W) (s := σ) x ?_ ?_; rotate_left; (clear_value x; intro hx))
       | (refine Within.cut (W := W) (s := σ) x.1 ?_ ?_; rotate_left; (clear_value x; intro hx))
       | (refine Within.cut (W := W) (s := σ) x.2 ?_ ?_; rotate_left; (clear_value x; intro hx))
       | (refine Within.cutF (W := W) (s := σ) x ?_ ?_; rotate_left; (clear_value x; intro hf))
       | clear_value x)
    | split
    | (intro t; intros; (try beta_reduce))
    | dsimp -zeta only [x]

theorem State.sramError_ok {W : Nat} {σ s : State} {a1 a2 a3 a4 a5 a6 : _} (hW : 0x60056ffd90 ||| W = W) (h : Within W σ s) :
    Within W σ (State.sramError s a1 a2 a3 a4 a5 a6) := by
  unfold State.sramError
  repeat' first
    | with_reducible assumption
    | (with_reducible apply State.coreSram_ok; exact sub_le (by decide) hW)
    | (with_reducible apply State.clusterSram_ok; exact sub_le (by decide) hW)
    | (with_reducible apply State.raiseErr_ok; exact sub_le (by decide) hW)
    | (with_reducible apply State.raisePage_ok; exact sub_le (by decide) hW)
    | (with_reducible apply State.heldSpoiled_ok; exact sub_le (by decide) hW)
    | with_reducible apply Within.ite
    | split
    | (intro t; intros; (try beta_reduce))

theorem State.idleApply_ok {W : Nat} {σ s : State} {a1 : _} (hW : 0x208007fdb0 ||| W = W) (h : Within W σ s) :
    Within W σ (State.idleApply s a1) := by
  unfold State.idleApply
  repeat' first
    | with_reducible assumption
    | (with_reducible apply State.applyPart_ok; exact sub_le (by decide) hW)
    | (with_reducible apply State.replaceFenced_ok; exact sub_le (by decide) hW)
    | (with_reducible apply State.tryContract_ok; exact sub_le (by decide) hW)
    | with_reducible apply Within.ite
    | (with_reducible apply Within.fold; (intro t x ht; beta_reduce))
    | (with_reducible apply Within.fold1; (intro t x ht; beta_reduce))
    | (with_reducible apply Within.fold2; (intro t x ht; beta_reduce))
    | (extract_lets +onlyGivenNames x
       first
       | (refine Within.cut (W := W) (s := σ) x ?_ ?_; rotate_left; (clear_value x; intro hx))
       | (refine Within.cut (W := W) (s := σ) x.1 ?_ ?_; rotate_left; (clear_value x; intro hx))
       | (refine Within.cut (W := W) (s := σ) x.2 ?_ ?_; rotate_left; (clear_value x; intro hx))
       | (refine Within.cutF (W := W) (s := σ) x ?_ ?_; rotate_left; (clear_value x; intro hf))
       | clear_value x)
    | split
    | (intro t; intros; (try beta_reduce))
    | dsimp -zeta only [x]

end Sys2Proof.Machine
end

