-- ==== Sys2Proof/Laws/FJobRunner.lean ====
section
/-! SUPPORT. What each operation of JobRunner.lean can change, and that it keeps the tables in canonical form. -/

set_option linter.all false

namespace Sys2Proof.Machine

theorem State.updJr_ok {W : Nat} {σ s : State} {a1 a2 : _} (hW : 0x1000 ||| W = W) (h : Within W σ s) :
    Within W σ (State.updJr s a1 a2) := by
  unfold State.updJr
  repeat' first
    | with_reducible assumption
    | (with_reducible apply State.updPart_ok; exact sub_le (by decide) hW)
    | (extract_lets +onlyGivenNames x
       first
       | (refine Within.cut (W := W) (s := σ) x ?_ ?_; rotate_left; (clear_value x; intro hx))
       | (refine Within.cut (W := W) (s := σ) x.1 ?_ ?_; rotate_left; (clear_value x; intro hx))
       | (refine Within.cut (W := W) (s := σ) x.2 ?_ ?_; rotate_left; (clear_value x; intro hx))
       | (refine Within.cutF (W := W) (s := σ) x ?_ ?_; rotate_left; (clear_value x; intro hf))
       | clear_value x)
    | (intro t; intros; (try beta_reduce))

theorem State.setJrState_ok {W : Nat} {σ s : State} {a1 a2 : _} (hW : 0x10 ||| W = W) (h : Within W σ s) :
    Within W σ (State.setJrState s a1 a2) := by
  unfold State.setJrState
  repeat' first
    | with_reducible assumption
    | (with_reducible apply State.setFld_ok; exact sub_le (by decide) hW)
    | (intro t; intros; (try beta_reduce))

theorem State.jrStop_ok {W : Nat} {σ s : State} {a1 a2 : _} (hW : 0x1010 ||| W = W) (h : Within W σ s) :
    Within W σ (State.jrStop s a1 a2) := by
  unfold State.jrStop
  repeat' first
    | with_reducible assumption
    | (with_reducible apply State.setFld_ok; exact sub_le (by decide) hW)
    | (with_reducible apply State.setJrState_ok; exact sub_le (by decide) hW)
    | (with_reducible apply State.updJr_ok; exact sub_le (by decide) hW)
    | (extract_lets +onlyGivenNames x
       first
       | (refine Within.cut (W := W) (s := σ) x ?_ ?_; rotate_left; (clear_value x; intro hx))
       | (refine Within.cut (W := W) (s := σ) x.1 ?_ ?_; rotate_left; (clear_value x; intro hx))
       | (refine Within.cut (W := W) (s := σ) x.2 ?_ ?_; rotate_left; (clear_value x; intro hx))
       | (refine Within.cutF (W := W) (s := σ) x ?_ ?_; rotate_left; (clear_value x; intro hf))
       | clear_value x)
    | (intro t; intros; (try beta_reduce))
    | dsimp -zeta only [x]

theorem State.stageReg_ok {W : Nat} {σ s : State} {a1 a2 a3 a4 : _} (hW : 0x20 ||| W = W) (h : Within W σ s) :
    Within W σ (State.stageReg s a1 a2 a3 a4) := by
  unfold State.stageReg
  repeat' first
    | with_reducible assumption
    | (intro hs; first | rfl | with_reducible exact hs | with_reducible first | exact hs | exact wf_mset hs _ _ | exact wf_msetBytes _ hs _ | exact wf_filter hs _ | exact rising_sset hs _ _ | exact rising_filter hs _ | exact rising_sdel hs _ | (refine rising_map hs _ ?_; intro e; beta_reduce; first | rfl | (split <;> rfl)))
    | (extract_lets +onlyGivenNames x
       first
       | (refine Within.cut (W := W) (s := σ) x ?_ ?_; rotate_left; (clear_value x; intro hx))
       | (refine Within.cut (W := W) (s := σ) x.1 ?_ ?_; rotate_left; (clear_value x; intro hx))
       | (refine Within.cut (W := W) (s := σ) x.2 ?_ ?_; rotate_left; (clear_value x; intro hx))
       | (refine Within.cutF (W := W) (s := σ) x ?_ ?_; rotate_left; (clear_value x; intro hf))
       | clear_value x)
    | (with_reducible apply Within.upd_shadows; exact sub_le (by decide) hW)
    | (intro t; intros; (try beta_reduce))

theorem State.jrStart_ok {W : Nat} {σ s : State} {a1 : _} (hW : 0x2400001030 ||| W = W) (h : Within W σ s) :
    Within W σ (State.jrStart s a1) := by
  unfold State.jrStart
  repeat' first
    | with_reducible assumption
    | (with_reducible apply State.wake_ok; exact sub_le (by decide) hW)
    | (with_reducible apply State.updJr_ok; exact sub_le (by decide) hW)
    | (with_reducible apply State.meter_ok; exact sub_le (by decide) hW)
    | (with_reducible apply State.setReg_ok; exact sub_le (by decide) hW)
    | (with_reducible apply State.stageReg_ok; exact sub_le (by decide) hW)
    | (with_reducible apply State.raisePage_ok; exact sub_le (by decide) hW)
    | (with_reducible apply State.jrStop_ok; exact sub_le (by decide) hW)
    | with_reducible apply Within.ite
    | (extract_lets +onlyGivenNames x
       first
       | (refine Within.cut (W := W) (s := σ) x ?_ ?_; rotate_left; (clear_value x; intro hx))
       | (refine Within.cut (W := W) (s := σ) x.1 ?_ ?_; rotate_left; (clear_value x; intro hx))
       | (refine Within.cut (W := W) (s := σ) x.2 ?_ ?_; rotate_left; (clear_value x; intro hx))
       | (refine Within.cutF (W := W) (s := σ) x ?_ ?_; rotate_left; (clear_value x; intro hf))
       | clear_value x)
    | split
    | (intro t; intros; (try beta_reduce))
    | dsimp -zeta only [x]

theorem State.jrStopReq_ok {W : Nat} {σ s : State} {a1 : _} (hW : 0x1000 ||| W = W) (h : Within W σ s) :
    Within W σ (State.jrStopReq s a1) := by
  unfold State.jrStopReq
  repeat' first
    | with_reducible assumption
    | (with_reducible apply State.updJr_ok; exact sub_le (by decide) hW)
    | with_reducible apply Within.ite
    | (extract_lets +onlyGivenNames x
       first
       | (refine Within.cut (W := W) (s := σ) x ?_ ?_; rotate_left; (clear_value x; intro hx))
       | (refine Within.cut (W := W) (s := σ) x.1 ?_ ?_; rotate_left; (clear_value x; intro hx))
       | (refine Within.cut (W := W) (s := σ) x.2 ?_ ?_; rotate_left; (clear_value x; intro hx))
       | (refine Within.cutF (W := W) (s := σ) x ?_ ?_; rotate_left; (clear_value x; intro hf))
       | clear_value x)
    | split
    | (intro t; intros; (try beta_reduce))

theorem State.jrPut_ok {W : Nat} {σ s : State} {a1 a2 : _} (hW : 0x9d90 ||| W = W) (h : Within W σ s) :
    Within W σ (State.jrPut s a1 a2) := by
  induction a2 generalizing s a1 with
  | nil =>
    unfold State.jrPut
    repeat' first
      | with_reducible assumption
      | with_reducible apply ih
      | (with_reducible apply State.updJr_ok; exact sub_le (by decide) hW)
      | (with_reducible apply State.putRecord_ok; exact sub_le (by decide) hW)
      | (with_reducible apply State.updQueue_ok; exact sub_le (by decide) hW)
      | (with_reducible apply State.enqueue_ok; exact sub_le (by decide) hW)
      | with_reducible apply Within.ite
      | (extract_lets +onlyGivenNames x
         first
         | (refine Within.cut (W := W) (s := σ) x ?_ ?_; rotate_left; (clear_value x; intro hx))
         | (refine Within.cut (W := W) (s := σ) x.1 ?_ ?_; rotate_left; (clear_value x; intro hx))
         | (refine Within.cut (W := W) (s := σ) x.2 ?_ ?_; rotate_left; (clear_value x; intro hx))
         | (refine Within.cutF (W := W) (s := σ) x ?_ ?_; rotate_left; (clear_value x; intro hf))
         | clear_value x)
      | split
      | (intro t; intros; (try beta_reduce))
      | dsimp -zeta only [x]
  | cons b r ih =>
    unfold State.jrPut
    repeat' first
      | with_reducible assumption
      | with_reducible apply ih
      | (with_reducible apply State.updJr_ok; exact sub_le (by decide) hW)
      | (with_reducible apply State.putRecord_ok; exact sub_le (by decide) hW)
      | (with_reducible apply State.updQueue_ok; exact sub_le (by decide) hW)
      | (with_reducible apply State.enqueue_ok; exact sub_le (by decide) hW)
      | with_reducible apply Within.ite
      | (extract_lets +onlyGivenNames x
         first
         | (refine Within.cut (W := W) (s := σ) x ?_ ?_; rotate_left; (clear_value x; intro hx))
         | (refine Within.cut (W := W) (s := σ) x.1 ?_ ?_; rotate_left; (clear_value x; intro hx))
         | (refine Within.cut (W := W) (s := σ) x.2 ?_ ?_; rotate_left; (clear_value x; intro hx))
         | (refine Within.cutF (W := W) (s := σ) x ?_ ?_; rotate_left; (clear_value x; intro hf))
         | clear_value x)
      | split
      | (intro t; intros; (try beta_reduce))
      | dsimp -zeta only [x]

theorem State.jrSubmit_ok {W : Nat} {σ s : State} {a1 : _} (hW : 0x9d90 ||| W = W) (h : Within W σ s) :
    Within W σ (State.jrSubmit s a1) := by
  unfold State.jrSubmit
  repeat' first
    | with_reducible assumption
    | (with_reducible apply State.jrPut_ok; exact sub_le (by decide) hW)
    | (intro t; intros; (try beta_reduce))

theorem State.readProducer_ok {W : Nat} {σ s : State} {a1 a2 : _} (hW : 0x1000000010 ||| W = W) (h : Within W σ s) :
    Within W σ (State.readProducer s a1 a2).2 := by
  unfold State.readProducer
  repeat' first
    | with_reducible assumption
    | (with_reducible apply State.meter_ok; exact sub_le (by decide) hW)
    | (with_reducible apply State.bump_ok; exact sub_le (by decide) hW)
    | with_reducible apply Within.ite
    | with_reducible apply Within.ite1
    | with_reducible apply Within.ite2
    | (extract_lets +onlyGivenNames x
       first
       | (refine Within.cut (W := W) (s := σ) x ?_ ?_; rotate_left; (clear_value x; intro hx))
       | (refine Within.cut (W := W) (s := σ) x.1 ?_ ?_; rotate_left; (clear_value x; intro hx))
       | (refine Within.cut (W := W) (s := σ) x.2 ?_ ?_; rotate_left; (clear_value x; intro hx))
       | (refine Within.cutF (W := W) (s := σ) x ?_ ?_; rotate_left; (clear_value x; intro hf))
       | clear_value x)
    | split
    | (with_reducible apply Within.upd_cxl; exact sub_le (by decide) hW)
    | (intro t; intros; (try beta_reduce))
    | dsimp -zeta only [x]

theorem State.nextEntry_ok {W : Nat} {σ s : State} {a1 a2 : _} (hW : 0x1000000010 ||| W = W) (h : Within W σ s) :
    Within W σ (State.nextEntry s a1 a2).2 := by
  unfold State.nextEntry
  repeat' first
    | with_reducible assumption
    | (with_reducible apply State.readProducer_ok; exact sub_le (by decide) hW)
    | with_reducible apply Within.ite
    | with_reducible apply Within.ite1
    | with_reducible apply Within.ite2
    | (extract_lets +onlyGivenNames x
       first
       | (refine Within.cut (W := W) (s := σ) x ?_ ?_; rotate_left; (clear_value x; intro hx))
       | (refine Within.cut (W := W) (s := σ) x.1 ?_ ?_; rotate_left; (clear_value x; intro hx))
       | (refine Within.cut (W := W) (s := σ) x.2 ?_ ?_; rotate_left; (clear_value x; intro hx))
       | (refine Within.cutF (W := W) (s := σ) x ?_ ?_; rotate_left; (clear_value x; intro hf))
       | clear_value x)
    | split
    | (intro t; intros; (try beta_reduce))
    | dsimp -zeta only [x]

theorem State.endWait_ok {W : Nat} {σ s : State} {a1 : _} (hW : 0x1010 ||| W = W) (h : Within W σ s) :
    Within W σ (State.endWait s a1) := by
  unfold State.endWait
  repeat' first
    | with_reducible assumption
    | (with_reducible apply State.setJrState_ok; exact sub_le (by decide) hW)
    | (with_reducible apply State.updJr_ok; exact sub_le (by decide) hW)
    | (with_reducible apply State.bump_ok; exact sub_le (by decide) hW)
    | (extract_lets +onlyGivenNames x
       first
       | (refine Within.cut (W := W) (s := σ) x ?_ ?_; rotate_left; (clear_value x; intro hx))
       | (refine Within.cut (W := W) (s := σ) x.1 ?_ ?_; rotate_left; (clear_value x; intro hx))
       | (refine Within.cut (W := W) (s := σ) x.2 ?_ ?_; rotate_left; (clear_value x; intro hx))
       | (refine Within.cutF (W := W) (s := σ) x ?_ ?_; rotate_left; (clear_value x; intro hf))
       | clear_value x)
    | split
    | (intro t; intros; (try beta_reduce))

theorem State.dataWait_ok {W : Nat} {σ s : State} {a1 : _} (hW : 0x1010 ||| W = W) (h : Within W σ s) :
    Within W σ (State.dataWait s a1) := by
  unfold State.dataWait
  repeat' first
    | with_reducible assumption
    | (with_reducible apply State.updJr_ok; exact sub_le (by decide) hW)
    | (with_reducible apply State.progress_ok; exact sub_le (by decide) hW)
    | (with_reducible apply State.setJrState_ok; exact sub_le (by decide) hW)
    | with_reducible apply Within.ite
    | (extract_lets +onlyGivenNames x
       first
       | (refine Within.cut (W := W) (s := σ) x ?_ ?_; rotate_left; (clear_value x; intro hx))
       | (refine Within.cut (W := W) (s := σ) x.1 ?_ ?_; rotate_left; (clear_value x; intro hx))
       | (refine Within.cut (W := W) (s := σ) x.2 ?_ ?_; rotate_left; (clear_value x; intro hx))
       | (refine Within.cutF (W := W) (s := σ) x ?_ ?_; rotate_left; (clear_value x; intro hf))
       | clear_value x)
    | split
    | (intro t; intros; (try beta_reduce))
    | dsimp -zeta only [x]

theorem State.computeGuard_ok {W : Nat} {σ s : State} {a1 : _} (hW : 0x1590 ||| W = W) (h : Within W σ s) :
    Within W σ (State.computeGuard s a1) := by
  unfold State.computeGuard
  repeat' first
    | with_reducible assumption
    | (with_reducible apply State.meter_ok; exact sub_le (by decide) hW)
    | (with_reducible apply State.wrLE_ok; exact sub_le (by decide) hW)
    | (with_reducible apply State.bump_ok; exact sub_le (by decide) hW)
    | (with_reducible apply State.setReg_ok; exact sub_le (by decide) hW)
    | (with_reducible apply State.updJr_ok; exact sub_le (by decide) hW)
    | (with_reducible apply Within.fold; (intro t x ht; beta_reduce))
    | (with_reducible apply Within.fold1; (intro t x ht; beta_reduce))
    | (with_reducible apply Within.fold2; (intro t x ht; beta_reduce))
    | with_reducible apply Within.ite1
    | with_reducible apply Within.ite2
    | (extract_lets +onlyGivenNames x
       first
       | (refine Within.cut (W := W) (s := σ) x ?_ ?_; rotate_left; (clear_value x; intro hx))
       | (refine Within.cut (W := W) (s := σ) x.1 ?_ ?_; rotate_left; (clear_value x; intro hx))
       | (refine Within.cut (W := W) (s := σ) x.2 ?_ ?_; rotate_left; (clear_value x; intro hx))
       | (refine Within.cutF (W := W) (s := σ) x ?_ ?_; rotate_left; (clear_value x; intro hf))
       | clear_value x)
    | (intro t; intros; (try beta_reduce))
    | dsimp -zeta only [x]

theorem State.runSegment_ok {W : Nat} {σ s : State} {a1 a2 a3 a4 : _} (hW : 0x5000009d90 ||| W = W) (h : Within W σ s) :
    Within W σ (State.runSegment s a1 a2 a3 a4).2 := by
  unfold State.runSegment
  extract_lets +onlyGivenNames a hd
  refine Within.ite2 (State.jrStop_ok (sub_le (by decide) hW) h) ?_
  extract_lets +onlyGivenNames ring got
  have hg : Within W σ got.2 := by
    dsimp -zeta only [got]
    clear_value ring hd
    cases ring
    · exact h
    · dsimp only
      with_reducible exact State.nextEntry_ok (sub_le (by decide) hW) h
  clear_value got
  obtain ⟨e, t⟩ := got
  have ht : Within W σ t := hg
  clear hg
  cases e with
  | none => exact State.dataWait_ok (sub_le (by decide) hW) ht
  | some entry =>
    dsimp -zeta only
    extract_lets +onlyGivenNames s1 q s2 n ds ds2 s3 u s4
    have h1 : Within W σ s1 := State.endWait_ok (sub_le (by decide) hW) ht
    have h2 : Within W σ s2 := State.freshen_ok (sub_le (by decide) hW) h1
    have h3 : Within W σ s3 := State.meter_ok (sub_le (by decide) hW) h2
    clear_value s3 ds2 q
    have h4 : Within W σ s4 := by
      dsimp -zeta only [s4]
      exact State.updJr_ok (sub_le (by decide) hW) h3
    exact State.jrSubmit_ok (sub_le (by decide) hW) h4

theorem State.jrOwn_ok {W : Nat} {σ s : State} {a1 a2 a3 : _} (hW : 0x9d90 ||| W = W) (h : Within W σ s) :
    Within W σ (State.jrOwn s a1 a2 a3) := by
  unfold State.jrOwn
  repeat' first
    | with_reducible assumption
    | (with_reducible apply State.jrSubmit_ok; exact sub_le (by decide) hW)
    | (with_reducible apply State.updJr_ok; exact sub_le (by decide) hW)
    | (extract_lets +onlyGivenNames x
       first
       | (refine Within.cut (W := W) (s := σ) x ?_ ?_; rotate_left; (clear_value x; intro hx))
       | (refine Within.cut (W := W) (s := σ) x.1 ?_ ?_; rotate_left; (clear_value x; intro hx))
       | (refine Within.cut (W := W) (s := σ) x.2 ?_ ?_; rotate_left; (clear_value x; intro hx))
       | (refine Within.cutF (W := W) (s := σ) x ?_ ?_; rotate_left; (clear_value x; intro hf))
       | clear_value x)
    | (intro t; intros; (try beta_reduce))
    | dsimp -zeta only [x]

theorem State.snapPoint_ok {W : Nat} {σ s : State} {a1 : _} (hW : 0x4000009d90 ||| W = W) (h : Within W σ s) :
    Within W σ (State.snapPoint s a1) := by
  unfold State.snapPoint
  repeat' first
    | with_reducible assumption
    | (with_reducible apply State.updJr_ok; exact sub_le (by decide) hW)
    | (with_reducible apply State.freshen_ok; exact sub_le (by decide) hW)
    | (with_reducible apply State.jrOwn_ok; exact sub_le (by decide) hW)
    | (with_reducible apply State.bump_ok; exact sub_le (by decide) hW)
    | with_reducible apply Within.ite
    | (extract_lets +onlyGivenNames x
       first
       | (refine Within.cut (W := W) (s := σ) x ?_ ?_; rotate_left; (clear_value x; intro hx))
       | (refine Within.cut (W := W) (s := σ) x.1 ?_ ?_; rotate_left; (clear_value x; intro hx))
       | (refine Within.cut (W := W) (s := σ) x.2 ?_ ?_; rotate_left; (clear_value x; intro hx))
       | (refine Within.cutF (W := W) (s := σ) x ?_ ?_; rotate_left; (clear_value x; intro hf))
       | clear_value x)
    | split
    | (intro t; intros; (try beta_reduce))
    | dsimp -zeta only [x]

theorem State.ckptPoint_ok {W : Nat} {σ s : State} {a1 : _} (hW : 0x1590 ||| W = W) (h : Within W σ s) :
    Within W σ (State.ckptPoint s a1) := by
  unfold State.ckptPoint
  repeat' first
    | with_reducible assumption
    | (with_reducible apply State.bump_ok; exact sub_le (by decide) hW)
    | (with_reducible apply State.updJr_ok; exact sub_le (by decide) hW)
    | (with_reducible apply State.snapErr_ok; exact sub_le (by decide) hW)
    | (with_reducible apply State.ckptErr_ok; exact sub_le (by decide) hW)
    | (with_reducible apply State.ckptOut_ok; exact sub_le (by decide) hW)
    | (with_reducible apply State.fillStage_ok; exact sub_le (by decide) hW)
    | with_reducible apply Within.ite
    | (extract_lets +onlyGivenNames x
       first
       | (refine Within.cut (W := W) (s := σ) x ?_ ?_; rotate_left; (clear_value x; intro hx))
       | (refine Within.cut (W := W) (s := σ) x.1 ?_ ?_; rotate_left; (clear_value x; intro hx))
       | (refine Within.cut (W := W) (s := σ) x.2 ?_ ?_; rotate_left; (clear_value x; intro hx))
       | (refine Within.cutF (W := W) (s := σ) x ?_ ?_; rotate_left; (clear_value x; intro hf))
       | clear_value x)
    | split
    | (intro t; intros; (try beta_reduce))
    | dsimp -zeta only [x]

theorem State.boundaryPoint_ok {W : Nat} {σ s : State} {a1 : _} (hW : 0x4000009d90 ||| W = W) (h : Within W σ s) :
    Within W σ (State.boundaryPoint s a1) := by
  unfold State.boundaryPoint
  repeat' first
    | with_reducible assumption
    | (with_reducible apply State.freshen_ok; exact sub_le (by decide) hW)
    | (with_reducible apply State.updJr_ok; exact sub_le (by decide) hW)
    | (with_reducible apply State.jrOwn_ok; exact sub_le (by decide) hW)
    | with_reducible apply Within.ite
    | (with_reducible apply Within.fold; (intro t x ht; beta_reduce))
    | (with_reducible apply Within.fold1; (intro t x ht; beta_reduce))
    | (with_reducible apply Within.fold2; (intro t x ht; beta_reduce))
    | (extract_lets +onlyGivenNames x
       first
       | (refine Within.cut (W := W) (s := σ) x ?_ ?_; rotate_left; (clear_value x; intro hx))
       | (refine Within.cut (W := W) (s := σ) x.1 ?_ ?_; rotate_left; (clear_value x; intro hx))
       | (refine Within.cut (W := W) (s := σ) x.2 ?_ ?_; rotate_left; (clear_value x; intro hx))
       | (refine Within.cutF (W := W) (s := σ) x ?_ ?_; rotate_left; (clear_value x; intro hf))
       | clear_value x)
    | split
    | (intro t; intros; (try beta_reduce))
    | dsimp -zeta only [x]

theorem State.jrConsume_ok {W : Nat} {σ s : State} {a1 : _} (hW : 0x8800 ||| W = W) (h : Within W σ s) :
    Within W σ (State.jrConsume s a1) := by
  unfold State.jrConsume
  repeat' first
    | with_reducible assumption
    | (with_reducible apply State.enqueue_ok; exact sub_le (by decide) hW)
    | (with_reducible apply State.updQueue_ok; exact sub_le (by decide) hW)
    | with_reducible apply Within.ite
    | (with_reducible apply Within.fold; (intro t x ht; beta_reduce))
    | (with_reducible apply Within.fold1; (intro t x ht; beta_reduce))
    | (with_reducible apply Within.fold2; (intro t x ht; beta_reduce))
    | (extract_lets +onlyGivenNames x
       first
       | (refine Within.cut (W := W) (s := σ) x ?_ ?_; rotate_left; (clear_value x; intro hx))
       | (refine Within.cut (W := W) (s := σ) x.1 ?_ ?_; rotate_left; (clear_value x; intro hx))
       | (refine Within.cut (W := W) (s := σ) x.2 ?_ ?_; rotate_left; (clear_value x; intro hx))
       | (refine Within.cutF (W := W) (s := σ) x ?_ ?_; rotate_left; (clear_value x; intro hf))
       | clear_value x)
    | split
    | (intro t; intros; (try beta_reduce))

theorem State.jrPaused_ok {W : Nat} {σ s : State} {a1 a2 : _} (hW : 0x608567fdb0 ||| W = W) (h : Within W σ s) :
    Within W σ (State.jrPaused s a1 a2) := by
  unfold State.jrPaused
  repeat' first
    | with_reducible assumption
    | (with_reducible apply State.restartTask_ok; exact sub_le (by decide) hW)
    | (with_reducible apply State.updJr_ok; exact sub_le (by decide) hW)
    | (with_reducible apply State.skipTask_ok; exact sub_le (by decide) hW)
    | with_reducible apply Within.ite
    | (with_reducible apply Within.fold; (intro t x ht; beta_reduce))
    | (with_reducible apply Within.fold1; (intro t x ht; beta_reduce))
    | (with_reducible apply Within.fold2; (intro t x ht; beta_reduce))
    | (extract_lets +onlyGivenNames x
       first
       | (refine Within.cut (W := W) (s := σ) x ?_ ?_; rotate_left; (clear_value x; intro hx))
       | (refine Within.cut (W := W) (s := σ) x.1 ?_ ?_; rotate_left; (clear_value x; intro hx))
       | (refine Within.cut (W := W) (s := σ) x.2 ?_ ?_; rotate_left; (clear_value x; intro hx))
       | (refine Within.cutF (W := W) (s := σ) x ?_ ?_; rotate_left; (clear_value x; intro hf))
       | clear_value x)
    | split
    | (intro t; intros; (try beta_reduce))
    | dsimp -zeta only [x]

theorem State.jrRelease_ok {W : Nat} {σ s : State} {a1 : _} (hW : 0x1590 ||| W = W) (h : Within W σ s) :
    Within W σ (State.jrRelease s a1) := by
  unfold State.jrRelease
  repeat' first
    | with_reducible assumption
    | (with_reducible apply State.wrLE_ok; exact sub_le (by decide) hW)
    | (with_reducible apply State.updJr_ok; exact sub_le (by decide) hW)
    | (with_reducible apply State.progress_ok; exact sub_le (by decide) hW)
    | with_reducible apply Within.ite
    | (with_reducible apply Within.fold; (intro t x ht; beta_reduce))
    | (with_reducible apply Within.fold1; (intro t x ht; beta_reduce))
    | (with_reducible apply Within.fold2; (intro t x ht; beta_reduce))
    | (extract_lets +onlyGivenNames x
       first
       | (refine Within.cut (W := W) (s := σ) x ?_ ?_; rotate_left; (clear_value x; intro hx))
       | (refine Within.cut (W := W) (s := σ) x.1 ?_ ?_; rotate_left; (clear_value x; intro hx))
       | (refine Within.cut (W := W) (s := σ) x.2 ?_ ?_; rotate_left; (clear_value x; intro hx))
       | (refine Within.cutF (W := W) (s := σ) x ?_ ?_; rotate_left; (clear_value x; intro hf))
       | clear_value x)
    | split
    | (intro t; intros; (try beta_reduce))
    | dsimp -zeta only [x]

theorem State.jrMove_ok {W : Nat} {σ s : State} {a1 : _} (hW : 0x5000009d90 ||| W = W) (h : Within W σ s) :
    Within W σ (State.jrMove s a1).2 := by
  unfold State.jrMove
  repeat' first
    | with_reducible assumption
    | (with_reducible apply State.jrSubmit_ok; exact sub_le (by decide) hW)
    | (with_reducible apply State.boundaryPoint_ok; exact sub_le (by decide) hW)
    | (with_reducible apply State.jrStop_ok; exact sub_le (by decide) hW)
    | (with_reducible apply State.progress_ok; exact sub_le (by decide) hW)
    | (with_reducible apply State.updJr_ok; exact sub_le (by decide) hW)
    | (with_reducible apply State.freshen_ok; exact sub_le (by decide) hW)
    | (with_reducible apply State.runSegment_ok; exact sub_le (by decide) hW)
    | (with_reducible apply State.setJrState_ok; exact sub_le (by decide) hW)
    | (with_reducible apply State.computeGuard_ok; exact sub_le (by decide) hW)
    | (with_reducible apply State.snapPoint_ok; exact sub_le (by decide) hW)
    | (with_reducible apply State.ckptPoint_ok; exact sub_le (by decide) hW)
    | with_reducible apply Within.ite
    | with_reducible apply Within.ite1
    | with_reducible apply Within.ite2
    | (extract_lets +onlyGivenNames x
       first
       | (refine Within.cut (W := W) (s := σ) x ?_ ?_; rotate_left; (clear_value x; intro hx))
       | (refine Within.cut (W := W) (s := σ) x.1 ?_ ?_; rotate_left; (clear_value x; intro hx))
       | (refine Within.cut (W := W) (s := σ) x.2 ?_ ?_; rotate_left; (clear_value x; intro hx))
       | (refine Within.cutF (W := W) (s := σ) x ?_ ?_; rotate_left; (clear_value x; intro hf))
       | clear_value x)
    | split
    | (intro t; intros; (try beta_reduce))
    | dsimp -zeta only [x]

theorem State.jrMoves_ok {W : Nat} {σ s : State} {a1 a2 : _} (hW : 0x5000009d90 ||| W = W) (h : Within W σ s) :
    Within W σ (State.jrMoves s a1 a2) := by
  induction a2 generalizing s a1 with
  | zero => exact h
  | succ k ih =>
    unfold State.jrMoves
    refine Within.ite h ?_
    split
    all_goals
      rename_i heq
      have hm := State.jrMove_ok (W := W) (σ := σ) (a1 := a1) (sub_le (by decide) hW) h
      rw [heq] at hm
    · exact ih hm
    · exact hm

theorem State.jobStep_ok {W : Nat} {σ s : State} {a1 : _} (hW : 0x748567fdb0 ||| W = W) (h : Within W σ s) :
    Within W σ (State.jobStep s a1) := by
  unfold State.jobStep
  repeat' first
    | with_reducible assumption
    | (with_reducible apply State.wake_ok; exact sub_le (by decide) hW)
    | (with_reducible apply State.jrPaused_ok; exact sub_le (by decide) hW)
    | (with_reducible apply State.jrConsume_ok; exact sub_le (by decide) hW)
    | (with_reducible apply State.jrRelease_ok; exact sub_le (by decide) hW)
    | (with_reducible apply State.jrMoves_ok; exact sub_le (by decide) hW)
    | with_reducible apply Within.ite
    | (extract_lets +onlyGivenNames x
       first
       | (refine Within.cut (W := W) (s := σ) x ?_ ?_; rotate_left; (clear_value x; intro hx))
       | (refine Within.cut (W := W) (s := σ) x.1 ?_ ?_; rotate_left; (clear_value x; intro hx))
       | (refine Within.cut (W := W) (s := σ) x.2 ?_ ?_; rotate_left; (clear_value x; intro hx))
       | (refine Within.cutF (W := W) (s := σ) x ?_ ?_; rotate_left; (clear_value x; intro hf))
       | clear_value x)
    | split
    | (intro t; intros; (try beta_reduce))
    | dsimp -zeta only [x]

theorem State.ringPoll_ok {W : Nat} {σ s : State} {a1 a2 : _} (hW : 0x748567fdb0 ||| W = W) (h : Within W σ s) :
    Within W σ (State.ringPoll s a1 a2) := by
  unfold State.ringPoll
  repeat' first
    | with_reducible assumption
    | (with_reducible apply State.jobStep_ok; exact sub_le (by decide) hW)
    | (with_reducible apply State.readProducer_ok; exact sub_le (by decide) hW)
    | with_reducible apply Within.ite
    | with_reducible apply Within.ite1
    | with_reducible apply Within.ite2
    | split
    | (intro t; intros; (try beta_reduce))

end Sys2Proof.Machine
end

