-- ==== Sys2Proof/Laws/FBoot.lean ====
section
/-! SUPPORT. What each operation of Boot.lean can change, and that it keeps the tables in canonical form. -/

set_option linter.all false

namespace Sys2Proof.Machine

theorem State.flashWrite_ok {W : Nat} {σ s : State} {a1 a2 : _} (hW : 0x200 ||| W = W) (h : Within W σ s) :
    Within W σ (State.flashWrite s a1 a2) := by
  unfold State.flashWrite
  repeat' first
    | with_reducible assumption
    | (intro hs; first | rfl | with_reducible exact hs | with_reducible first | exact hs | exact wf_mset hs _ _ | exact wf_msetBytes _ hs _ | exact wf_filter hs _ | exact rising_sset hs _ _ | exact rising_filter hs _ | exact rising_sdel hs _ | (refine rising_map hs _ ?_; intro e; beta_reduce; first | rfl | (split <;> rfl)))
    | (extract_lets +onlyGivenNames x
       first
       | (refine Within.cut (W := W) (s := σ) x ?_ ?_; rotate_left; (clear_value x; intro hx))
       | (refine Within.cut (W := W) (s := σ) x.1 ?_ ?_; rotate_left; (clear_value x; intro hx))
       | (refine Within.cut (W := W) (s := σ) x.2 ?_ ?_; rotate_left; (clear_value x; intro hx))
       | (refine Within.cutF (W := W) (s := σ) x ?_ ?_; rotate_left; (clear_value x; intro hf))
       | clear_value x)
    | (with_reducible apply Within.upd_flash; exact sub_le (by decide) hW)
    | (intro t; intros; (try beta_reduce))

theorem State.flashErase_ok {W : Nat} {σ s : State} {a1 a2 : _} (hW : 0x200 ||| W = W) (h : Within W σ s) :
    Within W σ (State.flashErase s a1 a2) := by
  unfold State.flashErase
  repeat' first
    | with_reducible assumption
    | with_reducible apply Within.ite1
    | with_reducible apply Within.ite2
    | (intro hs; first | rfl | with_reducible exact hs | with_reducible first | exact hs | exact wf_mset hs _ _ | exact wf_msetBytes _ hs _ | exact wf_filter hs _ | exact rising_sset hs _ _ | exact rising_filter hs _ | exact rising_sdel hs _ | (refine rising_map hs _ ?_; intro e; beta_reduce; first | rfl | (split <;> rfl)))
    | (extract_lets +onlyGivenNames x
       first
       | (refine Within.cut (W := W) (s := σ) x ?_ ?_; rotate_left; (clear_value x; intro hx))
       | (refine Within.cut (W := W) (s := σ) x.1 ?_ ?_; rotate_left; (clear_value x; intro hx))
       | (refine Within.cut (W := W) (s := σ) x.2 ?_ ?_; rotate_left; (clear_value x; intro hx))
       | (refine Within.cutF (W := W) (s := σ) x ?_ ?_; rotate_left; (clear_value x; intro hf))
       | clear_value x)
    | (with_reducible apply Within.upd_flash; exact sub_le (by decide) hW)
    | (intro t; intros; (try beta_reduce))

theorem State.spoilFlash_ok {W : Nat} {σ s : State} (hW : 0x4000000200 ||| W = W) (h : Within W σ s) :
    Within W σ (State.spoilFlash s) := by
  unfold State.spoilFlash
  repeat' first
    | with_reducible assumption
    | (with_reducible apply State.freshen_ok; exact sub_le (by decide) hW)
    | (with_reducible apply State.flashWrite_ok; exact sub_le (by decide) hW)
    | (with_reducible apply State.flashErase_ok; exact sub_le (by decide) hW)
    | with_reducible apply Within.ite
    | (extract_lets +onlyGivenNames x
       first
       | (refine Within.cut (W := W) (s := σ) x ?_ ?_; rotate_left; (clear_value x; intro hx))
       | (refine Within.cut (W := W) (s := σ) x.1 ?_ ?_; rotate_left; (clear_value x; intro hx))
       | (refine Within.cut (W := W) (s := σ) x.2 ?_ ?_; rotate_left; (clear_value x; intro hx))
       | (refine Within.cutF (W := W) (s := σ) x ?_ ?_; rotate_left; (clear_value x; intro hf))
       | clear_value x)
    | split
    | (intro t; intros; (try beta_reduce))
    | dsimp -zeta only [x]

theorem State.mainOff_ok {W : Nat} {σ s : State} (hW : 0x7ffffffbf8 ||| W = W) (h : Within W σ s) :
    Within W σ (State.mainOff s) where
  stored := fun hs => by
    have k := State.spoilFlash_ok (W := 0xFFFFFFFFFF) (σ := s) (s := s) (by decide) (Within.rfl _ _)
    obtain ⟨h1, h2, h3, h4, h5, h6⟩ := stored_iff.1 (k.stored (h.stored hs))
    exact stored_iff.2 ⟨rfl, h2, h3, rising_filter h4 _, rfl, rfl⟩
  n8 := fun hb => ((State.spoilFlash_ok (W := 0x4000000200) (σ := s) (s := s) (by decide) (Within.rfl _ _)).n8 (by decide)).trans (h.n8 hb)
  timeNow := fun hb => ((State.spoilFlash_ok (W := 0x4000000200) (σ := s) (s := s) (by decide) (Within.rfl _ _)).timeNow (by decide)).trans (h.timeNow hb)
  refPresent := fun hb => ((State.spoilFlash_ok (W := 0x4000000200) (σ := s) (s := s) (by decide) (Within.rfl _ _)).refPresent (by decide)).trans (h.refPresent hb)
  holdover := fun hb => Bool.noConfusion (sub_bit hW hb)
  regs := fun hb => Bool.noConfusion (sub_bit hW hb)
  shadows := fun hb => Bool.noConfusion (sub_bit hW hb)
  latches := fun hb => Bool.noConfusion (sub_bit hW hb)
  hbm := fun hb => Bool.noConfusion (sub_bit hW hb)
  hbmBad := fun hb => Bool.noConfusion (sub_bit hW hb)
  flash := fun hb => Bool.noConfusion (sub_bit hW hb)
  host := fun hb => ((State.spoilFlash_ok (W := 0x4000000200) (σ := s) (s := s) (by decide) (Within.rfl _ _)).host (by decide)).trans (h.host hb)
  queues := fun hb => Bool.noConfusion (sub_bit hW hb)
  parts := fun hb => Bool.noConfusion (sub_bit hW hb)
  cores := fun hb => Bool.noConfusion (sub_bit hW hb)
  clusters := fun hb => Bool.noConfusion (sub_bit hW hb)
  adm := fun hb => Bool.noConfusion (sub_bit hW hb)
  bars := fun hb => Bool.noConfusion (sub_bit hW hb)
  tiles := fun hb => Bool.noConfusion (sub_bit hW hb)
  rings := fun hb => Bool.noConfusion (sub_bit hW hb)
  faultTimes := fun hb => Bool.noConfusion (sub_bit hW hb)
  retireFailed := fun hb => Bool.noConfusion (sub_bit hW hb)
  links := fun hb => Bool.noConfusion (sub_bit hW hb)
  xfers := fun hb => Bool.noConfusion (sub_bit hW hb)
  reqs := fun hb => Bool.noConfusion (sub_bit hW hb)
  colls := fun hb => Bool.noConfusion (sub_bit hW hb)
  earlyReady := fun hb => Bool.noConfusion (sub_bit hW hb)
  routed := fun hb => Bool.noConfusion (sub_bit hW hb)
  notices := fun hb => Bool.noConfusion (sub_bit hW hb)
  noticeSeq := fun hb => Bool.noConfusion (sub_bit hW hb)
  noticeT := fun hb => Bool.noConfusion (sub_bit hW hb)
  timeX := fun hb => Bool.noConfusion (sub_bit hW hb)
  dbg := fun hb => Bool.noConfusion (sub_bit hW hb)
  boot := fun hb => Bool.noConfusion (sub_bit hW hb)
  fw := fun hb => Bool.noConfusion (sub_bit hW hb)
  power := fun hb => Bool.noConfusion (sub_bit hW hb)
  sb := fun hb => Bool.noConfusion (sub_bit hW hb)
  cxl := fun hb => Bool.noConfusion (sub_bit hW hb)
  out := fun hb => Bool.noConfusion (sub_bit hW hb)
  fresh := fun hb => Bool.noConfusion (sub_bit hW hb)
  pending := fun hb => ((State.spoilFlash_ok (W := 0x4000000200) (σ := s) (s := s) (by decide) (Within.rfl _ _)).pending (by decide)).trans (h.pending hb)

theorem State.enterAux_ok {W : Nat} {σ s : State} {a1 : _} (hW : 0x7ffffffbf8 ||| W = W) (h : Within W σ s) :
    Within W σ (State.enterAux s a1) := by
  unfold State.enterAux
  repeat' first
    | with_reducible assumption
    | (with_reducible apply State.mainOff_ok; exact sub_le (by decide) hW)
    | (with_reducible apply State.bump_ok; exact sub_le (by decide) hW)
    | with_reducible apply Within.ite
    | (extract_lets +onlyGivenNames x
       first
       | (refine Within.cut (W := W) (s := σ) x ?_ ?_; rotate_left; (clear_value x; intro hx))
       | (refine Within.cut (W := W) (s := σ) x.1 ?_ ?_; rotate_left; (clear_value x; intro hx))
       | (refine Within.cut (W := W) (s := σ) x.2 ?_ ?_; rotate_left; (clear_value x; intro hx))
       | (refine Within.cutF (W := W) (s := σ) x ?_ ?_; rotate_left; (clear_value x; intro hf))
       | clear_value x)
    | split
    | (with_reducible apply Within.upd_power; exact sub_le (by decide) hW)
    | (with_reducible apply Within.upd_power_sb; exact sub_le (by decide) hW)
    | (intro t; intros; (try beta_reduce))
    | dsimp -zeta only [x]

theorem State.perstAssert_ok {W : Nat} {σ s : State} (hW : 0x7ffffffbf8 ||| W = W) (h : Within W σ s) :
    Within W σ (State.perstAssert s) := by
  unfold State.perstAssert
  repeat' first
    | with_reducible assumption
    | (with_reducible apply State.mainOff_ok; exact sub_le (by decide) hW)
    | with_reducible apply Within.ite
    | (extract_lets +onlyGivenNames x
       first
       | (refine Within.cut (W := W) (s := σ) x ?_ ?_; rotate_left; (clear_value x; intro hx))
       | (refine Within.cut (W := W) (s := σ) x.1 ?_ ?_; rotate_left; (clear_value x; intro hx))
       | (refine Within.cut (W := W) (s := σ) x.2 ?_ ?_; rotate_left; (clear_value x; intro hx))
       | (refine Within.cutF (W := W) (s := σ) x ?_ ?_; rotate_left; (clear_value x; intro hf))
       | clear_value x)
    | split
    | (with_reducible apply Within.upd_power; exact sub_le (by decide) hW)
    | (intro t; intros; (try beta_reduce))
    | dsimp -zeta only [x]

theorem State.bootPhase_ok {W : Nat} {σ s : State} {a1 : _} (hW : 0x500000010 ||| W = W) (h : Within W σ s) :
    Within W σ (State.bootPhase s a1) := by
  unfold State.bootPhase
  repeat' first
    | with_reducible assumption
    | (with_reducible apply State.setFld_ok; exact sub_le (by decide) hW)
    | (with_reducible apply State.progress_ok; exact sub_le (by decide) hW)
    | (extract_lets +onlyGivenNames x
       first
       | (refine Within.cut (W := W) (s := σ) x ?_ ?_; rotate_left; (clear_value x; intro hx))
       | (refine Within.cut (W := W) (s := σ) x.1 ?_ ?_; rotate_left; (clear_value x; intro hx))
       | (refine Within.cut (W := W) (s := σ) x.2 ?_ ?_; rotate_left; (clear_value x; intro hx))
       | (refine Within.cutF (W := W) (s := σ) x ?_ ?_; rotate_left; (clear_value x; intro hf))
       | clear_value x)
    | (with_reducible apply Within.upd_boot_power; exact sub_le (by decide) hW)
    | (intro t; intros; (try beta_reduce))
    | dsimp -zeta only [x]

theorem State.tryBoot_ok {W : Nat} {σ s : State} (hW : 0x500000010 ||| W = W) (h : Within W σ s) :
    Within W σ (State.tryBoot s) := by
  unfold State.tryBoot
  repeat' first
    | with_reducible assumption
    | (with_reducible apply State.bump_ok; exact sub_le (by decide) hW)
    | (with_reducible apply State.bootPhase_ok; exact sub_le (by decide) hW)
    | with_reducible apply Within.ite
    | split
    | (intro t; intros; (try beta_reduce))

theorem State.perstRelease_ok {W : Nat} {σ s : State} (hW : 0x500000012 ||| W = W) (h : Within W σ s) :
    Within W σ (State.perstRelease s) := by
  unfold State.perstRelease
  repeat' first
    | with_reducible assumption
    | (with_reducible apply State.tryBoot_ok; exact sub_le (by decide) hW)
    | (with_reducible apply State.setReg_ok; exact sub_le (by decide) hW)
    | with_reducible apply Within.ite
    | (extract_lets +onlyGivenNames x
       first
       | (refine Within.cut (W := W) (s := σ) x ?_ ?_; rotate_left; (clear_value x; intro hx))
       | (refine Within.cut (W := W) (s := σ) x.1 ?_ ?_; rotate_left; (clear_value x; intro hx))
       | (refine Within.cut (W := W) (s := σ) x.2 ?_ ?_; rotate_left; (clear_value x; intro hx))
       | (refine Within.cutF (W := W) (s := σ) x ?_ ?_; rotate_left; (clear_value x; intro hf))
       | clear_value x)
    | split
    | (with_reducible apply Within.upd_timeNow_power; exact sub_le (by decide) hW)
    | (intro t; intros; (try beta_reduce))
    | dsimp -zeta only [x]

theorem State.bootFail_ok {W : Nat} {σ s : State} {a1 a2 a3 : _} (hW : 0x500000010 ||| W = W) (h : Within W σ s) :
    Within W σ (State.bootFail s a1 a2 a3) := by
  unfold State.bootFail
  repeat' first
    | with_reducible assumption
    | (with_reducible apply State.setReg_ok; exact sub_le (by decide) hW)
    | (with_reducible apply State.setFld_ok; exact sub_le (by decide) hW)
    | (extract_lets +onlyGivenNames x
       first
       | (refine Within.cut (W := W) (s := σ) x ?_ ?_; rotate_left; (clear_value x; intro hx))
       | (refine Within.cut (W := W) (s := σ) x.1 ?_ ?_; rotate_left; (clear_value x; intro hx))
       | (refine Within.cut (W := W) (s := σ) x.2 ?_ ?_; rotate_left; (clear_value x; intro hx))
       | (refine Within.cutF (W := W) (s := σ) x ?_ ?_; rotate_left; (clear_value x; intro hf))
       | clear_value x)
    | (with_reducible apply Within.upd_boot_power; exact sub_le (by decide) hW)
    | (intro t; intros; (try beta_reduce))
    | dsimp -zeta only [x]

theorem State.bootHalt_ok {W : Nat} {σ s : State} {a1 a2 : _} (hW : 0x6500040010 ||| W = W) (h : Within W σ s) :
    Within W σ (State.bootHalt s a1 a2) := by
  unfold State.bootHalt
  repeat' first
    | with_reducible assumption
    | (with_reducible apply State.setRing_ok; exact sub_le (by decide) hW)
    | (with_reducible apply State.freshen_ok; exact sub_le (by decide) hW)
    | (with_reducible apply State.bump_ok; exact sub_le (by decide) hW)
    | (with_reducible apply State.setFld_ok; exact sub_le (by decide) hW)
    | (with_reducible apply State.signalErr_ok; exact sub_le (by decide) hW)
    | (with_reducible apply State.bootFail_ok; exact sub_le (by decide) hW)
    | with_reducible apply Within.ite
    | (extract_lets +onlyGivenNames x
       first
       | (refine Within.cut (W := W) (s := σ) x ?_ ?_; rotate_left; (clear_value x; intro hx))
       | (refine Within.cut (W := W) (s := σ) x.1 ?_ ?_; rotate_left; (clear_value x; intro hx))
       | (refine Within.cut (W := W) (s := σ) x.2 ?_ ?_; rotate_left; (clear_value x; intro hx))
       | (refine Within.cutF (W := W) (s := σ) x ?_ ?_; rotate_left; (clear_value x; intro hf))
       | clear_value x)
    | split
    | (intro t; intros; (try beta_reduce))
    | dsimp -zeta only [x]

theorem State.bootIdentity_ok {W : Nat} {σ s : State} (hW : 0x500000010 ||| W = W) (h : Within W σ s) :
    Within W σ (State.bootIdentity s) := by
  unfold State.bootIdentity
  repeat' first
    | with_reducible assumption
    | (with_reducible apply State.setReg_ok; exact sub_le (by decide) hW)
    | (with_reducible apply State.bootFail_ok; exact sub_le (by decide) hW)
    | (with_reducible apply State.bootPhase_ok; exact sub_le (by decide) hW)
    | with_reducible apply Within.ite
    | (extract_lets +onlyGivenNames x
       first
       | (refine Within.cut (W := W) (s := σ) x ?_ ?_; rotate_left; (clear_value x; intro hx))
       | (refine Within.cut (W := W) (s := σ) x.1 ?_ ?_; rotate_left; (clear_value x; intro hx))
       | (refine Within.cut (W := W) (s := σ) x.2 ?_ ?_; rotate_left; (clear_value x; intro hx))
       | (refine Within.cutF (W := W) (s := σ) x ?_ ?_; rotate_left; (clear_value x; intro hf))
       | clear_value x)
    | split
    | (with_reducible apply Within.upd_boot; exact sub_le (by decide) hW)
    | (intro t; intros; (try beta_reduce))
    | dsimp -zeta only [x]

theorem State.measured_ok {W : Nat} {σ s : State} (hW : 0x100000000 ||| W = W) (h : Within W σ s) :
    Within W σ (State.measured s) := by
  unfold State.measured
  repeat' first
    | with_reducible assumption
    | (extract_lets +onlyGivenNames x
       first
       | (refine Within.cut (W := W) (s := σ) x ?_ ?_; rotate_left; (clear_value x; intro hx))
       | (refine Within.cut (W := W) (s := σ) x.1 ?_ ?_; rotate_left; (clear_value x; intro hx))
       | (refine Within.cut (W := W) (s := σ) x.2 ?_ ?_; rotate_left; (clear_value x; intro hx))
       | (refine Within.cutF (W := W) (s := σ) x ?_ ?_; rotate_left; (clear_value x; intro hf))
       | clear_value x)
    | (with_reducible apply Within.upd_boot; exact sub_le (by decide) hW)
    | (intro t; intros; (try beta_reduce))

theorem State.bootImage_ok {W : Nat} {σ s : State} (hW : 0x500000010 ||| W = W) (h : Within W σ s) :
    Within W σ (State.bootImage s) := by
  unfold State.bootImage
  repeat' first
    | with_reducible assumption
    | (with_reducible apply State.measured_ok; exact sub_le (by decide) hW)
    | (with_reducible apply State.bootPhase_ok; exact sub_le (by decide) hW)
    | (with_reducible apply State.setReg_ok; exact sub_le (by decide) hW)
    | (with_reducible apply State.bootFail_ok; exact sub_le (by decide) hW)
    | (with_reducible apply State.bump_ok; exact sub_le (by decide) hW)
    | (with_reducible apply Within.fold; (intro t x ht; beta_reduce))
    | (with_reducible apply Within.fold1; (intro t x ht; beta_reduce))
    | (with_reducible apply Within.fold2; (intro t x ht; beta_reduce))
    | (extract_lets +onlyGivenNames x
       first
       | (refine Within.cut (W := W) (s := σ) x ?_ ?_; rotate_left; (clear_value x; intro hx))
       | (refine Within.cut (W := W) (s := σ) x.1 ?_ ?_; rotate_left; (clear_value x; intro hx))
       | (refine Within.cut (W := W) (s := σ) x.2 ?_ ?_; rotate_left; (clear_value x; intro hx))
       | (refine Within.cutF (W := W) (s := σ) x ?_ ?_; rotate_left; (clear_value x; intro hf))
       | clear_value x)
    | split
    | (intro t; intros; (try beta_reduce))
    | dsimp -zeta only [x]

theorem State.fettleCluster_ok {W : Nat} {σ s : State} {a1 a2 a3 : _} (hW : 0x100006000 ||| W = W) (h : Within W σ s) :
    Within W σ (State.fettleCluster s a1 a2 a3) := by
  unfold State.fettleCluster
  repeat' first
    | with_reducible assumption
    | (with_reducible apply State.setCluster_ok; exact sub_le (by decide) hW)
    | (with_reducible apply State.updCore_ok; exact sub_le (by decide) hW)
    | with_reducible apply Within.ite
    | (with_reducible apply Within.fold; (intro t x ht; beta_reduce))
    | (with_reducible apply Within.fold1; (intro t x ht; beta_reduce))
    | (with_reducible apply Within.fold2; (intro t x ht; beta_reduce))
    | (extract_lets +onlyGivenNames x
       first
       | (refine Within.cut (W := W) (s := σ) x ?_ ?_; rotate_left; (clear_value x; intro hx))
       | (refine Within.cut (W := W) (s := σ) x.1 ?_ ?_; rotate_left; (clear_value x; intro hx))
       | (refine Within.cut (W := W) (s := σ) x.2 ?_ ?_; rotate_left; (clear_value x; intro hx))
       | (refine Within.cutF (W := W) (s := σ) x ?_ ?_; rotate_left; (clear_value x; intro hf))
       | clear_value x)
    | split
    | (with_reducible apply Within.upd_boot; exact sub_le (by decide) hW)
    | (intro t; intros; (try beta_reduce))
    | dsimp -zeta only [x]

theorem State.fettle_ok {W : Nat} {σ s : State} {a1 a2 : _} (hW : 0x100106190 ||| W = W) (h : Within W σ s) :
    Within W σ (State.fettle s a1 a2) := by
  unfold State.fettle
  repeat' first
    | with_reducible assumption
    | (with_reducible apply State.fettleCluster_ok; exact sub_le (by decide) hW)
    | (with_reducible apply State.setReg_ok; exact sub_le (by decide) hW)
    | (with_reducible apply State.setFld_ok; exact sub_le (by decide) hW)
    | with_reducible apply Within.ite
    | (with_reducible apply Within.fold; (intro t x ht; beta_reduce))
    | (with_reducible apply Within.fold1; (intro t x ht; beta_reduce))
    | (with_reducible apply Within.fold2; (intro t x ht; beta_reduce))
    | with_reducible apply Within.ite1
    | with_reducible apply Within.ite2
    | (intro hs; first | rfl | with_reducible exact hs | with_reducible first | exact hs | exact wf_mset hs _ _ | exact wf_msetBytes _ hs _ | exact wf_filter hs _ | exact rising_sset hs _ _ | exact rising_filter hs _ | exact rising_sdel hs _ | (refine rising_map hs _ ?_; intro e; beta_reduce; first | rfl | (split <;> rfl)))
    | (extract_lets +onlyGivenNames x
       first
       | (refine Within.cut (W := W) (s := σ) x ?_ ?_; rotate_left; (clear_value x; intro hx))
       | (refine Within.cut (W := W) (s := σ) x.1 ?_ ?_; rotate_left; (clear_value x; intro hx))
       | (refine Within.cut (W := W) (s := σ) x.2 ?_ ?_; rotate_left; (clear_value x; intro hx))
       | (refine Within.cutF (W := W) (s := σ) x ?_ ?_; rotate_left; (clear_value x; intro hf))
       | clear_value x)
    | split
    | (with_reducible apply Within.upd_hbm_hbmBad_retireFailed; exact sub_le (by decide) hW)
    | (intro t; intros; (try beta_reduce))
    | dsimp -zeta only [x]

theorem State.bootReady_ok {W : Nat} {σ s : State} (hW : 0x500001010 ||| W = W) (h : Within W σ s) :
    Within W σ (State.bootReady s) := by
  unfold State.bootReady
  repeat' first
    | with_reducible assumption
    | (with_reducible apply State.setReg_ok; exact sub_le (by decide) hW)
    | (with_reducible apply State.setFld_ok; exact sub_le (by decide) hW)
    | (with_reducible apply State.progress_ok; exact sub_le (by decide) hW)
    | with_reducible apply Within.ite
    | (with_reducible apply Within.fold; (intro t x ht; beta_reduce))
    | (with_reducible apply Within.fold1; (intro t x ht; beta_reduce))
    | (with_reducible apply Within.fold2; (intro t x ht; beta_reduce))
    | (extract_lets +onlyGivenNames x
       first
       | (refine Within.cut (W := W) (s := σ) x ?_ ?_; rotate_left; (clear_value x; intro hx))
       | (refine Within.cut (W := W) (s := σ) x.1 ?_ ?_; rotate_left; (clear_value x; intro hx))
       | (refine Within.cut (W := W) (s := σ) x.2 ?_ ?_; rotate_left; (clear_value x; intro hx))
       | (refine Within.cutF (W := W) (s := σ) x ?_ ?_; rotate_left; (clear_value x; intro hf))
       | clear_value x)
    | split
    | (with_reducible apply Within.upd_parts_boot_power; exact sub_le (by decide) hW)
    | (intro t; intros; (try beta_reduce))
    | dsimp -zeta only [x]

theorem State.bootEnd_ok {W : Nat} {σ s : State} {a1 : _} (hW : 0x6500147190 ||| W = W) (h : Within W σ s) :
    Within W σ (State.bootEnd s a1) := by
  unfold State.bootEnd
  repeat' first
    | with_reducible assumption
    | (with_reducible apply State.bootHalt_ok; exact sub_le (by decide) hW)
    | (with_reducible apply State.bootPhase_ok; exact sub_le (by decide) hW)
    | (with_reducible apply State.fettle_ok; exact sub_le (by decide) hW)
    | (with_reducible apply State.bootIdentity_ok; exact sub_le (by decide) hW)
    | (with_reducible apply State.bootImage_ok; exact sub_le (by decide) hW)
    | (with_reducible apply State.setReg_ok; exact sub_le (by decide) hW)
    | (with_reducible apply State.bootReady_ok; exact sub_le (by decide) hW)
    | with_reducible apply Within.ite
    | (with_reducible apply Within.fold; (intro t x ht; beta_reduce))
    | (with_reducible apply Within.fold1; (intro t x ht; beta_reduce))
    | (with_reducible apply Within.fold2; (intro t x ht; beta_reduce))
    | split
    | (intro t; intros; (try beta_reduce))

theorem State.flrQueue_ok {W : Nat} {σ s : State} {a1 : _} (hW : 0x600567dd90 ||| W = W) (h : Within W σ s) :
    Within W σ (State.flrQueue s a1) := by
  unfold State.flrQueue
  repeat' first
    | with_reducible assumption
    | (with_reducible apply State.abortWhole_ok; exact sub_le (by decide) hW)
    | (with_reducible apply State.releaseCluster_ok; exact sub_le (by decide) hW)
    | (with_reducible apply State.setQreg_ok; exact sub_le (by decide) hW)
    | (with_reducible apply State.updQueue_ok; exact sub_le (by decide) hW)
    | (with_reducible apply Within.fold; (intro t x ht; beta_reduce))
    | (with_reducible apply Within.fold1; (intro t x ht; beta_reduce))
    | (with_reducible apply Within.fold2; (intro t x ht; beta_reduce))
    | (extract_lets +onlyGivenNames x
       first
       | (refine Within.cut (W := W) (s := σ) x ?_ ?_; rotate_left; (clear_value x; intro hx))
       | (refine Within.cut (W := W) (s := σ) x.1 ?_ ?_; rotate_left; (clear_value x; intro hx))
       | (refine Within.cut (W := W) (s := σ) x.2 ?_ ?_; rotate_left; (clear_value x; intro hx))
       | (refine Within.cutF (W := W) (s := σ) x ?_ ?_; rotate_left; (clear_value x; intro hf))
       | clear_value x)
    | (with_reducible apply Within.upd_adm; exact sub_le (by decide) hW)
    | (intro t; intros; (try beta_reduce))
    | dsimp -zeta only [x]

theorem State.flrPart_ok {W : Nat} {σ s : State} {a1 : _} (hW : 0x700567dd90 ||| W = W) (h : Within W σ s) :
    Within W σ (State.flrPart s a1) := by
  unfold State.flrPart
  repeat' first
    | with_reducible assumption
    | (with_reducible apply State.flrQueue_ok; exact sub_le (by decide) hW)
    | (with_reducible apply State.freshen_ok; exact sub_le (by decide) hW)
    | (with_reducible apply State.jrStop_ok; exact sub_le (by decide) hW)
    | (with_reducible apply State.setReg_ok; exact sub_le (by decide) hW)
    | (with_reducible apply State.progress_ok; exact sub_le (by decide) hW)
    | (with_reducible apply State.bump_ok; exact sub_le (by decide) hW)
    | with_reducible apply Within.ite
    | (with_reducible apply Within.fold; (intro t x ht; beta_reduce))
    | (with_reducible apply Within.fold1; (intro t x ht; beta_reduce))
    | (with_reducible apply Within.fold2; (intro t x ht; beta_reduce))
    | with_reducible apply Within.ite1
    | with_reducible apply Within.ite2
    | (extract_lets +onlyGivenNames x
       first
       | (refine Within.cut (W := W) (s := σ) x ?_ ?_; rotate_left; (clear_value x; intro hx))
       | (refine Within.cut (W := W) (s := σ) x.1 ?_ ?_; rotate_left; (clear_value x; intro hx))
       | (refine Within.cut (W := W) (s := σ) x.2 ?_ ?_; rotate_left; (clear_value x; intro hx))
       | (refine Within.cutF (W := W) (s := σ) x ?_ ?_; rotate_left; (clear_value x; intro hf))
       | clear_value x)
    | split
    | (with_reducible apply Within.upd_cxl; exact sub_le (by decide) hW)
    | (intro t; intros; (try beta_reduce))
    | dsimp -zeta only [x]

theorem State.flrAll_ok {W : Nat} {σ s : State} (hW : 0x700567dd90 ||| W = W) (h : Within W σ s) :
    Within W σ (State.flrAll s) := by
  unfold State.flrAll
  repeat' first
    | with_reducible assumption
    | (with_reducible apply State.flrPart_ok; exact sub_le (by decide) hW)
    | with_reducible apply Within.ite
    | (with_reducible apply Within.fold; (intro t x ht; beta_reduce))
    | (with_reducible apply Within.fold1; (intro t x ht; beta_reduce))
    | (with_reducible apply Within.fold2; (intro t x ht; beta_reduce))
    | (extract_lets +onlyGivenNames x
       first
       | (refine Within.cut (W := W) (s := σ) x ?_ ?_; rotate_left; (clear_value x; intro hx))
       | (refine Within.cut (W := W) (s := σ) x.1 ?_ ?_; rotate_left; (clear_value x; intro hx))
       | (refine Within.cut (W := W) (s := σ) x.2 ?_ ?_; rotate_left; (clear_value x; intro hx))
       | (refine Within.cutF (W := W) (s := σ) x ?_ ?_; rotate_left; (clear_value x; intro hf))
       | clear_value x)
    | split
    | (intro t; intros; (try beta_reduce))
    | dsimp -zeta only [x]

theorem State.flr_ok {W : Nat} {σ s : State} {a1 : _} (hW : 0x700567dd90 ||| W = W) (h : Within W σ s) :
    Within W σ (State.flr s a1) := by
  unfold State.flr
  repeat' first
    | with_reducible assumption
    | (with_reducible apply State.flrPart_ok; exact sub_le (by decide) hW)
    | with_reducible apply Within.ite
    | split
    | (intro t; intros; (try beta_reduce))

theorem State.pfFlr_ok {W : Nat} {σ s : State} (hW : 0x700567dd90 ||| W = W) (h : Within W σ s) :
    Within W σ (State.pfFlr s) := by
  unfold State.pfFlr
  repeat' first
    | with_reducible assumption
    | (with_reducible apply State.flrAll_ok; exact sub_le (by decide) hW)
    | with_reducible apply Within.ite
    | (extract_lets +onlyGivenNames x
       first
       | (refine Within.cut (W := W) (s := σ) x ?_ ?_; rotate_left; (clear_value x; intro hx))
       | (refine Within.cut (W := W) (s := σ) x.1 ?_ ?_; rotate_left; (clear_value x; intro hx))
       | (refine Within.cut (W := W) (s := σ) x.2 ?_ ?_; rotate_left; (clear_value x; intro hx))
       | (refine Within.cutF (W := W) (s := σ) x ?_ ?_; rotate_left; (clear_value x; intro hf))
       | clear_value x)
    | split
    | (with_reducible apply Within.upd_cxl; exact sub_le (by decide) hW)
    | (intro t; intros; (try beta_reduce))
    | dsimp -zeta only [x]

theorem State.hotReset_ok {W : Nat} {σ s : State} (hW : 0x700567dd90 ||| W = W) (h : Within W σ s) :
    Within W σ (State.hotReset s) := by
  unfold State.hotReset
  repeat' first
    | with_reducible assumption
    | (with_reducible apply State.flrAll_ok; exact sub_le (by decide) hW)
    | (with_reducible apply State.setReg_ok; exact sub_le (by decide) hW)
    | with_reducible apply Within.ite
    | with_reducible apply Within.ite1
    | with_reducible apply Within.ite2
    | (intro hs; first | rfl | with_reducible exact hs | with_reducible first | exact hs | exact wf_mset hs _ _ | exact wf_msetBytes _ hs _ | exact wf_filter hs _ | exact rising_sset hs _ _ | exact rising_filter hs _ | exact rising_sdel hs _ | (refine rising_map hs _ ?_; intro e; beta_reduce; first | rfl | (split <;> rfl)))
    | (extract_lets +onlyGivenNames x
       first
       | (refine Within.cut (W := W) (s := σ) x ?_ ?_; rotate_left; (clear_value x; intro hx))
       | (refine Within.cut (W := W) (s := σ) x.1 ?_ ?_; rotate_left; (clear_value x; intro hx))
       | (refine Within.cut (W := W) (s := σ) x.2 ?_ ?_; rotate_left; (clear_value x; intro hx))
       | (refine Within.cutF (W := W) (s := σ) x ?_ ?_; rotate_left; (clear_value x; intro hf))
       | clear_value x)
    | split
    | (with_reducible apply Within.upd_cxl; exact sub_le (by decide) hW)
    | (with_reducible apply Within.upd_regs; exact sub_le (by decide) hW)
    | (intro t; intros; (try beta_reduce))
    | dsimp -zeta only [x]

end Sys2Proof.Machine
end

