-- ==== Sys2Proof/Laws/FCxl.lean ====
section
/-! SUPPORT. What each operation of Cxl.lean can change, and that it keeps the tables in canonical form. -/

set_option linter.all false

namespace Sys2Proof.Machine

theorem State.trainHost_ok {W : Nat} {σ s : State} {a1 a2 a3 a4 a5 : _} (hW : 0x7000000010 ||| W = W) (h : Within W σ s) :
    Within W σ (State.trainHost s a1 a2 a3 a4 a5) := by
  unfold State.trainHost
  repeat' first
    | with_reducible assumption
    | (with_reducible apply State.setReg_ok; exact sub_le (by decide) hW)
    | (with_reducible apply State.freshen_ok; exact sub_le (by decide) hW)
    | (with_reducible apply State.progress_ok; exact sub_le (by decide) hW)
    | (with_reducible apply State.raisePage_ok; exact sub_le (by decide) hW)
    | with_reducible apply Within.ite
    | (extract_lets +onlyGivenNames x
       first
       | (refine Within.cut (W := W) (s := σ) x ?_ ?_; rotate_left; (clear_value x; intro hx))
       | (refine Within.cut (W := W) (s := σ) x.1 ?_ ?_; rotate_left; (clear_value x; intro hx))
       | (refine Within.cut (W := W) (s := σ) x.2 ?_ ?_; rotate_left; (clear_value x; intro hx))
       | (refine Within.cutF (W := W) (s := σ) x ?_ ?_; rotate_left; (clear_value x; intro hf))
       | clear_value x)
    | split
    | (with_reducible apply Within.upd_cxl; exact sub_le (by decide) hW)
    | (intro t; intros; (try beta_reduce))
    | dsimp -zeta only [x]

theorem State.snoop_ok {W : Nat} {σ s : State} {a1 : _} (hW : 0x3000000010 ||| W = W) (h : Within W σ s) :
    Within W σ (State.snoop s a1) := by
  unfold State.snoop
  repeat' first
    | with_reducible assumption
    | (with_reducible apply State.emit_ok; exact sub_le (by decide) hW)
    | (with_reducible apply State.bump_ok; exact sub_le (by decide) hW)
    | with_reducible apply Within.ite
    | (extract_lets +onlyGivenNames x
       first
       | (refine Within.cut (W := W) (s := σ) x ?_ ?_; rotate_left; (clear_value x; intro hx))
       | (refine Within.cut (W := W) (s := σ) x.1 ?_ ?_; rotate_left; (clear_value x; intro hx))
       | (refine Within.cut (W := W) (s := σ) x.2 ?_ ?_; rotate_left; (clear_value x; intro hx))
       | (refine Within.cutF (W := W) (s := σ) x ?_ ?_; rotate_left; (clear_value x; intro hf))
       | clear_value x)
    | split
    | (with_reducible apply Within.upd_cxl; exact sub_le (by decide) hW)
    | (intro t; intros; (try beta_reduce))
    | dsimp -zeta only [x]

theorem State.commitDecoder_ok {W : Nat} {σ s : State} {a1 a2 a3 a4 a5 a6 a7 : _} (hW : 0x1000000000 ||| W = W) (h : Within W σ s) :
    Within W σ (State.commitDecoder s a1 a2 a3 a4 a5 a6 a7) := by
  unfold State.commitDecoder
  repeat' first
    | with_reducible assumption
    | with_reducible apply Within.ite
    | with_reducible apply Within.ite1
    | with_reducible apply Within.ite2
    | (extract_lets +onlyGivenNames x
       first
       | (refine Within.cut (W := W) (s := σ) x ?_ ?_; rotate_left; (clear_value x; intro hx))
       | (refine Within.cut (W := W) (s := σ) x.1 ?_ ?_; rotate_left; (clear_value x; intro hx))
       | (refine Within.cut (W := W) (s := σ) x.2 ?_ ?_; rotate_left; (clear_value x; intro hx))
       | (refine Within.cutF (W := W) (s := σ) x ?_ ?_; rotate_left; (clear_value x; intro hf))
       | clear_value x)
    | split
    | (with_reducible apply Within.upd_cxl; exact sub_le (by decide) hW)
    | (intro t; intros; (try beta_reduce))
    | dsimp -zeta only [x]

theorem State.countMem_ok {W : Nat} {σ s : State} {a1 : _} (hW : 0x10 ||| W = W) (h : Within W σ s) :
    Within W σ (State.countMem s a1) := by
  induction a1 generalizing s  with
  | nil =>
    unfold State.countMem
    repeat' first
      | with_reducible assumption
      | with_reducible apply ih
      | (with_reducible apply State.meter_ok; exact sub_le (by decide) hW)
      | (extract_lets +onlyGivenNames x
         first
         | (refine Within.cut (W := W) (s := σ) x ?_ ?_; rotate_left; (clear_value x; intro hx))
         | (refine Within.cut (W := W) (s := σ) x.1 ?_ ?_; rotate_left; (clear_value x; intro hx))
         | (refine Within.cut (W := W) (s := σ) x.2 ?_ ?_; rotate_left; (clear_value x; intro hx))
         | (refine Within.cutF (W := W) (s := σ) x ?_ ?_; rotate_left; (clear_value x; intro hf))
         | clear_value x)
      | (intro t; intros; (try beta_reduce))
      | dsimp -zeta only [x]
  | cons b r ih =>
    unfold State.countMem
    repeat' first
      | with_reducible assumption
      | with_reducible apply ih
      | (with_reducible apply State.meter_ok; exact sub_le (by decide) hW)
      | (extract_lets +onlyGivenNames x
         first
         | (refine Within.cut (W := W) (s := σ) x ?_ ?_; rotate_left; (clear_value x; intro hx))
         | (refine Within.cut (W := W) (s := σ) x.1 ?_ ?_; rotate_left; (clear_value x; intro hx))
         | (refine Within.cut (W := W) (s := σ) x.2 ?_ ?_; rotate_left; (clear_value x; intro hx))
         | (refine Within.cutF (W := W) (s := σ) x ?_ ?_; rotate_left; (clear_value x; intro hf))
         | clear_value x)
      | (intro t; intros; (try beta_reduce))
      | dsimp -zeta only [x]

theorem State.hbmWake_ok {W : Nat} {σ s : State} (hW : 0x400000010 ||| W = W) (h : Within W σ s) :
    Within W σ (State.hbmWake s) := by
  unfold State.hbmWake
  repeat' first
    | with_reducible assumption
    | (with_reducible apply State.setReg_ok; exact sub_le (by decide) hW)
    | with_reducible apply Within.ite
    | (with_reducible apply Within.fold; (intro t x ht; beta_reduce))
    | (with_reducible apply Within.fold1; (intro t x ht; beta_reduce))
    | (with_reducible apply Within.fold2; (intro t x ht; beta_reduce))
    | (extract_lets +onlyGivenNames x
       first
       | (refine Within.cut (W := W) (s := σ) x ?_ ?_; rotate_left; (clear_value x; intro hx))
       | (refine Within.cut (W := W) (s := σ) x.1 ?_ ?_; rotate_left; (clear_value x; intro hx))
       | (refine Within.cut (W := W) (s := σ) x.2 ?_ ?_; rotate_left; (clear_value x; intro hx))
       | (refine Within.cutF (W := W) (s := σ) x ?_ ?_; rotate_left; (clear_value x; intro hf))
       | clear_value x)
    | split
    | (with_reducible apply Within.upd_power; exact sub_le (by decide) hW)
    | (intro t; intros; (try beta_reduce))
    | dsimp -zeta only [x]

theorem State.memRead_ok {W : Nat} {σ s : State} {a1 a2 : _} (hW : 0x640567dd90 ||| W = W) (h : Within W σ s) :
    Within W σ (State.memRead s a1 a2) := by
  unfold State.memRead
  repeat' first
    | with_reducible assumption
    | (with_reducible apply State.bump_ok; exact sub_le (by decide) hW)
    | (with_reducible apply State.countMem_ok; exact sub_le (by decide) hW)
    | (with_reducible apply State.hbmWake_ok; exact sub_le (by decide) hW)
    | (with_reducible apply State.emit_ok; exact sub_le (by decide) hW)
    | (with_reducible apply State.raisePage_ok; exact sub_le (by decide) hW)
    | (with_reducible apply State.raiseErr_ok; exact sub_le (by decide) hW)
    | with_reducible apply Within.ite
    | with_reducible apply Within.ite1
    | with_reducible apply Within.ite2
    | (extract_lets +onlyGivenNames x
       first
       | (refine Within.cut (W := W) (s := σ) x ?_ ?_; rotate_left; (clear_value x; intro hx))
       | (refine Within.cut (W := W) (s := σ) x.1 ?_ ?_; rotate_left; (clear_value x; intro hx))
       | (refine Within.cut (W := W) (s := σ) x.2 ?_ ?_; rotate_left; (clear_value x; intro hx))
       | (refine Within.cutF (W := W) (s := σ) x ?_ ?_; rotate_left; (clear_value x; intro hf))
       | clear_value x)
    | split
    | (with_reducible apply Within.upd_fresh; exact sub_le (by decide) hW)
    | (intro t; intros; (try beta_reduce))
    | dsimp -zeta only [x]

theorem State.retestWaits_ok {W : Nat} {σ s : State} (hW : 0x800 ||| W = W) (h : Within W σ s) :
    Within W σ (State.retestWaits s) := by
  unfold State.retestWaits
  repeat' first
    | with_reducible assumption
    | (with_reducible apply State.endWaits_ok; exact sub_le (by decide) hW)
    | (with_reducible apply Within.fold; (intro t x ht; beta_reduce))
    | (with_reducible apply Within.fold1; (intro t x ht; beta_reduce))
    | (with_reducible apply Within.fold2; (intro t x ht; beta_reduce))
    | with_reducible apply Within.ite1
    | with_reducible apply Within.ite2
    | (intro t; intros; (try beta_reduce))

theorem State.memWrite_ok {W : Nat} {σ s : State} {a1 a2 : _} (hW : 0x6400000990 ||| W = W) (h : Within W σ s) :
    Within W σ (State.memWrite s a1 a2) := by
  unfold State.memWrite
  repeat' first
    | with_reducible assumption
    | (with_reducible apply State.bump_ok; exact sub_le (by decide) hW)
    | (with_reducible apply State.countMem_ok; exact sub_le (by decide) hW)
    | (with_reducible apply State.hbmWake_ok; exact sub_le (by decide) hW)
    | (with_reducible apply State.freshen_ok; exact sub_le (by decide) hW)
    | (with_reducible apply State.hbmSet_ok; exact sub_le (by decide) hW)
    | (with_reducible apply State.emit_ok; exact sub_le (by decide) hW)
    | (with_reducible apply State.retestWaits_ok; exact sub_le (by decide) hW)
    | with_reducible apply Within.ite
    | (with_reducible apply Within.fold; (intro t x ht; beta_reduce))
    | (with_reducible apply Within.fold1; (intro t x ht; beta_reduce))
    | (with_reducible apply Within.fold2; (intro t x ht; beta_reduce))
    | with_reducible apply Within.ite1
    | with_reducible apply Within.ite2
    | (extract_lets +onlyGivenNames x
       first
       | (refine Within.cut (W := W) (s := σ) x ?_ ?_; rotate_left; (clear_value x; intro hx))
       | (refine Within.cut (W := W) (s := σ) x.1 ?_ ?_; rotate_left; (clear_value x; intro hx))
       | (refine Within.cut (W := W) (s := σ) x.2 ?_ ?_; rotate_left; (clear_value x; intro hx))
       | (refine Within.cutF (W := W) (s := σ) x ?_ ?_; rotate_left; (clear_value x; intro hf))
       | clear_value x)
    | split
    | (with_reducible apply Within.upd_hbmBad; exact sub_le (by decide) hW)
    | (intro t; intros; (try beta_reduce))
    | dsimp -zeta only [x]

theorem State.doeError_ok {W : Nat} {σ s : State} {a1 a2 : _} (hW : 0x2000000000 ||| W = W) (h : Within W σ s) :
    Within W σ (State.doeError s a1 a2) := by
  unfold State.doeError
  repeat' first
    | with_reducible assumption
    | (with_reducible apply State.emit_ok; exact sub_le (by decide) hW)
    | (intro t; intros; (try beta_reduce))

theorem State.doeDiscovery_ok {W : Nat} {σ s : State} {a1 : _} (hW : 0x6000000000 ||| W = W) (h : Within W σ s) :
    Within W σ (State.doeDiscovery s a1) := by
  unfold State.doeDiscovery
  repeat' first
    | with_reducible assumption
    | (with_reducible apply State.emit_ok; exact sub_le (by decide) hW)
    | (with_reducible apply State.freshen_ok; exact sub_le (by decide) hW)
    | with_reducible apply Within.ite
    | with_reducible apply Within.ite1
    | with_reducible apply Within.ite2
    | split
    | (intro t; intros; (try beta_reduce))

theorem State.cdat_ok {W : Nat} {σ s : State} {a1 : _} (hW : 0x2000000000 ||| W = W) (h : Within W σ s) :
    Within W σ (State.cdat s a1) := by
  unfold State.cdat
  repeat' first
    | with_reducible assumption
    | (with_reducible apply State.doeError_ok; exact sub_le (by decide) hW)
    | (with_reducible apply State.emit_ok; exact sub_le (by decide) hW)
    | with_reducible apply Within.ite
    | split
    | (intro t; intros; (try beta_reduce))

theorem State.doeUnknown_ok {W : Nat} {σ s : State} {a1 a2 : _} (hW : 0x2000000000 ||| W = W) (h : Within W σ s) :
    Within W σ (State.doeUnknown s a1 a2) := by
  unfold State.doeUnknown
  repeat' first
    | with_reducible assumption
    | (with_reducible apply State.doeError_ok; exact sub_le (by decide) hW)
    | with_reducible apply Within.ite
    | split
    | (intro t; intros; (try beta_reduce))

theorem State.aer_ok {W : Nat} {σ s : State} {a1 : _} (hW : 0x2000000010 ||| W = W) (h : Within W σ s) :
    Within W σ (State.aer s a1) := by
  unfold State.aer
  repeat' first
    | with_reducible assumption
    | (with_reducible apply State.bump_ok; exact sub_le (by decide) hW)
    | (with_reducible apply State.emit_ok; exact sub_le (by decide) hW)
    | (intro t; intros; (try beta_reduce))

theorem State.hostLinkError_ok {W : Nat} {σ s : State} {a1 : _} (hW : 0x3000000010 ||| W = W) (h : Within W σ s) :
    Within W σ (State.hostLinkError s a1) := by
  unfold State.hostLinkError
  repeat' first
    | with_reducible assumption
    | (with_reducible apply State.aer_ok; exact sub_le (by decide) hW)
    | (with_reducible apply State.bump_ok; exact sub_le (by decide) hW)
    | (with_reducible apply State.emit_ok; exact sub_le (by decide) hW)
    | with_reducible apply Within.ite
    | (extract_lets +onlyGivenNames x
       first
       | (refine Within.cut (W := W) (s := σ) x ?_ ?_; rotate_left; (clear_value x; intro hx))
       | (refine Within.cut (W := W) (s := σ) x.1 ?_ ?_; rotate_left; (clear_value x; intro hx))
       | (refine Within.cut (W := W) (s := σ) x.2 ?_ ?_; rotate_left; (clear_value x; intro hx))
       | (refine Within.cutF (W := W) (s := σ) x ?_ ?_; rotate_left; (clear_value x; intro hf))
       | clear_value x)
    | split
    | (with_reducible apply Within.upd_cxl; exact sub_le (by decide) hW)
    | (intro t; intros; (try beta_reduce))

end Sys2Proof.Machine
end

