-- ==== Sys2Proof/Laws/FPower.lean ====
section
/-! SUPPORT. What each operation of Power.lean can change, and that it keeps the tables in canonical form. -/

set_option linter.all false

namespace Sys2Proof.Machine

theorem State.setPower_ok {W : Nat} {σ s : State} {a1 a2 : _} (hW : 0x10 ||| W = W) (h : Within W σ s) :
    Within W σ (State.setPower s a1 a2) := by
  unfold State.setPower
  repeat' first
    | with_reducible assumption
    | (with_reducible apply State.setFld_ok; exact sub_le (by decide) hW)
    | (intro t; intros; (try beta_reduce))

theorem State.showPower_ok {W : Nat} {σ s : State} (hW : 0x10 ||| W = W) (h : Within W σ s) :
    Within W σ (State.showPower s) := by
  unfold State.showPower
  repeat' first
    | with_reducible assumption
    | (with_reducible apply State.setReg_ok; exact sub_le (by decide) hW)
    | (with_reducible apply State.setPower_ok; exact sub_le (by decide) hW)
    | (extract_lets +onlyGivenNames x
       first
       | (refine Within.cut (W := W) (s := σ) x ?_ ?_; rotate_left; (clear_value x; intro hx))
       | (refine Within.cut (W := W) (s := σ) x.1 ?_ ?_; rotate_left; (clear_value x; intro hx))
       | (refine Within.cut (W := W) (s := σ) x.2 ?_ ?_; rotate_left; (clear_value x; intro hx))
       | (refine Within.cutF (W := W) (s := σ) x ?_ ?_; rotate_left; (clear_value x; intro hf))
       | clear_value x)
    | (intro t; intros; (try beta_reduce))
    | dsimp -zeta only [x]

theorem State.parkBegin_ok {W : Nat} {σ s : State} (hW : 0x400000010 ||| W = W) (h : Within W σ s) :
    Within W σ (State.parkBegin s) := by
  unfold State.parkBegin
  repeat' first
    | with_reducible assumption
    | (with_reducible apply State.progress_ok; exact sub_le (by decide) hW)
    | (with_reducible apply State.setPower_ok; exact sub_le (by decide) hW)
    | (extract_lets +onlyGivenNames x
       first
       | (refine Within.cut (W := W) (s := σ) x ?_ ?_; rotate_left; (clear_value x; intro hx))
       | (refine Within.cut (W := W) (s := σ) x.1 ?_ ?_; rotate_left; (clear_value x; intro hx))
       | (refine Within.cut (W := W) (s := σ) x.2 ?_ ?_; rotate_left; (clear_value x; intro hx))
       | (refine Within.cutF (W := W) (s := σ) x ?_ ?_; rotate_left; (clear_value x; intro hf))
       | clear_value x)
    | (with_reducible apply Within.upd_power; exact sub_le (by decide) hW)
    | (intro t; intros; (try beta_reduce))
    | dsimp -zeta only [x]

theorem State.parkLater_ok {W : Nat} {σ s : State} (hW : 0x400000010 ||| W = W) (h : Within W σ s) :
    Within W σ (State.parkLater s) := by
  unfold State.parkLater
  repeat' first
    | with_reducible assumption
    | (with_reducible apply State.setPower_ok; exact sub_le (by decide) hW)
    | (extract_lets +onlyGivenNames x
       first
       | (refine Within.cut (W := W) (s := σ) x ?_ ?_; rotate_left; (clear_value x; intro hx))
       | (refine Within.cut (W := W) (s := σ) x.1 ?_ ?_; rotate_left; (clear_value x; intro hx))
       | (refine Within.cut (W := W) (s := σ) x.2 ?_ ?_; rotate_left; (clear_value x; intro hx))
       | (refine Within.cutF (W := W) (s := σ) x ?_ ?_; rotate_left; (clear_value x; intro hf))
       | clear_value x)
    | (with_reducible apply Within.upd_power; exact sub_le (by decide) hW)
    | (intro t; intros; (try beta_reduce))

theorem State.park_ok {W : Nat} {σ s : State} (hW : 0x400000010 ||| W = W) (h : Within W σ s) :
    Within W σ (State.park s) := by
  unfold State.park
  repeat' first
    | with_reducible assumption
    | (with_reducible apply State.parkBegin_ok; exact sub_le (by decide) hW)
    | (with_reducible apply State.parkLater_ok; exact sub_le (by decide) hW)
    | with_reducible apply Within.ite
    | split
    | (intro t; intros; (try beta_reduce))

theorem State.setHbmState_ok {W : Nat} {σ s : State} {a1 : _} (hW : 0x10 ||| W = W) (h : Within W σ s) :
    Within W σ (State.setHbmState s a1) := by
  unfold State.setHbmState
  repeat' first
    | with_reducible assumption
    | (with_reducible apply State.setFld_ok; exact sub_le (by decide) hW)
    | (with_reducible apply Within.fold; (intro t x ht; beta_reduce))
    | (with_reducible apply Within.fold1; (intro t x ht; beta_reduce))
    | (with_reducible apply Within.fold2; (intro t x ht; beta_reduce))
    | (intro t; intros; (try beta_reduce))

theorem State.parkEntry_ok {W : Nat} {σ s : State} (hW : 0x400000010 ||| W = W) (h : Within W σ s) :
    Within W σ (State.parkEntry s) := by
  unfold State.parkEntry
  repeat' first
    | with_reducible assumption
    | (with_reducible apply State.parkBegin_ok; exact sub_le (by decide) hW)
    | (with_reducible apply State.setPower_ok; exact sub_le (by decide) hW)
    | (with_reducible apply State.progress_ok; exact sub_le (by decide) hW)
    | (with_reducible apply State.bump_ok; exact sub_le (by decide) hW)
    | (with_reducible apply State.setHbmState_ok; exact sub_le (by decide) hW)
    | with_reducible apply Within.ite
    | (extract_lets +onlyGivenNames x
       first
       | (refine Within.cut (W := W) (s := σ) x ?_ ?_; rotate_left; (clear_value x; intro hx))
       | (refine Within.cut (W := W) (s := σ) x.1 ?_ ?_; rotate_left; (clear_value x; intro hx))
       | (refine Within.cut (W := W) (s := σ) x.2 ?_ ?_; rotate_left; (clear_value x; intro hx))
       | (refine Within.cutF (W := W) (s := σ) x ?_ ?_; rotate_left; (clear_value x; intro hf))
       | clear_value x)
    | split
    | (with_reducible apply Within.upd_power; exact sub_le (by decide) hW)
    | (intro t; intros; (try beta_reduce))
    | dsimp -zeta only [x]

theorem State.autoPark_ok {W : Nat} {σ s : State} (hW : 0x400000010 ||| W = W) (h : Within W σ s) :
    Within W σ (State.autoPark s) := by
  unfold State.autoPark
  repeat' first
    | with_reducible assumption
    | (with_reducible apply State.parkBegin_ok; exact sub_le (by decide) hW)
    | with_reducible apply Within.ite
    | split
    | (intro t; intros; (try beta_reduce))

theorem State.unpark_ok {W : Nat} {σ s : State} (hW : 0x400000010 ||| W = W) (h : Within W σ s) :
    Within W σ (State.unpark s) := by
  unfold State.unpark
  repeat' first
    | with_reducible assumption
    | (with_reducible apply State.wake_ok; exact sub_le (by decide) hW)
    | (with_reducible apply State.setPower_ok; exact sub_le (by decide) hW)
    | with_reducible apply Within.ite
    | (extract_lets +onlyGivenNames x
       first
       | (refine Within.cut (W := W) (s := σ) x ?_ ?_; rotate_left; (clear_value x; intro hx))
       | (refine Within.cut (W := W) (s := σ) x.1 ?_ ?_; rotate_left; (clear_value x; intro hx))
       | (refine Within.cut (W := W) (s := σ) x.2 ?_ ?_; rotate_left; (clear_value x; intro hx))
       | (refine Within.cutF (W := W) (s := σ) x ?_ ?_; rotate_left; (clear_value x; intro hf))
       | clear_value x)
    | split
    | (with_reducible apply Within.upd_power; exact sub_le (by decide) hW)
    | (intro t; intros; (try beta_reduce))

theorem State.returnDone_ok {W : Nat} {σ s : State} (hW : 0x400000010 ||| W = W) (h : Within W σ s) :
    Within W σ (State.returnDone s) := by
  unfold State.returnDone
  repeat' first
    | with_reducible assumption
    | (with_reducible apply State.setPower_ok; exact sub_le (by decide) hW)
    | (with_reducible apply State.progress_ok; exact sub_le (by decide) hW)
    | (with_reducible apply State.setHbmState_ok; exact sub_le (by decide) hW)
    | (with_reducible apply State.park_ok; exact sub_le (by decide) hW)
    | with_reducible apply Within.ite
    | (extract_lets +onlyGivenNames x
       first
       | (refine Within.cut (W := W) (s := σ) x ?_ ?_; rotate_left; (clear_value x; intro hx))
       | (refine Within.cut (W := W) (s := σ) x.1 ?_ ?_; rotate_left; (clear_value x; intro hx))
       | (refine Within.cut (W := W) (s := σ) x.2 ?_ ?_; rotate_left; (clear_value x; intro hx))
       | (refine Within.cutF (W := W) (s := σ) x ?_ ?_; rotate_left; (clear_value x; intro hf))
       | clear_value x)
    | split
    | (with_reducible apply Within.upd_power; exact sub_le (by decide) hW)
    | (intro t; intros; (try beta_reduce))
    | dsimp -zeta only [x]

theorem State.hbmSleeps_ok {W : Nat} {σ s : State} (hW : 0x400000010 ||| W = W) (h : Within W σ s) :
    Within W σ (State.hbmSleeps s) := by
  unfold State.hbmSleeps
  repeat' first
    | with_reducible assumption
    | (with_reducible apply State.setHbmState_ok; exact sub_le (by decide) hW)
    | with_reducible apply Within.ite
    | (extract_lets +onlyGivenNames x
       first
       | (refine Within.cut (W := W) (s := σ) x ?_ ?_; rotate_left; (clear_value x; intro hx))
       | (refine Within.cut (W := W) (s := σ) x.1 ?_ ?_; rotate_left; (clear_value x; intro hx))
       | (refine Within.cut (W := W) (s := σ) x.2 ?_ ?_; rotate_left; (clear_value x; intro hx))
       | (refine Within.cutF (W := W) (s := σ) x ?_ ?_; rotate_left; (clear_value x; intro hf))
       | clear_value x)
    | split
    | (with_reducible apply Within.upd_power; exact sub_le (by decide) hW)
    | (intro t; intros; (try beta_reduce))

theorem State.linksSleep_ok {W : Nat} {σ s : State} (hW : 0x400000010 ||| W = W) (h : Within W σ s) :
    Within W σ (State.linksSleep s) := by
  unfold State.linksSleep
  repeat' first
    | with_reducible assumption
    | (with_reducible apply State.setPower_ok; exact sub_le (by decide) hW)
    | with_reducible apply Within.ite
    | (extract_lets +onlyGivenNames x
       first
       | (refine Within.cut (W := W) (s := σ) x ?_ ?_; rotate_left; (clear_value x; intro hx))
       | (refine Within.cut (W := W) (s := σ) x.1 ?_ ?_; rotate_left; (clear_value x; intro hx))
       | (refine Within.cut (W := W) (s := σ) x.2 ?_ ?_; rotate_left; (clear_value x; intro hx))
       | (refine Within.cutF (W := W) (s := σ) x ?_ ?_; rotate_left; (clear_value x; intro hf))
       | clear_value x)
    | split
    | (with_reducible apply Within.upd_power; exact sub_le (by decide) hW)
    | (intro t; intros; (try beta_reduce))

theorem State.setCap_ok {W : Nat} {σ s : State} {a1 a2 : _} (hW : 0x2000040010 ||| W = W) (h : Within W σ s) :
    Within W σ (State.setCap s a1 a2) := by
  unfold State.setCap
  repeat' first
    | with_reducible assumption
    | (with_reducible apply State.showPower_ok; exact sub_le (by decide) hW)
    | (with_reducible apply State.setReg_ok; exact sub_le (by decide) hW)
    | (with_reducible apply State.busyDrop_ok; exact sub_le (by decide) hW)
    | with_reducible apply Within.ite
    | split
    | (intro t; intros; (try beta_reduce))

theorem State.capTighten_ok {W : Nat} {σ s : State} (hW : 0x4400000000 ||| W = W) (h : Within W σ s) :
    Within W σ (State.capTighten s) := by
  unfold State.capTighten
  repeat' first
    | with_reducible assumption
    | (with_reducible apply State.freshen_ok; exact sub_le (by decide) hW)
    | with_reducible apply Within.ite
    | (extract_lets +onlyGivenNames x
       first
       | (refine Within.cut (W := W) (s := σ) x ?_ ?_; rotate_left; (clear_value x; intro hx))
       | (refine Within.cut (W := W) (s := σ) x.1 ?_ ?_; rotate_left; (clear_value x; intro hx))
       | (refine Within.cut (W := W) (s := σ) x.2 ?_ ?_; rotate_left; (clear_value x; intro hx))
       | (refine Within.cutF (W := W) (s := σ) x ?_ ?_; rotate_left; (clear_value x; intro hf))
       | clear_value x)
    | split
    | (with_reducible apply Within.upd_power; exact sub_le (by decide) hW)
    | (intro t; intros; (try beta_reduce))
    | dsimp -zeta only [x]

theorem State.capRelease_ok {W : Nat} {σ s : State} (hW : 0x4400000000 ||| W = W) (h : Within W σ s) :
    Within W σ (State.capRelease s) := by
  unfold State.capRelease
  repeat' first
    | with_reducible assumption
    | (with_reducible apply State.freshen_ok; exact sub_le (by decide) hW)
    | with_reducible apply Within.ite
    | (extract_lets +onlyGivenNames x
       first
       | (refine Within.cut (W := W) (s := σ) x ?_ ?_; rotate_left; (clear_value x; intro hx))
       | (refine Within.cut (W := W) (s := σ) x.1 ?_ ?_; rotate_left; (clear_value x; intro hx))
       | (refine Within.cut (W := W) (s := σ) x.2 ?_ ?_; rotate_left; (clear_value x; intro hx))
       | (refine Within.cutF (W := W) (s := σ) x ?_ ?_; rotate_left; (clear_value x; intro hf))
       | clear_value x)
    | split
    | (with_reducible apply Within.upd_power; exact sub_le (by decide) hW)
    | (intro t; intros; (try beta_reduce))
    | dsimp -zeta only [x]

theorem State.capFloor_ok {W : Nat} {σ s : State} {a1 : _} (hW : 0x2000040010 ||| W = W) (h : Within W σ s) :
    Within W σ (State.capFloor s a1) := by
  unfold State.capFloor
  repeat' first
    | with_reducible assumption
    | (with_reducible apply State.setPower_ok; exact sub_le (by decide) hW)
    | (with_reducible apply State.pkgNotice_ok; exact sub_le (by decide) hW)
    | (with_reducible apply State.raisePage_ok; exact sub_le (by decide) hW)
    | with_reducible apply Within.ite
    | (extract_lets +onlyGivenNames x
       first
       | (refine Within.cut (W := W) (s := σ) x ?_ ?_; rotate_left; (clear_value x; intro hx))
       | (refine Within.cut (W := W) (s := σ) x.1 ?_ ?_; rotate_left; (clear_value x; intro hx))
       | (refine Within.cut (W := W) (s := σ) x.2 ?_ ?_; rotate_left; (clear_value x; intro hx))
       | (refine Within.cutF (W := W) (s := σ) x ?_ ?_; rotate_left; (clear_value x; intro hf))
       | clear_value x)
    | split
    | (intro t; intros; (try beta_reduce))
    | dsimp -zeta only [x]

theorem State.capTick_ok {W : Nat} {σ s : State} {a1 a2 : _} (hW : 0x6400040010 ||| W = W) (h : Within W σ s) :
    Within W σ (State.capTick s a1 a2) := by
  unfold State.capTick
  repeat' first
    | with_reducible assumption
    | (with_reducible apply State.capTighten_ok; exact sub_le (by decide) hW)
    | (with_reducible apply State.capRelease_ok; exact sub_le (by decide) hW)
    | (with_reducible apply State.showPower_ok; exact sub_le (by decide) hW)
    | (with_reducible apply State.capFloor_ok; exact sub_le (by decide) hW)
    | with_reducible apply Within.ite
    | (extract_lets +onlyGivenNames x
       first
       | (refine Within.cut (W := W) (s := σ) x ?_ ?_; rotate_left; (clear_value x; intro hx))
       | (refine Within.cut (W := W) (s := σ) x.1 ?_ ?_; rotate_left; (clear_value x; intro hx))
       | (refine Within.cut (W := W) (s := σ) x.2 ?_ ?_; rotate_left; (clear_value x; intro hx))
       | (refine Within.cutF (W := W) (s := σ) x ?_ ?_; rotate_left; (clear_value x; intro hf))
       | clear_value x)
    | split
    | (with_reducible apply Within.upd_power; exact sub_le (by decide) hW)
    | (intro t; intros; (try beta_reduce))
    | dsimp -zeta only [x]

theorem State.junctionRule_ok {W : Nat} {σ s : State} {a1 : _} (hW : 0x6400040010 ||| W = W) (h : Within W σ s) :
    Within W σ (State.junctionRule s a1) := by
  unfold State.junctionRule
  repeat' first
    | with_reducible assumption
    | (with_reducible apply State.freshen_ok; exact sub_le (by decide) hW)
    | (with_reducible apply State.pkgNotice_ok; exact sub_le (by decide) hW)
    | (with_reducible apply State.raisePage_ok; exact sub_le (by decide) hW)
    | with_reducible apply Within.ite
    | (extract_lets +onlyGivenNames x
       first
       | (refine Within.cut (W := W) (s := σ) x ?_ ?_; rotate_left; (clear_value x; intro hx))
       | (refine Within.cut (W := W) (s := σ) x.1 ?_ ?_; rotate_left; (clear_value x; intro hx))
       | (refine Within.cut (W := W) (s := σ) x.2 ?_ ?_; rotate_left; (clear_value x; intro hx))
       | (refine Within.cutF (W := W) (s := σ) x ?_ ?_; rotate_left; (clear_value x; intro hf))
       | clear_value x)
    | split
    | (with_reducible apply Within.upd_power; exact sub_le (by decide) hW)
    | (intro t; intros; (try beta_reduce))
    | dsimp -zeta only [x]

theorem State.stackRule_ok {W : Nat} {σ s : State} {a1 : _} (hW : 0x6400040010 ||| W = W) (h : Within W σ s) :
    Within W σ (State.stackRule s a1) := by
  unfold State.stackRule
  repeat' first
    | with_reducible assumption
    | (with_reducible apply State.freshen_ok; exact sub_le (by decide) hW)
    | (with_reducible apply State.pkgNotice_ok; exact sub_le (by decide) hW)
    | with_reducible apply Within.ite
    | (extract_lets +onlyGivenNames x
       first
       | (refine Within.cut (W := W) (s := σ) x ?_ ?_; rotate_left; (clear_value x; intro hx))
       | (refine Within.cut (W := W) (s := σ) x.1 ?_ ?_; rotate_left; (clear_value x; intro hx))
       | (refine Within.cut (W := W) (s := σ) x.2 ?_ ?_; rotate_left; (clear_value x; intro hx))
       | (refine Within.cutF (W := W) (s := σ) x ?_ ?_; rotate_left; (clear_value x; intro hf))
       | clear_value x)
    | split
    | (with_reducible apply Within.upd_power; exact sub_le (by decide) hW)
    | (intro t; intros; (try beta_reduce))
    | dsimp -zeta only [x]

theorem State.inletRule_ok {W : Nat} {σ s : State} {a1 : _} (hW : 0x2400040010 ||| W = W) (h : Within W σ s) :
    Within W σ (State.inletRule s a1) := by
  unfold State.inletRule
  repeat' first
    | with_reducible assumption
    | (with_reducible apply State.pkgNotice_ok; exact sub_le (by decide) hW)
    | with_reducible apply Within.ite
    | (extract_lets +onlyGivenNames x
       first
       | (refine Within.cut (W := W) (s := σ) x ?_ ?_; rotate_left; (clear_value x; intro hx))
       | (refine Within.cut (W := W) (s := σ) x.1 ?_ ?_; rotate_left; (clear_value x; intro hx))
       | (refine Within.cut (W := W) (s := σ) x.2 ?_ ?_; rotate_left; (clear_value x; intro hx))
       | (refine Within.cutF (W := W) (s := σ) x ?_ ?_; rotate_left; (clear_value x; intro hf))
       | clear_value x)
    | split
    | (with_reducible apply Within.upd_power; exact sub_le (by decide) hW)
    | (intro t; intros; (try beta_reduce))
    | dsimp -zeta only [x]

theorem State.flowRule_ok {W : Nat} {σ s : State} {a1 a2 : _} (hW : 0x2400040010 ||| W = W) (h : Within W σ s) :
    Within W σ (State.flowRule s a1 a2) := by
  unfold State.flowRule
  repeat' first
    | with_reducible assumption
    | (with_reducible apply State.pkgNotice_ok; exact sub_le (by decide) hW)
    | (with_reducible apply State.raisePage_ok; exact sub_le (by decide) hW)
    | with_reducible apply Within.ite
    | (extract_lets +onlyGivenNames x
       first
       | (refine Within.cut (W := W) (s := σ) x ?_ ?_; rotate_left; (clear_value x; intro hx))
       | (refine Within.cut (W := W) (s := σ) x.1 ?_ ?_; rotate_left; (clear_value x; intro hx))
       | (refine Within.cut (W := W) (s := σ) x.2 ?_ ?_; rotate_left; (clear_value x; intro hx))
       | (refine Within.cutF (W := W) (s := σ) x ?_ ?_; rotate_left; (clear_value x; intro hf))
       | clear_value x)
    | split
    | (with_reducible apply Within.upd_power; exact sub_le (by decide) hW)
    | (intro t; intros; (try beta_reduce))
    | dsimp -zeta only [x]

theorem State.showSample_ok {W : Nat} {σ s : State} {a1 : _} (hW : 0x400000010 ||| W = W) (h : Within W σ s) :
    Within W σ (State.showSample s a1) := by
  unfold State.showSample
  repeat' first
    | with_reducible assumption
    | (with_reducible apply State.setReg_ok; exact sub_le (by decide) hW)
    | (with_reducible apply State.setPower_ok; exact sub_le (by decide) hW)
    | with_reducible apply Within.ite
    | (with_reducible apply Within.fold; (intro t x ht; beta_reduce))
    | (with_reducible apply Within.fold1; (intro t x ht; beta_reduce))
    | (with_reducible apply Within.fold2; (intro t x ht; beta_reduce))
    | with_reducible apply Within.ite1
    | with_reducible apply Within.ite2
    | (extract_lets +onlyGivenNames x
       first
       | (refine Within.cut (W := W) (s := σ) x ?_ ?_; rotate_left; (clear_value x; intro hx))
       | (refine Within.cut (W := W) (s := σ) x.1 ?_ ?_; rotate_left; (clear_value x; intro hx))
       | (refine Within.cut (W := W) (s := σ) x.2 ?_ ?_; rotate_left; (clear_value x; intro hx))
       | (refine Within.cutF (W := W) (s := σ) x ?_ ?_; rotate_left; (clear_value x; intro hf))
       | clear_value x)
    | split
    | (with_reducible apply Within.upd_power; exact sub_le (by decide) hW)
    | (intro t; intros; (try beta_reduce))
    | dsimp -zeta only [x]

theorem State.sample_ok {W : Nat} {σ s : State} {a1 : _} (hW : 0x7ffffffbf8 ||| W = W) (h : Within W σ s) :
    Within W σ (State.sample s a1) := by
  unfold State.sample
  repeat' first
    | with_reducible assumption
    | (with_reducible apply State.showSample_ok; exact sub_le (by decide) hW)
    | (with_reducible apply State.enterAux_ok; exact sub_le (by decide) hW)
    | (with_reducible apply State.showPower_ok; exact sub_le (by decide) hW)
    | (with_reducible apply State.flowRule_ok; exact sub_le (by decide) hW)
    | (with_reducible apply State.inletRule_ok; exact sub_le (by decide) hW)
    | (with_reducible apply State.stackRule_ok; exact sub_le (by decide) hW)
    | (with_reducible apply State.junctionRule_ok; exact sub_le (by decide) hW)
    | with_reducible apply Within.ite
    | with_reducible apply Within.ite1
    | with_reducible apply Within.ite2
    | (extract_lets +onlyGivenNames x
       first
       | (refine Within.cut (W := W) (s := σ) x ?_ ?_; rotate_left; (clear_value x; intro hx))
       | (refine Within.cut (W := W) (s := σ) x.1 ?_ ?_; rotate_left; (clear_value x; intro hx))
       | (refine Within.cut (W := W) (s := σ) x.2 ?_ ?_; rotate_left; (clear_value x; intro hx))
       | (refine Within.cutF (W := W) (s := σ) x ?_ ?_; rotate_left; (clear_value x; intro hf))
       | clear_value x)
    | split
    | (intro t; intros; (try beta_reduce))
    | dsimp -zeta only [x]

theorem State.thermalRelease_ok {W : Nat} {σ s : State} (hW : 0x400000010 ||| W = W) (h : Within W σ s) :
    Within W σ (State.thermalRelease s) := by
  unfold State.thermalRelease
  repeat' first
    | with_reducible assumption
    | (with_reducible apply State.showPower_ok; exact sub_le (by decide) hW)
    | with_reducible apply Within.ite
    | (extract_lets +onlyGivenNames x
       first
       | (refine Within.cut (W := W) (s := σ) x ?_ ?_; rotate_left; (clear_value x; intro hx))
       | (refine Within.cut (W := W) (s := σ) x.1 ?_ ?_; rotate_left; (clear_value x; intro hx))
       | (refine Within.cut (W := W) (s := σ) x.2 ?_ ?_; rotate_left; (clear_value x; intro hx))
       | (refine Within.cutF (W := W) (s := σ) x ?_ ?_; rotate_left; (clear_value x; intro hf))
       | clear_value x)
    | split
    | (with_reducible apply Within.upd_power; exact sub_le (by decide) hW)
    | (intro t; intros; (try beta_reduce))
    | dsimp -zeta only [x]

theorem State.throttleEnd_ok {W : Nat} {σ s : State} (hW : 0x400000010 ||| W = W) (h : Within W σ s) :
    Within W σ (State.throttleEnd s) := by
  unfold State.throttleEnd
  repeat' first
    | with_reducible assumption
    | (with_reducible apply State.showPower_ok; exact sub_le (by decide) hW)
    | with_reducible apply Within.ite
    | (extract_lets +onlyGivenNames x
       first
       | (refine Within.cut (W := W) (s := σ) x ?_ ?_; rotate_left; (clear_value x; intro hx))
       | (refine Within.cut (W := W) (s := σ) x.1 ?_ ?_; rotate_left; (clear_value x; intro hx))
       | (refine Within.cut (W := W) (s := σ) x.2 ?_ ?_; rotate_left; (clear_value x; intro hx))
       | (refine Within.cutF (W := W) (s := σ) x ?_ ?_; rotate_left; (clear_value x; intro hf))
       | clear_value x)
    | split
    | (with_reducible apply Within.upd_power; exact sub_le (by decide) hW)
    | (intro t; intros; (try beta_reduce))

theorem State.leakOn_ok {W : Nat} {σ s : State} (hW : 0x7ffffffbf8 ||| W = W) (h : Within W σ s) :
    Within W σ (State.leakOn s) := by
  unfold State.leakOn
  repeat' first
    | with_reducible assumption
    | (with_reducible apply State.enterAux_ok; exact sub_le (by decide) hW)
    | (with_reducible apply State.showPower_ok; exact sub_le (by decide) hW)
    | with_reducible apply Within.ite
    | (extract_lets +onlyGivenNames x
       first
       | (refine Within.cut (W := W) (s := σ) x ?_ ?_; rotate_left; (clear_value x; intro hx))
       | (refine Within.cut (W := W) (s := σ) x.1 ?_ ?_; rotate_left; (clear_value x; intro hx))
       | (refine Within.cut (W := W) (s := σ) x.2 ?_ ?_; rotate_left; (clear_value x; intro hx))
       | (refine Within.cutF (W := W) (s := σ) x ?_ ?_; rotate_left; (clear_value x; intro hf))
       | clear_value x)
    | split
    | (with_reducible apply Within.upd_power; exact sub_le (by decide) hW)
    | (intro t; intros; (try beta_reduce))
    | dsimp -zeta only [x]

theorem State.leakOff_ok {W : Nat} {σ s : State} (hW : 0x400000010 ||| W = W) (h : Within W σ s) :
    Within W σ (State.leakOff s) := by
  unfold State.leakOff
  repeat' first
    | with_reducible assumption
    | (with_reducible apply State.showPower_ok; exact sub_le (by decide) hW)
    | with_reducible apply Within.ite
    | (extract_lets +onlyGivenNames x
       first
       | (refine Within.cut (W := W) (s := σ) x ?_ ?_; rotate_left; (clear_value x; intro hx))
       | (refine Within.cut (W := W) (s := σ) x.1 ?_ ?_; rotate_left; (clear_value x; intro hx))
       | (refine Within.cut (W := W) (s := σ) x.2 ?_ ?_; rotate_left; (clear_value x; intro hx))
       | (refine Within.cutF (W := W) (s := σ) x ?_ ?_; rotate_left; (clear_value x; intro hf))
       | clear_value x)
    | split
    | (with_reducible apply Within.upd_power; exact sub_le (by decide) hW)
    | (intro t; intros; (try beta_reduce))
    | dsimp -zeta only [x]

theorem State.inputRise_ok {W : Nat} {σ s : State} (hW : 0x500000010 ||| W = W) (h : Within W σ s) :
    Within W σ (State.inputRise s) := by
  unfold State.inputRise
  repeat' first
    | with_reducible assumption
    | (with_reducible apply State.tryBoot_ok; exact sub_le (by decide) hW)
    | with_reducible apply Within.ite
    | (extract_lets +onlyGivenNames x
       first
       | (refine Within.cut (W := W) (s := σ) x ?_ ?_; rotate_left; (clear_value x; intro hx))
       | (refine Within.cut (W := W) (s := σ) x.1 ?_ ?_; rotate_left; (clear_value x; intro hx))
       | (refine Within.cut (W := W) (s := σ) x.2 ?_ ?_; rotate_left; (clear_value x; intro hx))
       | (refine Within.cutF (W := W) (s := σ) x ?_ ?_; rotate_left; (clear_value x; intro hf))
       | clear_value x)
    | split
    | (with_reducible apply Within.upd_power; exact sub_le (by decide) hW)
    | (intro t; intros; (try beta_reduce))

theorem State.inputRange_ok {W : Nat} {σ s : State} (hW : 0x2000040010 ||| W = W) (h : Within W σ s) :
    Within W σ (State.inputRange s) := by
  unfold State.inputRange
  repeat' first
    | with_reducible assumption
    | (with_reducible apply State.pkgNotice_ok; exact sub_le (by decide) hW)
    | (with_reducible apply State.setPower_ok; exact sub_le (by decide) hW)
    | with_reducible apply Within.ite
    | split
    | (intro t; intros; (try beta_reduce))

theorem State.inputOff_ok {W : Nat} {σ s : State} (hW : 0x7ffffffbfa ||| W = W) (h : Within W σ s) :
    Within W σ (State.inputOff s) := by
  have k : Within W σ ({ s with power := { s.power with inputOn := false } } : State).mainOff :=
    State.mainOff_ok (sub_le (by decide) hW) (Within.upd_power (sub_le (by decide) hW) h)
  exact Within.upd_timeNow_regs_power (sub_le (by decide) hW) (fun _ => rfl) k

theorem State.feedChanged_ok {W : Nat} {σ s : State} {a1 : _} (hW : 0x2800040010 ||| W = W) (h : Within W σ s) :
    Within W σ (State.feedChanged s a1) := by
  unfold State.feedChanged
  repeat' first
    | with_reducible assumption
    | (with_reducible apply State.pkgNotice_ok; exact sub_le (by decide) hW)
    | (with_reducible apply State.raisePage_ok; exact sub_le (by decide) hW)
    | with_reducible apply Within.ite
    | (extract_lets +onlyGivenNames x
       first
       | (refine Within.cut (W := W) (s := σ) x ?_ ?_; rotate_left; (clear_value x; intro hx))
       | (refine Within.cut (W := W) (s := σ) x.1 ?_ ?_; rotate_left; (clear_value x; intro hx))
       | (refine Within.cut (W := W) (s := σ) x.2 ?_ ?_; rotate_left; (clear_value x; intro hx))
       | (refine Within.cutF (W := W) (s := σ) x ?_ ?_; rotate_left; (clear_value x; intro hf))
       | clear_value x)
    | split
    | (with_reducible apply Within.upd_sb; exact sub_le (by decide) hW)
    | (intro t; intros; (try beta_reduce))
    | dsimp -zeta only [x]

theorem State.refLost_ok {W : Nat} {σ s : State} (hW : 0x604567dd94 ||| W = W) (h : Within W σ s) :
    Within W σ (State.refLost s) := by
  unfold State.refLost
  repeat' first
    | with_reducible assumption
    | (with_reducible apply State.timeInvalid_ok; exact sub_le (by decide) hW)
    | (with_reducible apply State.raiseErr_ok; exact sub_le (by decide) hW)
    | with_reducible apply Within.ite
    | (extract_lets +onlyGivenNames x
       first
       | (refine Within.cut (W := W) (s := σ) x ?_ ?_; rotate_left; (clear_value x; intro hx))
       | (refine Within.cut (W := W) (s := σ) x.1 ?_ ?_; rotate_left; (clear_value x; intro hx))
       | (refine Within.cut (W := W) (s := σ) x.2 ?_ ?_; rotate_left; (clear_value x; intro hx))
       | (refine Within.cutF (W := W) (s := σ) x ?_ ?_; rotate_left; (clear_value x; intro hf))
       | clear_value x)
    | split
    | (with_reducible apply Within.upd_refPresent_timeX; exact sub_le (by decide) hW)
    | (intro t; intros; (try beta_reduce))
    | dsimp -zeta only [x]

theorem State.refReturn_ok {W : Nat} {σ s : State} (hW : 0x454000001c ||| W = W) (h : Within W σ s) :
    Within W σ (State.refReturn s) := by
  unfold State.refReturn
  repeat' first
    | with_reducible assumption
    | (with_reducible apply State.tryBoot_ok; exact sub_le (by decide) hW)
    | (with_reducible apply State.freshen_ok; exact sub_le (by decide) hW)
    | with_reducible apply Within.ite
    | (extract_lets +onlyGivenNames x
       first
       | (refine Within.cut (W := W) (s := σ) x ?_ ?_; rotate_left; (clear_value x; intro hx))
       | (refine Within.cut (W := W) (s := σ) x.1 ?_ ?_; rotate_left; (clear_value x; intro hx))
       | (refine Within.cut (W := W) (s := σ) x.2 ?_ ?_; rotate_left; (clear_value x; intro hx))
       | (refine Within.cutF (W := W) (s := σ) x ?_ ?_; rotate_left; (clear_value x; intro hf))
       | clear_value x)
    | split
    | (with_reducible apply Within.upd_holdover_timeX; exact sub_le (by decide) hW)
    | (with_reducible apply Within.upd_refPresent; exact sub_le (by decide) hW)
    | (intro t; intros; (try beta_reduce))
    | dsimp -zeta only [x]

theorem State.d2dFails_ok {W : Nat} {σ s : State} {a1 : _} (hW : 0x600567dd90 ||| W = W) (h : Within W σ s) :
    Within W σ (State.d2dFails s a1) := by
  unfold State.d2dFails
  repeat' first
    | with_reducible assumption
    | (with_reducible apply State.raiseErr_ok; exact sub_le (by decide) hW)
    | (with_reducible apply State.setReg_ok; exact sub_le (by decide) hW)
    | with_reducible apply Within.ite
    | split
    | (intro t; intros; (try beta_reduce))

theorem State.setStateEffecter_ok {W : Nat} {σ s : State} {a1 a2 : _} (hW : 0x7ffffffbf8 ||| W = W) (h : Within W σ s) :
    Within W σ (State.setStateEffecter s a1 a2) := by
  unfold State.setStateEffecter
  repeat' first
    | with_reducible assumption
    | (with_reducible apply State.pldm_ok; exact sub_le (by decide) hW)
    | (with_reducible apply State.say_ok; exact sub_le (by decide) hW)
    | (with_reducible apply State.park_ok; exact sub_le (by decide) hW)
    | (with_reducible apply State.unpark_ok; exact sub_le (by decide) hW)
    | (with_reducible apply State.enterAux_ok; exact sub_le (by decide) hW)
    | with_reducible apply Within.ite
    | (extract_lets +onlyGivenNames x
       first
       | (refine Within.cut (W := W) (s := σ) x ?_ ?_; rotate_left; (clear_value x; intro hx))
       | (refine Within.cut (W := W) (s := σ) x.1 ?_ ?_; rotate_left; (clear_value x; intro hx))
       | (refine Within.cut (W := W) (s := σ) x.2 ?_ ?_; rotate_left; (clear_value x; intro hx))
       | (refine Within.cutF (W := W) (s := σ) x ?_ ?_; rotate_left; (clear_value x; intro hf))
       | clear_value x)
    | split
    | (intro t; intros; (try beta_reduce))
    | dsimp -zeta only [x]

theorem State.setNumEffecter_ok {W : Nat} {σ s : State} {a1 a2 : _} (hW : 0x2000040010 ||| W = W) (h : Within W σ s) :
    Within W σ (State.setNumEffecter s a1 a2) := by
  unfold State.setNumEffecter
  repeat' first
    | with_reducible assumption
    | (with_reducible apply State.pldm_ok; exact sub_le (by decide) hW)
    | (with_reducible apply State.setCap_ok; exact sub_le (by decide) hW)
    | (with_reducible apply State.say_ok; exact sub_le (by decide) hW)
    | with_reducible apply Within.ite
    | split
    | (intro t; intros; (try beta_reduce))

theorem State.getNumEffecter_ok {W : Nat} {σ s : State} {a1 : _} (hW : 0x2000000010 ||| W = W) (h : Within W σ s) :
    Within W σ (State.getNumEffecter s a1) := by
  unfold State.getNumEffecter
  repeat' first
    | with_reducible assumption
    | (with_reducible apply State.pldm_ok; exact sub_le (by decide) hW)
    | (with_reducible apply State.say_ok; exact sub_le (by decide) hW)
    | with_reducible apply Within.ite
    | split
    | (intro t; intros; (try beta_reduce))

theorem State.budgetWindow_ok {W : Nat} {σ s : State} (hW : 0xdd90 ||| W = W) (h : Within W σ s) :
    Within W σ (State.budgetWindow s) := by
  unfold State.budgetWindow
  repeat' first
    | with_reducible assumption
    | (with_reducible apply State.poolGrant_ok; exact sub_le (by decide) hW)
    | with_reducible apply Within.ite
    | (with_reducible apply Within.fold; (intro t x ht; beta_reduce))
    | (with_reducible apply Within.fold1; (intro t x ht; beta_reduce))
    | (with_reducible apply Within.fold2; (intro t x ht; beta_reduce))
    | with_reducible apply Within.ite1
    | with_reducible apply Within.ite2
    | (extract_lets +onlyGivenNames x
       first
       | (refine Within.cut (W := W) (s := σ) x ?_ ?_; rotate_left; (clear_value x; intro hx))
       | (refine Within.cut (W := W) (s := σ) x.1 ?_ ?_; rotate_left; (clear_value x; intro hx))
       | (refine Within.cut (W := W) (s := σ) x.2 ?_ ?_; rotate_left; (clear_value x; intro hx))
       | (refine Within.cutF (W := W) (s := σ) x ?_ ?_; rotate_left; (clear_value x; intro hf))
       | clear_value x)
    | split
    | (with_reducible apply Within.upd_queues_parts_adm; exact sub_le (by decide) hW)
    | (intro t; intros; (try beta_reduce))
    | dsimp -zeta only [x]

theorem State.creditEnergy_ok {W : Nat} {σ s : State} {a1 a2 : _} (hW : 0x1010 ||| W = W) (h : Within W σ s) :
    Within W σ (State.creditEnergy s a1 a2) := by
  unfold State.creditEnergy
  repeat' first
    | with_reducible assumption
    | (with_reducible apply State.updPart_ok; exact sub_le (by decide) hW)
    | (with_reducible apply State.meter_ok; exact sub_le (by decide) hW)
    | (extract_lets +onlyGivenNames x
       first
       | (refine Within.cut (W := W) (s := σ) x ?_ ?_; rotate_left; (clear_value x; intro hx))
       | (refine Within.cut (W := W) (s := σ) x.1 ?_ ?_; rotate_left; (clear_value x; intro hx))
       | (refine Within.cut (W := W) (s := σ) x.2 ?_ ?_; rotate_left; (clear_value x; intro hx))
       | (refine Within.cutF (W := W) (s := σ) x ?_ ?_; rotate_left; (clear_value x; intro hf))
       | clear_value x)
    | (intro t; intros; (try beta_reduce))
    | dsimp -zeta only [x]

theorem State.attribute_ok {W : Nat} {σ s : State} {a1 : _} (hW : 0x4000009010 ||| W = W) (h : Within W σ s) :
    Within W σ (State.attribute s a1) := by
  unfold State.attribute
  repeat' first
    | with_reducible assumption
    | (with_reducible apply State.bump_ok; exact sub_le (by decide) hW)
    | (with_reducible apply State.creditEnergy_ok; exact sub_le (by decide) hW)
    | with_reducible apply Within.ite
    | (with_reducible apply Within.fold; (intro t x ht; beta_reduce))
    | (with_reducible apply Within.fold1; (intro t x ht; beta_reduce))
    | (with_reducible apply Within.fold2; (intro t x ht; beta_reduce))
    | with_reducible apply Within.ite1
    | with_reducible apply Within.ite2
    | (extract_lets +onlyGivenNames x
       first
       | (refine Within.cut (W := W) (s := σ) x ?_ ?_; rotate_left; (clear_value x; intro hx))
       | (refine Within.cut (W := W) (s := σ) x.1 ?_ ?_; rotate_left; (clear_value x; intro hx))
       | (refine Within.cut (W := W) (s := σ) x.2 ?_ ?_; rotate_left; (clear_value x; intro hx))
       | (refine Within.cutF (W := W) (s := σ) x ?_ ?_; rotate_left; (clear_value x; intro hf))
       | clear_value x)
    | split
    | (with_reducible apply Within.upd_adm; exact sub_le (by decide) hW)
    | (with_reducible apply Within.upd_adm_fresh; exact sub_le (by decide) hW)
    | (intro t; intros; (try beta_reduce))
    | dsimp -zeta only [x]

theorem State.bandwidth_ok {W : Nat} {σ s : State} (hW : 0x0 ||| W = W) (h : Within W σ s) :
    Within W σ (State.bandwidth s) := by
  unfold State.bandwidth
  repeat' first
    | with_reducible assumption
    | (intro t; intros; (try beta_reduce))

end Sys2Proof.Machine
end

