-- ==== Sys2Proof/Laws/FDebug.lean ====
section
/-! SUPPORT. What each operation of Debug.lean can change, and that it keeps the tables in canonical form. -/

set_option linter.all false

namespace Sys2Proof.Machine

theorem State.itraceSync_ok {W : Nat} {σ s : State} {a1 a2 : _} (hW : 0x80000590 ||| W = W) (h : Within W σ s) :
    Within W σ (State.itraceSync s a1 a2) := by
  unfold State.itraceSync
  repeat' first
    | with_reducible assumption
    | (with_reducible apply State.bump_ok; exact sub_le (by decide) hW)
    | (with_reducible apply State.updDbg_ok; exact sub_le (by decide) hW)
    | (with_reducible apply State.tracePut_ok; exact sub_le (by decide) hW)
    | with_reducible apply Within.ite
    | (extract_lets +onlyGivenNames x
       first
       | (refine Within.cut (W := W) (s := σ) x ?_ ?_; rotate_left; (clear_value x; intro hx))
       | (refine Within.cut (W := W) (s := σ) x.1 ?_ ?_; rotate_left; (clear_value x; intro hx))
       | (refine Within.cut (W := W) (s := σ) x.2 ?_ ?_; rotate_left; (clear_value x; intro hx))
       | (refine Within.cutF (W := W) (s := σ) x ?_ ?_; rotate_left; (clear_value x; intro hf))
       | clear_value x)
    | split
    | (intro t; intros; (try beta_reduce))
    | dsimp -zeta only [x]

theorem State.runAllBars_ok {W : Nat} {σ s : State} (hW : 0x608567fdb0 ||| W = W) (h : Within W σ s) :
    Within W σ (State.runAllBars s) := by
  unfold State.runAllBars
  repeat' first
    | with_reducible assumption
    | (with_reducible apply State.runBars_ok; exact sub_le (by decide) hW)
    | (with_reducible apply Within.fold; (intro t x ht; beta_reduce))
    | (with_reducible apply Within.fold1; (intro t x ht; beta_reduce))
    | (with_reducible apply Within.fold2; (intro t x ht; beta_reduce))
    | (intro t; intros; (try beta_reduce))

theorem State.haltReq_ok {W : Nat} {σ s : State} {a1 : _} (hW : 0x4080000010 ||| W = W) (h : Within W σ s) :
    Within W σ (State.haltReq s a1) := by
  unfold State.haltReq
  repeat' first
    | with_reducible assumption
    | (with_reducible apply State.haltCore_ok; exact sub_le (by decide) hW)
    | (intro t; intros; (try beta_reduce))

theorem State.drained_ok {W : Nat} {σ s : State} {a1 : _} (hW : 0x80000010 ||| W = W) (h : Within W σ s) :
    Within W σ (State.drained s a1) := by
  unfold State.drained
  repeat' first
    | with_reducible assumption
    | (with_reducible apply State.setDbg_ok; exact sub_le (by decide) hW)
    | (with_reducible apply State.progress_ok; exact sub_le (by decide) hW)
    | (with_reducible apply State.setFld_ok; exact sub_le (by decide) hW)
    | with_reducible apply Within.ite
    | (extract_lets +onlyGivenNames x
       first
       | (refine Within.cut (W := W) (s := σ) x ?_ ?_; rotate_left; (clear_value x; intro hx))
       | (refine Within.cut (W := W) (s := σ) x.1 ?_ ?_; rotate_left; (clear_value x; intro hx))
       | (refine Within.cut (W := W) (s := σ) x.2 ?_ ?_; rotate_left; (clear_value x; intro hx))
       | (refine Within.cutF (W := W) (s := σ) x ?_ ?_; rotate_left; (clear_value x; intro hf))
       | clear_value x)
    | split
    | (intro t; intros; (try beta_reduce))
    | dsimp -zeta only [x]

theorem State.haltRecord_ok {W : Nat} {σ s : State} {a1 : _} (hW : 0x590 ||| W = W) (h : Within W σ s) :
    Within W σ (State.haltRecord s a1) := by
  unfold State.haltRecord
  repeat' first
    | with_reducible assumption
    | (with_reducible apply State.traceHalt_ok; exact sub_le (by decide) hW)
    | (intro t; intros; (try beta_reduce))

theorem State.resume_ok {W : Nat} {σ s : State} {a1 : _} (hW : 0x608567fdb0 ||| W = W) (h : Within W σ s) :
    Within W σ (State.resume s a1) := by
  unfold State.resume
  repeat' first
    | with_reducible assumption
    | (with_reducible apply State.haltRecord_ok; exact sub_le (by decide) hW)
    | (with_reducible apply State.setDbg_ok; exact sub_le (by decide) hW)
    | (with_reducible apply State.runAllBars_ok; exact sub_le (by decide) hW)
    | (with_reducible apply State.itraceSync_ok; exact sub_le (by decide) hW)
    | (with_reducible apply State.setFld_ok; exact sub_le (by decide) hW)
    | with_reducible apply Within.ite
    | (extract_lets +onlyGivenNames x
       first
       | (refine Within.cut (W := W) (s := σ) x ?_ ?_; rotate_left; (clear_value x; intro hx))
       | (refine Within.cut (W := W) (s := σ) x.1 ?_ ?_; rotate_left; (clear_value x; intro hx))
       | (refine Within.cut (W := W) (s := σ) x.2 ?_ ?_; rotate_left; (clear_value x; intro hx))
       | (refine Within.cutF (W := W) (s := σ) x ?_ ?_; rotate_left; (clear_value x; intro hf))
       | clear_value x)
    | split
    | (intro t; intros; (try beta_reduce))
    | dsimp -zeta only [x]

theorem State.stepCore_ok {W : Nat} {σ s : State} {a1 : _} (hW : 0x4080000590 ||| W = W) (h : Within W σ s) :
    Within W σ (State.stepCore s a1) := by
  unfold State.stepCore
  repeat' first
    | with_reducible assumption
    | (with_reducible apply State.haltRecord_ok; exact sub_le (by decide) hW)
    | (with_reducible apply State.setDbg_ok; exact sub_le (by decide) hW)
    | (with_reducible apply State.freshen_ok; exact sub_le (by decide) hW)
    | (with_reducible apply State.setFld_ok; exact sub_le (by decide) hW)
    | (with_reducible apply State.setReg_ok; exact sub_le (by decide) hW)
    | (with_reducible apply State.itraceSync_ok; exact sub_le (by decide) hW)
    | (with_reducible apply State.bump_ok; exact sub_le (by decide) hW)
    | with_reducible apply Within.ite
    | (extract_lets +onlyGivenNames x
       first
       | (refine Within.cut (W := W) (s := σ) x ?_ ?_; rotate_left; (clear_value x; intro hx))
       | (refine Within.cut (W := W) (s := σ) x.1 ?_ ?_; rotate_left; (clear_value x; intro hx))
       | (refine Within.cut (W := W) (s := σ) x.2 ?_ ?_; rotate_left; (clear_value x; intro hx))
       | (refine Within.cutF (W := W) (s := σ) x ?_ ?_; rotate_left; (clear_value x; intro hf))
       | clear_value x)
    | split
    | (intro t; intros; (try beta_reduce))
    | dsimp -zeta only [x]

theorem State.islBit_ok {W : Nat} {σ s : State} {a1 a2 a3 a4 : _} (hW : 0x80002590 ||| W = W) (h : Within W σ s) :
    Within W σ (State.islBit s a1 a2 a3 a4) := by
  unfold State.islBit
  repeat' first
    | with_reducible assumption
    | (with_reducible apply State.updDbg_ok; exact sub_le (by decide) hW)
    | (with_reducible apply State.traceHalt_ok; exact sub_le (by decide) hW)
    | (with_reducible apply State.updCore_ok; exact sub_le (by decide) hW)
    | with_reducible apply Within.ite
    | (extract_lets +onlyGivenNames x
       first
       | (refine Within.cut (W := W) (s := σ) x ?_ ?_; rotate_left; (clear_value x; intro hx))
       | (refine Within.cut (W := W) (s := σ) x.1 ?_ ?_; rotate_left; (clear_value x; intro hx))
       | (refine Within.cut (W := W) (s := σ) x.2 ?_ ?_; rotate_left; (clear_value x; intro hx))
       | (refine Within.cutF (W := W) (s := σ) x ?_ ?_; rotate_left; (clear_value x; intro hf))
       | clear_value x)
    | split
    | (intro t; intros; (try beta_reduce))
    | dsimp -zeta only [x]

theorem State.islWrite_ok {W : Nat} {σ s : State} {a1 a2 : _} (hW : 0x608567fdb0 ||| W = W) (h : Within W σ s) :
    Within W σ (State.islWrite s a1 a2) := by
  unfold State.islWrite
  repeat' first
    | with_reducible assumption
    | (with_reducible apply State.setReg_ok; exact sub_le (by decide) hW)
    | (with_reducible apply State.runAllBars_ok; exact sub_le (by decide) hW)
    | (with_reducible apply State.islBit_ok; exact sub_le (by decide) hW)
    | (with_reducible apply Within.fold; (intro t x ht; beta_reduce))
    | (with_reducible apply Within.fold1; (intro t x ht; beta_reduce))
    | (with_reducible apply Within.fold2; (intro t x ht; beta_reduce))
    | (extract_lets +onlyGivenNames x
       first
       | (refine Within.cut (W := W) (s := σ) x ?_ ?_; rotate_left; (clear_value x; intro hx))
       | (refine Within.cut (W := W) (s := σ) x.1 ?_ ?_; rotate_left; (clear_value x; intro hx))
       | (refine Within.cut (W := W) (s := σ) x.2 ?_ ?_; rotate_left; (clear_value x; intro hx))
       | (refine Within.cutF (W := W) (s := σ) x ?_ ?_; rotate_left; (clear_value x; intro hf))
       | clear_value x)
    | (intro t; intros; (try beta_reduce))
    | dsimp -zeta only [x]

theorem State.sendNotice_ok {W : Nat} {σ s : State} {a1 : _} (hW : 0x601d200010 ||| W = W) (h : Within W σ s) :
    Within W σ (State.sendNotice s a1) := by
  unfold State.sendNotice
  repeat' first
    | with_reducible assumption
    | (with_reducible apply State.ctrlMsg_ok; exact sub_le (by decide) hW)
    | (with_reducible apply State.takeNotice_ok; exact sub_le (by decide) hW)
    | (with_reducible apply Within.fold; (intro t x ht; beta_reduce))
    | (with_reducible apply Within.fold1; (intro t x ht; beta_reduce))
    | (with_reducible apply Within.fold2; (intro t x ht; beta_reduce))
    | with_reducible apply Within.ite1
    | with_reducible apply Within.ite2
    | (extract_lets +onlyGivenNames x
       first
       | (refine Within.cut (W := W) (s := σ) x ?_ ?_; rotate_left; (clear_value x; intro hx))
       | (refine Within.cut (W := W) (s := σ) x.1 ?_ ?_; rotate_left; (clear_value x; intro hx))
       | (refine Within.cut (W := W) (s := σ) x.2 ?_ ?_; rotate_left; (clear_value x; intro hx))
       | (refine Within.cutF (W := W) (s := σ) x ?_ ?_; rotate_left; (clear_value x; intro hf))
       | clear_value x)
    | (with_reducible apply Within.upd_noticeSeq; exact sub_le (by decide) hW)
    | (intro t; intros; (try beta_reduce))
    | dsimp -zeta only [x]

theorem State.noticeTick_ok {W : Nat} {σ s : State} (hW : 0x603d200010 ||| W = W) (h : Within W σ s) :
    Within W σ (State.noticeTick s) := by
  unfold State.noticeTick
  repeat' first
    | with_reducible assumption
    | (with_reducible apply State.sendNotice_ok; exact sub_le (by decide) hW)
    | with_reducible apply Within.ite
    | (with_reducible apply Within.fold; (intro t x ht; beta_reduce))
    | (with_reducible apply Within.fold1; (intro t x ht; beta_reduce))
    | (with_reducible apply Within.fold2; (intro t x ht; beta_reduce))
    | (extract_lets +onlyGivenNames x
       first
       | (refine Within.cut (W := W) (s := σ) x ?_ ?_; rotate_left; (clear_value x; intro hx))
       | (refine Within.cut (W := W) (s := σ) x.1 ?_ ?_; rotate_left; (clear_value x; intro hx))
       | (refine Within.cut (W := W) (s := σ) x.2 ?_ ?_; rotate_left; (clear_value x; intro hx))
       | (refine Within.cutF (W := W) (s := σ) x ?_ ?_; rotate_left; (clear_value x; intro hf))
       | clear_value x)
    | split
    | (with_reducible apply Within.upd_noticeT; exact sub_le (by decide) hW)
    | (intro t; intros; (try beta_reduce))
    | dsimp -zeta only [x]

end Sys2Proof.Machine
end

