-- ==== Sys2Proof/Laws/FFirmware.lean ====
section
/-! SUPPORT. What each operation of Firmware.lean can change, and that it keeps the tables in canonical form. -/

set_option linter.all false

namespace Sys2Proof.Machine

theorem State.setFwState_ok {W : Nat} {σ s : State} {a1 : _} (hW : 0x10 ||| W = W) (h : Within W σ s) :
    Within W σ (State.setFwState s a1) := by
  unfold State.setFwState
  repeat' first
    | with_reducible assumption
    | (with_reducible apply State.setFld_ok; exact sub_le (by decide) hW)
    | (intro t; intros; (try beta_reduce))

theorem State.fwErr_ok {W : Nat} {σ s : State} {a1 : _} (hW : 0x2000040010 ||| W = W) (h : Within W σ s) :
    Within W σ (State.fwErr s a1) := by
  unfold State.fwErr
  repeat' first
    | with_reducible assumption
    | (with_reducible apply State.pkgNotice_ok; exact sub_le (by decide) hW)
    | (with_reducible apply State.raisePage_ok; exact sub_le (by decide) hW)
    | (with_reducible apply State.setFld_ok; exact sub_le (by decide) hW)
    | (intro t; intros; (try beta_reduce))

theorem State.fwFail_ok {W : Nat} {σ s : State} {a1 : _} (hW : 0x2200040010 ||| W = W) (h : Within W σ s) :
    Within W σ (State.fwFail s a1) := by
  unfold State.fwFail
  repeat' first
    | with_reducible assumption
    | (with_reducible apply State.fwErr_ok; exact sub_le (by decide) hW)
    | (with_reducible apply State.setFwState_ok; exact sub_le (by decide) hW)
    | with_reducible apply Within.ite
    | (extract_lets +onlyGivenNames x
       first
       | (refine Within.cut (W := W) (s := σ) x ?_ ?_; rotate_left; (clear_value x; intro hx))
       | (refine Within.cut (W := W) (s := σ) x.1 ?_ ?_; rotate_left; (clear_value x; intro hx))
       | (refine Within.cut (W := W) (s := σ) x.2 ?_ ?_; rotate_left; (clear_value x; intro hx))
       | (refine Within.cutF (W := W) (s := σ) x ?_ ?_; rotate_left; (clear_value x; intro hf))
       | clear_value x)
    | split
    | (with_reducible apply Within.upd_fw; exact sub_le (by decide) hW)
    | (intro t; intros; (try beta_reduce))

theorem State.fwStart_ok {W : Nat} {σ s : State} {a1 : _} (hW : 0x2200040010 ||| W = W) (h : Within W σ s) :
    Within W σ (State.fwStart s a1) := by
  unfold State.fwStart
  repeat' first
    | with_reducible assumption
    | (with_reducible apply State.fwErr_ok; exact sub_le (by decide) hW)
    | (with_reducible apply State.setFld_ok; exact sub_le (by decide) hW)
    | (with_reducible apply State.setFwState_ok; exact sub_le (by decide) hW)
    | (with_reducible apply State.progress_ok; exact sub_le (by decide) hW)
    | (with_reducible apply State.bump_ok; exact sub_le (by decide) hW)
    | with_reducible apply Within.ite
    | (extract_lets +onlyGivenNames x
       first
       | (refine Within.cut (W := W) (s := σ) x ?_ ?_; rotate_left; (clear_value x; intro hx))
       | (refine Within.cut (W := W) (s := σ) x.1 ?_ ?_; rotate_left; (clear_value x; intro hx))
       | (refine Within.cut (W := W) (s := σ) x.2 ?_ ?_; rotate_left; (clear_value x; intro hx))
       | (refine Within.cutF (W := W) (s := σ) x ?_ ?_; rotate_left; (clear_value x; intro hf))
       | clear_value x)
    | split
    | (with_reducible apply Within.upd_fw; exact sub_le (by decide) hW)
    | (intro t; intros; (try beta_reduce))
    | dsimp -zeta only [x]

theorem State.fwCancel_ok {W : Nat} {σ s : State} (hW : 0x2200040010 ||| W = W) (h : Within W σ s) :
    Within W σ (State.fwCancel s) := by
  unfold State.fwCancel
  repeat' first
    | with_reducible assumption
    | (with_reducible apply State.fwFail_ok; exact sub_le (by decide) hW)
    | with_reducible apply Within.ite
    | split
    | (intro t; intros; (try beta_reduce))

theorem State.fwChecked_ok {W : Nat} {σ s : State} (hW : 0x2200040210 ||| W = W) (h : Within W σ s) :
    Within W σ (State.fwChecked s) := by
  unfold State.fwChecked
  repeat' first
    | with_reducible assumption
    | (with_reducible apply State.progress_ok; exact sub_le (by decide) hW)
    | (with_reducible apply State.flashErase_ok; exact sub_le (by decide) hW)
    | (with_reducible apply State.setFld_ok; exact sub_le (by decide) hW)
    | (with_reducible apply State.setFwState_ok; exact sub_le (by decide) hW)
    | (with_reducible apply State.fwFail_ok; exact sub_le (by decide) hW)
    | with_reducible apply Within.ite
    | split
    | (intro t; intros; (try beta_reduce))

theorem State.fwActivate_ok {W : Nat} {σ s : State} (hW : 0x200001010 ||| W = W) (h : Within W σ s) :
    Within W σ (State.fwActivate s) := by
  unfold State.fwActivate
  repeat' first
    | with_reducible assumption
    | (with_reducible apply State.progress_ok; exact sub_le (by decide) hW)
    | (with_reducible apply State.setReg_ok; exact sub_le (by decide) hW)
    | (with_reducible apply State.updPart_ok; exact sub_le (by decide) hW)
    | (with_reducible apply Within.fold; (intro t x ht; beta_reduce))
    | (with_reducible apply Within.fold1; (intro t x ht; beta_reduce))
    | (with_reducible apply Within.fold2; (intro t x ht; beta_reduce))
    | (extract_lets +onlyGivenNames x
       first
       | (refine Within.cut (W := W) (s := σ) x ?_ ?_; rotate_left; (clear_value x; intro hx))
       | (refine Within.cut (W := W) (s := σ) x.1 ?_ ?_; rotate_left; (clear_value x; intro hx))
       | (refine Within.cut (W := W) (s := σ) x.2 ?_ ?_; rotate_left; (clear_value x; intro hx))
       | (refine Within.cutF (W := W) (s := σ) x ?_ ?_; rotate_left; (clear_value x; intro hf))
       | clear_value x)
    | (with_reducible apply Within.upd_fw; exact sub_le (by decide) hW)
    | (intro t; intros; (try beta_reduce))
    | dsimp -zeta only [x]

theorem State.fwWritten_ok {W : Nat} {σ s : State} {a1 : _} (hW : 0x6300041210 ||| W = W) (h : Within W σ s) :
    Within W σ (State.fwWritten s a1) := by
  unfold State.fwWritten
  repeat' first
    | with_reducible assumption
    | (with_reducible apply State.measured_ok; exact sub_le (by decide) hW)
    | (with_reducible apply State.flashWrite_ok; exact sub_le (by decide) hW)
    | (with_reducible apply State.flashErase_ok; exact sub_le (by decide) hW)
    | (with_reducible apply State.setFld_ok; exact sub_le (by decide) hW)
    | (with_reducible apply State.setFwState_ok; exact sub_le (by decide) hW)
    | (with_reducible apply State.setReg_ok; exact sub_le (by decide) hW)
    | (with_reducible apply State.fwActivate_ok; exact sub_le (by decide) hW)
    | (with_reducible apply State.fwFail_ok; exact sub_le (by decide) hW)
    | with_reducible apply Within.ite
    | (extract_lets +onlyGivenNames x
       first
       | (refine Within.cut (W := W) (s := σ) x ?_ ?_; rotate_left; (clear_value x; intro hx))
       | (refine Within.cut (W := W) (s := σ) x.1 ?_ ?_; rotate_left; (clear_value x; intro hx))
       | (refine Within.cut (W := W) (s := σ) x.2 ?_ ?_; rotate_left; (clear_value x; intro hx))
       | (refine Within.cutF (W := W) (s := σ) x ?_ ?_; rotate_left; (clear_value x; intro hf))
       | clear_value x)
    | split
    | (with_reducible apply Within.upd_fresh; exact sub_le (by decide) hW)
    | (with_reducible apply Within.upd_fw; exact sub_le (by decide) hW)
    | (intro t; intros; (try beta_reduce))
    | dsimp -zeta only [x]

theorem State.fwMove_ok {W : Nat} {σ s : State} {a1 : _} (hW : 0x1010 ||| W = W) (h : Within W σ s) :
    Within W σ (State.fwMove s a1) := by
  unfold State.fwMove
  repeat' first
    | with_reducible assumption
    | (with_reducible apply State.updPart_ok; exact sub_le (by decide) hW)
    | (with_reducible apply State.bump_ok; exact sub_le (by decide) hW)
    | (with_reducible apply State.fwSettle_ok; exact sub_le (by decide) hW)
    | with_reducible apply Within.ite
    | (extract_lets +onlyGivenNames x
       first
       | (refine Within.cut (W := W) (s := σ) x ?_ ?_; rotate_left; (clear_value x; intro hx))
       | (refine Within.cut (W := W) (s := σ) x.1 ?_ ?_; rotate_left; (clear_value x; intro hx))
       | (refine Within.cut (W := W) (s := σ) x.2 ?_ ?_; rotate_left; (clear_value x; intro hx))
       | (refine Within.cutF (W := W) (s := σ) x ?_ ?_; rotate_left; (clear_value x; intro hf))
       | clear_value x)
    | split
    | (intro t; intros; (try beta_reduce))
    | dsimp -zeta only [x]

theorem State.recoverWrite_ok {W : Nat} {σ s : State} {a1 a2 : _} (hW : 0x100000210 ||| W = W) (h : Within W σ s) :
    Within W σ (State.recoverWrite s a1 a2) := by
  unfold State.recoverWrite
  repeat' first
    | with_reducible assumption
    | (with_reducible apply State.flashErase_ok; exact sub_le (by decide) hW)
    | (with_reducible apply State.progress_ok; exact sub_le (by decide) hW)
    | (with_reducible apply State.flashWrite_ok; exact sub_le (by decide) hW)
    | with_reducible apply Within.ite
    | (extract_lets +onlyGivenNames x
       first
       | (refine Within.cut (W := W) (s := σ) x ?_ ?_; rotate_left; (clear_value x; intro hx))
       | (refine Within.cut (W := W) (s := σ) x.1 ?_ ?_; rotate_left; (clear_value x; intro hx))
       | (refine Within.cut (W := W) (s := σ) x.2 ?_ ?_; rotate_left; (clear_value x; intro hx))
       | (refine Within.cutF (W := W) (s := σ) x ?_ ?_; rotate_left; (clear_value x; intro hf))
       | clear_value x)
    | split
    | (with_reducible apply Within.upd_boot; exact sub_le (by decide) hW)
    | (intro t; intros; (try beta_reduce))
    | dsimp -zeta only [x]

theorem State.recoverEnd_ok {W : Nat} {σ s : State} (hW : 0x500000010 ||| W = W) (h : Within W σ s) :
    Within W σ (State.recoverEnd s).2 := by
  unfold State.recoverEnd
  repeat' first
    | with_reducible assumption
    | (with_reducible apply State.bump_ok; exact sub_le (by decide) hW)
    | (with_reducible apply State.measured_ok; exact sub_le (by decide) hW)
    | (with_reducible apply State.bootPhase_ok; exact sub_le (by decide) hW)
    | (with_reducible apply State.setReg_ok; exact sub_le (by decide) hW)
    | with_reducible apply Within.ite
    | with_reducible apply Within.ite1
    | with_reducible apply Within.ite2
    | (extract_lets +onlyGivenNames x
       first
       | (refine Within.cut (W := W) (s := σ) x ?_ ?_; rotate_left; (clear_value x; intro hx))
       | (refine Within.cut (W := W) (s := σ) x.1 ?_ ?_; rotate_left; (clear_value x; intro hx))
       | (refine Within.cut (W := W) (s := σ) x.2 ?_ ?_; rotate_left; (clear_value x; intro hx))
       | (refine Within.cutF (W := W) (s := σ) x ?_ ?_; rotate_left; (clear_value x; intro hf))
       | clear_value x)
    | split
    | (with_reducible apply Within.upd_boot; exact sub_le (by decide) hW)
    | (intro t; intros; (try beta_reduce))
    | dsimp -zeta only [x]

theorem State.imagePush_ok {W : Nat} {σ s : State} {a1 a2 : _} (hW : 0x6500000210 ||| W = W) (h : Within W σ s) :
    Within W σ (State.imagePush s a1 a2) := by
  unfold State.imagePush
  repeat' first
    | with_reducible assumption
    | with_reducible apply hf
    | (with_reducible apply State.emit_ok; exact sub_le (by decide) hW)
    | (with_reducible apply State.recoverEnd_ok; exact sub_le (by decide) hW)
    | (with_reducible apply State.freshen_ok; exact sub_le (by decide) hW)
    | (with_reducible apply State.recoverWrite_ok; exact sub_le (by decide) hW)
    | with_reducible apply Within.ite
    | with_reducible apply Within.ite1
    | with_reducible apply Within.ite2
    | (extract_lets +onlyGivenNames x
       first
       | (refine Within.cut (W := W) (s := σ) x ?_ ?_; rotate_left; (clear_value x; intro hx))
       | (refine Within.cut (W := W) (s := σ) x.1 ?_ ?_; rotate_left; (clear_value x; intro hx))
       | (refine Within.cut (W := W) (s := σ) x.2 ?_ ?_; rotate_left; (clear_value x; intro hx))
       | (refine Within.cutF (W := W) (s := σ) x ?_ ?_; rotate_left; (clear_value x; intro hf))
       | clear_value x)
    | split
    | (intro t; intros; (try beta_reduce))
    | dsimp -zeta only [x]

theorem State.spdm_ok {W : Nat} {σ s : State} {a1 : _} (hW : 0x10 ||| W = W) (hk : ∀ t, Within W σ t → Within W σ (a1 t)) (h : Within W σ s) :
    Within W σ (State.spdm s a1) := by
  unfold State.spdm
  repeat' first
    | with_reducible assumption
    | with_reducible apply hk
    | (with_reducible apply State.bump_ok; exact sub_le (by decide) hW)
    | with_reducible apply Within.ite
    | split
    | (intro t; intros; (try beta_reduce))

theorem State.getCertificate_ok {W : Nat} {σ s : State} {a1 a2 a3 : _} (hW : 0x2000000010 ||| W = W) (h : Within W σ s) :
    Within W σ (State.getCertificate s a1 a2 a3) := by
  unfold State.getCertificate
  repeat' first
    | with_reducible assumption
    | (with_reducible apply State.spdm_ok; exact sub_le (by decide) hW)
    | (with_reducible apply State.emit_ok; exact sub_le (by decide) hW)
    | with_reducible apply Within.ite
    | split
    | (intro t; intros; (try beta_reduce))

theorem State.challenge_ok {W : Nat} {σ s : State} {a1 a2 : _} (hW : 0x2000000010 ||| W = W) (h : Within W σ s) :
    Within W σ (State.challenge s a1 a2) := by
  unfold State.challenge
  repeat' first
    | with_reducible assumption
    | (with_reducible apply State.spdm_ok; exact sub_le (by decide) hW)
    | (with_reducible apply State.emit_ok; exact sub_le (by decide) hW)
    | with_reducible apply Within.ite
    | split
    | (intro t; intros; (try beta_reduce))

theorem State.measurements_ok {W : Nat} {σ s : State} {a1 a2 a3 : _} (hW : 0x2000000010 ||| W = W) (h : Within W σ s) :
    Within W σ (State.measurements s a1 a2 a3) := by
  unfold State.measurements
  repeat' first
    | with_reducible assumption
    | (with_reducible apply State.spdm_ok; exact sub_le (by decide) hW)
    | (with_reducible apply State.emit_ok; exact sub_le (by decide) hW)
    | with_reducible apply Within.ite
    | (extract_lets +onlyGivenNames x
       first
       | (refine Within.cut (W := W) (s := σ) x ?_ ?_; rotate_left; (clear_value x; intro hx))
       | (refine Within.cut (W := W) (s := σ) x.1 ?_ ?_; rotate_left; (clear_value x; intro hx))
       | (refine Within.cut (W := W) (s := σ) x.2 ?_ ?_; rotate_left; (clear_value x; intro hx))
       | (refine Within.cutF (W := W) (s := σ) x ?_ ?_; rotate_left; (clear_value x; intro hf))
       | clear_value x)
    | split
    | (intro t; intros; (try beta_reduce))
    | dsimp -zeta only [x]

theorem State.setPldm_ok {W : Nat} {σ s : State} {a1 : _} (hW : 0x200000000 ||| W = W) (h : Within W σ s) :
    Within W σ (State.setPldm s a1) := by
  unfold State.setPldm
  repeat' first
    | with_reducible assumption
    | (extract_lets +onlyGivenNames x
       first
       | (refine Within.cut (W := W) (s := σ) x ?_ ?_; rotate_left; (clear_value x; intro hx))
       | (refine Within.cut (W := W) (s := σ) x.1 ?_ ?_; rotate_left; (clear_value x; intro hx))
       | (refine Within.cut (W := W) (s := σ) x.2 ?_ ?_; rotate_left; (clear_value x; intro hx))
       | (refine Within.cutF (W := W) (s := σ) x ?_ ?_; rotate_left; (clear_value x; intro hf))
       | clear_value x)
    | (with_reducible apply Within.upd_fw; exact sub_le (by decide) hW)
    | (intro t; intros; (try beta_reduce))

theorem State.queryIds_ok {W : Nat} {σ s : State} (hW : 0x2000000010 ||| W = W) (h : Within W σ s) :
    Within W σ (State.queryIds s) := by
  unfold State.queryIds
  repeat' first
    | with_reducible assumption
    | (with_reducible apply State.pldm_ok; exact sub_le (by decide) hW)
    | (with_reducible apply State.say_ok; exact sub_le (by decide) hW)
    | with_reducible apply Within.ite
    | split
    | (intro t; intros; (try beta_reduce))

theorem State.fwParams_ok {W : Nat} {σ s : State} (hW : 0x2000000010 ||| W = W) (h : Within W σ s) :
    Within W σ (State.fwParams s) := by
  unfold State.fwParams
  repeat' first
    | with_reducible assumption
    | (with_reducible apply State.pldm_ok; exact sub_le (by decide) hW)
    | (with_reducible apply State.say_ok; exact sub_le (by decide) hW)
    | (intro t; intros; (try beta_reduce))

theorem State.requestUpdate_ok {W : Nat} {σ s : State} (hW : 0x2200000010 ||| W = W) (h : Within W σ s) :
    Within W σ (State.requestUpdate s) := by
  unfold State.requestUpdate
  repeat' first
    | with_reducible assumption
    | (with_reducible apply State.pldm_ok; exact sub_le (by decide) hW)
    | (with_reducible apply State.say_ok; exact sub_le (by decide) hW)
    | (with_reducible apply State.setPldm_ok; exact sub_le (by decide) hW)
    | with_reducible apply Within.ite
    | split
    | (intro t; intros; (try beta_reduce))

theorem State.passTable_ok {W : Nat} {σ s : State} {a1 : _} (hW : 0x2200000010 ||| W = W) (h : Within W σ s) :
    Within W σ (State.passTable s a1) := by
  unfold State.passTable
  repeat' first
    | with_reducible assumption
    | (with_reducible apply State.pldm_ok; exact sub_le (by decide) hW)
    | (with_reducible apply State.say_ok; exact sub_le (by decide) hW)
    | (with_reducible apply State.setPldm_ok; exact sub_le (by decide) hW)
    | with_reducible apply Within.ite
    | split
    | (intro t; intros; (try beta_reduce))

theorem State.updateComponent_ok {W : Nat} {σ s : State} {a1 a2 : _} (hW : 0x2200000010 ||| W = W) (h : Within W σ s) :
    Within W σ (State.updateComponent s a1 a2) := by
  unfold State.updateComponent
  repeat' first
    | with_reducible assumption
    | (with_reducible apply State.pldm_ok; exact sub_le (by decide) hW)
    | (with_reducible apply State.say_ok; exact sub_le (by decide) hW)
    | with_reducible apply Within.ite
    | (extract_lets +onlyGivenNames x
       first
       | (refine Within.cut (W := W) (s := σ) x ?_ ?_; rotate_left; (clear_value x; intro hx))
       | (refine Within.cut (W := W) (s := σ) x.1 ?_ ?_; rotate_left; (clear_value x; intro hx))
       | (refine Within.cut (W := W) (s := σ) x.2 ?_ ?_; rotate_left; (clear_value x; intro hx))
       | (refine Within.cutF (W := W) (s := σ) x ?_ ?_; rotate_left; (clear_value x; intro hf))
       | clear_value x)
    | split
    | (with_reducible apply Within.upd_fw; exact sub_le (by decide) hW)
    | (intro t; intros; (try beta_reduce))
    | dsimp -zeta only [x]

theorem State.firmwareData_ok {W : Nat} {σ s : State} {a1 a2 : _} (hW : 0x2300000790 ||| W = W) (h : Within W σ s) :
    Within W σ (State.firmwareData s a1 a2) := by
  unfold State.firmwareData
  repeat' first
    | with_reducible assumption
    | (with_reducible apply State.pldm_ok; exact sub_le (by decide) hW)
    | (with_reducible apply State.recoverWrite_ok; exact sub_le (by decide) hW)
    | (with_reducible apply State.wrBytes_ok; exact sub_le (by decide) hW)
    | (with_reducible apply State.say_ok; exact sub_le (by decide) hW)
    | with_reducible apply Within.ite
    | (extract_lets +onlyGivenNames x
       first
       | (refine Within.cut (W := W) (s := σ) x ?_ ?_; rotate_left; (clear_value x; intro hx))
       | (refine Within.cut (W := W) (s := σ) x.1 ?_ ?_; rotate_left; (clear_value x; intro hx))
       | (refine Within.cut (W := W) (s := σ) x.2 ?_ ?_; rotate_left; (clear_value x; intro hx))
       | (refine Within.cutF (W := W) (s := σ) x ?_ ?_; rotate_left; (clear_value x; intro hf))
       | clear_value x)
    | split
    | (with_reducible apply Within.upd_fw; exact sub_le (by decide) hW)
    | (intro t; intros; (try beta_reduce))
    | dsimp -zeta only [x]

theorem State.transferComplete_ok {W : Nat} {σ s : State} (hW : 0x2700040010 ||| W = W) (h : Within W σ s) :
    Within W σ (State.transferComplete s) := by
  unfold State.transferComplete
  repeat' first
    | with_reducible assumption
    | (with_reducible apply State.pldm_ok; exact sub_le (by decide) hW)
    | (with_reducible apply State.say_ok; exact sub_le (by decide) hW)
    | (with_reducible apply State.recoverEnd_ok; exact sub_le (by decide) hW)
    | (with_reducible apply State.setPldm_ok; exact sub_le (by decide) hW)
    | (with_reducible apply State.fwStart_ok; exact sub_le (by decide) hW)
    | (with_reducible apply State.setReg_ok; exact sub_le (by decide) hW)
    | with_reducible apply Within.ite
    | with_reducible apply Within.ite1
    | with_reducible apply Within.ite2
    | (extract_lets +onlyGivenNames x
       first
       | (refine Within.cut (W := W) (s := σ) x ?_ ?_; rotate_left; (clear_value x; intro hx))
       | (refine Within.cut (W := W) (s := σ) x.1 ?_ ?_; rotate_left; (clear_value x; intro hx))
       | (refine Within.cut (W := W) (s := σ) x.2 ?_ ?_; rotate_left; (clear_value x; intro hx))
       | (refine Within.cutF (W := W) (s := σ) x ?_ ?_; rotate_left; (clear_value x; intro hf))
       | clear_value x)
    | split
    | (intro t; intros; (try beta_reduce))
    | dsimp -zeta only [x]

theorem State.verifyComplete_ok {W : Nat} {σ s : State} (hW : 0x2200000010 ||| W = W) (h : Within W σ s) :
    Within W σ (State.verifyComplete s) := by
  unfold State.verifyComplete
  repeat' first
    | with_reducible assumption
    | (with_reducible apply State.pldm_ok; exact sub_le (by decide) hW)
    | (with_reducible apply State.say_ok; exact sub_le (by decide) hW)
    | (with_reducible apply State.setPldm_ok; exact sub_le (by decide) hW)
    | with_reducible apply Within.ite
    | split
    | (intro t; intros; (try beta_reduce))

theorem State.applyComplete_ok {W : Nat} {σ s : State} (hW : 0x2700000210 ||| W = W) (h : Within W σ s) :
    Within W σ (State.applyComplete s) := by
  unfold State.applyComplete
  repeat' first
    | with_reducible assumption
    | (with_reducible apply State.pldm_ok; exact sub_le (by decide) hW)
    | (with_reducible apply State.say_ok; exact sub_le (by decide) hW)
    | (with_reducible apply State.setPldm_ok; exact sub_le (by decide) hW)
    | (with_reducible apply State.flashWrite_ok; exact sub_le (by decide) hW)
    | (with_reducible apply State.flashErase_ok; exact sub_le (by decide) hW)
    | (with_reducible apply State.bootPhase_ok; exact sub_le (by decide) hW)
    | with_reducible apply Within.ite
    | (extract_lets +onlyGivenNames x
       first
       | (refine Within.cut (W := W) (s := σ) x ?_ ?_; rotate_left; (clear_value x; intro hx))
       | (refine Within.cut (W := W) (s := σ) x.1 ?_ ?_; rotate_left; (clear_value x; intro hx))
       | (refine Within.cut (W := W) (s := σ) x.2 ?_ ?_; rotate_left; (clear_value x; intro hx))
       | (refine Within.cutF (W := W) (s := σ) x ?_ ?_; rotate_left; (clear_value x; intro hf))
       | clear_value x)
    | split
    | (intro t; intros; (try beta_reduce))
    | dsimp -zeta only [x]

theorem State.activate_ok {W : Nat} {σ s : State} (hW : 0x2200001010 ||| W = W) (h : Within W σ s) :
    Within W σ (State.activate s) := by
  unfold State.activate
  repeat' first
    | with_reducible assumption
    | (with_reducible apply State.pldm_ok; exact sub_le (by decide) hW)
    | (with_reducible apply State.say_ok; exact sub_le (by decide) hW)
    | (with_reducible apply State.fwActivate_ok; exact sub_le (by decide) hW)
    | (with_reducible apply State.setPldm_ok; exact sub_le (by decide) hW)
    | with_reducible apply Within.ite
    | (extract_lets +onlyGivenNames x
       first
       | (refine Within.cut (W := W) (s := σ) x ?_ ?_; rotate_left; (clear_value x; intro hx))
       | (refine Within.cut (W := W) (s := σ) x.1 ?_ ?_; rotate_left; (clear_value x; intro hx))
       | (refine Within.cut (W := W) (s := σ) x.2 ?_ ?_; rotate_left; (clear_value x; intro hx))
       | (refine Within.cutF (W := W) (s := σ) x ?_ ?_; rotate_left; (clear_value x; intro hf))
       | clear_value x)
    | split
    | (intro t; intros; (try beta_reduce))
    | dsimp -zeta only [x]

theorem State.fwStatus_ok {W : Nat} {σ s : State} (hW : 0x2000000010 ||| W = W) (h : Within W σ s) :
    Within W σ (State.fwStatus s) := by
  unfold State.fwStatus
  repeat' first
    | with_reducible assumption
    | (with_reducible apply State.pldm_ok; exact sub_le (by decide) hW)
    | (with_reducible apply State.say_ok; exact sub_le (by decide) hW)
    | (intro t; intros; (try beta_reduce))

theorem State.cancelPldm_ok {W : Nat} {σ s : State} {a1 a2 : _} (hW : 0x2300040010 ||| W = W) (h : Within W σ s) :
    Within W σ (State.cancelPldm s a1 a2) := by
  unfold State.cancelPldm
  repeat' first
    | with_reducible assumption
    | (with_reducible apply State.pldm_ok; exact sub_le (by decide) hW)
    | (with_reducible apply State.say_ok; exact sub_le (by decide) hW)
    | (with_reducible apply State.fwCancel_ok; exact sub_le (by decide) hW)
    | (with_reducible apply State.setPldm_ok; exact sub_le (by decide) hW)
    | with_reducible apply Within.ite
    | (extract_lets +onlyGivenNames x
       first
       | (refine Within.cut (W := W) (s := σ) x ?_ ?_; rotate_left; (clear_value x; intro hx))
       | (refine Within.cut (W := W) (s := σ) x.1 ?_ ?_; rotate_left; (clear_value x; intro hx))
       | (refine Within.cut (W := W) (s := σ) x.2 ?_ ?_; rotate_left; (clear_value x; intro hx))
       | (refine Within.cutF (W := W) (s := σ) x ?_ ?_; rotate_left; (clear_value x; intro hf))
       | clear_value x)
    | split
    | (with_reducible apply Within.upd_boot; exact sub_le (by decide) hW)
    | (intro t; intros; (try beta_reduce))
    | dsimp -zeta only [x]

end Sys2Proof.Machine
end

