-- ==== Sys2Proof/Laws/FAccess.lean ====
section
/-! SUPPORT. What each operation of Access.lean can change, and that it keeps the tables in canonical form. -/

set_option linter.all false

namespace Sys2Proof.Machine

theorem State.rejects_ok {W : Nat} {σ s t : State} {a1 a2 a3 a4 a5 : _} (hW : 0x608567dd90 ||| W = W) (h : Within W σ s)
    (ht : State.rejects s a1 a2 a3 a4 a5 = some t) : Within W σ t := by
  unfold State.rejects at ht
  dsimp only at ht
  split at ht
  all_goals repeat' split at ht
  all_goals first
    | (cases ht; done)
    | (have ht := Option.some.inj ht
       subst ht
       repeat' first
         | with_reducible assumption
         | (with_reducible apply State.busyDrop_ok; exact sub_le (by decide) hW)
         | (with_reducible apply State.notice_ok; exact sub_le (by decide) hW)
         | (with_reducible apply State.raisePage_ok; exact sub_le (by decide) hW)
         | (with_reducible apply State.violation_ok; exact sub_le (by decide) hW)
         | (with_reducible apply State.setCap_ok; exact sub_le (by decide) hW))

theorem State.stageEnt_ok {W : Nat} {σ s : State} {a1 a2 a3 : _} (hW : 0x20 ||| W = W) (h : Within W σ s) :
    Within W σ (State.stageEnt s a1 a2 a3) := by
  unfold State.stageEnt
  repeat' first
    | with_reducible assumption
    | (with_reducible apply State.stageReg_ok; exact sub_le (by decide) hW)
    | (intro t; intros; (try beta_reduce))

theorem State.stageHalf_ok {W : Nat} {σ s : State} {a1 a2 a3 a4 : _} (hW : 0x20 ||| W = W) (h : Within W σ s) :
    Within W σ (State.stageHalf s a1 a2 a3 a4) := by
  unfold State.stageHalf
  repeat' first
    | with_reducible assumption
    | (with_reducible apply State.stageEnt_ok; exact sub_le (by decide) hW)
    | with_reducible apply Within.ite
    | (extract_lets +onlyGivenNames x
       first
       | (refine Within.cut (W := W) (s := σ) x ?_ ?_; rotate_left; (clear_value x; intro hx))
       | (refine Within.cut (W := W) (s := σ) x.1 ?_ ?_; rotate_left; (clear_value x; intro hx))
       | (refine Within.cut (W := W) (s := σ) x.2 ?_ ?_; rotate_left; (clear_value x; intro hx))
       | (refine Within.cutF (W := W) (s := σ) x ?_ ?_; rotate_left; (clear_value x; intro hf))
       | clear_value x)
    | split
    | (intro t; intros; (try beta_reduce))
    | dsimp -zeta only [x]

theorem State.entCtrlWrite_ok {W : Nat} {σ s : State} {a1 a2 : _} (hW : 0x2000000030 ||| W = W) (h : Within W σ s) :
    Within W σ (State.entCtrlWrite s a1 a2) := by
  unfold State.entCtrlWrite
  repeat' first
    | with_reducible assumption
    | (with_reducible apply State.raisePage_ok; exact sub_le (by decide) hW)
    | (with_reducible apply State.stageEnt_ok; exact sub_le (by decide) hW)
    | with_reducible apply Within.ite
    | with_reducible apply Within.ite1
    | with_reducible apply Within.ite2
    | (intro hs; first | rfl | with_reducible exact hs | with_reducible first | exact hs | exact wf_mset hs _ _ | exact wf_msetBytes _ hs _ | exact wf_filter hs _ | exact rising_sset hs _ _ | exact rising_filter hs _ | exact rising_sdel hs _ | (refine rising_map hs _ ?_; intro e; beta_reduce; first | rfl | (split <;> rfl)))
    | (extract_lets +onlyGivenNames x
       first
       | (refine Within.cut (W := W) (s := σ) x ?_ ?_; rotate_left; (clear_value x; intro hx))
       | (refine Within.cut (W := W) (s := σ) x.1 ?_ ?_; rotate_left; (clear_value x; intro hx))
       | (refine Within.cut (W := W) (s := σ) x.2 ?_ ?_; rotate_left; (clear_value x; intro hx))
       | (refine Within.cutF (W := W) (s := σ) x ?_ ?_; rotate_left; (clear_value x; intro hf))
       | clear_value x)
    | split
    | (with_reducible apply Within.upd_shadows; exact sub_le (by decide) hW)
    | (intro t; intros; (try beta_reduce))
    | dsimp -zeta only [x]

theorem State.entBad_ok {W : Nat} {σ s : State} {a1 a2 a3 : _} (hW : 0x2000040010 ||| W = W) (h : Within W σ s) :
    Within W σ (State.entBad s a1 a2 a3) := by
  unfold State.entBad
  repeat' first
    | with_reducible assumption
    | (with_reducible apply State.logErr_ok; exact sub_le (by decide) hW)
    | (with_reducible apply State.raisePage_ok; exact sub_le (by decide) hW)
    | (intro t; intros; (try beta_reduce))

theorem State.entWrite_ok {W : Nat} {σ s : State} {a1 a2 a3 : _} (hW : 0x2000040030 ||| W = W) (h : Within W σ s) :
    Within W σ (State.entWrite s a1 a2 a3) := by
  unfold State.entWrite
  repeat' first
    | with_reducible assumption
    | (with_reducible apply State.entCtrlWrite_ok; exact sub_le (by decide) hW)
    | (with_reducible apply State.stageEnt_ok; exact sub_le (by decide) hW)
    | (with_reducible apply State.entBad_ok; exact sub_le (by decide) hW)
    | (with_reducible apply State.stageHalf_ok; exact sub_le (by decide) hW)
    | (with_reducible apply State.raisePage_ok; exact sub_le (by decide) hW)
    | with_reducible apply Within.ite
    | (extract_lets +onlyGivenNames x
       first
       | (refine Within.cut (W := W) (s := σ) x ?_ ?_; rotate_left; (clear_value x; intro hx))
       | (refine Within.cut (W := W) (s := σ) x.1 ?_ ?_; rotate_left; (clear_value x; intro hx))
       | (refine Within.cut (W := W) (s := σ) x.2 ?_ ?_; rotate_left; (clear_value x; intro hx))
       | (refine Within.cutF (W := W) (s := σ) x ?_ ?_; rotate_left; (clear_value x; intro hf))
       | clear_value x)
    | split
    | (intro t; intros; (try beta_reduce))
    | dsimp -zeta only [x]

theorem State.meterLatch_ok {W : Nat} {σ s : State} {a1 a2 : _} (hW : 0x10 ||| W = W) (h : Within W σ s) :
    Within W σ (State.meterLatch s a1 a2) := by
  unfold State.meterLatch
  repeat' first
    | with_reducible assumption
    | (with_reducible apply State.setReg_ok; exact sub_le (by decide) hW)
    | (with_reducible apply State.bump_ok; exact sub_le (by decide) hW)
    | (with_reducible apply Within.fold; (intro t x ht; beta_reduce))
    | (with_reducible apply Within.fold1; (intro t x ht; beta_reduce))
    | (with_reducible apply Within.fold2; (intro t x ht; beta_reduce))
    | (extract_lets +onlyGivenNames x
       first
       | (refine Within.cut (W := W) (s := σ) x ?_ ?_; rotate_left; (clear_value x; intro hx))
       | (refine Within.cut (W := W) (s := σ) x.1 ?_ ?_; rotate_left; (clear_value x; intro hx))
       | (refine Within.cut (W := W) (s := σ) x.2 ?_ ?_; rotate_left; (clear_value x; intro hx))
       | (refine Within.cutF (W := W) (s := σ) x ?_ ?_; rotate_left; (clear_value x; intro hf))
       | clear_value x)
    | (intro t; intros; (try beta_reduce))
    | dsimp -zeta only [x]

theorem State.traceCopy_ok {W : Nat} {σ s : State} {a1 a2 : _} (hW : 0x10 ||| W = W) (h : Within W σ s) :
    Within W σ (State.traceCopy s a1 a2) := by
  unfold State.traceCopy
  repeat' first
    | with_reducible assumption
    | (with_reducible apply State.setReg_ok; exact sub_le (by decide) hW)
    | (with_reducible apply Within.fold; (intro t x ht; beta_reduce))
    | (with_reducible apply Within.fold1; (intro t x ht; beta_reduce))
    | (with_reducible apply Within.fold2; (intro t x ht; beta_reduce))
    | (extract_lets +onlyGivenNames x
       first
       | (refine Within.cut (W := W) (s := σ) x ?_ ?_; rotate_left; (clear_value x; intro hx))
       | (refine Within.cut (W := W) (s := σ) x.1 ?_ ?_; rotate_left; (clear_value x; intro hx))
       | (refine Within.cut (W := W) (s := σ) x.2 ?_ ?_; rotate_left; (clear_value x; intro hx))
       | (refine Within.cutF (W := W) (s := σ) x ?_ ?_; rotate_left; (clear_value x; intro hf))
       | clear_value x)
    | (intro t; intros; (try beta_reduce))
    | dsimp -zeta only [x]

theorem State.meltCopy_ok {W : Nat} {σ s : State} {a1 a2 a3 a4 : _} (hW : 0x10 ||| W = W) (h : Within W σ s) :
    Within W σ (State.meltCopy s a1 a2 a3 a4) := by
  unfold State.meltCopy
  repeat' first
    | with_reducible assumption
    | (with_reducible apply State.setReg_ok; exact sub_le (by decide) hW)
    | with_reducible apply Within.ite
    | (with_reducible apply Within.fold; (intro t x ht; beta_reduce))
    | (with_reducible apply Within.fold1; (intro t x ht; beta_reduce))
    | (with_reducible apply Within.fold2; (intro t x ht; beta_reduce))
    | (extract_lets +onlyGivenNames x
       first
       | (refine Within.cut (W := W) (s := σ) x ?_ ?_; rotate_left; (clear_value x; intro hx))
       | (refine Within.cut (W := W) (s := σ) x.1 ?_ ?_; rotate_left; (clear_value x; intro hx))
       | (refine Within.cut (W := W) (s := σ) x.2 ?_ ?_; rotate_left; (clear_value x; intro hx))
       | (refine Within.cutF (W := W) (s := σ) x ?_ ?_; rotate_left; (clear_value x; intro hf))
       | clear_value x)
    | split
    | (intro t; intros; (try beta_reduce))
    | dsimp -zeta only [x]

theorem State.createPart_ok {W : Nat} {σ s : State} {a1 : _} (hW : 0x1010 ||| W = W) (h : Within W σ s) :
    Within W σ (State.createPart s a1) := by
  unfold State.createPart
  repeat' first
    | with_reducible assumption
    | (with_reducible apply State.clearRegs_ok; exact sub_le (by decide) hW)
    | (with_reducible apply State.setPart_ok; exact sub_le (by decide) hW)
    | with_reducible apply Within.ite
    | (extract_lets +onlyGivenNames x
       first
       | (refine Within.cut (W := W) (s := σ) x ?_ ?_; rotate_left; (clear_value x; intro hx))
       | (refine Within.cut (W := W) (s := σ) x.1 ?_ ?_; rotate_left; (clear_value x; intro hx))
       | (refine Within.cut (W := W) (s := σ) x.2 ?_ ?_; rotate_left; (clear_value x; intro hx))
       | (refine Within.cutF (W := W) (s := σ) x ?_ ?_; rotate_left; (clear_value x; intro hf))
       | clear_value x)
    | split
    | (intro t; intros; (try beta_reduce))

theorem State.deletePart_ok {W : Nat} {σ s : State} {a1 : _} (hW : 0x1000 ||| W = W) (h : Within W σ s) :
    Within W σ (State.deletePart s a1) := by
  unfold State.deletePart
  repeat' first
    | with_reducible assumption
    | (with_reducible apply State.jrStopReq_ok; exact sub_le (by decide) hW)
    | (with_reducible apply State.updPart_ok; exact sub_le (by decide) hW)
    | with_reducible apply Within.ite
    | (extract_lets +onlyGivenNames x
       first
       | (refine Within.cut (W := W) (s := σ) x ?_ ?_; rotate_left; (clear_value x; intro hx))
       | (refine Within.cut (W := W) (s := σ) x.1 ?_ ?_; rotate_left; (clear_value x; intro hx))
       | (refine Within.cut (W := W) (s := σ) x.2 ?_ ?_; rotate_left; (clear_value x; intro hx))
       | (refine Within.cutF (W := W) (s := σ) x ?_ ?_; rotate_left; (clear_value x; intro hf))
       | clear_value x)
    | split
    | (intro t; intros; (try beta_reduce))

theorem State.abortAllTasks_ok {W : Nat} {σ s : State} {a1 : _} (hW : 0x6005671d90 ||| W = W) (h : Within W σ s) :
    Within W σ (State.abortAllTasks s a1) := by
  unfold State.abortAllTasks
  repeat' first
    | with_reducible assumption
    | (with_reducible apply State.abortWhole_ok; exact sub_le (by decide) hW)
    | (with_reducible apply Within.fold; (intro t x ht; beta_reduce))
    | (with_reducible apply Within.fold1; (intro t x ht; beta_reduce))
    | (with_reducible apply Within.fold2; (intro t x ht; beta_reduce))
    | (intro t; intros; (try beta_reduce))

theorem State.thawQueue_ok {W : Nat} {σ s : State} {a1 : _} (hW : 0x800 ||| W = W) (h : Within W σ s) :
    Within W σ (State.thawQueue s a1) := by
  unfold State.thawQueue
  repeat' first
    | with_reducible assumption
    | (with_reducible apply State.updQueue_ok; exact sub_le (by decide) hW)
    | with_reducible apply Within.ite
    | (extract_lets +onlyGivenNames x
       first
       | (refine Within.cut (W := W) (s := σ) x ?_ ?_; rotate_left; (clear_value x; intro hx))
       | (refine Within.cut (W := W) (s := σ) x.1 ?_ ?_; rotate_left; (clear_value x; intro hx))
       | (refine Within.cut (W := W) (s := σ) x.2 ?_ ?_; rotate_left; (clear_value x; intro hx))
       | (refine Within.cutF (W := W) (s := σ) x ?_ ?_; rotate_left; (clear_value x; intro hf))
       | clear_value x)
    | split
    | (intro t; intros; (try beta_reduce))
    | dsimp -zeta only [x]

theorem State.thawCore_ok {W : Nat} {σ s : State} {a1 : _} (hW : 0x608567fdb0 ||| W = W) (h : Within W σ s) :
    Within W σ (State.thawCore s a1) := by
  unfold State.thawCore
  repeat' first
    | with_reducible assumption
    | (with_reducible apply State.setDbg_ok; exact sub_le (by decide) hW)
    | (with_reducible apply State.setFld_ok; exact sub_le (by decide) hW)
    | (with_reducible apply State.runAllBars_ok; exact sub_le (by decide) hW)
    | (with_reducible apply State.poolGrant_ok; exact sub_le (by decide) hW)
    | with_reducible apply Within.ite
    | (extract_lets +onlyGivenNames x
       first
       | (refine Within.cut (W := W) (s := σ) x ?_ ?_; rotate_left; (clear_value x; intro hx))
       | (refine Within.cut (W := W) (s := σ) x.1 ?_ ?_; rotate_left; (clear_value x; intro hx))
       | (refine Within.cut (W := W) (s := σ) x.2 ?_ ?_; rotate_left; (clear_value x; intro hx))
       | (refine Within.cutF (W := W) (s := σ) x ?_ ?_; rotate_left; (clear_value x; intro hf))
       | clear_value x)
    | split
    | (intro t; intros; (try beta_reduce))
    | dsimp -zeta only [x]

theorem State.thaw_ok {W : Nat} {σ s : State} {a1 : _} (hW : 0x608567fdb0 ||| W = W) (h : Within W σ s) :
    Within W σ (State.thaw s a1) := by
  unfold State.thaw
  repeat' first
    | with_reducible assumption
    | (with_reducible apply State.thawQueue_ok; exact sub_le (by decide) hW)
    | (with_reducible apply State.updPart_ok; exact sub_le (by decide) hW)
    | (with_reducible apply State.thawCore_ok; exact sub_le (by decide) hW)
    | with_reducible apply Within.ite
    | (extract_lets +onlyGivenNames x
       first
       | (refine Within.cut (W := W) (s := σ) x ?_ ?_; rotate_left; (clear_value x; intro hx))
       | (refine Within.cut (W := W) (s := σ) x.1 ?_ ?_; rotate_left; (clear_value x; intro hx))
       | (refine Within.cut (W := W) (s := σ) x.2 ?_ ?_; rotate_left; (clear_value x; intro hx))
       | (refine Within.cutF (W := W) (s := σ) x ?_ ?_; rotate_left; (clear_value x; intro hf))
       | clear_value x)
    | split
    | (intro t; intros; (try beta_reduce))
    | dsimp -zeta only [x]

theorem State.pfThaw_ok {W : Nat} {σ s : State} {a1 : _} (hW : 0x1800 ||| W = W) (h : Within W σ s) :
    Within W σ (State.pfThaw s a1) := by
  unfold State.pfThaw
  repeat' first
    | with_reducible assumption
    | (with_reducible apply State.thawQueue_ok; exact sub_le (by decide) hW)
    | (with_reducible apply State.updPart_ok; exact sub_le (by decide) hW)
    | with_reducible apply Within.ite
    | (with_reducible apply Within.fold; (intro t x ht; beta_reduce))
    | (with_reducible apply Within.fold1; (intro t x ht; beta_reduce))
    | (with_reducible apply Within.fold2; (intro t x ht; beta_reduce))
    | (extract_lets +onlyGivenNames x
       first
       | (refine Within.cut (W := W) (s := σ) x ?_ ?_; rotate_left; (clear_value x; intro hx))
       | (refine Within.cut (W := W) (s := σ) x.1 ?_ ?_; rotate_left; (clear_value x; intro hx))
       | (refine Within.cut (W := W) (s := σ) x.2 ?_ ?_; rotate_left; (clear_value x; intro hx))
       | (refine Within.cutF (W := W) (s := σ) x ?_ ?_; rotate_left; (clear_value x; intro hf))
       | clear_value x)
    | split
    | (intro t; intros; (try beta_reduce))
    | dsimp -zeta only [x]

theorem State.errAck_ok {W : Nat} {σ s : State} {a1 a2 a3 : _} (hW : 0x40010 ||| W = W) (h : Within W σ s) :
    Within W σ (State.errAck s a1 a2 a3) := by
  unfold State.errAck
  repeat' first
    | with_reducible assumption
    | (with_reducible apply State.setRing_ok; exact sub_le (by decide) hW)
    | (with_reducible apply State.bump_ok; exact sub_le (by decide) hW)
    | with_reducible apply Within.ite
    | (extract_lets +onlyGivenNames x
       first
       | (refine Within.cut (W := W) (s := σ) x ?_ ?_; rotate_left; (clear_value x; intro hx))
       | (refine Within.cut (W := W) (s := σ) x.1 ?_ ?_; rotate_left; (clear_value x; intro hx))
       | (refine Within.cut (W := W) (s := σ) x.2 ?_ ?_; rotate_left; (clear_value x; intro hx))
       | (refine Within.cutF (W := W) (s := σ) x ?_ ?_; rotate_left; (clear_value x; intro hf))
       | clear_value x)
    | split
    | (intro t; intros; (try beta_reduce))
    | dsimp -zeta only [x]

theorem State.errAckThrough_ok {W : Nat} {σ s : State} {a1 a2 a3 : _} (hW : 0x40000 ||| W = W) (h : Within W σ s) :
    Within W σ (State.errAckThrough s a1 a2 a3) := by
  unfold State.errAckThrough
  repeat' first
    | with_reducible assumption
    | (with_reducible apply State.setRing_ok; exact sub_le (by decide) hW)
    | (intro t; intros; (try beta_reduce))

theorem State.discard_ok {W : Nat} {σ s : State} {a1 a2 a3 : _} (hW : 0x20 ||| W = W) (h : Within W σ s) :
    Within W σ (State.discard s a1 a2 a3) := by
  unfold State.discard
  repeat' first
    | with_reducible assumption
    | with_reducible apply Within.ite1
    | with_reducible apply Within.ite2
    | (intro hs; first | rfl | with_reducible exact hs | with_reducible first | exact hs | exact wf_mset hs _ _ | exact wf_msetBytes _ hs _ | exact wf_filter hs _ | exact rising_sset hs _ _ | exact rising_filter hs _ | exact rising_sdel hs _ | (refine rising_map hs _ ?_; intro e; beta_reduce; first | rfl | (split <;> rfl)))
    | (extract_lets +onlyGivenNames x
       first
       | (refine Within.cut (W := W) (s := σ) x ?_ ?_; rotate_left; (clear_value x; intro hx))
       | (refine Within.cut (W := W) (s := σ) x.1 ?_ ?_; rotate_left; (clear_value x; intro hx))
       | (refine Within.cut (W := W) (s := σ) x.2 ?_ ?_; rotate_left; (clear_value x; intro hx))
       | (refine Within.cutF (W := W) (s := σ) x ?_ ?_; rotate_left; (clear_value x; intro hf))
       | clear_value x)
    | split
    | (with_reducible apply Within.upd_shadows; exact sub_le (by decide) hW)
    | (intro t; intros; (try beta_reduce))
    | dsimp -zeta only [x]

theorem State.stageCtrl_ok {W : Nat} {σ s : State} {a1 a2 a3 : _} (hW : 0x30 ||| W = W) (h : Within W σ s) :
    Within W σ (State.stageCtrl s a1 a2 a3) := by
  unfold State.stageCtrl
  repeat' first
    | with_reducible assumption
    | (with_reducible apply State.setReg_ok; exact sub_le (by decide) hW)
    | (with_reducible apply State.discard_ok; exact sub_le (by decide) hW)
    | (intro t; intros; (try beta_reduce))

theorem State.pageCtrl_ok {W : Nat} {σ s : State} {a1 a2 a3 : _} (hW : 0x10 ||| W = W) (h : Within W σ s) :
    Within W σ (State.pageCtrl s a1 a2 a3) := by
  unfold State.pageCtrl
  repeat' first
    | with_reducible assumption
    | (with_reducible apply State.setReg_ok; exact sub_le (by decide) hW)
    | (with_reducible apply State.setFld_ok; exact sub_le (by decide) hW)
    | with_reducible apply Within.ite
    | (extract_lets +onlyGivenNames x
       first
       | (refine Within.cut (W := W) (s := σ) x ?_ ?_; rotate_left; (clear_value x; intro hx))
       | (refine Within.cut (W := W) (s := σ) x.1 ?_ ?_; rotate_left; (clear_value x; intro hx))
       | (refine Within.cut (W := W) (s := σ) x.2 ?_ ?_; rotate_left; (clear_value x; intro hx))
       | (refine Within.cutF (W := W) (s := σ) x ?_ ?_; rotate_left; (clear_value x; intro hf))
       | clear_value x)
    | split
    | (intro t; intros; (try beta_reduce))
    | dsimp -zeta only [x]

theorem State.powerCtrl_ok {W : Nat} {σ s : State} {a1 : _} (hW : 0x7ffffffbf8 ||| W = W) (h : Within W σ s) :
    Within W σ (State.powerCtrl s a1) := by
  unfold State.powerCtrl
  repeat' first
    | with_reducible assumption
    | (with_reducible apply State.park_ok; exact sub_le (by decide) hW)
    | (with_reducible apply State.unpark_ok; exact sub_le (by decide) hW)
    | (with_reducible apply State.sbEvents_ok; exact sub_le (by decide) hW)
    | (with_reducible apply State.enterAux_ok; exact sub_le (by decide) hW)
    | with_reducible apply Within.ite
    | (extract_lets +onlyGivenNames x
       first
       | (refine Within.cut (W := W) (s := σ) x ?_ ?_; rotate_left; (clear_value x; intro hx))
       | (refine Within.cut (W := W) (s := σ) x.1 ?_ ?_; rotate_left; (clear_value x; intro hx))
       | (refine Within.cut (W := W) (s := σ) x.2 ?_ ?_; rotate_left; (clear_value x; intro hx))
       | (refine Within.cutF (W := W) (s := σ) x ?_ ?_; rotate_left; (clear_value x; intro hf))
       | clear_value x)
    | split
    | (intro t; intros; (try beta_reduce))
    | dsimp -zeta only [x]

theorem State.dbgCtrl_ok {W : Nat} {σ s : State} {a1 a2 : _} (hW : 0x608567fdb0 ||| W = W) (h : Within W σ s) :
    Within W σ (State.dbgCtrl s a1 a2) := by
  unfold State.dbgCtrl
  repeat' first
    | with_reducible assumption
    | (with_reducible apply State.haltReq_ok; exact sub_le (by decide) hW)
    | (with_reducible apply State.resume_ok; exact sub_le (by decide) hW)
    | (with_reducible apply State.stepCore_ok; exact sub_le (by decide) hW)
    | with_reducible apply Within.ite
    | (extract_lets +onlyGivenNames x
       first
       | (refine Within.cut (W := W) (s := σ) x ?_ ?_; rotate_left; (clear_value x; intro hx))
       | (refine Within.cut (W := W) (s := σ) x.1 ?_ ?_; rotate_left; (clear_value x; intro hx))
       | (refine Within.cut (W := W) (s := σ) x.2 ?_ ?_; rotate_left; (clear_value x; intro hx))
       | (refine Within.cutF (W := W) (s := σ) x ?_ ?_; rotate_left; (clear_value x; intro hf))
       | clear_value x)
    | split
    | (intro t; intros; (try beta_reduce))
    | dsimp -zeta only [x]

theorem State.enableQueue_ok {W : Nat} {σ s : State} {a1 a2 a3 : _} (hW : 0x3000000810 ||| W = W) (h : Within W σ s) :
    Within W σ (State.enableQueue s a1 a2 a3) := by
  unfold State.enableQueue
  repeat' first
    | with_reducible assumption
    | (with_reducible apply State.updQueue_ok; exact sub_le (by decide) hW)
    | (with_reducible apply State.ringAsk_ok; exact sub_le (by decide) hW)
    | with_reducible apply Within.ite
    | (with_reducible apply Within.fold; (intro t x ht; beta_reduce))
    | (with_reducible apply Within.fold1; (intro t x ht; beta_reduce))
    | (with_reducible apply Within.fold2; (intro t x ht; beta_reduce))
    | (extract_lets +onlyGivenNames x
       first
       | (refine Within.cut (W := W) (s := σ) x ?_ ?_; rotate_left; (clear_value x; intro hx))
       | (refine Within.cut (W := W) (s := σ) x.1 ?_ ?_; rotate_left; (clear_value x; intro hx))
       | (refine Within.cut (W := W) (s := σ) x.2 ?_ ?_; rotate_left; (clear_value x; intro hx))
       | (refine Within.cutF (W := W) (s := σ) x ?_ ?_; rotate_left; (clear_value x; intro hf))
       | clear_value x)
    | split
    | (intro t; intros; (try beta_reduce))
    | dsimp -zeta only [x]

theorem State.afterWrite_ok {W : Nat} {σ s : State} {a1 a2 a3 a4 a5 : _} (hW : 0x70c567dd90 ||| W = W) (h : Within W σ s) :
    Within W σ (State.afterWrite s a1 a2 a3 a4 a5) := by
  unfold State.afterWrite
  repeat' first
    | with_reducible assumption
    | (with_reducible apply State.enableQueue_ok; exact sub_le (by decide) hW)
    | (with_reducible apply State.setReg_ok; exact sub_le (by decide) hW)
    | (with_reducible apply State.traceCopy_ok; exact sub_le (by decide) hW)
    | (with_reducible apply State.meterLatch_ok; exact sub_le (by decide) hW)
    | (with_reducible apply State.meltCopy_ok; exact sub_le (by decide) hW)
    | (with_reducible apply State.itraceSync_ok; exact sub_le (by decide) hW)
    | (with_reducible apply State.linkEnable_ok; exact sub_le (by decide) hW)
    | (with_reducible apply State.alignRoot_ok; exact sub_le (by decide) hW)
    | with_reducible apply Within.ite
    | (with_reducible apply Within.fold; (intro t x ht; beta_reduce))
    | (with_reducible apply Within.fold1; (intro t x ht; beta_reduce))
    | (with_reducible apply Within.fold2; (intro t x ht; beta_reduce))
    | (extract_lets +onlyGivenNames x
       first
       | (refine Within.cut (W := W) (s := σ) x ?_ ?_; rotate_left; (clear_value x; intro hx))
       | (refine Within.cut (W := W) (s := σ) x.1 ?_ ?_; rotate_left; (clear_value x; intro hx))
       | (refine Within.cut (W := W) (s := σ) x.2 ?_ ?_; rotate_left; (clear_value x; intro hx))
       | (refine Within.cutF (W := W) (s := σ) x ?_ ?_; rotate_left; (clear_value x; intro hf))
       | clear_value x)
    | split
    | (intro t; intros; (try beta_reduce))
    | dsimp -zeta only [x]

theorem State.acts_ok {W : Nat} {σ s : State} {a1 a2 a3 a4 : _} (hW : 0x7ffffffff8 ||| W = W) (h : Within W σ s) :
    Within W σ (State.acts s a1 a2 a3 a4) := by
  unfold State.acts
  repeat' first
    | with_reducible assumption
    | (with_reducible apply State.createPart_ok; exact sub_le (by decide) hW)
    | (with_reducible apply State.deletePart_ok; exact sub_le (by decide) hW)
    | (with_reducible apply State.abortAllTasks_ok; exact sub_le (by decide) hW)
    | (with_reducible apply State.thaw_ok; exact sub_le (by decide) hW)
    | (with_reducible apply State.errAck_ok; exact sub_le (by decide) hW)
    | (with_reducible apply State.errAckThrough_ok; exact sub_le (by decide) hW)
    | (with_reducible apply State.pfThaw_ok; exact sub_le (by decide) hW)
    | (with_reducible apply State.startTraining_ok; exact sub_le (by decide) hW)
    | (with_reducible apply State.startProbes_ok; exact sub_le (by decide) hW)
    | (with_reducible apply State.remeasureTime_ok; exact sub_le (by decide) hW)
    | (with_reducible apply State.ckptFree_ok; exact sub_le (by decide) hW)
    | (with_reducible apply State.updJr_ok; exact sub_le (by decide) hW)
    | (with_reducible apply State.fwStart_ok; exact sub_le (by decide) hW)
    | (with_reducible apply State.fwCancel_ok; exact sub_le (by decide) hW)
    | (with_reducible apply State.dbgCtrl_ok; exact sub_le (by decide) hW)
    | (with_reducible apply State.powerCtrl_ok; exact sub_le (by decide) hW)
    | (with_reducible apply State.jrStart_ok; exact sub_le (by decide) hW)
    | (with_reducible apply State.jrStopReq_ok; exact sub_le (by decide) hW)
    | with_reducible apply Within.ite
    | (extract_lets +onlyGivenNames x
       first
       | (refine Within.cut (W := W) (s := σ) x ?_ ?_; rotate_left; (clear_value x; intro hx))
       | (refine Within.cut (W := W) (s := σ) x.1 ?_ ?_; rotate_left; (clear_value x; intro hx))
       | (refine Within.cut (W := W) (s := σ) x.2 ?_ ?_; rotate_left; (clear_value x; intro hx))
       | (refine Within.cutF (W := W) (s := σ) x ?_ ?_; rotate_left; (clear_value x; intro hf))
       | clear_value x)
    | split
    | (intro t; intros; (try beta_reduce))
    | dsimp -zeta only [x]

theorem State.groupWrite_ok {W : Nat} {σ s : State} {a1 a2 a3 : _} (hW : 0x0 ||| W = W) (hk : ∀ t u0, Within W σ t → Within W σ (a3 t u0)) (h : Within W σ s) :
    Within W σ (State.groupWrite s a1 a2 a3) := by
  unfold State.groupWrite
  repeat' first
    | with_reducible assumption
    | with_reducible apply hk
    | with_reducible apply Within.ite
    | (with_reducible apply Within.fold; (intro t x ht; beta_reduce))
    | (with_reducible apply Within.fold1; (intro t x ht; beta_reduce))
    | (with_reducible apply Within.fold2; (intro t x ht; beta_reduce))
    | split
    | (intro t; intros; (try beta_reduce))

theorem State.writeAt_ok {W : Nat} {σ s : State} {a1 a2 a3 a4 a5 : _} (hW : 0x7ffffffff8 ||| W = W) (h : Within W σ s) :
    Within W σ (State.writeAt s a1 a2 a3 a4 a5) := by
  unfold State.writeAt
  repeat' first
    | with_reducible assumption
    | (with_reducible apply State.groupWrite_ok; exact sub_le (by decide) hW)
    | (with_reducible apply State.pageCtrl_ok; exact sub_le (by decide) hW)
    | (with_reducible apply State.setReg_ok; exact sub_le (by decide) hW)
    | (with_reducible apply State.stageCtrl_ok; exact sub_le (by decide) hW)
    | (with_reducible apply State.stageReg_ok; exact sub_le (by decide) hW)
    | (with_reducible apply State.busyDrop_ok; exact sub_le (by decide) hW)
    | (with_reducible apply State.acts_ok; exact sub_le (by decide) hW)
    | (with_reducible apply State.islWrite_ok; exact sub_le (by decide) hW)
    | (with_reducible apply State.afterWrite_ok; exact sub_le (by decide) hW)
    | with_reducible apply Within.ite
    | exact State.rejects_ok (sub_le (by decide) hW) h (by assumption)
    | (extract_lets +onlyGivenNames x
       first
       | (refine Within.cut (W := W) (s := σ) x ?_ ?_; rotate_left; (clear_value x; intro hx))
       | (refine Within.cut (W := W) (s := σ) x.1 ?_ ?_; rotate_left; (clear_value x; intro hx))
       | (refine Within.cut (W := W) (s := σ) x.2 ?_ ?_; rotate_left; (clear_value x; intro hx))
       | (refine Within.cutF (W := W) (s := σ) x ?_ ?_; rotate_left; (clear_value x; intro hf))
       | clear_value x)
    | split
    | (intro t; intros; (try beta_reduce))
    | dsimp -zeta only [x]

theorem State.writeWord_ok {W : Nat} {σ s : State} {a1 a2 a3 a4 : _} (hW : 0x7ffffffff8 ||| W = W) (h : Within W σ s) :
    Within W σ (State.writeWord s a1 a2 a3 a4) := by
  unfold State.writeWord
  repeat' first
    | with_reducible assumption
    | (with_reducible apply State.entWrite_ok; exact sub_le (by decide) hW)
    | (with_reducible apply State.writeAt_ok; exact sub_le (by decide) hW)
    | with_reducible apply Within.ite
    | split
    | (intro t; intros; (try beta_reduce))

theorem State.writeLong_ok {W : Nat} {σ s : State} {a1 a2 a3 a4 : _} (hW : 0x7ffffffff8 ||| W = W) (h : Within W σ s) :
    Within W σ (State.writeLong s a1 a2 a3 a4) := by
  unfold State.writeLong
  repeat' first
    | with_reducible assumption
    | (with_reducible apply State.writeAt_ok; exact sub_le (by decide) hW)
    | (with_reducible apply State.writeWord_ok; exact sub_le (by decide) hW)
    | with_reducible apply Within.ite
    | (extract_lets +onlyGivenNames x
       first
       | (refine Within.cut (W := W) (s := σ) x ?_ ?_; rotate_left; (clear_value x; intro hx))
       | (refine Within.cut (W := W) (s := σ) x.1 ?_ ?_; rotate_left; (clear_value x; intro hx))
       | (refine Within.cut (W := W) (s := σ) x.2 ?_ ?_; rotate_left; (clear_value x; intro hx))
       | (refine Within.cutF (W := W) (s := σ) x ?_ ?_; rotate_left; (clear_value x; intro hf))
       | clear_value x)
    | split
    | (intro t; intros; (try beta_reduce))
    | dsimp -zeta only [x]

theorem State.writeReg_ok {W : Nat} {σ s : State} {a1 a2 a3 a4 a5 : _} (hW : 0x7ffffffff8 ||| W = W) (h : Within W σ s) :
    Within W σ (State.writeReg s a1 a2 a3 a4 a5) := by
  unfold State.writeReg
  repeat' first
    | with_reducible assumption
    | (with_reducible apply State.meter_ok; exact sub_le (by decide) hW)
    | (with_reducible apply State.pkgNotice_ok; exact sub_le (by decide) hW)
    | (with_reducible apply State.violation_ok; exact sub_le (by decide) hW)
    | (with_reducible apply State.writeLong_ok; exact sub_le (by decide) hW)
    | (with_reducible apply State.writeWord_ok; exact sub_le (by decide) hW)
    | (with_reducible apply State.notice_ok; exact sub_le (by decide) hW)
    | (with_reducible apply State.raisePage_ok; exact sub_le (by decide) hW)
    | with_reducible apply Within.ite
    | (extract_lets +onlyGivenNames x
       first
       | (refine Within.cut (W := W) (s := σ) x ?_ ?_; rotate_left; (clear_value x; intro hx))
       | (refine Within.cut (W := W) (s := σ) x.1 ?_ ?_; rotate_left; (clear_value x; intro hx))
       | (refine Within.cut (W := W) (s := σ) x.2 ?_ ?_; rotate_left; (clear_value x; intro hx))
       | (refine Within.cutF (W := W) (s := σ) x ?_ ?_; rotate_left; (clear_value x; intro hf))
       | clear_value x)
    | split
    | (intro t; intros; (try beta_reduce))
    | dsimp -zeta only [x]

theorem State.holdDrained_ok {W : Nat} {σ s : State} {a1 : _} (hW : 0x10 ||| W = W) (h : Within W σ s) :
    Within W σ (State.holdDrained s a1) := by
  unfold State.holdDrained
  repeat' first
    | with_reducible assumption
    | (with_reducible apply State.setFld_ok; exact sub_le (by decide) hW)
    | with_reducible apply Within.ite
    | split
    | (intro t; intros; (try beta_reduce))

theorem State.discardWrite_ok {W : Nat} {σ s : State} {a1 a2 a3 : _} (hW : 0x7ffffffff8 ||| W = W) (h : Within W σ s) :
    Within W σ (State.discardWrite s a1 a2 a3) := by
  unfold State.discardWrite
  repeat' first
    | with_reducible assumption
    | (with_reducible apply State.writeReg_ok; exact sub_le (by decide) hW)
    | (intro t; intros; (try beta_reduce))

end Sys2Proof.Machine
end

