-- ==== Sys2Proof/Laws/Writes.lean ====
section
/-! SUPPORT. The way of a register write through the register port: where it is accepted, an aligned word reaches the register's own
rule, and a plain field takes its new value. -/

namespace Sys2Proof.Machine

/-- A present page has its assigned type. -/
theorem State.pageType_eq {s : State} {page : Nat} (h : s.pageType page ≠ .absent) : s.pageType page = assignedType page := by
  unfold State.pageType at h ⊢
  dsimp only at h ⊢
  split at h
  · exact absurd rfl h
  · rename_i hr
    rw [if_neg hr]
    generalize assignedType page = t at h ⊢
    cases t
    all_goals
      dsimp only at h ⊢
      repeat' split at h
      all_goals first
        | exact absurd rfl h
        | (simp_all; done)
        | (rename_i ha hb; rw [if_neg ha, if_neg hb])

/-- An accepted aligned word reaches the rule of its register (R29). -/
theorem State.writeReg_word {s : State} {p page off v : Nat} (ha : s.accepts p page off = true) (hp : homePage page = page)
    (h4 : off % 4 = 0) (hr : reservedOff page off = false) (hw : isWindow page off = false)
    (hd : (regDesc? (assignedType page) off).isSome = true) :
    s.writeReg p page off 4 v = s.writeAt p page off (2 ^ 32 - 1) (v % 2 ^ 32) := by
  simp only [State.accepts, Bool.and_eq_true, Bool.not_eq_true', decide_eq_true_eq, Option.isNone_iff_eq_none] at ha
  obtain ⟨⟨⟨h1, h2⟩, h3⟩, h5⟩ := ha
  have ht := State.pageType_eq h3
  unfold State.writeReg
  simp only [hp, h1, h2, h5, h4, Bool.not_true, Bool.false_eq_true, if_false, State.writeWord, hr, hw, ht]
  obtain ⟨r, hr⟩ := Option.isSome_iff_exists.1 hd
  rw [ht] at h3
  simp [hr, h3]

theorem State.takesWord_iff {s : State} {p page off : Nat} : s.takesWord p page off = true ↔ s.accepts p page off = true ∧ homePage page = page ∧
    off % 4 = 0 ∧ reservedOff page off = false ∧ isWindow page off = false ∧ ordinary page off = true ∧
    (regDesc? (assignedType page) off).isSome = true := by
  simp [State.takesWord, and_assoc]

/-- An accepted aligned long word of a 64-bit register reaches the rule of its register (R29). -/
theorem State.writeReg_long {s : State} {p page off v : Nat} (ha : s.accepts p page off = true) (hp : homePage page = page)
    (h8 : off % 8 = 0) (hr : reservedOff page off = false) (hw : isWindow page off = false)
    (hd : (regDesc? (assignedType page) off).any (fun r => r.width = 64) = true) :
    s.writeReg p page off 8 v = s.writeAt p page off (2 ^ 64 - 1) (v % 2 ^ 64) := by
  simp only [State.accepts, Bool.and_eq_true, Bool.not_eq_true', decide_eq_true_eq, Option.isNone_iff_eq_none] at ha
  obtain ⟨⟨⟨h1, h2⟩, h3⟩, h5⟩ := ha
  have ht := State.pageType_eq h3
  unfold State.writeReg
  simp only [hp, h1, h2, h5, h8, Bool.not_true, Bool.false_eq_true, if_false, State.writeLong, hr, hw, ht]
  cases hq : regDesc? (assignedType page) off with
  | none => rw [hq] at hd; cases hd
  | some r =>
    rw [hq] at hd
    rw [ht] at h3
    have hd : r.width = 64 := by simpa [Option.any] using hd
    simp [hd, h3]

/-- A write of live and static fields that its page does not refuse takes effect at once (R9, R31, R40). -/
theorem State.writeAt_plain {s : State} {p page off mask v w : Nat} (hp : s.pageType page ≠ .absent) (ho : ordinary page off = true)
    (hd : (regDesc? (assignedType page) off).isSome = true) (hc : bitsWith page off .rw1c &&& mask = 0) (hs : stagedMask page off &&& mask = 0)
    (hwo : bitsWith page off .wo &&& mask = 0) (hw : (bitsWith page off .rw &&& mask) ||| (bitsWith page off .rwl &&& mask) = w) (h0 : w ≠ 0)
    (hb : bitsWith page off .rw &&& mask = 0 ∨ s.busyFor p page off = false)
    (hj : s.rejects p page (s.bankOf p page off) off (mergeStaged w (s.reg page (s.bankOf p page off) off) v) = none) :
    s.writeAt p page off mask v =
      (s.setReg page (s.bankOf p page off) off (mergeStaged w (s.reg page (s.bankOf p page off) off) v)).afterWrite p
        page off (s.reg page (s.bankOf p page off) off) (mergeStaged w (s.reg page (s.bankOf p page off) off) v) := by
  have ht := State.pageType_eq hp
  obtain ⟨r, hr⟩ := Option.isSome_iff_exists.1 hd
  unfold State.writeAt
  unfold ordinary at ho
  simp only [bitsWith, hr] at hc hwo hw hb
  rw [ht, hr]
  simp only [Bool.and_eq_true, decide_eq_true_eq, Bool.not_eq_true'] at ho
  obtain ⟨⟨⟨⟨⟨h1, h2⟩, h3⟩, h4⟩, h5⟩, h6⟩ := ho
  rw [Bool.and_comm] at h6
  have hx : ¬ (decide (accMask r Acc.rw &&& mask ≠ 0) && s.busyFor p page off) = true := by
    rcases hb with hb | hb <;> simp [hb]
  simp only [hc, hs, hwo, hw, ne_eq, not_true_eq_false, if_false, h1, h2, h3, h5, h6, hx, hj, h0, decide_false, Bool.and_false,
    Bool.false_eq_true]

/-- A write of a staged field that its page does not refuse goes to the shadow copy (R41). -/
theorem State.writeAt_staged {s : State} {p page off mask v : Nat} (hp : s.pageType page ≠ .absent) (ho : ordinary page off = true)
    (hd : (regDesc? (assignedType page) off).isSome = true) (hc : bitsWith page off .rw1c &&& mask = 0) (hs : stagedMask page off &&& mask ≠ 0)
    (hj : s.rejects p page (s.bankOf p page off) off (mergeStaged (stagedMask page off &&& mask)
      ((s.shadow? page (s.bankOf p page off) off).getD (s.reg page (s.bankOf p page off) off)) v) = none) :
    s.writeAt p page off mask v = s.stageReg page (s.bankOf p page off) off (mergeStaged (stagedMask page off &&& mask)
      ((s.shadow? page (s.bankOf p page off) off).getD (s.reg page (s.bankOf p page off) off)) v) := by
  have ht := State.pageType_eq hp
  obtain ⟨r, hr⟩ := Option.isSome_iff_exists.1 hd
  unfold State.writeAt
  unfold ordinary at ho
  simp only [bitsWith, hr] at hc
  rw [ht, hr]
  simp only [Bool.and_eq_true, decide_eq_true_eq, Bool.not_eq_true'] at ho
  obtain ⟨⟨⟨⟨⟨h1, h2⟩, h3⟩, h4⟩, h5⟩, h6⟩ := ho
  simp only [hc, hs, ne_eq, not_true_eq_false, not_false_eq_true, if_false, h1, h2, h3, h4, decide_true, Bool.and_self, if_true, hj]

/-- A write of ones to write-only bits acts (R9). -/
theorem State.writeAt_act {s : State} {p page off mask v : Nat} (hp : s.pageType page ≠ .absent) (ho : ordinary page off = true)
    (hd : (regDesc? (assignedType page) off).isSome = true) (hc : bitsWith page off .rw1c &&& mask = 0) (hs : stagedMask page off &&& mask = 0)
    (hwo : bitsWith page off .wo &&& mask ≠ 0) (hb : bitsWith page off .rw &&& mask = 0) :
    s.writeAt p page off mask v = s.acts p page off (v &&& mask &&& bitsWith page off .wo) := by
  have ht := State.pageType_eq hp
  obtain ⟨r, hr⟩ := Option.isSome_iff_exists.1 hd
  unfold State.writeAt
  unfold ordinary at ho
  simp only [bitsWith, hr] at hc hwo hb ⊢
  rw [ht, hr]
  simp only [Bool.and_eq_true, decide_eq_true_eq, Bool.not_eq_true'] at ho
  obtain ⟨⟨⟨⟨⟨h1, h2⟩, h3⟩, h4⟩, h5⟩, h6⟩ := ho
  simp only [hc, hs, hb, hwo, ne_eq, not_true_eq_false, not_false_eq_true, if_false, h1, h2, h3, h4, decide_false, Bool.false_and, Bool.and_false,
    Bool.false_eq_true, if_true]

/-- A write of ones to bits that are cleared by writing ones clears them (R9). -/
theorem State.writeAt_clear {s : State} {p page off mask v : Nat} (hp : s.pageType page ≠ .absent) (ho : ordinary page off = true)
    (hd : (regDesc? (assignedType page) off).isSome = true) (hc : bitsWith page off .rw1c &&& mask ≠ 0) :
    s.writeAt p page off mask v = s.setReg page (s.bankOf p page off) off (s.reg page (s.bankOf p page off) off -
      (s.reg page (s.bankOf p page off) off &&& (v &&& (bitsWith page off .rw1c &&& mask)))) := by
  have ht := State.pageType_eq hp
  obtain ⟨r, hr⟩ := Option.isSome_iff_exists.1 hd
  unfold State.writeAt
  unfold ordinary at ho
  simp only [bitsWith, hr] at hc ⊢
  rw [ht, hr]
  simp only [Bool.and_eq_true, decide_eq_true_eq, Bool.not_eq_true'] at ho
  obtain ⟨⟨⟨⟨⟨h1, h2⟩, h3⟩, h4⟩, h5⟩, h6⟩ := ho
  simp only [hc, ne_eq, not_false_eq_true, if_false, h1, h2, h3, if_true]

theorem regDesc_header {page off : Nat} (h : assignedType page ≠ .absent) (he : assignedType page ≠ .entry) (ho : off < 0x98) :
    regDesc? (assignedType page) off = headerRegs.find? (fun r => r.off = off) := by
  unfold regDesc?; rw [if_neg h, if_neg he, if_pos ho]

theorem reserved_header {page off : Nat} (ho : off < 0x98) : reservedOff page off = false := by
  have h1 : off ≠ R.DBG_ISL_HALT := by intro h; rw [h] at ho; exact absurd ho (by decide)
  have h2 : off ≠ R.DBG_DBG_NOTICE_TTL := by intro h; rw [h] at ho; exact absurd ho (by decide)
  have h3 : ¬ 0x140 ≤ off := by omega
  have h4 : ¬ 0x100 ≤ off := by omega
  unfold reservedOff
  split <;> simp [h1, h2, h3, h4]

theorem State.writeReg_header {s : State} {p page off v : Nat} (ha : s.accepts p page off = true) (hp : homePage page = page)
    (he : assignedType page ≠ .entry) (h4 : off % 4 = 0) (ho : off < 0x98) (hd : (headerRegs.find? (fun r => r.off = off)).isSome = true) :
    s.writeReg p page off 4 v = s.writeAt p page off (2 ^ 32 - 1) (v % 2 ^ 32) := by
  have h3 : s.pageType page ≠ .absent := by simp [State.accepts] at ha; exact ha.1.2
  refine State.writeReg_word ha hp h4 (reserved_header ho) ?_ ?_
  · unfold isWindow; simp; omega
  · rw [regDesc_header (State.pageType_eq h3 ▸ h3) he ho]; exact hd

theorem State.reg_foldl_ne {α : Type} {f : State → α → State} {P B O : Nat} (l : List α)
    (h : ∀ s x, (f s x).reg P B O = s.reg P B O) (s : State) : (l.foldl f s).reg P B O = s.reg P B O := by
  induction l generalizing s with
  | nil => rfl
  | cons x r ih => rw [List.foldl_cons, ih, h]

/-- A row of registers written one after another. -/
theorem State.reg_foldl_range {page bank : Nat} {off : Nat → Nat} {g : State → Nat → Nat} (n : Nat)
    (hg : ∀ s i j v, i < n → j < n → g (s.setReg page bank (off i) v) j = g s j)
    (hi : ∀ i j, i < n → j < n → i ≠ j → rkey page bank (off j) ≠ rkey page bank (off i)) (s : State) {j : Nat} (hj : j < n) :
    ((List.range n).foldl (fun s i => s.setReg page bank (off i) (g s i)) s).reg page bank (off j) = g s j % 2 ^ 64 := by
  have hgs : ∀ (m : Nat) (s : State) k, m ≤ n → k < n → g ((List.range m).foldl (fun s i => s.setReg page bank (off i) (g s i)) s) k = g s k := by
    intro m
    induction m with
    | zero => intro s k _ _; rfl
    | succ m ih =>
      intro s k hm hk
      rw [List.range_succ, List.foldl_append, List.foldl_cons, List.foldl_nil, hg _ _ _ _ (by omega) hk, ih _ _ (by omega) hk]
  induction n with
  | zero => omega
  | succ m ih =>
    rw [List.range_succ, List.foldl_append, List.foldl_cons, List.foldl_nil]
    by_cases h : j = m
    · subst h; rw [State.reg_setReg, hgs _ _ _ (by omega) hj]
    · rw [State.reg_setReg_ne _ _ (hi m j (by omega) (by omega) (by omega)), ih (fun s i j v h1 h2 => hg s i j v (by omega) (by omega)) (fun i j h1 h2 => hi i j (by omega) (by omega)) (by omega)
        (fun m s k h1 h2 => hgs m s k (by omega) (by omega))]

/-- A live 32-bit register. -/
theorem State.writeReg_live {s : State} {p page off v w : Nat} (ht : s.takesWord p page off = true)
    (hc : bitsWith page off .rw1c &&& (2 ^ 32 - 1) = 0) (hs : stagedMask page off &&& (2 ^ 32 - 1) = 0) (hwo : bitsWith page off .wo &&& (2 ^ 32 - 1) = 0)
    (hr : bitsWith page off .rw &&& (2 ^ 32 - 1) = 0) (hw : bitsWith page off .rwl &&& (2 ^ 32 - 1) = w) (h0 : w ≠ 0)
    (hj : s.rejects p page (s.bankOf p page off) off (mergeStaged w (s.reg page (s.bankOf p page off) off) (v % 2 ^ 32)) = none) :
    s.writeReg p page off 4 v = (s.setReg page (s.bankOf p page off) off (mergeStaged w (s.reg page (s.bankOf p page off) off) (v % 2 ^ 32))).afterWrite p
        page off (s.reg page (s.bankOf p page off) off) (mergeStaged w (s.reg page (s.bankOf p page off) off) (v % 2 ^ 32)) := by
  obtain ⟨ha, hp, h4, hres, hwin, ho, hd⟩ := State.takesWord_iff.1 ht
  have h3 : s.pageType page ≠ .absent := by simp [State.accepts] at ha; exact ha.1.2
  rw [State.writeReg_word ha hp h4 hres hwin hd]
  exact State.writeAt_plain h3 ho hd hc hs hwo (by rw [hr, Nat.zero_or]; exact hw) h0 (Or.inl hr) hj

/-- A 32-bit command register. -/
theorem State.writeReg_act {s : State} {p page off v w : Nat} (ht : s.takesWord p page off = true)
    (hc : bitsWith page off .rw1c &&& (2 ^ 32 - 1) = 0) (hs : stagedMask page off &&& (2 ^ 32 - 1) = 0)
    (hwo : bitsWith page off .wo = w) (h0 : w &&& (2 ^ 32 - 1) ≠ 0) (hr : bitsWith page off .rw &&& (2 ^ 32 - 1) = 0) :
    s.writeReg p page off 4 v = s.acts p page off (v % 2 ^ 32 &&& (2 ^ 32 - 1) &&& w) := by
  obtain ⟨ha, hp, h4, hres, hwin, ho, hd⟩ := State.takesWord_iff.1 ht
  have h3 : s.pageType page ≠ .absent := by simp [State.accepts] at ha; exact ha.1.2
  rw [State.writeReg_word ha hp h4 hres hwin hd, ← hwo]
  exact State.writeAt_act h3 ho hd hc hs (by rw [hwo]; exact h0) hr
/-- A live 64-bit register. -/
theorem State.writeReg_liveLong {s : State} {p page off v w : Nat} (ht : s.takesWord p page off = true)
    (hc : bitsWith page off .rw1c &&& (2 ^ 64 - 1) = 0) (hs : stagedMask page off &&& (2 ^ 64 - 1) = 0) (hwo : bitsWith page off .wo &&& (2 ^ 64 - 1) = 0)
    (hr : bitsWith page off .rw &&& (2 ^ 64 - 1) = 0) (hw : bitsWith page off .rwl &&& (2 ^ 64 - 1) = w) (h0 : w ≠ 0) (h8 : off % 8 = 0)
    (h64 : (regDesc? (assignedType page) off).any (fun r => r.width = 64) = true)
    (hj : s.rejects p page (s.bankOf p page off) off (mergeStaged w (s.reg page (s.bankOf p page off) off) (v % 2 ^ 64)) = none) :
    s.writeReg p page off 8 v = (s.setReg page (s.bankOf p page off) off (mergeStaged w (s.reg page (s.bankOf p page off) off) (v % 2 ^ 64))).afterWrite p
        page off (s.reg page (s.bankOf p page off) off) (mergeStaged w (s.reg page (s.bankOf p page off) off) (v % 2 ^ 64)) := by
  obtain ⟨ha, hp, h4, hres, hwin, ho, hd⟩ := State.takesWord_iff.1 ht
  have h3 : s.pageType page ≠ .absent := by simp [State.accepts] at ha; exact ha.1.2
  rw [State.writeReg_long ha hp h8 hres hwin h64]
  exact State.writeAt_plain h3 ho hd hc hs hwo (by rw [hr, Nat.zero_or]; exact hw) h0 (Or.inl hr) hj

theorem and_mask (a n : Nat) : a &&& (2 ^ n - 1) = a % 2 ^ n := Nat.and_two_pow_sub_one_eq_mod a n

/-- An aperture shows a page of the register window. -/
theorem State.viaView_aperture (s : State) (p : Nat) {n : Nat} (h : n < 32) :
    s.viaView p (viewBase + 192 + n) = s.reg pgPackage p (R.GRP_APT_SEL_0 + 4 * n) % 0x20000 := by
  unfold State.viaView
  rw [if_neg (by omega)]
  dsimp only
  rw [show viewBase + 192 + n - viewBase = 192 + n by omega, if_neg (by omega), if_neg (by omega), if_pos (by simp; omega)]
  rw [show 192 + n - 192 = n by omega]

/-- A page of the register window is the page that an operand names. -/
theorem State.viaView_window (s : State) (p : Nat) {page : Nat} (h : page < viewBase) : s.viaView p page = page := by
  unfold State.viaView; rw [if_pos h]
/-- A view page that shows an owned cluster's group page. -/
theorem State.viaView_cluster {s : State} {p i g : Nat} (h : (s.clustersOf p)[i]? = some g) (hi : i < 160) :
    s.viaView p (viewBase + 1 + i) = clusterPage g uGroup := by
  unfold State.viaView
  rw [if_neg (by omega)]
  dsimp only
  rw [if_neg (by omega), if_pos (by omega), show viewBase + 1 + i - viewBase - 1 = i by omega, h]

/-- A present page is one of the register window. -/
theorem State.viaView_present {s : State} (p : Nat) {page : Nat} (h : s.pageType page ≠ .absent) : s.viaView p page = page := by
  apply State.viaView_window
  rw [State.pageType_eq h] at h
  unfold assignedType at h
  dsimp only at h
  by_contra hc
  have hd : 32 ≤ pageDie page := by
    unfold pageDie
    unfold viewBase at hc
    omega
  apply h
  rw [if_neg (by unfold pgEntry; unfold viewBase at hc; omega), if_neg (by omega), if_neg (by omega), if_neg (by omega), if_neg (by omega)]

end Sys2Proof.Machine
end

