-- ==== Sys2Proof/WellFormed.lean ====
section
/-! DEFINITION. Which commands are well formed: their operands lie in the ranges the spec gives them (partition numbers R267, page
numbers R26, queue pairs R184, ring slots R184, links R237, dies R26, page offsets R26). -/

namespace Sys2Proof

def isPart (p : Nat) : Bool := decide (p < 256)
def isPage (page : Nat) : Bool := decide (page < 131072)
/-- A page of the register window, or of the requester's own register view (R52), whose pages stand from 0x40000 up. -/
def isViewed (page : Nat) : Bool := isPage page || (decide (0x40000 ≤ page) && decide (page < 0x40400))
def isQueue (q : Nat) : Bool := decide (q < 65536)
def isSlot (slot : Nat) : Bool := decide (slot < 65536)
def isLink (n : Nat) : Bool := decide (n < 96)
def isDie (die : Nat) : Bool := decide (die < 16)
def isOff (off : Nat) : Bool := decide (off < 4096)

/-- A command whose operands are in range. -/
def Instr.wellFormed : Instr → Bool
  | .sqTail p q _ => isPart p && isQueue q
  | .cqHead p q _ => isPart p && isQueue q
  | .restart p q _ => isPart p && isQueue q
  | .skip p q _ => isPart p && isQueue q
  | .abort p q _ => isPart p && isQueue q
  | .admissionTurn => true
  | .gemm q slot => isQueue q && isSlot slot
  | .gemmPattern q slot => isQueue q && isSlot slot
  | .vector q slot => isQueue q && isSlot slot
  | .copy q slot => isQueue q && isSlot slot
  | .gather q slot => isQueue q && isSlot slot
  | .scatter q slot => isQueue q && isSlot slot
  | .scatterAdd q slot => isQueue q && isSlot slot
  | .checkScan q slot => isQueue q && isSlot slot
  | .collective q slot => isQueue q && isSlot slot
  | .update q slot => isQueue q && isSlot slot
  | .barrier q slot => isQueue q && isSlot slot
  | .localStage q slot => isQueue q && isSlot slot
  | .direct q slot => isQueue q && isSlot slot
  | .restore q slot => isQueue q && isSlot slot
  | .pair q slot => isQueue q && isSlot slot
  | .fetch q slot => isQueue q && isSlot slot
  | .statsRead q slot => isQueue q && isSlot slot
  | .eventSignal q slot => isQueue q && isSlot slot
  | .eventWait q slot => isQueue q && isSlot slot
  | .stepBoundary q slot => isQueue q && isSlot slot
  | .traceMark q slot => isQueue q && isSlot slot
  | .linkSend q slot => isQueue q && isSlot slot
  | .linkRecv q slot => isQueue q && isSlot slot
  | .commandComplete q slot => isQueue q && isSlot slot
  | .arrayPassStart page _ _ _ _ => isPage page
  | .arrayPassEnd page => isPage page
  | .tileRelease page => isPage page
  | .rerun part => isPart part
  | .assay page _ => isPage page
  | .assayDue page => isPage page
  | .hbmEccError page _ _ _ _ => isPage page
  | .sramEccError page _ _ _ _ _ => isPage page
  | .barrierTimeout part _ => isPart part
  | .stall q => isQueue q
  | .deadline q slot => isQueue q && isSlot slot
  | .eventTimeout q slot => isQueue q && isSlot slot
  | .jobStep part => isPart part
  | .start p => isPart p
  | .stop p => isPart p
  | .idleStageApply part => isPart part
  | .zeroingDone part => isPart part
  | .stagedWrite p page off _ _ => isPart p && isViewed page && isOff off
  | .discardStep p page => isPart p && isPage page
  | .discardLayer p page => isPart p && isPage page
  | .discardPass p page => isPart p && isPage page
  | .registerWrite p page off _ _ => isPart p && isViewed page && isOff off
  | .lowHalfRead p page off => isPart p && isViewed page && isOff off
  | .progressRead p page => isPart p && isViewed page
  | .sprueStatusRead p page => isPart p && isPage page
  | .hold p page => isPart p && isPage page
  | .holdDrained page => isPage page
  | .meterSel p _ => isPart p
  | .traceRdSel p _ => isPart p
  | .meltSel p die _ _ => isPart p && isDie die
  | .traceBaseWrite p off _ => isPart p && isOff off
  | .itraceEnable p page _ => isPart p && isPage page
  | .routerIdWrite p die _ => isPart p && isDie die
  | .routeDataWrite p die _ => isPart p && isDie die
  | .create p => isPart p
  | .delete p => isPart p
  | .abortAll p => isPart p
  | .unfreeze p _ => isPart p
  | .pfRelease p _ => isPart p
  | .errAck p page _ => isPart p && isPage page
  | .errAckThrough p page _ => isPart p && isPage page
  | .retrain p n => isPart p && isLink n
  | .linkCtrlProbe p n => isPart p && isLink n
  | .remeasure p => isPart p
  | .ckptRelease p => isPart p
  | .ckptNow p => isPart p
  | .fwUpdate p => isPart p
  | .cancel p => isPart p
  | .fwCheckDone => true
  | .fwFlashWriteDone _ => true
  | .fwPartitionMove part => isPart part
  | .park p => isPart p
  | .unpark p => isPart p
  | .aux p => isPart p
  | .parkEntry => true
  | .autoPark => true
  | .hbmSelfRefreshReturn => true
  | .linkLowPowerReturn => true
  | .capWWrite p _ => isPart p
  | .halt p page => isPart p && isPage page
  | .haltDrained page => isPage page
  | .resume p page => isPart p && isPage page
  | .step p page => isPart p && isPage page
  | .islHalt p page _ => isPart p && isPage page
  | .haltNoticeSend => true
  | .perstAssert => true
  | .perstRelease => true
  | .bootPhaseEnd _ => true
  | .hotReset => true
  | .flr fn => isPart fn
  | .pfFlr => true
  | .cxlLinkTraining _ _ _ _ _ => true
  | .h2dSnoop _ => true
  | .ringPoll part _ => isPart part
  | .cxlMemRead _ _ => true
  | .cxlMemWrite _ _ => true
  | .atsTranslationResponse q slot _ _ => isQueue q && isSlot slot
  | .priResponse q slot _ => isQueue q && isSlot slot
  | .atsInvalidation part _ => isPart part
  | .doeDiscovery _ => true
  | .cdatTableAccess _ => true
  | .imagePush _ _ => true
  | .getVersion => true
  | .getCapabilities => true
  | .negotiateAlgorithms => true
  | .getDigests => true
  | .getCertificate slot _ _ => decide (slot < 8)
  | .challenge slot _ => decide (slot < 8)
  | .getMeasurements _ _ _ => true
  | .entdaa _ => true
  | .rstdaa => true
  | .setEndpointId _ => true
  | .alertResponseAddress => true
  | .queryDeviceIdentifiers => true
  | .getFirmwareParameters => true
  | .requestUpdate => true
  | .passComponentTable _ => true
  | .updateComponent _ _ => true
  | .requestFirmwareData _ _ => true
  | .transferComplete => true
  | .verifyComplete => true
  | .applyComplete => true
  | .activateFirmware => true
  | .getStatus => true
  | .cancelUpdateComponent => true
  | .cancelUpdate => true
  | .getPdrRepositoryInfo => true
  | .getPdr _ => true
  | .getSensorReading _ => true
  | .getStateSensorReadings _ => true
  | .setStateEffecterStates _ _ => true
  | .setNumericEffecterValue _ _ => true
  | .getNumericEffecterValue _ => true
  | .setEventReceiver _ => true
  | .platformEventAccepted => true
  | .partnerDetect n => isLink n
  | .trainConverge n _ _ => isLink n
  | .alignLock n => isLink n
  | .trainingTimeout n => isLink n
  | .flitReceived n _ => isLink n
  | .laneSignalLoss n _ => isLink n
  | .linkWindowEval page => isPage page
  | .ident n _ _ _ _ => isLink n
  | .probe n _ _ => isLink n
  | .probeResp n _ _ _ _ => isLink n
  | .probeTick n => isLink n
  | .timeTree n _ _ _ => isLink n
  | .driftProbe => true
  | .narrow n _ => isLink n
  | .haltNotice n _ part _ _ _ => isLink n && isPart part
  | .packetForward die _ => isDie die
  | .routeStuck die => isDie die
  | .sendReq die _ => isDie die
  | .sendClear die _ => isDie die
  | .sendData die _ => isDie die
  | .sendCancel die _ => isDie die
  | .sendReject die _ => isDie die
  | .sendBusy die _ => isDie die
  | .sendRetry part => isPart part
  | .recvTimeout q slot => isQueue q && isSlot slot
  | .collReady die _ => isDie die
  | .collData die _ => isDie die
  | .collAck die _ => isDie die
  | .collSeal die _ => isDie die
  | .collCancel die _ => isDie die
  | .collectiveTimeout q slot => isQueue q && isSlot slot
  | .snapStreamDone part => isPart part
  | .ckptPushDone part => isPart part
  | .budgetWindow => true
  | .energyAttribution _ => true
  | .bandwidthInterval => true
  | .capControlTick _ _ => true
  | .inputTrip => true
  | .sensorSample _ => true
  | .thermalRelease => true
  | .flowThrottleEnd => true
  | .inputRise => true
  | .inputRange => true
  | .undervoltage => true
  | .overvoltage => true
  | .inputOff => true
  | .leak => true
  | .feedChanged _ => true
  | .refLost => true
  | .refReturn => true
  | .readyReturnDone => true
  | .d2dFail page => isPage page
  | .leakClear => true
  | .hostLinkError _ => true
  | .hdmDecoderCommit _ _ _ _ _ _ _ => true
  | .unknownDoeProtocol _ _ => true

end Sys2Proof
end

