-- ==== Sys2Proof/Tests/Slice0.lean ====
section
/-! SUPPORT. Tests: the well-formedness checks refuse an ill-formed command each, examples of the spec, and for every statement with
hypotheses states and operands that meet them, clause by clause. -/

set_option linter.all false
set_option Elab.async false

namespace Sys2Proof.Tests

open Sys2Proof Sys2Proof.Machine

/-- A module in Ready. -/
def up : State :=
  { State.reset with
    boot := { BootX.init with state := 2, phase := 5 }
    power := { PowerX.init with perst := false, state := 3 } }

/-- A module in Ready with its partition 0. -/
def run : State := { up with parts := [(0, { PartX.init with state := 2 })] }

/-- With a tenant in partition 1. -/
def two : State := { up with parts := [(0, { PartX.init with state := 2 }), (1, { PartX.init with state := 2 })] }

/-- At a time. -/
def at_ (t : Nat) (s : State) : State := { s with timeNow := t }

/-- A task of queue 0 that is served. -/
def task7 : Task :=
  { id := 7, first := 0, cls := 3, pool := false, served := true, delayed := false, refused := false, aborted := false, closed := false,
    inPlace := false, cluster := none, startT := 0, admitT := 0, lastProg := 0, poolMark := 0 }

/-- A command of an opcode in slot 0 with these fields beyond the task: a number over the whole descriptor. -/
def cmdOf (op : Nat) (ms : List Nat) (more : Nat := 0) : Cmd :=
  { slot := 0, task := 7, part := 0, desc := BitVec.ofNat 1024 (op + 7 * 2 ^ 32 + more), td0 := 0, td1 := 0, td2 := 0, admitT := 0, startT := none,
    done := false, recorded := false, code := 0, cause := 0, count := 0, runs := 0, pos := 0, members := ms, clusters := [0], haltNs := [],
    held0 := 0, ins := [], outs := [], inpl := [], fmt := 1, fmtIn0 := 1, fmtIn1 := 1, wrote := false, waitPages := [], hostPages := [],
    aliveBad := false, phase := 0 }

/-- Queue 0 with one command of that task waiting. -/
def queued (s : State) (c : Cmd) : State := s.setQueue 0 { QueueX.init with state := 2, tasks := [task7], cmds := [c] }

/-- A link in a state of LINK_STAT. -/
def linked (n st : Nat) (s : State) : State := s.setFld (linkPage n) 0 F.LINK_LINK_STAT_STATE st

/-- A packet for this module, which is module 0, from module 1; its job tag is 5. -/
def packet (kind : Nat) : Packet :=
  { destMod := 0, srcMod := 1, destPart := 0, kind := kind, jobTag := 5, key := 9, pos := 0, verdict := 0, aux := 0, len := 0, fmt := 0, data := [] }

/-- Partition 0 with job tag 5. -/
def tagged (s : State) : State := s.setReg (pgRouter 8) 0 R.ROUTER_AUTH_TAG 5

/-- A command that runs from time 0. -/
def running (c : Cmd) : Cmd := { c with startT := some 0, haltNs := [0] }

/-- A state with the sole tenant 1 selected on the PARTITION page. -/
def sel1 (s : State) : State := s.setReg pgPartition 0 R.PARTITION_PART_SEL 1

/-- PAGE_ERR of the POWER page, a setting of a temper unit, and a static setting of a busy page. -/
theorem witness_RegisterWriteFollowsAccessCode :
    (up.takesWord 0 pgPower R.HDR_PAGE_ERR = true ∧ bitsWith pgPower R.HDR_PAGE_ERR .rw1c &&& (2 ^ 32 - 1) ≠ 0) ∧
    (up.takesWord 0 66 R.TEMPER_OPT_CFG = true ∧ bitsWith 66 R.TEMPER_OPT_CFG .rw1c &&& (2 ^ 32 - 1) = 0 ∧
      stagedMask 66 R.TEMPER_OPT_CFG &&& (2 ^ 32 - 1) ≠ 0 ∧
      up.rejects 0 66 (up.bankOf 0 66 R.TEMPER_OPT_CFG) R.TEMPER_OPT_CFG (mergeStaged (stagedMask 66 R.TEMPER_OPT_CFG &&& (2 ^ 32 - 1))
        ((up.shadow? 66 (up.bankOf 0 66 R.TEMPER_OPT_CFG) R.TEMPER_OPT_CFG).getD
          (up.reg 66 (up.bankOf 0 66 R.TEMPER_OPT_CFG) R.TEMPER_OPT_CFG)) 1) = none) ∧
    ((up.setQueue 0 { QueueX.init with state := 2 }).takesWord 0 0x1E000 0x118 = true ∧
      bitsWith 0x1E000 0x118 .rw1c &&& (2 ^ 32 - 1) = 0 ∧ stagedMask 0x1E000 0x118 &&& (2 ^ 32 - 1) = 0 ∧
      bitsWith 0x1E000 0x118 .rw &&& (2 ^ 32 - 1) ≠ 0 ∧
      (up.setQueue 0 { QueueX.init with state := 2 }).busyFor 0 0x1E000 0x118 = true) := by decide +kernel

/-- DISCARD on a temper unit's page. -/
theorem witness_DiscardDropsItsKind : up.accepts 0 66 R.HDR_STAGE_CTRL = true ∧ homePage 66 = 66 ∧ isGroup (assignedType 66) = false ∧
    assignedType 66 ≠ .entry := by decide +kernel

/-- Partition 0 and the last partition; the first and the last window of a shard; the last shard. -/
theorem witness_SelectsLatchWhatTheyShow : up.takesWord 0 pgMeter R.METER_METER_SEL = true ∧ ({ two with parts := [(255, { PartX.init with state := 2 })] } : State).takesWord 255 pgMeter R.METER_METER_SEL = true ∧
    up.takesWord 0 (diePage 0 16) R.MELT_SHARD_MELT_SEL_0 = true ∧ up.takesWord 0 (diePage 3 16) (R.MELT_SHARD_MELT_SEL_0 + 4 * 7) = true ∧
    up.takesWord 0 pgPackage R.GRP_TRACE_RD_SEL = true := by decide +kernel

/-- A partition to create, one to delete, one whose host is frozen. -/
theorem witness_PartitionCommandsAct :
    ((sel1 run).takesWord 0 pgPartition R.PARTITION_PART_CTRL = true ∧ (sel1 run).takesWord 0 pgPartition R.PARTITION_UNFREEZE = true ∧
      (sel1 run).reg pgPartition 0 R.PARTITION_PART_SEL = 1 ∧ ((sel1 run).part 1).state = 0) ∧
    ((sel1 two).takesWord 0 pgPartition R.PARTITION_PART_CTRL = true ∧ (sel1 two).takesWord 0 pgPartition R.PARTITION_UNFREEZE = true ∧
      ((sel1 two).part 1).state ≠ 0) ∧
    ((two.updPart 255 (fun x => { x with hostFrozen := true })).takesWord 0 pgPartition R.PARTITION_PART_CTRL = true ∧
      (two.updPart 255 (fun x => { x with hostFrozen := true })).takesWord 0 pgPartition R.PARTITION_UNFREEZE = true ∧
      ((two.updPart 255 (fun x => { x with hostFrozen := true })).part 255).hostFrozen = true) := by decide +kernel

/-- An open record of sequence number 3. -/
def openRec : ErrRec :=
  { seq := 3, sev := 0, esc := false, notice := false, cause := 1, part := 0, infra := true, page := 0, count := 1, key := 0, time := 0,
    detail := 0, opened := true }

theorem witness_ErrorRecordsAndMemoryErrors :
    (isRingPage pgPkgErr = true ∧ (run.setRing pgPkgErr { next := 4, slots := [(3, openRec)] }).takesWord 0 pgPkgErr R.ERR_ERR_ACK = true ∧
      (svals ((run.setRing pgPkgErr { next := 4, slots := [(3, openRec)] }).ring pgPkgErr).slots).find?
        (fun e => e.seq % 2 ^ 32 = (3 : W32).toNat && e.opened) = some openRec) ∧
    run.takesWord 0 pgPkgErr R.ERR_ERR_ACK_THROUGH = true ∧
    ((two.updPart 1 (fun x => { x with pfFrozen := true })).takesWord 0 pgPkgErr R.ERR_PF_RELEASE = true ∧
      ((two.updPart 1 (fun x => { x with pfFrozen := true })).part 1).pfFrozen = true) ∧
    run.pageType (diePage 0 8) = .hbmCtrl ∧
    ((at_ 9000000000 run).pageType 0 = .core ∧ (at_ 9000000000 run).assayTime 0 + 9000000000 ≤ (at_ 9000000000 run).timeNow) := by decide +kernel

theorem witness_LinkTrainingAdvances :
    ((linked 0 1 run).ready = true ∧ 0 < (linked 0 1 run).linkCount ∧ (linked 0 1 run).linkSt 0 = 1) ∧ (linked 63 2 run).linkSt 63 = 2 ∧
    (linked 0 3 run).linkSt 0 = 3 ∧
    (∃ lim, (at_ 5000000000 (linked 0 2 run)).trainLimit 0 = some lim ∧
      ((at_ 5000000000 (linked 0 2 run)).link 0).phaseT + lim ≤ (at_ 5000000000 (linked 0 2 run)).timeNow ∧
      (at_ 5000000000 (linked 0 2 run)).fld (linkPage 0) 0 F.LINK_LINK_STAT_FAILS < 2) :=
  ⟨by decide +kernel, by decide +kernel, by decide +kernel, ⟨_, rfl, by decide +kernel, by decide +kernel⟩⟩

/-- A data flit of nothing, and with its CRC. -/
def flitBase : Flit :=
  { ftype := 1, vc := 0, sop := false, eop := false, len := 0, seq := 0, ack := 0, ackValid := false, nak := false, credit := 0, payload := [],
    crc := 0, fecOk := true, symbols := [] }

def flit0 : Flit := { flitBase with crc := BitVec.ofNat 32 (crc32c (flitBytes flitBase)) }

theorem witness_LinkInUse :
    (0 < run.linkCount ∧ (linked 0 4 run).linkSt 0 = 4 ∧ ({ flit0 with fecOk := false } : Flit).fecOk = false) ∧
    ((linked 0 5 run).linkSt 0 = 5 ∧ flit0.crc.toNat = crc32c (flitBytes flit0) ∧ flit0.seq = ((((linked 0 5 run).countSymbols 0 []).creditIn 0 flit0).link 0).rxSeq) ∧
    ((linked 0 5 run).setFld (linkPage 0) 0 F.LINK_LINK_STAT_LANES 15).linkUp 0 = true ∧
    (((linked 0 5 run).setFld (linkPage 0) 0 F.LINK_LINK_STAT_LANES 15).fld (linkPage 0) 0 F.LINK_LINK_STAT_LANES = 0xF ∧
      ((linked 0 5 run).setFld (linkPage 0) 0 F.LINK_LINK_STAT_LANES 15).fld (linkPage 0) 0 F.LINK_LINK_STAT_NARROWED ≠ 1) ∧
    (assignedType (linkPage 0) = .link ∧ 0 = 16 * (pageDie (linkPage 0) - 8) + pageUnit (linkPage 0) ∧
      ((at_ 5000000000000 (linked 0 5 run)).setLink 0 { LinkX.init with winFlits := 1000000000 }).linkUp 0 = true ∧
      0 + run.reg pgPkgErr 0 R.ERR_ERR_WINDOW_S * 1000000000 ≤ 5000000000000) := by decide +kernel

theorem witness_LinkTimeIsMeasured :
    (linked 0 4 run).linkSt 0 = 4 ∧
    ((3, 0) ∈ (((linked 0 4 run).setLink 0 { LinkX.init with probes := [(3, 0)] }).link 0).probes ∧
      (((linked 0 4 run).setLink 0 { LinkX.init with probes := [(3, 0)] }).link 0).answers < 15) ∧
    (0 < (((at_ 10000 (linked 0 5 run)).setLink 0 { LinkX.init with probeNum := 15 }).link 0).probeNum ∧
      (((at_ 10000 (linked 0 5 run)).setLink 0 { LinkX.init with probeNum := 15 }).link 0).probeT + 10000 ≤ 10000) ∧
    (1 ≠ (linked 0 4 run).moduleId ∧ (linked 0 4 run).fld (linkPage 0) 0 F.LINK_LINK_STAT_LANES ≠ 0xF) ∧
    ((linked 0 5 run).linkUp 0 = true ∧ (linked 0 5 run).isRoot = true) ∧
    (((at_ 1000000000 (linked 0 5 run)).setReg (pgTime 8) 0 R.TIME_TIME_ROOT 1).setReg (pgTime 8) 0 R.TIME_TIME_STATUS (2 ^ 24)).isRoot = false ∧
    (((at_ 1000000000 (linked 0 5 run)).setReg (pgTime 8) 0 R.TIME_TIME_ROOT 1).setReg (pgTime 8) 0 R.TIME_TIME_STATUS (2 ^ 24)).timeFld
      F.TIME_TIME_STATUS_EPOCH ≠ 0 ∧
    (((at_ 1000000000 (linked 0 5 run)).setReg (pgTime 8) 0 R.TIME_TIME_ROOT 1).setReg (pgTime 8) 0 R.TIME_TIME_STATUS (2 ^ 24)).linkUp
      (((at_ 1000000000 (linked 0 5 run)).setReg (pgTime 8) 0 R.TIME_TIME_ROOT 1).setReg (pgTime 8) 0 R.TIME_TIME_STATUS (2 ^ 24)).timeParent = true := by
  decide +kernel

/-- A cluster's control core with something running on its first core. -/
theorem witness_HaltingStopsAndResumes :
    (isDebugPage (clusterPage 0 uCtrl) = true ∧ run.takesWord 0 (clusterPage 0 uCtrl) R.DBG_DBG_CTRL = true ∧
      run.coreStopped (clusterPage 0 uCtrl) = false) ∧
    ((run.setDbg (clusterPage 0 uCtrl) { DbgX.init with halted := true }).takesWord 0 (clusterPage 0 uCtrl) R.DBG_DBG_CTRL = true ∧
      ((run.setDbg (clusterPage 0 uCtrl) { DbgX.init with halted := true }).dbgOf (clusterPage 0 uCtrl)).halted = true) ∧
    (assignedType (clusterPage 0 uCtrl) = .clusterCtrl ∧ run.accepts 0 (clusterPage 0 uCtrl) R.DBG_ISL_HALT = true) ∧
    (((run.setDbg pgPkgMgr { DbgX.init with wantHalt := true }).dbgOf pgPkgMgr).wantHalt = true ∧
      isDebugPage pgPkgMgr = true ∧ (run.setDbg pgPkgMgr { DbgX.init with wantHalt := true }).busyEngines pgPkgMgr = 0) ∧
    (run.takesWord 0 (clusterPage 0 uCtrl) R.DBG_ITRACE_CTRL = true ∧ run.reg (clusterPage 0 uCtrl) 0 R.DBG_ITRACE_CTRL = 0) := by decide +kernel

/-- A packet held since time 0 on die 8. -/
def held8 : RouteHold := { die := 8, port := 0, vc := 0, pk := packet 1, since := 0, stuck := false, owner := none }

theorem witness_PacketsAndNoticesTravel :
    (run.ready = true ∧ ({ packet 1 with destMod := 3 } : Packet).destMod ≠ run.moduleId ∧ 8 < 8 + ioDies run.n8) ∧
    (held8 ∈ ({ at_ 20000001 run with routed := [held8] } : State).routed ∧
      held8.since + 1000 * ({ at_ 20000001 run with routed := [held8] } : State).reg (pgRouter 8) 0 R.ROUTER_ROUTE_STUCK_US < 20000001) ∧
    ((at_ 250000 (run.setDbg pgPkgMgr { DbgX.init with halted := true })).haltedUnits ≠ [] ∧
      (at_ 250000 (run.setDbg pgPkgMgr { DbgX.init with halted := true })).noticeT + 250000 ≤ 250000) ∧
    (linked 0 5 run).linkUp 0 = true ∧ (linked 0 5 run).notices = [] := by decide +kernel

/-- A transfer of partition 0 with module 1, handle 9. -/
def xfer (send : Bool) (phase len : Nat) : XferX :=
  { part := 0, q := 0, slot := 0, snap := false, send := send, handle := 9, mod := 1, peerPart := 0, len := len, got := 0, fmt := 1, phase := phase,
    startT := 0, retryT := 0, src := [], base := 0 }

def withXfer (x : XferX) (s : State) : State := { s with xfers := [x] }

theorem witness_TransferPacketsAct :
    ((tagged run).takesPacket 8 (packet 0) = true ∧ ((tagged run).arrived 8 (packet 0)).snapRequest (packet 0) = false ∧
      (((tagged run).arrived 8 (packet 0)).reqs.filter (fun r => r.part = (packet 0).destPart)).length < 1024 ∧
      ((tagged run).arrived 8 (packet 0)).openWindows 0 9 = []) ∧
    ((withXfer (xfer true 1 4) (tagged run)).takesPacket 8 (packet 1) = true ∧
      ((withXfer (xfer true 1 4) (tagged run)).arrived 8 (packet 1)).sendOf (packet 1) 1 = some (xfer true 1 4)) ∧
    ((withXfer (xfer false 2 4) (tagged run)).takesPacket 8 (packet 2) = true ∧
      ((withXfer (xfer false 2 4) (tagged run)).arrived 8 (packet 2)).windowOf (packet 2) = some (xfer false 2 4) ∧
      ((withXfer (xfer false 2 4) (tagged run)).arrived 8 (packet 2)).cmd? 0 0 = none) ∧
    ((withXfer (xfer false 2 4) (tagged (queued run (cmdOf opLINK_RECV [])))).takesPacket 8 (packet 2) = true ∧
      ((withXfer (xfer false 2 4) (tagged (queued run (cmdOf opLINK_RECV [])))).arrived 8 (packet 2)).cmd? 0 0 = some (cmdOf opLINK_RECV []) ∧
      (xfer false 2 4).got + (packet 2).data.length < (xfer false 2 4).len) ∧
    ((withXfer (xfer true 2 4) (tagged run)).arrived 8 (packet 2)).xfers.find? (fun x => x.send && x.part = 0 && x.mod = 1 && x.handle = 9) =
      some (xfer true 2 4) := by decide +kernel

/-- The commands of the starting statements, each alone in queue 0 of a module in Ready. -/
def st (c : Cmd) : State := queued run c
abbrev startable (c : Cmd) (op : Nat) : Prop := (st c).starts 0 0 op c task7

/-- COPY on the first ladle of cluster 0, and a scan. -/
def ladleCmd (op : Nat) : Cmd := cmdOf op [clusterPage 0 uLadle0]

theorem witness_MovementCommandsStart :
    (startable (ladleCmd opCOPY) opCOPY ∧ (st (ladleCmd opCOPY)).sramFree 0 (ladleCmd opCOPY) = true) ∧
    (startable (ladleCmd opGATHER) opGATHER ∧ (st (ladleCmd opGATHER)).sramFree 0 (ladleCmd opGATHER) = true) ∧
    (startable (ladleCmd opSCATTER) opSCATTER ∧ (st (ladleCmd opSCATTER)).sramFree 0 (ladleCmd opSCATTER) = true) ∧
    (startable (ladleCmd opSCATTER_ADD) opSCATTER_ADD ∧ (st (ladleCmd opSCATTER_ADD)).sramFree 0 (ladleCmd opSCATTER_ADD) = true) ∧
    startable (cmdOf opCHECK_SCAN []) opCHECK_SCAN ∧ (st (ladleCmd opCOPY)).cmd? 0 0 = some (ladleCmd opCOPY) := 
  ⟨⟨by decide +kernel, by decide +kernel⟩, ⟨by decide +kernel, by decide +kernel⟩, ⟨by decide +kernel, by decide +kernel⟩,
    ⟨by decide +kernel, by decide +kernel⟩, by decide +kernel, by decide +kernel⟩

/-- UPDATE on the temper unit of cluster 0, with the roles its entries need. -/
def updCmd0 : Cmd := cmdOf opUPDATE [66] (2 ^ (8 * 0x38))
def updState : State := ((queued run updCmd0).setFld pgEntry 0 F.ENT_ENT_CTRL_ROLE roW_GRAD).setFld pgEntry 1 F.ENT_ENT_CTRL_ROLE roWEIGHT

/-- The arithmetic commands on core 0. -/
theorem witness_ArithmeticCommandsStart :
    (startable (cmdOf opGEMM [0]) opGEMM ∧ (st (cmdOf opGEMM [0])).fedReady 0 (cmdOf opGEMM [0]) = true) ∧
    (startable (cmdOf opGEMM_PATTERN [0]) opGEMM_PATTERN ∧ (st (cmdOf opGEMM_PATTERN [0])).fedReady 0 (cmdOf opGEMM_PATTERN [0]) = true) ∧
    (startable (cmdOf opVECTOR [0]) opVECTOR ∧ (st (cmdOf opVECTOR [0])).fedReady 0 (cmdOf opVECTOR [0]) = true) ∧
    (updState.starts 0 0 opUPDATE updCmd0 task7 ∧
      (updState.begun 0 updCmd0 task7).updBad 0 (updState.begunCmd 0 updCmd0 task7) = false ∧
      ((updState.begun 0 updCmd0 task7).part 0).sealOut = soNone) ∧
    ((st (cmdOf opVECTOR [0])).begun 0 (cmdOf opVECTOR [0]) task7).planeOut 0 ((st (cmdOf opVECTOR [0])).begunCmd 0 (cmdOf opVECTOR [0]) task7) =
      none := by decide +kernel

/-- An EVENT_WAIT for 1 at address 0, and one for nothing. -/
def waitCmd (v : Nat) : Cmd := cmdOf opEVENT_WAIT [] (v * 2 ^ (8 * 0x58))

theorem witness_OrderingCommandsStart :
    (startable (cmdOf opTRACE_MARK []) opTRACE_MARK ∧ (st (cmdOf opTRACE_MARK [])).reached 0 (cmdOf opTRACE_MARK []) = true) ∧
    (startable (cmdOf opEVENT_SIGNAL []) opEVENT_SIGNAL ∧ (st (cmdOf opEVENT_SIGNAL [])).reached 0 (cmdOf opEVENT_SIGNAL []) = true ∧
      ((st (cmdOf opEVENT_SIGNAL [])).begun 0 (cmdOf opEVENT_SIGNAL []) task7).eventIn
        ((st (cmdOf opEVENT_SIGNAL [])).begunCmd 0 (cmdOf opEVENT_SIGNAL []) task7) = true) ∧
    (startable (waitCmd 0) opEVENT_WAIT ∧ ((st (waitCmd 0)).begun 0 (waitCmd 0) task7).eventIn ((st (waitCmd 0)).begunCmd 0 (waitCmd 0) task7) = true ∧
      dField (waitCmd 0).desc 0x58 64 ≤ ((st (waitCmd 0)).begun 0 (waitCmd 0) task7).rdLE 0 (dAddr (waitCmd 0).desc 0) 8) ∧
    (startable (waitCmd 1) opEVENT_WAIT ∧ ((st (waitCmd 1)).begun 0 (waitCmd 1) task7).rdLE 0 (dAddr (waitCmd 1).desc 0) 8 <
      dField (waitCmd 1).desc 0x58 64) ∧
    (startable (cmdOf opBARRIER []) opBARRIER ∧ (st (cmdOf opBARRIER [])).reached 0 (cmdOf opBARRIER []) = true ∧
      ((st (cmdOf opBARRIER [])).begun 0 (cmdOf opBARRIER []) task7).bar? 0 (dField (cmdOf opBARRIER []).desc 0x54 16) = none) ∧
    (startable (cmdOf opSTEP_BOUNDARY []) opSTEP_BOUNDARY ∧ (st (cmdOf opSTEP_BOUNDARY [])).reached 0 (cmdOf opSTEP_BOUNDARY []) = true ∧
      ((st (cmdOf opSTEP_BOUNDARY [])).begun 0 (cmdOf opSTEP_BOUNDARY []) task7).bar? 0 (dField (cmdOf opSTEP_BOUNDARY []).desc 0x54 16) = none) ∧
    startable (ladleCmd opSTATS_READ) opSTATS_READ := by decide +kernel

/-- A core ready for a pass of 32 vectors, one in a pass, and one with a finished tile of a command. -/
def passReady : State := run.setFld 0 0 F.CORE_PASS_CFG_VECTORS 32
def passRuns : State := run.setFld 0 0 F.CORE_ARRAY_STATE_STATE 1
def tile0 : Tile :=
  { q := 0, slot := 0, page := 0, index := 0, t := 0, epoch := 0, m0 := 0, n0 := 0, mLen := 1, nLen := 1, batch := [], vals := [0], left := 0,
    passes := 1, half := 0 }
def tileCmd : Cmd := running (cmdOf opGEMM [0])
def tileState : State := { queued run tileCmd with tiles := [tile0] }
def doneCmd : Cmd := { running (cmdOf opTRACE_MARK []) with done := true }

theorem witness_PassesAndTiles :
    (passReady.pageType 0 = .core ∧ passReady.fld 0 0 F.CORE_ARRAY_STATE_STATE = 0 ∧ passReady.islHalted 0 = false ∧
      passReady.assayHolds 0 = false ∧ passReady.assayFirst 0 = false ∧ passReady.fld 0 0 F.CORE_PASS_CFG_VECTORS ≠ 0 ∧ passReady.passAligned 0 = true ∧
      passReady.patPass 0 = false ∧ passReady.arrayBad 0 0 = false ∧ passReady.fld 0 0 F.CORE_PASS_CFG_FEED = 0) ∧
    (passRuns.pageType 0 = .core ∧ passRuns.fld 0 0 F.CORE_ARRAY_STATE_STATE = 1 ∧ passRuns.islHalted 0 = false ∧ passRuns.assayFirst 0 = false ∧
      passRuns.patPass 0 = false ∧ passRuns.passTile 0 = none) ∧
    (tileState.tiles.find? (fun t => t.page = 0 && t.left = 0 && !tileState.islHalted 0 && !tileState.assayFirst 0) = some tile0 ∧
      tileState.cmd? 0 0 = some tileCmd ∧ tile0.epoch = tileState.fld 0 0 F.CORE_ARRAY_CFG_EPOCH ∧
      tileBlocksOk tileCmd.fmt (dField tileCmd.desc 0x5A 8) (tileState.runOf tileCmd).pat tile0 = true) ∧
    ((queued run doneCmd).cmd? 0 0 = some doneCmd ∧ doneCmd.done = true ∧ doneCmd.startT.isSome = true ∧ (queued run doneCmd).layerOpen 0 doneCmd = false ∧
      (queued run doneCmd).ringWaits 0 = false ∧ (∀ m ∈ doneCmd.members, (queued run doneCmd).islHalted m = false) ∧
      (queued run doneCmd).compares doneCmd = none ∧ isListMove (dOpcode doneCmd.desc) = false ∧ closesTask (dOpcode doneCmd.desc) = false) := by
  decide +kernel

/-- A command with a deadline of 5, an event wait with a time limit of 1 µs, a stalled task, and a barrier that waits. -/
def lateCmd : Cmd := cmdOf opTRACE_MARK [] (5 * 2 ^ (8 * 0x48))
def limitCmd : Cmd := running (cmdOf opEVENT_WAIT [] (2 ^ (8 * 0x58) + 2 ^ (8 * 0x60)))
def stalled : State := at_ 1000000000 (queued run (cmdOf opTRACE_MARK []))
def bar0 : Bar := { part := 0, id := 0, first := 0, last := 0, arrivals := [Arrival.mk 0 0 1 false false false], later := [] }
def barState : State := { at_ 10000000000000 (queued run (running (cmdOf opBARRIER []))) with bars := [bar0] }

theorem witness_TimeLimitsAbort :
    ((at_ 5 (queued run lateCmd)).cmd? 0 0 = some lateCmd ∧ dDeadline lateCmd.desc ≠ 0 ∧ dDeadline lateCmd.desc ≤ 5) ∧
    ((at_ 2000 (queued run limitCmd)).cmd? 0 0 = some limitCmd ∧ dField limitCmd.desc 0x60 32 ≠ 0 ∧
      (at_ 2000 (queued run limitCmd)).rdLE 0 (dAddr limitCmd.desc 0) 8 < dField limitCmd.desc 0x58 64 ∧
      0 + 1000 * dField limitCmd.desc 0x60 32 + (((at_ 2000 (queued run limitCmd)).part 0).heldNs - limitCmd.held0) ≤ 2000) ∧
    ((stalled.queue 0).tasks.head? = some task7 ∧ stalled.qreg 0 R.QCTX_QLIMITS % 65536 ≠ 0 ∧ (stalled.queue 0).frozen = false ∧
      (stalled.queue 0).state ≠ 3 ∧
      (∃ c ∈ (stalled.queue 0).cmds, c.task = task7.id ∧ c.recorded = false ∧ closesTask (dOpcode c.desc) = false ∧ waitsLong (dOpcode c.desc) = false) ∧
      task7.lastProg + 1000000 * (stalled.qreg 0 R.QCTX_QLIMITS % 65536) ≤ stalled.timeNow) ∧
    (barState.bar? 0 0 = some bar0 ∧ bar0.arrivals ≠ [] ∧
      bar0.first + 1000 * barState.reg (barState.barrierPage 0 (bar0.arrivals.head?.bind (fun a => (barState.cmd? a.q a.slot).bind (fun c =>
        findTask (barState.queue a.q).tasks c.task)))) 0 R.BARRIER_BAR_TIMEOUT ≤ barState.timeNow) := by decide +kernel

/-- A move that waits for the answers about host pages 4 and 7: page 4 by translation, page 7 by page request. -/
def hostCmd (l : List Nat) : Cmd := { running (cmdOf opCOPY [clusterPage 0 uLadle0]) with waitPages := l }

theorem witness_TranslationsOfAMove :
    ((queued run (hostCmd [8])).cmd? 0 0 = some (hostCmd [8]) ∧ 2 * 4 ∈ (hostCmd [8]).waitPages) ∧
    ((queued run (hostCmd [8, 15])).cmd? 0 0 = some (hostCmd [8, 15]) ∧ 1 < (hostCmd [8, 15]).waitPages.length ∧
      (∀ m ∈ (hostCmd [8, 15]).members, assignedType m = .ladle) ∧ (hostCmd [8, 15]).waitPages.find? (fun w => w % 2 = 1) = some 15 ∧
      (hostCmd [8, 15]).phase ≤ 1) := by decide +kernel

def inPower (st : Nat) (s : State) : State := { s with power := { s.power with state := st } }

theorem witness_ParkingAndReturn :
    (run.takesWord 0 pgPower R.POWER_POWER_CTRL = true ∧ run.power.state = 3 ∧ run.parkOk = true) ∧
    ((inPower 4 run).takesWord 0 pgPower R.POWER_POWER_CTRL = true ∧ (inPower 4 run).power.state = 4) ∧ run.mainOn = true ∧
    ((inPower 6 run).power.state = 6 ∧ (inPower 6 run).parkOk = true) ∧
    ((at_ 100000000000 (run.setFld pgPower 0 F.POWER_POWER_CFG_AUTO_PARK 1)).fld pgPower 0 F.POWER_POWER_CFG_AUTO_PARK = 1 ∧
      (at_ 100000000000 (run.setFld pgPower 0 F.POWER_POWER_CFG_AUTO_PARK 1)).parkOk = true ∧
      (at_ 100000000000 (run.setFld pgPower 0 F.POWER_POWER_CFG_AUTO_PARK 1)).power.idleSince +
        1000000 * (at_ 100000000000 (run.setFld pgPower 0 F.POWER_POWER_CFG_AUTO_PARK 1)).reg pgPower 0 R.POWER_AUTO_PARK_MS ≤ 100000000000) ∧
    (({ inPower 4 run with power := { (inPower 4 run).power with hbmUsed := some 0, linksUsed := some 0 } } : State).power.hbmUsed = some 0 ∧
      ({ inPower 4 run with power := { (inPower 4 run).power with hbmUsed := some 0, linksUsed := some 0 } } : State).power.linksUsed = some 0) ∧
    ((inPower 5 run).power.state = 5 ∧ (inPower 5 run).power.parkWait = false) ∧
    (run.takesWord 0 pgPower R.POWER_CAP_W = true ∧ run.reg pgPower 0 R.POWER_CAP_W < 8192 ∧ 2000 ≤ (2000 : W32).toNat ∧ (4000 : W32).toNat ≤ 4000) := by
  decide +kernel

theorem witness_ResetAndPower :
    run.power.perst = false ∧
    (State.reset.power.perst = true ∧ State.reset.power.inputOn = true ∧ State.reset.refPresent = true ∧ State.reset.power.state = 1) ∧
    (({ State.reset with boot := { BootX.init with state := 1, phase := 3 }, power := { PowerX.init with state := 2 } } : State).boot.state = 1 ∧
      ({ State.reset with boot := { BootX.init with state := 1, phase := 3 }, power := { PowerX.init with state := 2 } } : State).power.state = 2 ∧
      ({ State.reset with boot := { BootX.init with state := 1, phase := 5 }, power := { PowerX.init with state := 2 } } : State).boot.phase = 5) ∧
    (run.mainOn = true ∧ run.fld pgPower 0 F.POWER_POWER_STATUS_INPUT_RANGE ≠ 1) ∧
    (({ State.reset with power := { PowerX.init with inputOn := false, state := 0 } } : State).power.inputOn = false ∧
      ({ State.reset with power := { PowerX.init with inputOn := false, state := 0 } } : State).power.bootWait = false) := by
  decide +kernel

/-- A module whose host link is up in CXL mode. -/
def onCxl (s : State) : State := { s with cxl := { CxlX.init with linkUp := true, cxlMode := true, vfEnable := true } }

theorem witness_HostLinkEvents :
    (run.linkCanTrain = true ∧ run.fld pgCxl 0 F.CXL_CXL_CFG_MODE = 0) ∧
    ((onCxl run).cxl.linkUp = true ∧ (onCxl run).cxl.cxlMode = true ∧ (onCxl run).ready = true ∧ (onCxl run).cxl.decoders = [] ∧
      0 % seg256M = 0 ∧ seg256M % seg256M = 0 ∧ 0 < seg256M ∧ (onCxl run).dpaBefore 0 + seg256M ≤ hbmBytes (onCxl run).n8 ∧ 1 % seg256M ≠ 0) := by
  decide +kernel

/-- With the first 256 MiB of HBM at host address 0. -/
def mapped : State := { onCxl run with cxl := { (onCxl run).cxl with decoders := [(0, [0, seg256M, 0, 1, 256, 0])] } }

theorem witness_HostMemoryAndFunctionResets :
    ((mapped.ready = true ∧ mapped.cxl.linkUp = true ∧ mapped.cxl.cxlMode = true ∧
      ((List.range 4).filterMap (fun i => mapped.dpa (0 + i))).length = 4 ∧ mapped.hbmBad = [] ∧ mapped.queues = [])) ∧
    State.reset.ready = false ∧ (onCxl run).cxl.vfEnable = true := by decide +kernel

/-- An I/O module in recovery with the host link up. -/
def recovering : State :=
  { onCxl State.reset with boot := { BootX.init with state := 3, pushAt := some 8 }, power := { PowerX.init with perst := false, state := 2 } }

theorem witness_RequestsAreAnswered :
    ((onCxl run).cxl.linkUp = true ∧ (∃ x, (onCxl run).doeProtocols[0]? = some x) ∧ (9, 9) ∉ (onCxl run).doeProtocols) ∧
    (recovering.cxl.linkUp = true ∧ recovering.boot.state = 3 ∧ (8 : W32).toNat = recovering.boot.pushAt.getD 0 ∧
      (8 : W32).toNat + [(0 : Byte), 0, 0, 0].length ≤ imageMax) ∧
    (run.power.inputOn = true ∧ 3 ≤ run.boot.phase) :=
  ⟨⟨by decide +kernel, ⟨_, rfl⟩, by decide +kernel⟩, by and_intros <;> decide +kernel, by and_intros <;> decide +kernel⟩

def pldm (st comp size got : Nat) : State :=
  { run with fw := { FwX.init with pldmState := st, pldmComp := comp, pldmSize := size, pldmGot := got } }

theorem witness_PldmUpdateSteps :
    (run.power.inputOn = true ∧ run.fw.pldmState = 0 ∧ run.fwState = 0) ∧
    ((pldm 2 0 0 0).fw.pldmState = 2 ∧ (pldm 2 0 0 0).compOk 3 = true ∧ 4 ≤ compMax 3) ∧
    ((pldm 3 3 4 0).fw.pldmState = 3 ∧ (pldm 3 3 4 0).fw.pldmComp ≠ 1 ∧
      [(0 : Byte), 0, 0, 0].length = min 1024 ((pldm 3 3 4 0).fw.pldmSize - (pldm 3 3 4 0).fw.pldmGot)) ∧
    ((pldm 3 3 4 4).fw.pldmGot = (pldm 3 3 4 4).fw.pldmSize) ∧ (pldm 4 3 4 4).fw.pldmState = 4 ∧
    ((pldm 5 3 4 4).fw.pldmState = 5 ∧ (pldm 5 3 4 4).fw.pldmComp = 3) ∧ ((pldm 6 3 4 4).fw.pldmState = 6 ∧ (pldm 6 3 4 4).fw.byPldm = false) := by
  decide +kernel

theorem witness_ControlWritesAct :
    (isGroup (assignedType 0) = false ∧ assignedType 0 ≠ .entry ∧ homePage 0 = 0 ∧ run.accepts 0 0 R.HDR_PAGE_CTRL = true) ∧
    ((run.setFld 0 0 F.HDR_PAGE_CTRL_HOLD 1).pageType 0 ≠ .absent ∧
      (run.setFld 0 0 F.HDR_PAGE_CTRL_HOLD 1).fld 0 (hdrBank 0 0) F.HDR_PAGE_CTRL_HOLD = 1 ∧ (run.setFld 0 0 F.HDR_PAGE_CTRL_HOLD 1).pageBusy 0 0 = false) ∧
    (run.takesWord 0 pgPackage R.GRP_TRACE_BASE = true ∧ run.traceFits 0 R.GRP_TRACE_BASE 4096 = true ∧
      run.takesWord 0 pgPackage R.GRP_ITRACE_BASE = true ∧ run.traceFits 0 R.GRP_ITRACE_BASE 0 = true) ∧
    (8 < 8 + ioDies run.n8 ∧ run.takesWord 0 (pgRouter 8) R.ROUTER_ROUTER_ID = true ∧ run.upLinks = [] ∧
      run.busyFor 0 (pgRouter 8) R.ROUTER_ROUTER_ID = false ∧ run.takesWord 0 (pgRouter 11) R.ROUTER_ROUTER_ID = true ∧ 3 < ioDies run.n8) ∧
    (run.takesWord 0 (pgRouter 11) R.ROUTER_ROUTE_DATA = true ∧ run.reg (pgRouter 11) 0 R.ROUTER_ROUTE_SEL < 2 ^ 14) ∧
    (63 < run.linkCount ∧ run.takesWord 0 (linkPage 63) R.LINK_LINK_CTRL = true ∧
      (run.setFld (linkPage 63) 0 F.LINK_LINK_CFG_ENABLE 1).fld (linkPage 63) 0 F.LINK_LINK_CFG_ENABLE = 1 ∧
      (linked 0 5 run).takesWord 0 (linkPage 0) R.LINK_LINK_CTRL = true ∧ (linked 0 5 run).linkSt 0 = 5) ∧
    (run.takesWord 0 (pgTime 8) R.TIME_TIME_CTRL = true ∧ run.isRoot = true) ∧
    (run.takesWord 0 pgSnapshot R.SNAPSHOT_CKPT_CTRL = true ∧
      ((run.updSnap 0 (fun x => { x with held := true })).part 0).snap.held = true ∧
      (run.updSnap 0 (fun x => { x with held := true })).takesWord 0 pgSnapshot R.SNAPSHOT_CKPT_CTRL = true) := by decide +kernel

/-- An update of 1 KiB from address 0 in a state of FW_STATUS. -/
def updating (v : Nat) : State := (run.setReg pgPkgMgr 0 R.PKG_MGR_FW_LEN 1024).setFwState v

theorem witness_FirmwareUpdateActs :
    ((updating 0).takesWord 0 pgPkgMgr R.PKG_MGR_FW_CTRL = true ∧ (updating 0).fwState = 0 ∧ (updating 0).reg pgPkgMgr 0 R.PKG_MGR_FW_PENDING = 0 ∧
      (updating 0).reg pgPkgMgr 0 R.PKG_MGR_FW_LEN ≠ 0 ∧ isHost ((updating 0).reg pgPkgMgr 0 R.PKG_MGR_FW_SRC) = false ∧
      (updating 0).inReservation 0 ((updating 0).reg pgPkgMgr 0 R.PKG_MGR_FW_SRC)
        ((updating 0).reg pgPkgMgr 0 R.PKG_MGR_FW_SRC + (updating 0).reg pgPkgMgr 0 R.PKG_MGR_FW_LEN - 1) = true) ∧
    ((updating 1).takesWord 0 pgPkgMgr R.PKG_MGR_FW_CTRL = true ∧ (updating 1).fwState = 1 ∧ (updating 1).pkgStopped = false ∧
      imageCheck (updating 1).boot.minSvn (updating 1).boot.revoked (updating 1).fwSrc ≠ 0) ∧
    ((updating 2).fwState = 2 ∧ (updating 2).fw.byPldm = false) ∧
    (((run.updPart 0 (fun x => { x with fwPending := true })).part 0).state ≠ 0 ∧
      ((run.updPart 0 (fun x => { x with fwPending := true })).part 0).fwPending = true ∧
      (run.updPart 0 (fun x => { x with fwPending := true })).partIdle 0 = true ∧ (run.updPart 0 (fun x => { x with fwPending := true })).pkgStopped = false) := by
  decide +kernel

/-- A runner in a state of JR_STATUS. -/
def runner (v : Nat) (s : State) : State := s.setJrState 0 v

theorem witness_RunnerRunsItsPlan :
    (run.accepts 0 pgJobRunner R.JOB_RUNNER_JR_CTRL = true ∧ (run.part 0).state ≠ 0 ∧ (run.part 0).pfFrozen = false ∧ run.jrState 0 = 0 ∧
      run.wake.planOk 0 (run.wake.reg pgJobRunner 0 R.JOB_RUNNER_PLAN_BASE) (run.wake.rdBytes 0 (run.wake.reg pgJobRunner 0 R.JOB_RUNNER_PLAN_BASE) 128) =
        false) ∧
    ((runner 1 run).accepts 0 pgJobRunner R.JOB_RUNNER_JR_CTRL = true ∧ (runner 1 run).jrState 0 = 1) ∧
    ((runner 1 (inPower 4 run)).jrState 0 = 1 ∧ (runner 1 (inPower 4 run)).ready = true ∧ (runner 1 (inPower 4 run)).power.state ≠ 3) ∧
    ((runner 1 (run.updJr 0 (fun j => { j with stopReq := true }))).power.state = 3 ∧
      ((runner 1 (run.updJr 0 (fun j => { j with stopReq := true }))).jrQueues 0 ((runner 1 run).jr 0).plan).getD [] = [] ∧
      ((runner 1 (run.updJr 0 (fun j => { j with stopReq := true }))).jr 0).stopReq = true ∧
      ((runner 1 (run.updJr 0 (fun j => { j with stopReq := true }))).jr 0).todo = [] ∧
      ((runner 1 (run.updJr 0 (fun j => { j with stopReq := true }))).jr 0).phase = 0 ∧
      ((runner 1 (run.updJr 0 (fun j => { j with stopReq := true }))).jr 0).uses = []) ∧
    (((runner 1 run).jr 0).todo = [] ∧ ((runner 1 run).jr 0).phase = 0 ∧ ((runner 1 run).jr 0).stopReq = false ∧ ((runner 1 run).jr 0).stepCount = 0) ∧
    ((runner 3 (run.updJr 0 (fun j => { j with plan := List.replicate 0x38 0 ++ [1] }))).cxl.cxlMode = false ∧
      (runner 3 (run.updJr 0 (fun j => { j with plan := List.replicate 0x38 0 ++ [1] }))).jrState 0 = 3 ∧
      0 < fieldOf ((runner 3 (run.updJr 0 (fun j => { j with plan := List.replicate 0x38 0 ++ [1] }))).jr 0).plan 0x38 1) := by decide +kernel

/-- Queue 0 enabled with a ring of 16, its task aborted or alive. -/
def ringOf16 (s : State) : State := s.setReg (queuePage 0) 0 (queueOff 0 + R.QCTX_QCFG) (1 + 4 * 16)
def rung (x : QueueX) : State := ringOf16 (run.setQueue 0 x)
def paused : QueueX := { QueueX.init with state := 3, tasks := [{ task7 with aborted := true }] }
def alive : QueueX := { QueueX.init with state := 2, tasks := [task7], cmds := [cmdOf opTRACE_MARK []] }

theorem witness_QueueCommandsAct :
    ((rung QueueX.init).ready = true ∧ ((rung QueueX.init).part 0).state ≠ 0 ∧ ((rung QueueX.init).part 0).hostFrozen = false ∧
      (rung QueueX.init).queueOwner 0 = 0 ∧ (rung QueueX.init).qEnabled 0 = true ∧ (15 : W32).toNat % 65536 < (rung QueueX.init).qSize 0 ∧
      (15 : W32).toNat % 65536 ≠ ((rung QueueX.init).queue 0).tail ∧ ((rung QueueX.init).queue 0).ringFault = false ∧
      (rung QueueX.init).qSize 0 ≤ (16 : W32).toNat % 65536) ∧
    ((rung paused).qEnabled 0 = true ∧ ((rung paused).queue 0).state = 3 ∧ ((rung paused).queue 0).aborted? = some { task7 with aborted := true } ∧
      ((rung paused).queue 0).cmds = [] ∧ ((rung paused).queue 0).rd = ((rung paused).queue 0).tail) ∧
    ((rung alive).qEnabled 0 = true ∧ ((rung alive).queue 0).state = 2 ∧ ((rung alive).queue 0).liveTask? = some task7 ∧
      findTask ((rung alive).queue 0).tasks 7 = some task7) ∧
    (((rung QueueX.init).enqueue 0).adm.fifo = [0] ∧ (((rung QueueX.init).enqueue 0).queue 0).rd = (((rung QueueX.init).enqueue 0).queue 0).tail) := by
  decide +kernel

/-- A collective of two members that runs since time 0. -/
def coll0 (closing : Bool) : CollX :=
  { part := 0, q := 0, slot := 0, group := 0, seq := 0, kind := 1, tree := false, wire := 0, closing := closing, members := [0, 1], me := 0, len := 0,
    timeout := 5, ready := [], retryT := 0, retry := [], outq := [], counts := [], parts := [], finals := [], sent := 0, verdict := 0, acks := [],
    acked := false, startT := 0, heldNs := 0, heldTo := 0, phase := 1 }

def collState (c : CollX) : State := { tagged run with colls := [c] }
def collPk : Packet := { packet pkCOLL_READY with key := BitVec.ofNat 64 (coll0 true).key, aux := 1, fmt := 2 }

theorem witness_CollectivesAct :
    (startable (cmdOf opCOLLECTIVE []) opCOLLECTIVE ∧
      dFlag (cmdOf opCOLLECTIVE [] (2 ^ (16 + flCLOSING))).desc flCLOSING = true) ∧
    ((collState (coll0 true)).takesPacket 8 collPk = true ∧ ((collState (coll0 true)).arrived 8 collPk).collOf collPk = some (coll0 true) ∧
      collPk.aux.toNat ≠ groupCrc (coll0 true).members ∧ collPk.fmt ≠ (coll0 true).kind ∧ (coll0 true).closing = true) ∧
    ((tagged run).takesPacket 8 collPk = true ∧ ((tagged run).arrived 8 collPk).collOf collPk = none ∧ ((tagged run).arrived 8 collPk).isEarly collPk = true ∧
      (((tagged run).arrived 8 collPk).earlyReady.filter (fun r => r.part = collPk.destPart && r.pk.kind = pkCOLL_READY)).length < 256) ∧
    ((at_ 5000 (collState (coll0 true))).coll? 0 0 = some (coll0 true) ∧ (coll0 true).remaining 5000 = 0 ∧ 0 < (coll0 false).remaining 4999) := by
  decide +kernel

/-- The last entry, with every rung allowed, and a command that ran on the lowest. -/
def wideEntry : State := run.setReg pgEntry 65535 R.ENT_ENT_CTRL (3 * 2 ^ 15)
def lowCmd : Cmd := { cmdOf opGEMM [0] with fmt := 6 }

def rerunPart : State := run.updPart 0 (fun x => { x with rerunWanted := [8] })

theorem witness_HealthAndReruns :
    ((run.updCore 0 (fun c => { c with assayDue := true })).pageType 0 = .core ∧ (run.updCore 0 (fun c => { c with assayDue := true })).islHalted 0 = false ∧
      ((run.updCore 0 (fun c => { c with assayDue := true })).core 0).assayDue = true ∧ run.bars = []) ∧
    run.pageType (clusterPage 0 uCtrl) = .clusterCtrl ∧ run.pageType (clusterPage 0 uSram) = .clusterSram ∧
    (run.ready = true ∧ (run.part 0).state ≠ 0 ∧ run.partIdle 0 = true ∧ run.pkgStopped = false) ∧
    ((two.updPart 1 (fun x => { x with zeroing := [(0, 64)] })).part 1).zeroing ≠ [] ∧
    (((rerunPart.part 0).rerunWanted ≠ []) ∧ ∀ w ∈ (rerunPart.part 0).rerunWanted, rerunPart.dieStopped (w / 8 / 16384) = false) ∧
    (wideEntry.stuck lowCmd 65535 = false ∧ wideEntry.entRole 65535 ≠ roWEIGHT) ∧
    (queued run (cmdOf opGEMM [0])).cmd? 0 0 = some (cmdOf opGEMM [0]) := by decide +kernel

/-- A plan at address 0: version 1, a step, a queue. -/
def planned : State := { run with hbm := [(0, 1), (0x14, 1), (0x17, 1), (0x1C, 1), (0x3A, 1)] }

def hotState : State := { at_ 2000000000 run with power := { run.power with hotJ := true, coolJ := 1, throttle := true, flowOk := some 0 } }
def hotSample (v : Int) : Sensors := { temps := [(0, v)], inlet := 320, outlet := 400, flow := 6000, mw := 1, mv := 60000, ma := 1 }

theorem witness_PowerAndCoolingAct :
    (run.ready = true ∧ 1000 * run.effectiveCap < 4000001) ∧
    (run.power.inputOn = true ∧ run.mainOn = true ∧ (∀ e ∈ (run.showSample (hotSample 1599)).power.temps, e.2 < 1600) ∧
      1680 ≤ (hottest ((run.showSample (hotSample 1680)).power.temps.filter (fun (e : Nat × Int) => !isHbmSel e.1))).getD 0) ∧
    (hotState.mainOn = true ∧ hotState.power.hotJ = true ∧ hotState.power.coolJ ≠ 0 ∧ hotState.power.coolJ + 1000000000 ≤ hotState.timeNow ∧
      hotState.power.throttle = true ∧ spanFor hotState.power.flowOk hotState.timeNow 1000000000 = true) ∧
    (run.fld pgPower 0 F.POWER_POWER_CFG_LEAK_SHUTDOWN = 1 ∧
      (run.setFld pgPower 0 F.POWER_POWER_CFG_LEAK_SHUTDOWN 0).fld pgPower 0 F.POWER_POWER_CFG_LEAK_SHUTDOWN = 0 ∧ run.refPresent = true ∧
      ({ run with refPresent := false } : State).mainOn = true) ∧
    run.pageType (diePage 0 28) = .d2d := by decide +kernel

theorem witness_MetersAct :
    ((at_ 3600000000000 run).ready = true ∧ (at_ 3600000000000 run).timeNow / (1000000000 * max 1 ((at_ 3600000000000 run).reg pgPartition 0
      R.PARTITION_BUDGET_WINDOW_S)) ≠ (at_ 3600000000000 run).adm.window) ∧
    (run.setDbg pgPkgMgr { DbgX.init with halted := true }).pkgStopped = true ∧ (run.pkgStopped = false ∧ run.partNums = [0]) := by decide +kernel

theorem witness_ReadsAct :
    (run.viaView 0 pgMeter = pgMeter ∧ R.METER_ENERGY_TOTAL_MJ ≠ R.HDR_PROGRESS ∧ sget run.latches (latchKey 0 pgMeter R.METER_ENERGY_TOTAL_MJ) = none) ∧
    sget ({ run with latches := [(latchKey 0 pgMeter 0x104, 7)] } : State).latches (latchKey 0 pgMeter 0x104) = some 7 ∧
    ((regDesc? (run.pageType (homePage pgMeter)) R.METER_ENERGY_TOTAL_MJ).any (fun r => r.width = 64) = true ∧ R.METER_ENERGY_TOTAL_MJ % 8 = 0) ∧
    (2 % 4 ≠ 0 ∧ run.pageType (homePage pgMeter) ≠ .absent) ∧ (run.pageType 0 = .core ∧ run.mayRead 0 0 R.CORE_SPRUE_STATUS = true) := by decide +kernel

theorem witness_SidebandIsAnswered :
    (run.power.inputOn = true ∧ run.sb.i3c = false) ∧ ({ run with sb := { SbX.init with i3c := true } } : State).sb.i3c = true ∧
    ({ run with sb := { SbX.init with events := [(10, 2)] } } : State).sb.events = (10, 2) :: [] ∧
    run.sensorValid 1 = true ∧ run.sensorValid 9 = true ∧ run.sensorValid 10 = true ∧ run.sensorValid 12 = true ∧
    State.reset.power.inputOn = true ∧ State.reset.sensorValid 1 = false := by decide +kernel

/-- A SNAPSHOT command of a mode, without a partner or with this module's partition 0 or module 1's. -/
def snapCmd (mode partner : Nat) : Cmd := cmdOf opSNAPSHOT [] (mode * 2 ^ (8 * 0x54) + partner * 2 ^ (8 * 0x58))
def sentX : XferX := { xfer true 2 4 with q := streamQ 0 }
def pushing : State := run.updSnap 0 (fun x => { x with pushing := true })

theorem witness_SnapshotsAct :
    (startable (snapCmd 1 (2 ^ 63)) opSNAPSHOT ∧ snMode (snapCmd 1 (2 ^ 63)).desc = 1 ∧ (st (snapCmd 1 (2 ^ 63))).aloneIn 0 (snapCmd 1 (2 ^ 63)) = true ∧
      (st (snapCmd 1 (2 ^ 63))).stageBusy 0 = false ∧ snNone (snapCmd 1 (2 ^ 63)).desc = true) ∧
    (startable (snapCmd 2 (2 ^ 63)) opSNAPSHOT ∧ snMode (snapCmd 2 (2 ^ 63)).desc = 2 ∧ (st (snapCmd 2 (2 ^ 63))).aloneIn 0 (snapCmd 2 (2 ^ 63)) = true) ∧
    (startable (snapCmd 3 0) opSNAPSHOT ∧ snMode (snapCmd 3 0).desc = 3 ∧ (st (snapCmd 3 0)).aloneIn 0 (snapCmd 3 0) = true) ∧
    (startable (snapCmd 4 1) opSNAPSHOT ∧ snMode (snapCmd 4 1).desc = 4 ∧
      ((st (snapCmd 4 1)).begun 0 (snapCmd 4 1) task7).reaches (bitsOf (snPartner (snapCmd 4 1).desc) 13 0) = false) ∧
    (startable (snapCmd 5 0) opSNAPSHOT ∧ snMode (snapCmd 5 0).desc = 5 ∧ (st (snapCmd 5 0)).stageBusy 0 = false ∧ snNone (snapCmd 5 0).desc = false ∧
      ((st (snapCmd 5 0)).begun 0 (snapCmd 5 0) task7).reaches (bitsOf (snPartner (snapCmd 5 0).desc) 13 0) = true ∧
      ((st (snapCmd 5 0)).begun 0 (snapCmd 5 0) task7).authorised 0 (bitsOf (snPartner (snapCmd 5 0).desc) 13 0) = true) ∧
    (withXfer sentX run).xfers.find? (fun x => x.q = streamQ 0 && x.phase = 2 && !(withXfer sentX run).sendOpen x.q x.slot) = some sentX ∧
    (pushing.part 0).snap.pushing = true := by decide +kernel

/-- A LINK_SEND to a module, and a LINK_RECV with a limit of 1 µs. -/
def sendCmd (mod : Nat) : Cmd := cmdOf opLINK_SEND [] (mod * 2 ^ (8 * 0x54))
def recvCmd : Cmd := running (cmdOf opLINK_RECV [] (2 ^ (8 * 0x60)))
def retrying : State := at_ 10000 (withXfer (xfer true 3 4) run)

theorem witness_LinkTransfersStart :
    (startable (sendCmd 1) opLINK_SEND ∧ ((st (sendCmd 1)).begun 0 (sendCmd 1) task7).reaches (memMod (sendDest (sendCmd 1).desc)) = false) ∧
    (startable (sendCmd 0) opLINK_SEND ∧ ((st (sendCmd 0)).begun 0 (sendCmd 0) task7).reaches (memMod (sendDest (sendCmd 0).desc)) = true) ∧
    startable (cmdOf opLINK_RECV []) opLINK_RECV ∧
    (retrying.xfers = [xfer true 3 4] ∧ (xfer true 3 4).retryT ≤ retrying.timeNow ∧ retrying.colls = []) ∧
    ((at_ 1000 (queued run recvCmd)).cmd? 0 0 = some recvCmd ∧ dOpcode recvCmd.desc = opLINK_RECV ∧ dField recvCmd.desc 0x60 32 ≠ 0 ∧
      0 + 1000 * dField recvCmd.desc 0x60 32 ≤ 1000 ∧
      (withXfer (xfer false 1 4) (at_ 1000 (queued run recvCmd))).xfers.find? (fun x => x.q = 0 && x.slot = 0) = some (xfer false 1 4)) := by decide +kernel

theorem witness_plan : planned.accepts 0 pgJobRunner R.JOB_RUNNER_JR_CTRL = true ∧ planned.jrState 0 = 0 ∧
    planned.wake.planOk 0 (planned.wake.reg pgJobRunner 0 R.JOB_RUNNER_PLAN_BASE)
      (planned.wake.rdBytes 0 (planned.wake.reg pgJobRunner 0 R.JOB_RUNNER_PLAN_BASE) 128) = true := by decide +kernel


/-- A module whose partition 0 owns clusters 0 and 2. -/
def owns2 : State := run.setReg pgPartition 0 R.PARTITION_CLUSTER_MASK_0 5

theorem witness_ViewsShowTheirTargets :
    (owns2.clustersOf 0)[0]? = some 0 ∧ (owns2.clustersOf 0)[1]? = some 2 ∧ owns2.ready = true ∧
    sget owns2.latches (latchKey 0 (clusterPage 2 uGroup) R.HDR_PAGE_ID) = none ∧
    run.viaView 0 (viewBase + 192 + 31) = pgPackage ∧ run.viaView 0 (viewBase + 161) = pageNum 14 0 0 := by decide +kernel

/-! ### The whole machine, and numbers -/

theorem witness_StepRunsTheFrontCommand : ({ run with pending := [.leak, .leakClear] } : State).pending = .leak :: [.leakClear] := rfl

theorem witness_AnEmptyQueueLetsTimePass : State.reset.pending = [] ∧ State.reset.timeRuns = false ∧ run.pending = [] ∧ run.timeRuns = true := by
  decide +kernel

/-- A sound state with a command waiting. -/
theorem witness_StepKeepsTheTablesSound : ({ run with pending := [.bandwidthInterval] } : State).stored = true ∧
    step { run with pending := [.bandwidthInterval] } = .next run := ⟨by decide +kernel, rfl⟩

theorem witness_NoCommandSetsTime : ∃ t, exec .refLost run = .next t ∧ t.refPresent ≠ run.refPresent :=
  ⟨_, rfl, by decide +kernel⟩

theorem witness_MessagesLeaveTheRest : isMessage .rstdaa = true ∧ ∃ t, exec .rstdaa run = .next t := ⟨rfl, _, rfl⟩
theorem witness_WorkLeavesTheModuleAlone : isWork (.traceMark 0 0) = true ∧ ∃ t, exec (.traceMark 0 0) run = .next t := ⟨rfl, _, rfl⟩
theorem witness_MemoryIsSpared : sparesMemory .leakClear = true ∧ ∃ t, exec .leakClear run = .next t := ⟨rfl, _, rfl⟩
theorem witness_QueuesAreSpared : sparesQueues .leakClear = true ∧ ∃ t, exec .leakClear run = .next t := ⟨rfl, _, rfl⟩

/-- Tenant 1 with the first 256 MiB of HBM: it writes the last byte of its reservation, and none beyond. -/
def tenant : State := two.setReg pgPartition 1 R.PARTITION_HBM_SEG_0 (1 * 2 ^ 16)

theorem witness_ReservationsAreHard : tenant.segments 1 ≠ [] ∧ (tenant.wrBytes 1 (seg256M - 1) [5]).hbmByte (seg256M - 1) = 5 ∧
    tenant.wrBytes 1 seg256M [5] = tenant := by decide +kernel

theorem witness_WrittenBytesReadBack : Memory.wf 0 run.hbm = true ∧ Memory.wf 0 run.host = true ∧
    (run.hbmPhys 0 (hbmBytes false - 1)).isSome = true ∧ (run.hbmPhys 0 (hbmBytes false)).isSome = false ∧
    (run.wrBytes 0 (2 ^ 64 - 1) [5]).rdBytes 0 (2 ^ 64 - 1) 1 = [5] := by decide +kernel

theorem witness_RoundingIsToNearestEven : 0 < (2 : Nat) ∧ roundNat .rne false 5 2 = 2 ∧ roundNat .rne false 7 2 = 4 := by decide
theorem witness_DirectedRoundingsTakeTheirSide : 0 < (2 : Nat) ∧ roundNat .rup false 5 2 = 3 ∧ roundNat (.sr 1 1) false 5 2 = 3 := by decide

theorem witness_ElementsReadAndWriteBack : fE4M3 ∈ [fFP32, fFP16, fBF16, fE4M3, fE5M2] ∧ 0x7E < 2 ^ fE4M3.bits ∧ fE4M3.isSub 0x7E = false ∧
    fE4M3.decode 0x7E ≠ .nan ∧ fE4M3.decode 0x7F = .nan := by decide +kernel

theorem witness_BlocksAreEncoded :
    Val.isFin .nan = false ∧ (maxAbs [Q.zero true]).num = 0 ∧ (maxAbs [Q.ofNat 5]).num ≠ 0 ∧
    (encodeBlock fmtFB4 Q.one (fun _ => .rne) [.fin (Q.ofNat 5)]).kind = .normal ∧
    (encodeBlock fmtFB4 Q.one (fun _ => .rne) [.fin (Q.dyadic false 1 100)]).kind = .saturated := by decide +kernel

theorem witness_ColumnSumsHaveNoOrder : [Prod.fin Q.one, .nan].Perm [.nan, .fin Q.one] := List.Perm.swap _ _ _

theorem witness_SharesDivideTheElements : 0 < (3 : Nat) ∧ 6 < (7 : Nat) ∧ shareOf 7 3 6 = 2 := by decide

/-- A tensor of 2 rows of 64 bytes, 128 bytes apart downwards. -/
def td2 : TD := { fmt := fmtFP32, ndim := 2, flags := 0, base := 4096, scale := 0, ext := [16, 2, 1, 1, 1, 1], stride := [0, -128, 0, 0, 0, 0] }

theorem witness_DeclaredRangeSpansTheRows : (∀ i, i < 7 → 1 ≤ td2.e i) ∧ 1 ≤ td2.rowBytes ∧ 0 ≤ ((td2.base % 2 ^ 63 : Nat) : Int) + td2.lowOff ∧
    td2.lowOff = -128 ∧ td2.highOff = 63 := by decide +kernel

theorem td2_extents (i : Nat) : 1 ≤ td2.e i := by
  have h : i < 6 ∨ td2.ext[i]? = none := by
    rcases Nat.lt_or_ge i 6 with h | h
    · exact Or.inl h
    · exact Or.inr (List.getElem?_eq_none (by simpa [td2] using h))
  rcases h with h | h
  · interval_cases i <;> decide
  · simp [TD.e, List.getD, h]

theorem witness_LinksHaveTheirPages : (15 : Nat) < 16 ∧ (5 : Nat) < 6 := by decide

theorem witness_AlertIsAsserted :
    (({ run with sb := { SbX.init with events := [(10, 2), (11, 1)] } } : State).alertLow = true ∧ run.power.inputOn = true ∧ run.sb.i3c = false) ∧
    ({ State.reset with power := { PowerX.init with cause := 1 } } : State).alertLow = true ∧ run.alertLow = false := by decide +kernel

/-! ### Ill-formed commands: one for each check -/

theorem illformed_partition : (Instr.start 256).wellFormed = false ∧ (Instr.start 255).wellFormed = true := by decide
theorem illformed_page : (Instr.arrayPassEnd 131072).wellFormed = false ∧ (Instr.arrayPassEnd 131071).wellFormed = true := by decide
theorem illformed_queue : (Instr.copy 65536 0).wellFormed = false ∧ (Instr.copy 65535 0).wellFormed = true := by decide
theorem illformed_slot : (Instr.copy 0 65536).wellFormed = false ∧ (Instr.copy 0 65535).wellFormed = true := by decide
theorem illformed_link : (Instr.alignLock 96).wellFormed = false ∧ (Instr.alignLock 95).wellFormed = true := by decide
theorem illformed_die : (Instr.routeStuck 16).wellFormed = false ∧ (Instr.routeStuck 15).wellFormed = true := by decide
theorem illformed_offset : (Instr.lowHalfRead 0 0 4096).wellFormed = false ∧ (Instr.lowHalfRead 0 0 4095).wellFormed = true := by decide

/-! ### Examples of the spec -/

/-- STAGE_CTRL of C2.17.LADLE_1 lies on page 0x48C1, the package group page is page 0x1FFFF (R28). -/
theorem test_page_numbers : pageNum 2 17 65 = 0x48C1 ∧ pgPackage = 0x1FFFF := by decide

def fb4Row (n : Nat) : TD := { fmt := fmtFB4, ndim := 1, flags := 0, base := 0, scale := 0, ext := [n, 1, 1, 1, 1, 1], stride := [0, 0, 0, 0, 0, 0] }

/-- Rows of an FB4 tensor (chapter 3): 4,096 elements take 2,048 bytes and 256 scale bytes, 640 take 320 and 64. -/
theorem test_fb4_rows : (fb4Row 4096).rowBytes = 2048 ∧ (fb4Row 4096).scaleRow = 256 ∧ (fb4Row 640).rowBytes = 320 ∧ (fb4Row 640).scaleRow = 64 := by
  decide

/-- The CRC of the ASCII bytes "123456789" (R331). -/
theorem test_crc64 : crc64 [0x31, 0x32, 0x33, 0x34, 0x35, 0x36, 0x37, 0x38, 0x39] = 0x995DC9BBDF1939FA := by decide +kernel

/-- The BF16 matrix of the example after R218: rows of 1,024 columns, 300 of them, 2,048 bytes apart. -/
def bfMatrix : TD :=
  { fmt := fmtBF16, ndim := 2, flags := 0, base := 0x08000000, scale := 0, ext := [1024, 300, 1, 1, 1, 1], stride := [0, 2048, 0, 0, 0, 0] }

theorem test_declared_range : bfMatrix.aligned = true ∧ bfMatrix.lowOff = 0 ∧ bfMatrix.highOff = 2047 + 299 * 2048 ∧
    ({ bfMatrix with ext := [1000, 300, 1, 1, 1, 1] } : TD).aligned = false := by decide +kernel

/-- 1.0 + 2^24 in FP32 is a tie that RNE takes to 2^24 (the example of SCATTER_ADD). -/
theorem test_scatter_add_tie : addF32 .rne 0x3F800000 0x4B800000 = (0x4B800000, 0) := by decide +kernel

/-- The probe of the example of R260: offset 250,020 and round trip 880 ns. -/
theorem test_probe_offset :
    (match exec (.probeResp 0 3 1000000 1250460 1250600) ((at_ 1001020 (linked 0 4 run)).setLink 0 { LinkX.init with probes := [(3, 1000000)] }) with
      | .next t => ((t.link 0).bestOff, (t.link 0).bestRtt)
      | _ => (0, 0)) = (250020, 880) := by decide +kernel

/-- A step takes the front command and leaves the rest. -/
theorem test_step_front :
    (match step { run with pending := [.rstdaa, .leak] } with
      | .next t => t.pending
      | _ => []) = [.leak] := by decide +kernel

/-- PARK of an idle module begins to park; CAP_W outside 2,000 to 4,000 W is not taken (R404, R407). -/
theorem test_park : (match exec (.park 0) run with | .next t => t.power.state | _ => 0) = 6 := by decide +kernel
theorem test_cap_range : (match exec (.capWWrite 0 1999) run with | .next t => t.reg pgPower 0 R.POWER_CAP_W | _ => 0) = 4000 := by decide +kernel

/-- A good doorbell sets the tail and asks for a turn; one beyond the ring changes no queue (R187). -/
theorem test_doorbell : (match exec (.sqTail 0 0 3) (rung QueueX.init) with | .next t => ((t.queue 0).tail, t.adm.fifo) | _ => (0, [])) = (3, [0]) := by
  decide +kernel
theorem test_bad_doorbell : (match exec (.sqTail 0 0 16) (rung QueueX.init) with | .next t => (t.queue 0).tail | _ => 9) = 0 := by decide +kernel

/-- EVENT_SIGNAL with VALUE 2 leaves 2 in its counter. -/
def signalCmd : Cmd := cmdOf opEVENT_SIGNAL [] (2 * 2 ^ (8 * 0x58))
theorem test_event_signal : (match exec (.eventSignal 0 0) (queued run signalCmd) with | .next t => t.rdLE 0 0 8 | _ => 0) = 2 := by decide +kernel

/-- A 4-byte read of the low half of a 64-bit meter holds the high half (R29). -/
theorem test_low_half : (match exec (.lowHalfRead 0 pgMeter R.METER_ENERGY_TOTAL_MJ) run with | .next t => t.latches.length | _ => 0) = 1 := by
  decide +kernel

/-- Reset, PERST# released: the module boots (R356, R403). -/
theorem test_boot : (match exec .perstRelease State.reset with | .next t => (t.boot.state, t.boot.phase, t.power.state) | _ => (0, 0, 0)) = (1, 1, 2) := by
  decide +kernel

end Sys2Proof.Tests
end

section
/-! What every command does to the fields of State: one lemma for all rows of the command table, from the laws of the operations. -/

namespace Sys2Proof.Machine

/-! ### What an operation changes, from its law -/

theorem subset_or_left (A B : Nat) : A ||| (A ||| B) = A ||| B := by rw [← Nat.or_assoc, Nat.or_self]

theorem subset_or_right (A B : Nat) : B ||| (A ||| B) = A ||| B := by rw [Nat.or_comm A, subset_or_left]

/-- The law of an operation, at the fields it names. -/
theorem Within.of {A : Nat} {s t : State} (k : ∀ {W}, A ||| W = W → Within W s s → Within W s t) : Within A s t :=
  k (Nat.or_self A) (.rfl A s)

/-- An operation after another: the fields of both. -/
theorem Within.seq {A B : Nat} {s t u : State} (h : Within A s t) (k : ∀ {W}, B ||| W = W → Within W s t → Within W s u) :
    Within (A ||| B) s u :=
  k (subset_or_right A B) (h.mono (subset_or_left A B))

/-- An operation that takes another as its argument: its own fields and those of its argument. -/
theorem Within.wrap {A B : Nat} {s t : State} {P : Nat → Prop} (hk : ∀ {W}, B ||| W = W → P W)
    (k : ∀ {W}, A ||| W = W → P W → Within W s s → Within W s t) : Within (A ||| B) s t :=
  k (subset_or_left A B) (hk (subset_or_right A B)) (.rfl _ s)

section
variable {s : State} {B : Nat}

/-- The start of a command (R202) and the command's own effect. -/
theorem startCmd_within {q slot : Nat} {g : Nat → Bool} {extra : State → Cmd → Bool} {k : State → Cmd → State}
    (hk : ∀ {W t c}, B ||| W = W → Within W s t → Within W s (k t c)) : Within (0x608567FD90 ||| B) s (s.startCmd q slot g extra k) :=
  .wrap (P := fun W => ∀ t c, Within W s t → Within W s (k t c)) (fun hB _ _ => hk hB) State.startCmd_ok

/-- A movement command: it starts, or its ladles show the wait. -/
theorem moveCmd_within {q slot op : Nat} {k : State → Cmd → State}
    (hk : ∀ {W t c}, B ||| W = W → Within W s t → Within W s (k t c)) : Within (0x608567FD90 ||| B) s (s.moveCmd q slot op k) := by
  unfold State.moveCmd
  refine .ite ?_ (startCmd_within hk)
  split
  · exact .rfl _ s
  · have hW : 0x10 ||| (0x608567FD90 ||| B) = 0x608567FD90 ||| B := sub_le rfl (subset_or_left _ B)
    exact .fold (fun _ _ h => State.setFld_ok hW (State.setFld_ok hW h)) (.rfl _ s)

/-- A packet taken from the router (R245) and its effect. -/
theorem deliver_within {die : Nat} {pk : Packet} {k : State → State}
    (hk : ∀ {W t}, B ||| W = W → Within W s t → Within W s (k t)) : Within (0x6404240010 ||| B) s (s.deliver die pk k) :=
  .wrap (P := fun W => ∀ t, Within W s t → Within W s (k t)) (fun hB _ => hk hB) State.deliver_ok

/-- An SPDM request (R367) and its answer. -/
theorem spdm_within {k : State → State}
    (hk : ∀ {W t}, B ||| W = W → Within W s t → Within W s (k t)) : Within (0x10 ||| B) s (s.spdm k) :=
  .wrap (P := fun W => ∀ t, Within W s t → Within W s (k t)) (fun hB _ => hk hB) State.spdm_ok

end

/-! ### What each command keeps -/

/-- Time and the reference (fields 1 to 3), held reads, flash, the notices of halted members, boot and firmware, the sideband: what a command of
queues, engines, transfers or links keeps. -/
def workKeeps : Nat := 0xB0800024E

/-- HBM with its bad blocks, flash and host memory: what a command that stores nothing keeps. -/
def memoryKeeps : Nat := 0x780

/-- Queues, the admission state, barriers, tiles, transfers and collectives: what a command about none of them keeps. -/
def queueKeeps : Nat := 0x3C38800

/-- All but registers, the sideband, what is sent and the counter of free values: what a message keeps. -/
def messageKeeps : Nat := 0x97FFFFFFEF

/-- A command that begins TIME_NOW anew. -/
def resetsTime (c : Instr) : Bool :=
  match c with
  | .perstRelease | .inputOff => true
  | _ => false

/-- A command that says whether the reference is there. -/
def movesReference (c : Instr) : Bool :=
  match c with
  | .refLost | .refReturn => true
  | _ => false

/-- The command may change the fields of `W`: none is one that its classes (Safety.lean) keep, nor one that every command keeps, as are the variant
(field 0) and the waiting commands (field 39). -/
def mayChange (c : Instr) (W : Nat) : Bool :=
  !W.testBit 0 && !W.testBit 39 && (resetsTime c || !W.testBit 1) && (movesReference c || !W.testBit 2) &&
    (!isWork c || W &&& workKeeps == 0) && (!isMessage c || W &&& messageKeeps == 0) &&
    (!sparesMemory c || W &&& memoryKeeps == 0) && (!sparesQueues c || W &&& queueKeeps == 0)

/-- Every command answers a next state that differs only in fields the command may change. -/
theorem exec_within (c : Instr) (s : State) : ∃ W t, exec c s = .next t ∧ Within W s t ∧ mayChange c W = true := by
  cases c with
  | sqTail => exact ⟨_, _, rfl, .of State.sqTail_ok, rfl⟩
  | cqHead => exact ⟨_, _, rfl, .of State.cqHeadWrite_ok, rfl⟩
  | restart => exact ⟨_, _, rfl, .of State.qcmd_ok, rfl⟩
  | skip => exact ⟨_, _, rfl, .of State.qcmd_ok, rfl⟩
  | abort => exact ⟨_, _, rfl, .of State.qcmd_ok, rfl⟩
  | admissionTurn => exact ⟨_, _, rfl, .of State.turn_ok, rfl⟩
  | gemm => exact ⟨_, _, rfl, startCmd_within State.gemmStart_ok, rfl⟩
  | gemmPattern => exact ⟨_, _, rfl, startCmd_within State.gemmStart_ok, rfl⟩
  | vector => exact ⟨_, _, rfl, startCmd_within State.gemmStart_ok, rfl⟩
  | copy => exact ⟨_, _, rfl, moveCmd_within State.copyStart_ok, rfl⟩
  | gather => exact ⟨_, _, rfl, moveCmd_within State.listStart_ok, rfl⟩
  | scatter => exact ⟨_, _, rfl, moveCmd_within State.listStart_ok, rfl⟩
  | scatterAdd => exact ⟨_, _, rfl, moveCmd_within State.listStart_ok, rfl⟩
  | checkScan => exact ⟨_, _, rfl, startCmd_within State.scanStart_ok, rfl⟩
  | collective => exact ⟨_, _, rfl, startCmd_within State.collStart_ok, rfl⟩
  | update => exact ⟨_, _, rfl, startCmd_within State.updStart_ok, rfl⟩
  | barrier => exact ⟨_, _, rfl, startCmd_within State.barrierArrives_ok, rfl⟩
  | localStage => exact ⟨_, _, rfl, startCmd_within State.localStage_ok, rfl⟩
  | direct => exact ⟨_, _, rfl, startCmd_within State.direct_ok, rfl⟩
  | restore => exact ⟨_, _, rfl, startCmd_within State.restore_ok, rfl⟩
  | pair => exact ⟨_, _, rfl, startCmd_within State.pairStart_ok, rfl⟩
  | fetch => exact ⟨_, _, rfl, startCmd_within State.fetchStart_ok, rfl⟩
  | statsRead => exact ⟨_, _, rfl, startCmd_within State.statsRead_ok, rfl⟩
  | eventSignal => exact ⟨_, _, rfl, startCmd_within State.signalEvent_ok, rfl⟩
  | eventWait => exact ⟨_, _, rfl, startCmd_within fun hW h => .ite (State.endWaits_ok (sub_le (by decide) hW) h) (State.outside_ok hW h), rfl⟩
  | stepBoundary => exact ⟨_, _, rfl, startCmd_within State.barrierArrives_ok, rfl⟩
  | traceMark => exact ⟨_, _, rfl, startCmd_within State.finish_ok, rfl⟩
  | linkSend => exact ⟨_, _, rfl, startCmd_within State.sendStart_ok, rfl⟩
  | linkRecv => exact ⟨_, _, rfl, startCmd_within State.recvStart_ok, rfl⟩
  | commandComplete => exact ⟨_, _, rfl, .of State.completeCmd_ok, rfl⟩
  | arrayPassStart => exact ⟨_, _, rfl, .of State.passStart_ok, rfl⟩
  | arrayPassEnd => exact ⟨_, _, rfl, .of State.passEnd_ok, rfl⟩
  | tileRelease => exact ⟨_, _, rfl, .of State.tileRelease_ok, rfl⟩
  | rerun => exact ⟨_, _, rfl, .of State.rerun_ok, rfl⟩
  | assay => exact ⟨_, _, rfl, .of State.assay_ok, rfl⟩
  | assayDue => exact ⟨_, _, rfl, .of State.markDue_ok, rfl⟩
  | hbmEccError => exact ⟨_, _, rfl, .of State.hbmError_ok, rfl⟩
  | sramEccError => exact ⟨_, _, rfl, .of State.sramError_ok, rfl⟩
  | barrierTimeout => exact ⟨_, _, rfl, .of State.barrierTimeout_ok, rfl⟩
  | stall => exact ⟨_, _, rfl, .of State.stallOut_ok, rfl⟩
  | deadline => exact ⟨_, _, rfl, .of State.deadlineOut_ok, rfl⟩
  | eventTimeout => exact ⟨_, _, rfl, .of State.eventOut_ok, rfl⟩
  | jobStep => exact ⟨_, _, rfl, .of State.jobStep_ok, rfl⟩
  | start => exact ⟨_, _, rfl, .of State.writeReg_ok, rfl⟩
  | stop => exact ⟨_, _, rfl, .of State.writeReg_ok, rfl⟩
  | idleStageApply => exact ⟨_, _, rfl, .of State.idleApply_ok, rfl⟩
  | zeroingDone => exact ⟨_, _, rfl, .of State.endZeroing_ok, rfl⟩
  | stagedWrite => exact ⟨_, _, rfl, .of fun hW h => .ite (State.writeReg_ok hW h) h, rfl⟩
  | discardStep => exact ⟨_, _, rfl, .of State.discardWrite_ok, rfl⟩
  | discardLayer => exact ⟨_, _, rfl, .of State.discardWrite_ok, rfl⟩
  | discardPass => exact ⟨_, _, rfl, .of State.discardWrite_ok, rfl⟩
  | registerWrite => exact ⟨_, _, rfl, .of State.writeReg_ok, rfl⟩
  | lowHalfRead => exact ⟨_, _, rfl, .of State.lowHalfRead_ok, rfl⟩
  | progressRead => exact ⟨_, _, rfl, .of State.progressRead_ok, rfl⟩
  | sprueStatusRead => exact ⟨_, _, rfl, .of State.sprueRead_ok, rfl⟩
  | hold => exact ⟨_, _, rfl, .of State.writeReg_ok, rfl⟩
  | holdDrained => exact ⟨_, _, rfl, .of State.holdDrained_ok, rfl⟩
  | meterSel => exact ⟨_, _, rfl, .of State.writeReg_ok, rfl⟩
  | traceRdSel => exact ⟨_, _, rfl, .of State.writeReg_ok, rfl⟩
  | meltSel => exact ⟨_, _, rfl, .of fun hW h => .ite (State.writeReg_ok hW h) h, rfl⟩
  | traceBaseWrite => exact ⟨_, _, rfl, .of fun hW h => .ite (State.writeReg_ok hW h) h, rfl⟩
  | itraceEnable => exact ⟨_, _, rfl, .of fun hW h => .ite (State.writeReg_ok hW h) h, rfl⟩
  | routerIdWrite => exact ⟨_, _, rfl, .of State.writeReg_ok, rfl⟩
  | routeDataWrite => exact ⟨_, _, rfl, .of State.writeReg_ok, rfl⟩
  | create => exact ⟨_, _, rfl, .of State.writeReg_ok, rfl⟩
  | delete => exact ⟨_, _, rfl, .of State.writeReg_ok, rfl⟩
  | abortAll => exact ⟨_, _, rfl, .of State.writeReg_ok, rfl⟩
  | unfreeze => exact ⟨_, _, rfl, .of State.writeReg_ok, rfl⟩
  | pfRelease => exact ⟨_, _, rfl, .of State.writeReg_ok, rfl⟩
  | errAck => exact ⟨_, _, rfl, .of fun hW h => .ite (State.writeReg_ok hW h) h, rfl⟩
  | errAckThrough => exact ⟨_, _, rfl, .of fun hW h => .ite (State.writeReg_ok hW h) h, rfl⟩
  | retrain => exact ⟨_, _, rfl, .of State.writeReg_ok, rfl⟩
  | linkCtrlProbe => exact ⟨_, _, rfl, .of State.writeReg_ok, rfl⟩
  | remeasure => exact ⟨_, _, rfl, .of State.writeReg_ok, rfl⟩
  | ckptRelease => exact ⟨_, _, rfl, .of State.writeReg_ok, rfl⟩
  | ckptNow => exact ⟨_, _, rfl, .of State.writeReg_ok, rfl⟩
  | fwUpdate => exact ⟨_, _, rfl, .of State.writeReg_ok, rfl⟩
  | cancel => exact ⟨_, _, rfl, .of State.writeReg_ok, rfl⟩
  | fwCheckDone => exact ⟨_, _, rfl, .of State.fwChecked_ok, rfl⟩
  | fwFlashWriteDone => exact ⟨_, _, rfl, .of State.fwWritten_ok, rfl⟩
  | fwPartitionMove => exact ⟨_, _, rfl, .of State.fwMove_ok, rfl⟩
  | park => exact ⟨_, _, rfl, .of State.writeReg_ok, rfl⟩
  | unpark => exact ⟨_, _, rfl, .of State.writeReg_ok, rfl⟩
  | aux => exact ⟨_, _, rfl, .of State.writeReg_ok, rfl⟩
  | parkEntry => exact ⟨_, _, rfl, .seq (.of State.parkEntry_ok) State.sbEvents_ok, rfl⟩
  | autoPark => exact ⟨_, _, rfl, .of State.autoPark_ok, rfl⟩
  | hbmSelfRefreshReturn => exact ⟨_, _, rfl, .of State.hbmSleeps_ok, rfl⟩
  | linkLowPowerReturn => exact ⟨_, _, rfl, .of State.linksSleep_ok, rfl⟩
  | capWWrite => exact ⟨_, _, rfl, .of State.writeReg_ok, rfl⟩
  | halt => exact ⟨_, _, rfl, .of fun hW h => .ite (State.writeReg_ok hW h) h, rfl⟩
  | haltDrained => exact ⟨_, _, rfl, .of State.drained_ok, rfl⟩
  | resume => exact ⟨_, _, rfl, .of fun hW h => .ite (State.writeReg_ok hW h) h, rfl⟩
  | step => exact ⟨_, _, rfl, .of fun hW h => .ite (State.writeReg_ok hW h) h, rfl⟩
  | islHalt => exact ⟨_, _, rfl, .of fun hW h => .ite (State.writeReg_ok hW h) h, rfl⟩
  | haltNoticeSend => exact ⟨_, _, rfl, .of State.noticeTick_ok, rfl⟩
  | perstAssert => exact ⟨_, _, rfl, .seq (.of State.perstAssert_ok) State.sbEvents_ok, rfl⟩
  | perstRelease => exact ⟨_, _, rfl, .seq (.of State.perstRelease_ok) State.sbEvents_ok, rfl⟩
  | bootPhaseEnd => exact ⟨_, _, rfl, .seq (.of State.bootEnd_ok) State.sbEvents_ok, rfl⟩
  | hotReset => exact ⟨_, _, rfl, .of State.hotReset_ok, rfl⟩
  | flr => exact ⟨_, _, rfl, .of State.flr_ok, rfl⟩
  | pfFlr => exact ⟨_, _, rfl, .of State.pfFlr_ok, rfl⟩
  | cxlLinkTraining => exact ⟨_, _, rfl, .of State.trainHost_ok, rfl⟩
  | h2dSnoop => exact ⟨_, _, rfl, .of State.snoop_ok, rfl⟩
  | ringPoll => exact ⟨_, _, rfl, .of State.ringPoll_ok, rfl⟩
  | cxlMemRead => exact ⟨_, _, rfl, .of State.memRead_ok, rfl⟩
  | cxlMemWrite => exact ⟨_, _, rfl, .of State.memWrite_ok, rfl⟩
  | atsTranslationResponse => exact ⟨_, _, rfl, .of State.atsResponse_ok, rfl⟩
  | priResponse => exact ⟨_, _, rfl, .of State.priAnswer_ok, rfl⟩
  | atsInvalidation => exact ⟨_, _, rfl, .of State.invalidate_ok, rfl⟩
  | doeDiscovery => exact ⟨_, _, rfl, .of State.doeDiscovery_ok, rfl⟩
  | cdatTableAccess => exact ⟨_, _, rfl, .of State.cdat_ok, rfl⟩
  | imagePush => exact ⟨_, _, rfl, .seq (.of State.imagePush_ok) State.sbEvents_ok, rfl⟩
  | getVersion => exact ⟨_, _, rfl, spdm_within State.emit_ok, rfl⟩
  | getCapabilities => exact ⟨_, _, rfl, spdm_within State.emit_ok, rfl⟩
  | negotiateAlgorithms => exact ⟨_, _, rfl, spdm_within State.emit_ok, rfl⟩
  | getDigests => exact ⟨_, _, rfl, spdm_within State.emit_ok, rfl⟩
  | getCertificate => exact ⟨_, _, rfl, .of State.getCertificate_ok, rfl⟩
  | challenge => exact ⟨_, _, rfl, .of State.challenge_ok, rfl⟩
  | getMeasurements => exact ⟨_, _, rfl, .of State.measurements_ok, rfl⟩
  | entdaa => exact ⟨_, _, rfl, .of State.takeAddress_ok, rfl⟩
  | rstdaa => exact ⟨_, _, rfl, .of State.dropAddress_ok, rfl⟩
  | setEndpointId => exact ⟨_, _, rfl, .of State.setEid_ok, rfl⟩
  | alertResponseAddress => exact ⟨_, _, rfl, .of State.alertResponse_ok, rfl⟩
  | queryDeviceIdentifiers => exact ⟨_, _, rfl, .of State.queryIds_ok, rfl⟩
  | getFirmwareParameters => exact ⟨_, _, rfl, .of State.fwParams_ok, rfl⟩
  | requestUpdate => exact ⟨_, _, rfl, .of State.requestUpdate_ok, rfl⟩
  | passComponentTable => exact ⟨_, _, rfl, .of State.passTable_ok, rfl⟩
  | updateComponent => exact ⟨_, _, rfl, .of State.updateComponent_ok, rfl⟩
  | requestFirmwareData => exact ⟨_, _, rfl, .of State.firmwareData_ok, rfl⟩
  | transferComplete => exact ⟨_, _, rfl, .seq (.of State.transferComplete_ok) State.sbEvents_ok, rfl⟩
  | verifyComplete => exact ⟨_, _, rfl, .of State.verifyComplete_ok, rfl⟩
  | applyComplete => exact ⟨_, _, rfl, .seq (.of State.applyComplete_ok) State.sbEvents_ok, rfl⟩
  | activateFirmware => exact ⟨_, _, rfl, .of State.activate_ok, rfl⟩
  | getStatus => exact ⟨_, _, rfl, .of State.fwStatus_ok, rfl⟩
  | cancelUpdateComponent => exact ⟨_, _, rfl, .of State.cancelPldm_ok, rfl⟩
  | cancelUpdate => exact ⟨_, _, rfl, .of State.cancelPldm_ok, rfl⟩
  | getPdrRepositoryInfo => exact ⟨_, _, rfl, .of State.pdrInfo_ok, rfl⟩
  | getPdr => exact ⟨_, _, rfl, .of State.getPdr_ok, rfl⟩
  | getSensorReading => exact ⟨_, _, rfl, .of State.sensorReading_ok, rfl⟩
  | getStateSensorReadings => exact ⟨_, _, rfl, .of State.stateReadings_ok, rfl⟩
  | setStateEffecterStates => exact ⟨_, _, rfl, .seq (.of State.setStateEffecter_ok) State.sbEvents_ok, rfl⟩
  | setNumericEffecterValue => exact ⟨_, _, rfl, .of State.setNumEffecter_ok, rfl⟩
  | getNumericEffecterValue => exact ⟨_, _, rfl, .of State.getNumEffecter_ok, rfl⟩
  | setEventReceiver => exact ⟨_, _, rfl, .of State.setReceiver_ok, rfl⟩
  | platformEventAccepted => exact ⟨_, _, rfl, .of State.eventAccepted_ok, rfl⟩
  | partnerDetect => exact ⟨_, _, rfl, .of State.partnerDetect_ok, rfl⟩
  | trainConverge => exact ⟨_, _, rfl, .of State.trainConverge_ok, rfl⟩
  | alignLock => exact ⟨_, _, rfl, .of State.alignLock_ok, rfl⟩
  | trainingTimeout => exact ⟨_, _, rfl, .of State.trainTimeout_ok, rfl⟩
  | flitReceived => exact ⟨_, _, rfl, .of State.flitIn_ok, rfl⟩
  | laneSignalLoss => exact ⟨_, _, rfl, .of State.laneLoss_ok, rfl⟩
  | linkWindowEval => exact ⟨_, _, rfl, .of State.windowEval_ok, rfl⟩
  | ident => exact ⟨_, _, rfl, .of State.identIn_ok, rfl⟩
  | probe => exact ⟨_, _, rfl, .of State.probeIn_ok, rfl⟩
  | probeResp => exact ⟨_, _, rfl, .of State.probeAnswer_ok, rfl⟩
  | probeTick => exact ⟨_, _, rfl, .of State.probeTick_ok, rfl⟩
  | timeTree => exact ⟨_, _, rfl, .of State.timeTree_ok, rfl⟩
  | driftProbe => exact ⟨_, _, rfl, .of State.driftProbe_ok, rfl⟩
  | narrow => exact ⟨_, _, rfl, .of State.narrowIn_ok, rfl⟩
  | haltNotice => exact ⟨_, _, rfl, .of State.noticeIn_ok, rfl⟩
  | packetForward => exact ⟨_, _, rfl, .of State.forward_ok, rfl⟩
  | routeStuck => exact ⟨_, _, rfl, .of State.routeStuck_ok, rfl⟩
  | sendReq => exact ⟨_, _, rfl, deliver_within State.reqIn_ok, rfl⟩
  | sendClear => exact ⟨_, _, rfl, deliver_within State.clearIn_ok, rfl⟩
  | sendData => exact ⟨_, _, rfl, deliver_within State.dataIn_ok, rfl⟩
  | sendCancel => exact ⟨_, _, rfl, deliver_within State.cancelIn_ok, rfl⟩
  | sendReject => exact ⟨_, _, rfl, deliver_within State.rejectIn_ok, rfl⟩
  | sendBusy => exact ⟨_, _, rfl, deliver_within State.busyIn_ok, rfl⟩
  | sendRetry => exact ⟨_, _, rfl, .of State.retrySends_ok, rfl⟩
  | recvTimeout => exact ⟨_, _, rfl, .of State.recvTimeout_ok, rfl⟩
  | collReady => exact ⟨_, _, rfl, deliver_within State.readyIn_ok, rfl⟩
  | collData => exact ⟨_, _, rfl, deliver_within State.collDataIn_ok, rfl⟩
  | collAck => exact ⟨_, _, rfl, deliver_within State.ackIn_ok, rfl⟩
  | collSeal => exact ⟨_, _, rfl, deliver_within State.sealIn_ok, rfl⟩
  | collCancel => exact ⟨_, _, rfl, deliver_within State.collCancelIn_ok, rfl⟩
  | collectiveTimeout => exact ⟨_, _, rfl, .of State.collTimeout_ok, rfl⟩
  | snapStreamDone => exact ⟨_, _, rfl, .of State.streamDone_ok, rfl⟩
  | ckptPushDone => exact ⟨_, _, rfl, .of State.ckptPushDone_ok, rfl⟩
  | budgetWindow => exact ⟨_, _, rfl, .of State.budgetWindow_ok, rfl⟩
  | energyAttribution => exact ⟨_, _, rfl, .of State.attribute_ok, rfl⟩
  | bandwidthInterval => exact ⟨_, _, rfl, .of State.bandwidth_ok, rfl⟩
  | capControlTick => exact ⟨_, _, rfl, .of State.capTick_ok, rfl⟩
  | inputTrip => exact ⟨_, _, rfl, .seq (.of State.enterAux_ok) State.sbEvents_ok, rfl⟩
  | sensorSample => exact ⟨_, _, rfl, .ite (.seq (.seq (.of State.sample_ok) State.sbEvents_ok) State.sbLevels_ok) (.rfl _ _), rfl⟩
  | thermalRelease => exact ⟨_, _, rfl, .of State.thermalRelease_ok, rfl⟩
  | flowThrottleEnd => exact ⟨_, _, rfl, .of State.throttleEnd_ok, rfl⟩
  | inputRise => exact ⟨_, _, rfl, .seq (.of State.inputRise_ok) State.sbEvents_ok, rfl⟩
  | inputRange => exact ⟨_, _, rfl, .of State.inputRange_ok, rfl⟩
  | undervoltage => exact ⟨_, _, rfl, .seq (.of State.enterAux_ok) State.sbEvents_ok, rfl⟩
  | overvoltage => exact ⟨_, _, rfl, .seq (.of State.enterAux_ok) State.sbEvents_ok, rfl⟩
  | inputOff => exact ⟨_, _, rfl, .of State.inputOff_ok, rfl⟩
  | leak => exact ⟨_, _, rfl, .seq (.of State.leakOn_ok) State.sbEvents_ok, rfl⟩
  | feedChanged => exact ⟨_, _, rfl, .of State.feedChanged_ok, rfl⟩
  | refLost => exact ⟨_, _, rfl, .of State.refLost_ok, rfl⟩
  | refReturn => exact ⟨_, _, rfl, .seq (.of State.refReturn_ok) State.sbEvents_ok, rfl⟩
  | readyReturnDone => exact ⟨_, _, rfl, .seq (.of State.returnDone_ok) State.sbEvents_ok, rfl⟩
  | d2dFail => exact ⟨_, _, rfl, .of State.d2dFails_ok, rfl⟩
  | leakClear => exact ⟨_, _, rfl, .seq (.of State.leakOff_ok) State.sbEvents_ok, rfl⟩
  | hostLinkError => exact ⟨_, _, rfl, .of State.hostLinkError_ok, rfl⟩
  | hdmDecoderCommit => exact ⟨_, _, rfl, .of State.commitDecoder_ok, rfl⟩
  | unknownDoeProtocol => exact ⟨_, _, rfl, .of State.doeUnknown_ok, rfl⟩

/-- What a command's next state keeps. -/
theorem exec_keeps {c : Instr} {s t : State} (h : exec c s = .next t) : ∃ W, Within W s t ∧ mayChange c W = true := by
  obtain ⟨W, u, hu, hW, hk⟩ := exec_within c s
  cases hu.symm.trans h
  exact ⟨W, hW, hk⟩

/-- A field of one of two sets without a common field is not in the other. -/
theorem not_testBit_of_disjoint {W K i : Nat} (h : W &&& K = 0) (hi : K.testBit i = true) : W.testBit i = false := by
  simpa [hi] using congrArg (·.testBit i) h

/-- What `mayChange` says, class by class. -/
theorem mayChange_iff {c : Instr} {W : Nat} : mayChange c W = true ↔
    W.testBit 0 = false ∧ W.testBit 39 = false ∧
      (resetsTime c = false → W.testBit 1 = false) ∧ (movesReference c = false → W.testBit 2 = false) ∧
      (isWork c = true → W &&& workKeeps = 0) ∧ (isMessage c = true → W &&& messageKeeps = 0) ∧
      (sparesMemory c = true → W &&& memoryKeeps = 0) ∧ (sparesQueues c = true → W &&& queueKeeps = 0) := by
  simp only [mayChange, Bool.and_eq_true, Bool.or_eq_true, Bool.not_eq_true', beq_iff_eq, imp_iff_not_or, Bool.not_eq_true, Bool.not_eq_false,
    and_assoc]

/-- Settles O46: each field that the statement names is one that a command of this class keeps. -/
theorem workLeavesTheModuleAlone : Obligations.WorkLeavesTheModuleAlone := by
  intro c s t hc h
  obtain ⟨W, hW, hm⟩ := exec_keeps h
  obtain ⟨-, -, -, -, hwork, -⟩ := mayChange_iff.1 hm
  have kept : ∀ {i}, workKeeps.testBit i = true → W.testBit i = false := not_testBit_of_disjoint (hwork hc)
  exact ⟨hW.flash (kept rfl), hW.boot (kept rfl), hW.fw (kept rfl), hW.sb (kept rfl), hW.latches (kept rfl), hW.timeNow (kept rfl),
    hW.refPresent (kept rfl), hW.holdover (kept rfl), hW.notices (kept rfl)⟩

/-! ### A step without a command, and reset -/

theorem step_of_no_command {s : State} (h : s.pending = []) : step s = .next s.tick := by
  unfold step
  rw [h]

theorem tick_of_time_stopped {s : State} (h : s.timeRuns = false) : s.tick = s := by
  simp [State.tick, h]

/-- The state with TIME_NOW one edge on, before anything else counts (R20, R21). -/
def State.edge (s : State) : State :=
  { s with timeNow := (Int.ofNat s.timeNow + 10 + s.relockStep).toNat % 2 ^ 64, holdover := s.holdover - s.relockStep }

/-- After TIME_NOW an edge changes registers, queues, partitions, barriers and the power state only. -/
theorem tick_within {s : State} (h : s.timeRuns = true) : Within 0x400011810 s.edge s.tick := by
  have ht : s.tick = s.edge.countBusy.countHalts.countPower := by simp [State.tick, State.edge, h]
  rw [ht]
  exact State.countPower_ok rfl (State.countHalts_ok rfl (State.countBusy_ok rfl (.rfl _ _)))

/-- Settles O37: without running time the edge changes nothing; else TIME_NOW and the holdover move on in `State.edge`, and what counts
after them stays within the fields of `tick_within`. -/
theorem anEmptyQueueLetsTimePass : Obligations.AnEmptyQueueLetsTimePass := by
  intro s hp
  refine ⟨fun h => by rw [step_of_no_command hp, tick_of_time_stopped h], fun h => ⟨s.tick, step_of_no_command hp, ?_⟩⟩
  have hW := tick_within h
  exact ⟨hW.timeNow rfl, hW.holdover rfl, hW.hbm rfl, hW.host rfl, hW.flash rfl, hW.xfers rfl, hW.colls rfl, hW.rings rfl,
    (hW.pending rfl).trans hp⟩

/-- After reset a register that is read gives its reset value, none being written. -/
theorem reg_reset (page bank off : Nat) : State.reset.reg page bank off = regReset page bank off := rfl

/-- Settles O42: the fields of `State.reset`, and the reset values of the register map. -/
theorem resetState : Obligations.ResetState :=
  ⟨rfl, rfl, rfl, rfl, rfl, rfl, rfl, rfl, rfl, rfl, reg_reset, by decide +kernel, by decide +kernel⟩

end Sys2Proof.Machine
end

section
/-! Register pages: what writes and reads of registers do, by access code, by page and through the register views. -/

namespace Sys2Proof.Machine

/-! ### The canonical form of the tables -/

/-- Settles O39. -/
theorem resetIsSound : Obligations.ResetIsSound := ⟨rfl, rfl⟩

/-- Settles O38: a command keeps the canonical form by `exec_keeps`, and an edge of the clock by `tick_within`. -/
theorem stepKeepsTheTablesSound : Obligations.StepKeepsTheTablesSound := by
  intro s t hs h
  cases hp : s.pending with
  | nil =>
    rw [step_of_no_command hp] at h
    cases h
    cases hr : s.timeRuns with
    | false => rwa [tick_of_time_stopped hr]
    | true => exact (tick_within hr).stored hs
  | cons c rest =>
    have hx : exec c { s with pending := rest } = .next t := by rw [← h, step, hp]
    obtain ⟨W, hW, -⟩ := exec_keeps hx
    exact hW.stored hs

/-! ### Writes of a word that the register port takes -/

/-- A write of a static field of a busy page drops (R40). -/
theorem State.writeAt_busy {s : State} {p page off mask v : Nat} (hp : s.pageType page ≠ .absent) (ho : ordinary page off = true)
    (hd : (regDesc? (assignedType page) off).isSome = true) (hc : bitsWith page off .rw1c &&& mask = 0) (hs : stagedMask page off &&& mask = 0)
    (hr : bitsWith page off .rw &&& mask ≠ 0) (hb : s.busyFor p page off = true) :
    s.writeAt p page off mask v = s.busyDrop p page off := by
  obtain ⟨r, hq⟩ := Option.isSome_iff_exists.1 hd
  unfold State.writeAt
  simp only [bitsWith, hq] at hc hr
  simp only [ordinary, Bool.and_eq_true, decide_eq_true_eq, Bool.not_eq_true'] at ho
  obtain ⟨⟨⟨⟨⟨h1, h2⟩, h3⟩, -⟩, -⟩, -⟩ := ho
  simp [State.pageType_eq hp, hq, h1, h2, h3, hc, hs, hr, hb]

/-- A page where a write is accepted is present. -/
theorem State.present_of_accepts {s : State} {p page off : Nat} (h : s.accepts p page off = true) : s.pageType page ≠ .absent := by
  simp only [State.accepts, Bool.and_eq_true, decide_eq_true_eq] at h
  exact h.1.2

/-- A register write whose word is taken reaches the rule of its register. -/
theorem exec_registerWrite_word {s : State} {p page off : Nat} (h : s.takesWord p page off = true) (v : W64) :
    exec (.registerWrite p page off 4 v) s = .next (s.writeAt p page off (2 ^ 32 - 1) (v.toNat % 2 ^ 32)) := by
  obtain ⟨ha, hp, h4, hr, hw, -, hd⟩ := State.takesWord_iff.1 h
  change execRegisterWrite p page off 4 v s = _
  rw [execRegisterWrite, State.viaView_present p (State.present_of_accepts ha), State.writeReg_word ha hp h4 hr hw hd]

/-- A staged write to a register with staged bits is a register write. -/
theorem exec_stagedWrite_word {s : State} {p page off : Nat} (h : s.takesWord p page off = true) (hs : stagedMask page off ≠ 0) (v : W64) :
    exec (.stagedWrite p page off 4 v) s = exec (.registerWrite p page off 4 v) s := by
  have hv := State.viaView_present p (State.present_of_accepts (State.takesWord_iff.1 h).1)
  change execStagedWrite p page off 4 v s = execRegisterWrite p page off 4 v s
  simp [execStagedWrite, execRegisterWrite, hv, hs]

theorem State.shadow?_stageReg (s : State) (page bank off v : Nat) : (s.stageReg page bank off v).shadow? page bank off = some (v % 2 ^ 64) := by
  simp [State.stageReg, State.shadow?]

/-- Settles O1: one clause per way that `writeAt` takes, by the access codes of the bits written. -/
theorem registerWriteFollowsAccessCode : Obligations.RegisterWriteFollowsAccessCode := by
  intro s p page off v ht
  obtain ⟨ha, -, -, -, -, ho, hd⟩ := State.takesWord_iff.1 ht
  have hp := State.present_of_accepts ha
  refine ⟨fun hc => ?cleared, fun hc hs hj => ?staged, fun hc hs hr hb => ?busy⟩
  case cleared =>
    refine ⟨_, (exec_registerWrite_word ht v).trans (congrArg _ (State.writeAt_clear hp ho hd hc)), State.reg_setReg .., ?_, rfl⟩
    exact fun x c o hk => State.reg_setReg_ne _ _ hk
  case staged =>
    have hx := (exec_registerWrite_word ht v).trans (congrArg _ (State.writeAt_staged hp ho hd hc hs hj))
    have hm : stagedMask page off ≠ 0 := fun h => hs (by rw [h, Nat.zero_and])
    exact ⟨_, hx, (exec_stagedWrite_word ht hm v).trans hx, State.shadow?_stageReg .., rfl⟩
  case busy =>
    rw [exec_registerWrite_word ht, State.writeAt_busy hp ho hd hc hs hr hb]

/-! ### Discards (R41) -/

/-- A write of STAGE_CTRL that a page other than a group page takes (R41). -/
theorem State.writeReg_stageCtrl {s : State} {p page : Nat} (ha : s.accepts p page R.HDR_STAGE_CTRL = true) (hp : homePage page = page)
    (hg : isGroup (assignedType page) = false) (he : assignedType page ≠ .entry) (v : Nat) :
    s.writeReg p page R.HDR_STAGE_CTRL 4 v = s.stageCtrl p page (v % 2 ^ 32) := by
  have h3 := State.present_of_accepts ha
  have ht := State.pageType_eq h3
  obtain ⟨r, hr⟩ : ∃ r, headerRegs.find? (fun r => r.off = R.HDR_STAGE_CTRL) = some r := ⟨_, rfl⟩
  rw [State.writeReg_header ha hp he (by decide) (by decide) (by decide), State.writeAt, ht, regDesc_header (ht ▸ h3) he (by decide), hr]
  simp only [State.groupWrite, hg, Bool.false_eq_true, if_false, and_mask, Nat.mod_mod]
  rw [if_neg (by decide), if_neg (by decide), if_pos trivial]

/-- The word that a discard of one kind writes: its bit, and SHADOW_VIEW as it was. -/
theorem testBit_discardWord (bit old i : Nat) (hb : bit < 3) (hi : i < 3) :
    ((2 ^ bit + (old &&& 0x10000)) % 2 ^ 32).testBit i = decide (bit = i) := by
  have h : old &&& 0x10000 = 2 ^ 3 * (bitsOf old 16 16 * 2 ^ 13) := by
    apply Nat.eq_of_testBit_eq
    intro j
    rw [Nat.testBit_and, ← mul_assoc, mul_comm (2 ^ 3), mul_assoc, ← pow_add, Nat.testBit_mul_two_pow, testBit_bitsOf,
      show (0x10000 : Nat) = 2 ^ 16 from rfl, Nat.testBit_two_pow]
    grind
  rw [h, add_comm, Nat.testBit_mod_two_pow, Nat.testBit_two_pow_mul_add _ (Nat.pow_lt_pow_right (by decide) hb), if_pos hi, Nat.testBit_two_pow]
  simp; omega

/-- A discard of one kind, by the bit of STAGE_CTRL that names it. -/
theorem State.discardWrite_spec {s : State} {p page bit : Nat} {k : Kind} (ha : s.accepts p page R.HDR_STAGE_CTRL = true) (hp : homePage page = page)
    (hg : isGroup (assignedType page) = false) (he : assignedType page ≠ .entry) (hk : (bit, k) ∈ [(0, Kind.step), (1, .layer), (2, .pass)]) :
    (s.discardWrite p page bit).shadows = s.shadows.filter (fun e => !(decide (s.epochOf e.1 = (page, s.bankOf p page R.HDR_STAGE_CTRL)) &&
      decide (regKind (keyPage e.1) (keyOff e.1) = some k))) ∧
    ∀ x b o, rkey x b o ≠ rkey page (s.bankOf p page R.HDR_STAGE_CTRL) R.HDR_STAGE_CTRL → (s.discardWrite p page bit).reg x b o = s.reg x b o := by
  rw [State.discardWrite, State.writeReg_stageCtrl ha hp hg he, State.stageCtrl]
  refine ⟨?_, fun x b o hne => State.reg_setReg_ne _ _ hne⟩
  have hb : bit < 3 := by simp at hk; omega
  simp only [State.setReg_shadows, State.discard, testBit_discardWord bit _ _ hb (by decide : 0 < 3),
    testBit_discardWord bit _ _ hb (by decide : 1 < 3), testBit_discardWord bit _ _ hb (by decide : 2 < 3)]
  refine List.filter_congr fun e _ => ?_
  congr 2
  simp only [List.mem_cons, Prod.mk.injEq, List.not_mem_nil, or_false] at hk
  rcases hk with ⟨rfl, rfl⟩ | ⟨rfl, rfl⟩ | ⟨rfl, rfl⟩ <;> rcases regKind (keyPage e.1) (keyOff e.1) with _ | _ | _ | _ <;> rfl

/-- Settles O2. -/
theorem discardDropsItsKind : Obligations.DiscardDropsItsKind := by
  intro s p page ha hp hg he c k hc
  simp only [List.mem_cons, Prod.mk.injEq, List.not_mem_nil, or_false] at hc
  rcases hc with ⟨rfl, rfl⟩ | ⟨rfl, rfl⟩ | ⟨rfl, rfl⟩ <;> exact ⟨_, rfl, State.discardWrite_spec ha hp hg he (by simp)⟩

end Sys2Proof.Machine
end

section
/-! Reads of registers, and the pages of a partition's register view. -/

namespace Sys2Proof.Machine

/-! ### What is read does not depend on what was sent -/

theorem State.viewReg_emit (s : State) (k : OutKind) (a : List Nat) (d : List Byte) (p page off : Nat) :
    (s.emit k a d).viewReg p page off = s.viewReg p page off := rfl

theorem State.readView_emit (s : State) (k : OutKind) (a : List Nat) (d : List Byte) (p page off : Nat) :
    (s.emit k a d).readView p page off = s.readView p page off := rfl

theorem State.mayRead_emit (s : State) (k : OutKind) (a : List Nat) (d : List Byte) (p page off : Nat) :
    (s.emit k a d).mayRead p page off = s.mayRead p page off := rfl

theorem State.pageType_emit (s : State) (k : OutKind) (a : List Nat) (d : List Byte) (page : Nat) :
    (s.emit k a d).pageType page = s.pageType page := rfl

/-! ### The cases of a 4-byte read (R29, R39) -/

section
variable {s : State} {p page off : Nat}

theorem latchKey_high_ne (p w off : Nat) : latchKey p w off ≠ latchKey p w (off + 4) := rkey_off (by omega)

/-- An aligned read where no value waits: the register's word, and the high half held where the register has one. -/
theorem State.lowHalfRead_fresh (h4 : off % 4 = 0) (hp : off ≠ R.HDR_PROGRESS) (hl : sget s.latches (latchKey p (s.viaView p page) off) = none) :
    s.lowHalfRead p page off =
      if (regDesc? (s.pageType (homePage (s.viaView p page))) off).any (fun r => r.width = 64) && off % 8 = 0 then
        { s.emit .readData [p, page, off, s.readView p page off] with
          latches := sset s.latches (latchKey p (s.viaView p page) (off + 4)) (BitVec.ofNat 64 (s.readView p page (off + 4))) }
      else s.emit .readData [p, page, off, s.readView p page off] := by
  unfold State.lowHalfRead
  simp only [h4, ne_eq, not_true_eq_false, if_false, hp, hl, State.pageType_emit, State.readView_emit]
  cases regDesc? (s.pageType (homePage (s.viaView p page))) off <;> rfl

/-- An aligned read where a value waits: that value, which then waits no longer. -/
theorem State.lowHalfRead_latched {x : W64} (h4 : off % 4 = 0) (hp : off ≠ R.HDR_PROGRESS)
    (hl : sget s.latches (latchKey p (s.viaView p page) off) = some x) :
    s.lowHalfRead p page off =
      { s.emit .readData [p, page, off, x.toNat % 2 ^ 32] with
        latches := if off % 8 = 0 then
            sset (sdel s.latches (latchKey p (s.viaView p page) off)) (latchKey p (s.viaView p page) (off + 4)) (BitVec.ofNat 64 (x.toNat / 2 ^ 32))
          else sdel s.latches (latchKey p (s.viaView p page) off) } := by
  unfold State.lowHalfRead
  simp only [h4, ne_eq, not_true_eq_false, if_false, hp, hl]
  split <;> rfl

/-- An unaligned read holds nothing and changes no memory and no queue (R29). -/
theorem State.lowHalfRead_unaligned (h4 : off % 4 ≠ 0) : Within 0x2000040010 s (s.lowHalfRead p page off) := by
  unfold State.lowHalfRead
  simp only [if_pos h4]
  have he : Within 0x2000040010 s (s.emit .readData [p, page, off, 0]) := State.emit_ok (by decide) (.rfl _ s)
  exact .ite he (State.notice_ok (by decide) (State.raisePage_ok (by decide) he))

/-- A read of SPRUE_STATUS by who may read it (R104). -/
theorem State.sprueRead_of_mayRead (ht : s.pageType page = .core) (hm : s.mayRead p page R.CORE_SPRUE_STATUS = true) :
    s.sprueRead p page = (s.emit .readData [p, page, R.CORE_SPRUE_STATUS, s.readWord p page R.CORE_SPRUE_STATUS]).setFld page 0
      F.CORE_SPRUE_STATUS_MIN_LEVEL 16 := by
  unfold State.sprueRead
  simp only [State.mayRead_emit, hm, Bool.and_true]
  exact if_pos (decide_eq_true ht)

end

/-- Settles O32: the cases of `lowHalfRead`, `progressRead` and `sprueRead`. -/
theorem readsAct : Obligations.ReadsAct := by
  intro s p page off w
  refine ⟨fun h4 hp hl => ?fresh, fun x h4 hp hl => ?latched, rfl, fun h4 _ => ?unaligned,
    ⟨_, rfl, rfl, rfl, rfl, by rw [← State.viewReg_emit]; exact sget_sset_self ..⟩, fun ht hm => ?sprue⟩
  case fresh =>
    refine ⟨_, rfl, ?_⟩
    rw [State.lowHalfRead_fresh h4 hp hl]
    split
    · refine ⟨rfl, rfl, rfl, rfl, fun r hr h64 h8 => sget_sset_self .., fun k hk => sget_sset_ne _ hk⟩
    · next hn =>
      refine ⟨rfl, rfl, rfl, rfl, fun r hr h64 h8 => absurd ?_ hn, fun _ _ => rfl⟩
      rw [show s.viaView p page = w from rfl, hr]
      simp [h64, h8]
  case latched =>
    refine ⟨_, rfl, ?_⟩
    rw [State.lowHalfRead_latched h4 hp hl]
    refine ⟨rfl, rfl, rfl, rfl, fun hr => ?_⟩
    have hd := sget_sdel_self (k := latchKey p w off) hr
    dsimp only
    split
    · exact (sget_sset_ne _ (latchKey_high_ne p w off)).trans hd
    · exact hd
  case unaligned =>
    have hW := State.lowHalfRead_unaligned (s := s) (p := p) (page := page) h4
    exact ⟨_, rfl, hW.latches rfl, hW.hbm rfl, hW.queues rfl⟩
  case sprue =>
    refine ⟨_, rfl, ?_⟩
    rw [State.sprueRead_of_mayRead ht hm]
    exact ⟨rfl, State.fld_setFld _ _ _ _ (by decide) (by decide), rfl, rfl, fun x b o hne => State.reg_setFld_ne _ _ hne⟩

/-! ### The register view (R52, R53) -/

/-- View page 0 is the partition's group page. -/
theorem State.viaView_zero (s : State) (p : Nat) : s.viaView p viewBase = pgPackage := by
  simp [State.viaView]

/-- A register write acts on the page that its operand shows. -/
theorem exec_registerWrite_view {s : State} {p a b : Nat} (h : s.viaView p a = s.viaView p b) (off size : Nat) (v : W64) :
    exec (.registerWrite p a off size v) s = exec (.registerWrite p b off size v) s := by
  change execRegisterWrite p a off size v s = execRegisterWrite p b off size v s
  rw [execRegisterWrite, execRegisterWrite, h]

theorem exec_stagedWrite_view {s : State} {p a b : Nat} (h : s.viaView p a = s.viaView p b) (off size : Nat) (v : W64) :
    exec (.stagedWrite p a off size v) s = exec (.stagedWrite p b off size v) s := by
  change execStagedWrite p a off size v s = execStagedWrite p b off size v s
  rw [execStagedWrite, execStagedWrite, h]

theorem clusterPage_lt {g : Nat} (h : g < 160) : clusterPage g uGroup < viewBase := by
  unfold clusterPage pageNum uGroup viewBase
  omega

theorem assignedType_clusterPage {g : Nat} (h : g < 160) : assignedType (clusterPage g uGroup) = .clusterGroup := by
  interval_cases g <;> rfl

/-- In Ready a cluster's group page is present. -/
theorem State.pageType_clusterPage {s : State} {g : Nat} (hr : s.ready = true) (h : g < 160) :
    s.pageType (clusterPage g uGroup) = .clusterGroup := by
  have hd : ¬ 8 ≤ pageDie (clusterPage g uGroup) := by unfold pageDie clusterPage pageNum uGroup; omega
  simp [State.pageType, hr, assignedType_clusterPage h, hd]

/-- PAGE_ID of a cluster's group page in the register view: the partition-local path. -/
theorem State.readView_clusterId {s : State} {p i g : Nat} (hg : (s.clustersOf p)[i]? = some g) (hi : i < 160) (hg' : g < 160) (hr : s.ready = true) :
    s.readView p (viewBase + 1 + i) R.HDR_PAGE_ID = 0x07003F81 + i / 40 * 2 ^ 20 + i % 40 * 2 ^ 14 := by
  have h1 : viewBase < viewBase + 1 + i := by omega
  have h2 : viewBase + 1 + i ≤ viewBase + 160 := by omega
  simp only [State.readView, State.viaView_cluster hg hi, State.pageType_clusterPage hr hg', h1, h2, decide_true, Bool.and_self, if_true,
    PageType.code, show viewBase + 1 + i - viewBase - 1 = i by omega]
  omega

/-- An aperture lies behind the view pages of clusters, so it reads as its target does. -/
theorem State.readView_aperture (s : State) (p off : Nat) {n : Nat} (h : n < 32) :
    s.readView p (viewBase + 192 + n) off = s.readWord p (s.viaView p (viewBase + 192 + n)) off := by
  have h1 : ¬ viewBase + 192 + n ≤ viewBase + 160 := by omega
  simp [State.readView, h1]

/-- Settles O60: each clause is the page that `viaView` gives. -/
theorem viewsShowTheirTargets : Obligations.ViewsShowTheirTargets := by
  intro s p off size v
  refine ⟨exec_registerWrite_view ((s.viaView_zero p).trans (s.viaView_window p (by decide)).symm) off size v, fun i g hg hi hg' => ⟨?_, ?_⟩,
    fun n hn => ?_⟩
  · exact exec_registerWrite_view ((State.viaView_cluster hg hi).trans (s.viaView_window p (clusterPage_lt hg')).symm) off size v
  · intro hr hl
    refine ⟨_, rfl, ?_⟩
    rw [State.lowHalfRead_fresh (by decide) (by decide) (by rwa [State.viaView_cluster hg hi]), State.readView_clusterId hg hi hg' hr]
    split <;> rfl
  · have ha := s.viaView_aperture p hn
    have hv := ha.trans (s.viaView_window p (lt_trans (Nat.mod_lt _ (by decide)) (by decide : 0x20000 < viewBase))).symm
    exact ⟨exec_registerWrite_view hv off size v, exec_stagedWrite_view hv off size v, (State.readView_aperture s p off hn).trans (congrArg (s.readWord p · off) ha)⟩

end Sys2Proof.Machine
end

section
/-! Control writes: HOLD, the trace bases, router writes, and the command registers of links, of the time unit and of checkpoints. -/

namespace Sys2Proof.Machine

/-! ### Registers of different pages -/

theorem rkey_ne_of_page_lt {P B O P' B' O' : Nat} (h : P < P') (hB : B < 131072) (hO : O < 4096) : rkey P B O ≠ rkey P' B' O' := by
  unfold rkey; omega

theorem rkey_ne_of_page_ne {P B O P' B' O' : Nat} (h : P ≠ P') (hB : B < 131072) (hO : O < 4096) (hB' : B' < 131072) (hO' : O' < 4096) :
    rkey P B O ≠ rkey P' B' O' := fun he => h (rkey_inj hB hB' hO hO' he).1

theorem rkey_ne_of_bank_ne {P B O P' B' O' : Nat} (h : B ≠ B') (hB : B < 131072) (hO : O < 4096) (hB' : B' < 131072) (hO' : O' < 4096) :
    rkey P B O ≠ rkey P' B' O' := fun he => h (rkey_inj hB hB' hO hO' he).2.1

/-! ### The access codes of a register, from the type of its page -/

theorem bitsWith_of_type {page : Nat} {t : PageType} (h : assignedType page = t) (off : Nat) (a : Acc) :
    bitsWith page off a = ((regDesc? t off).map (accMask · a)).getD 0 := by
  subst h
  unfold bitsWith
  cases regDesc? (assignedType page) off <;> rfl

theorem stagedMask_of_type {page : Nat} {t : PageType} (h : assignedType page = t) (he : t ≠ .entry) (off : Nat) :
    stagedMask page off =
      ((regDesc? t off).map (fun r => r.mask (fun a => match a with | .rws _ => true | _ => false))).getD 0 := by
  have hp : page ≠ pgEntry := by rintro rfl; exact he (h.symm.trans rfl)
  subst h
  unfold stagedMask
  rw [if_neg hp]
  cases regDesc? (assignedType page) off <;> rfl

/-- Fields written over what a register held: the bits of the mask are the new ones. -/
theorem mergeStaged_mod (n old new : Nat) : mergeStaged (2 ^ n - 1) old new % 2 ^ n = new % 2 ^ n := by
  have h := Nat.div_add_mod old (2 ^ n)
  rw [mergeStaged, and_mask, and_mask, show old - old % 2 ^ n = 2 ^ n * (old / 2 ^ n) by omega, Nat.mul_add_mod, Nat.mod_mod]

/-- A whole register written. -/
theorem mergeStaged_all {n old : Nat} (h : old < 2 ^ n) (new : Nat) : mergeStaged (2 ^ n - 1) old new = new % 2 ^ n := by
  rw [mergeStaged, and_mask, and_mask, Nat.mod_eq_of_lt h, Nat.sub_self, Nat.zero_add]

/-! ### HOLD (R35) -/

/-- A write of PAGE_CTRL that a page other than a group page takes. -/
theorem State.writeReg_pageCtrl {s : State} {p page : Nat} (ha : s.accepts p page R.HDR_PAGE_CTRL = true) (hp : homePage page = page)
    (hg : isGroup (assignedType page) = false) (he : assignedType page ≠ .entry) (v : Nat) :
    s.writeReg p page R.HDR_PAGE_CTRL 4 v = s.pageCtrl p page (v % 2 ^ 32 &&& 7) := by
  have h3 := State.present_of_accepts ha
  have ht := State.pageType_eq h3
  have hr : headerRegs.find? (fun r => r.off = R.HDR_PAGE_CTRL) = some ⟨0x008, 32, [⟨0, 0, .rwl, 0⟩, ⟨1, 1, .rwl, 0⟩, ⟨2, 2, .rwl, 1⟩]⟩ := rfl
  rw [State.writeReg_header ha hp he (by decide) (by decide) (by decide), State.writeAt, ht, regDesc_header (ht ▸ h3) he (by decide), hr]
  simp only [State.groupWrite, hg, Bool.false_eq_true, if_false]
  exact if_pos trivial

/-- HOLD is set (R35). -/
theorem State.hold_spec {s : State} {p page : Nat} (ha : s.accepts p page R.HDR_PAGE_CTRL = true) (hp : homePage page = page)
    (hg : isGroup (assignedType page) = false) (he : assignedType page ≠ .entry) :
    ∃ t, exec (.hold p page) s = .next t ∧ t.fld page (s.bankOf p page R.HDR_PAGE_CTRL) F.HDR_PAGE_CTRL_HOLD = 1 ∧ t.queues = s.queues ∧
      t.hbm = s.hbm := by
  generalize hv : (s.reg page (s.bankOf p page R.HDR_PAGE_CTRL) R.HDR_PAGE_CTRL ||| 1) % 2 ^ 32 &&& 7 = v
  have h0 : v.testBit 0 = true := by simp [← hv]
  have hx : exec (.hold p page) s = .next (s.setReg page (s.bankOf p page R.HDR_PAGE_CTRL) R.HDR_PAGE_CTRL v) := by
    change execHold p page s = _
    rw [execHold, State.writeReg_pageCtrl ha hp hg he, hv, State.pageCtrl, if_pos h0]
  refine ⟨_, hx, ?_, rfl, rfl⟩
  rw [State.fld, show F.HDR_PAGE_CTRL_HOLD.off = R.HDR_PAGE_CTRL from rfl, State.reg_setReg]
  have h1 : v % 2 = 1 := by simpa [Nat.testBit_zero] using h0
  change (v % 2 ^ 64) >>> 0 % 2 = 1
  omega

/-- HELD reads 1 once a held page has drained (R35). -/
theorem State.holdDrained_spec {s : State} {page : Nat} (hp : s.pageType page ≠ .absent) (hh : s.fld page (hdrBank page 0) F.HDR_PAGE_CTRL_HOLD = 1)
    (hb : s.pageBusy 0 page = false) :
    ∃ t, exec (.holdDrained page) s = .next t ∧ t.fld page (hdrBank page 0) F.HDR_PAGE_STATUS_HELD = 1 ∧ t.queues = s.queues ∧ t.hbm = s.hbm := by
  have h0 : hdrBank page 0 = 0 := by unfold hdrBank; split <;> rfl
  have hx : exec (.holdDrained page) s = .next (s.setFld page 0 F.HDR_PAGE_STATUS_HELD 1) := by
    change execHoldDrained page s = _
    rw [execHoldDrained, State.holdDrained, hb, hh]
    simp [hp]
  refine ⟨_, hx, ?_, rfl, rfl⟩
  rw [h0]
  exact State.fld_setFld _ _ _ _ (by decide) (by decide)

/-! ### Trace bases (R386, R397) -/

/-- A trace base that fits is set, and the next record goes to its start. -/
theorem State.traceBase_spec {s : State} {p off : Nat} {v : W64} (ho : off = R.GRP_TRACE_BASE ∨ off = R.GRP_ITRACE_BASE)
    (ht : s.takesWord p pgPackage off = true) (hf : s.traceFits p off v.toNat = true) :
    ∃ t, exec (.traceBaseWrite p off v) s = .next t ∧ t.reg pgPackage p off = v.toNat ∧ t.hbm = s.hbm ∧
      t.reg pgPackage p (regTraceFirst (off == R.GRP_ITRACE_BASE)) = s.reg pgPackage p (regTraceNext (off == R.GRP_ITRACE_BASE)) := by
  have hx : exec (.traceBaseWrite p off v) s = .next ((s.setReg pgPackage p off v.toNat).setReg pgPackage p
      (regTraceFirst (off == R.GRP_ITRACE_BASE)) (s.reg pgPackage p (regTraceNext (off == R.GRP_ITRACE_BASE)))) := by
    have hb : s.bankOf p pgPackage off = p := by rcases ho with rfl | rfl <;> rfl
    have hm : mergeStaged (2 ^ 64 - 1) (s.reg pgPackage p off) (v.toNat % 2 ^ 64) = v.toNat := by
      rw [mergeStaged_all (s.reg_lt ..), Nat.mod_mod, Nat.mod_eq_of_lt v.isLt]
    have hj : s.rejects p pgPackage p off v.toNat = none := by
      simp [State.rejects, show assignedType pgPackage = .packageGroup from rfl, hf]
    have hw := State.writeReg_liveLong (s := s) (v := v.toNat) (w := 2 ^ 64 - 1) ht
      (by rcases ho with rfl | rfl <;> decide +kernel) (by rcases ho with rfl | rfl <;> decide +kernel)
      (by rcases ho with rfl | rfl <;> decide +kernel) (by rcases ho with rfl | rfl <;> decide +kernel)
      (by rcases ho with rfl | rfl <;> decide +kernel) (by decide) (by rcases ho with rfl | rfl <;> decide)
      (by rcases ho with rfl | rfl <;> decide +kernel) (by rw [hb, hm]; exact hj)
    rw [hb, hm] at hw
    change execTraceBaseWrite p off v s = _
    rcases ho with rfl | rfl
    · rw [execTraceBaseWrite, if_pos (by decide), if_pos (by decide), hw]
      exact congrArg _ (congrArg (State.setReg _ _ _ _) (State.reg_setReg_ne _ _ (rkey_off (by decide))))
    · rw [execTraceBaseWrite, if_pos (by decide), if_pos (by decide), hw]
      exact congrArg _ (congrArg (State.setReg _ _ _ _) (State.reg_setReg_ne _ _ (rkey_off (by decide))))
  refine ⟨_, hx, ?_, rfl, ?_⟩
  · rw [State.reg_setReg_ne, State.reg_setReg, Nat.mod_eq_of_lt v.isLt]
    rcases ho with rfl | rfl <;> exact rkey_off (by decide)
  · rw [State.reg_setReg, Nat.mod_eq_of_lt (s.reg_lt ..)]


/-! ### Routers (R246, R264) -/

theorem ioDies_le (n8 : Bool) : ioDies n8 ≤ 6 := by cases n8 <;> decide

theorem assignedType_pgRouter {die : Nat} (h8 : 8 ≤ die) (h : die < 14) : assignedType (pgRouter die) = .router := by
  interval_cases die <;> rfl

theorem pgRouter_inj {i j : Nat} (h : pgRouter i = pgRouter j) : i = j := by
  unfold pgRouter diePage pageNum at h; omega

/-- A register of each of some routers set to one value. -/
theorem State.reg_foldl_routers (n off v : Nat) (s : State) {i : Nat} (hi : i < n) (ho : off < 4096) :
    ((List.range n).foldl (fun s i => s.setReg (pgRouter (8 + i)) 0 off v) s).reg (pgRouter (8 + i)) 0 off = v % 2 ^ 64 := by
  induction n with
  | zero => omega
  | succ m ih =>
    rw [List.range_succ, List.foldl_append, List.foldl_cons, List.foldl_nil]
    by_cases h : i = m
    · subst h; exact State.reg_setReg ..
    · rw [State.reg_setReg_ne, ih (by omega)]
      exact rkey_ne_of_page_ne (fun he => h (by have := pgRouter_inj he; omega)) (by decide) ho (by decide) ho

/-- The identity written to one router is written to every router (R264). -/
theorem State.routerId_spec {s : State} {die i : Nat} {v : W32} (h8 : 8 ≤ die) (hd : die < 8 + ioDies s.n8)
    (ht : s.takesWord 0 (pgRouter die) R.ROUTER_ROUTER_ID = true) (hu : s.upLinks = [])
    (hb : s.busyFor 0 (pgRouter die) R.ROUTER_ROUTER_ID = false) (hi : i < ioDies s.n8) :
    ∃ t, exec (.routerIdWrite 0 die v) s = .next t ∧ t.fld (pgRouter (8 + i)) 0 F.ROUTER_ROUTER_ID_MODULE_ID = v.toNat % 2 ^ 14 := by
  have hr := assignedType_pgRouter h8 (lt_of_lt_of_le hd (by have := ioDies_le s.n8; omega))
  obtain ⟨ha, hp, h4, hres, hwin, ho, hsome⟩ := State.takesWord_iff.1 ht
  have hbank : s.bankOf 0 (pgRouter die) R.ROUTER_ROUTER_ID = 0 := by rw [State.bankOf, hr]; rfl
  generalize hn : mergeStaged (2 ^ 14 - 1) (s.reg (pgRouter die) 0 R.ROUTER_ROUTER_ID) (v.toNat % 2 ^ 32) = new
  have hx : exec (.routerIdWrite 0 die v) s = .next ((List.range (ioDies s.n8)).foldl
      (fun s i => s.setReg (pgRouter (8 + i)) 0 R.ROUTER_ROUTER_ID new) (s.setReg (pgRouter die) 0 R.ROUTER_ROUTER_ID new)) := by
    change execRouterIdWrite 0 die v s = _
    rw [execRouterIdWrite, State.writeReg_word ha hp h4 hres hwin hsome, State.writeAt_plain (w := 2 ^ 14 - 1) (State.present_of_accepts ha) ho hsome
      (by rw [bitsWith_of_type hr]; decide +kernel) (by rw [stagedMask_of_type hr (by decide)]; decide +kernel)
      (by rw [bitsWith_of_type hr]; decide +kernel) (by rw [bitsWith_of_type hr, bitsWith_of_type hr]; decide +kernel) (by decide) (Or.inr hb)
      (by rw [State.rejects, hr]; simp [hu]), hbank, hn, State.afterWrite, hr]
    rfl
  refine ⟨_, hx, ?_⟩
  rw [State.fld, show F.ROUTER_ROUTER_ID_MODULE_ID.off = R.ROUTER_ROUTER_ID from rfl, State.reg_foldl_routers _ _ _ _ hi (by decide), ← hn]
  change (_ % 2 ^ 64) >>> 0 % 2 ^ 14 = _
  rw [Nat.shiftRight_zero, Nat.mod_mod_of_dvd _ (by decide : 2 ^ 14 ∣ 2 ^ 64), mergeStaged_mod, Nat.mod_mod_of_dvd _ (by decide : 2 ^ 14 ∣ 2 ^ 32)]

/-- A route entry written is the entry that ROUTE_SEL selects (R246). -/
theorem State.routeData_spec {s : State} {die : Nat} {v : W32} (h8 : 8 ≤ die) (hd : die < 8 + ioDies s.n8)
    (ht : s.takesWord 0 (pgRouter die) R.ROUTER_ROUTE_DATA = true) :
    ∃ t, exec (.routeDataWrite 0 die v) s = .next t ∧
      bitsOf (t.reg (pgRouter die) (s.reg (pgRouter die) 0 R.ROUTER_ROUTE_SEL) R.ROUTER_ROUTE_DATA) 13 0 = v.toNat % 2 ^ 14 ∧
      (∀ e, e ≠ s.reg (pgRouter die) 0 R.ROUTER_ROUTE_SEL → e < 2 ^ 14 → s.reg (pgRouter die) 0 R.ROUTER_ROUTE_SEL < 2 ^ 14 →
        t.reg (pgRouter die) e R.ROUTER_ROUTE_DATA = s.reg (pgRouter die) e R.ROUTER_ROUTE_DATA) := by
  have hr := assignedType_pgRouter h8 (lt_of_lt_of_le hd (by have := ioDies_le s.n8; omega))
  have hbank : s.bankOf 0 (pgRouter die) R.ROUTER_ROUTE_DATA = s.reg (pgRouter die) 0 R.ROUTER_ROUTE_SEL := by rw [State.bankOf, hr]; rfl
  generalize s.reg (pgRouter die) 0 R.ROUTER_ROUTE_SEL = sel at *
  generalize hn : mergeStaged (2 ^ 14 - 1) (s.reg (pgRouter die) sel R.ROUTER_ROUTE_DATA) (v.toNat % 2 ^ 32) = new
  have hx : exec (.routeDataWrite 0 die v) s = .next (s.setReg (pgRouter die) sel R.ROUTER_ROUTE_DATA new) := by
    change execRouteDataWrite 0 die v s = _
    rw [execRouteDataWrite, State.writeReg_live (w := 2 ^ 14 - 1) ht (by rw [bitsWith_of_type hr]; decide +kernel)
      (by rw [stagedMask_of_type hr (by decide)]; decide +kernel) (by rw [bitsWith_of_type hr]; decide +kernel)
      (by rw [bitsWith_of_type hr]; decide +kernel) (by rw [bitsWith_of_type hr]; decide +kernel) (by decide)
      (by rw [State.rejects, hr]; rfl), hbank, hn, State.afterWrite, hr]
    rfl
  refine ⟨_, hx, ?_, fun e he hel hsl => State.reg_setReg_ne _ _ ?_⟩
  · rw [State.reg_setReg, ← hn]
    change (_ % 2 ^ 64) >>> 0 % 2 ^ 14 = _
    rw [Nat.shiftRight_zero, Nat.mod_mod_of_dvd _ (by decide : 2 ^ 14 ∣ 2 ^ 64), mergeStaged_mod, Nat.mod_mod_of_dvd _ (by decide : 2 ^ 14 ∣ 2 ^ 32)]
  · exact rkey_ne_of_bank_ne he (lt_trans hel (by decide)) (by decide) (lt_trans hsl (by decide)) (by decide)

/-! ### Links (R240, R260) -/

theorem assignedType_linkPage {n : Nat} (h : n < 96) : assignedType (linkPage n) = .link := by
  interval_cases n <;> rfl

theorem linkOf_linkPage (n : Nat) : linkOf (linkPage n) = n := by
  unfold linkOf linkPage pageDie pageUnit pageNum; omega

theorem State.linkCount_le (s : State) : s.linkCount ≤ 96 := by
  have := ioDies_le s.n8; unfold State.linkCount; omega

/-- A write of ones to LINK_CTRL acts on the page's link. -/
theorem State.writeReg_linkCtrl {s : State} {n v : Nat} (hn : n < s.linkCount) (ht : s.takesWord 0 (linkPage n) R.LINK_LINK_CTRL = true) :
    s.writeReg 0 (linkPage n) R.LINK_LINK_CTRL 4 v = s.acts 0 (linkPage n) R.LINK_LINK_CTRL (v % 2 ^ 32 &&& (2 ^ 32 - 1) &&& 3) := by
  have hl := assignedType_linkPage (lt_of_lt_of_le hn s.linkCount_le)
  exact State.writeReg_act ht (by rw [bitsWith_of_type hl]; decide +kernel) (by rw [stagedMask_of_type hl (by decide)]; decide +kernel)
    (by rw [bitsWith_of_type hl]; decide +kernel) (by decide) (by rw [bitsWith_of_type hl]; decide +kernel)

theorem exec_retrain {s : State} {n : Nat} (hn : n < s.linkCount) (ht : s.takesWord 0 (linkPage n) R.LINK_LINK_CTRL = true) :
    exec (.retrain 0 n) s = .next (s.startTraining n) := by
  change execRetrain 0 n s = _
  rw [execRetrain, State.writeReg_linkCtrl hn ht, State.acts, assignedType_linkPage (lt_of_lt_of_le hn s.linkCount_le), linkOf_linkPage]
  rfl

theorem exec_linkCtrlProbe {s : State} {n : Nat} (hn : n < s.linkCount) (ht : s.takesWord 0 (linkPage n) R.LINK_LINK_CTRL = true)
    (hs : s.linkSt n = 4 ∨ s.linkSt n = 5) : exec (.linkCtrlProbe 0 n) s = .next (s.startProbes n 0) := by
  change execLinkCtrlProbe 0 n s = _
  rw [execLinkCtrlProbe, State.writeReg_linkCtrl hn ht, State.acts, assignedType_linkPage (lt_of_lt_of_le hn s.linkCount_le), linkOf_linkPage]
  exact congrArg _ (if_pos (by rcases hs with h | h <;> simp [h] <;> decide))

/-- A register of a link's page beside LINK_STAT. -/
theorem rkey_linkStat_ne (n : Nat) {o : Nat} (h : o ≠ F.LINK_LINK_STAT_STATE.off) :
    rkey (linkPage n) 0 F.LINK_LINK_STAT_STATE.off ≠ rkey (linkPage n) 0 o := rkey_off (Ne.symm h)

theorem State.linkSt_setLinkSt (s : State) (n v : Nat) : (s.setLinkSt n v).linkSt n = v % 8 := by
  change (((s.setFld (linkPage n) 0 F.LINK_LINK_STAT_STATE v).setReg (linkPage n) 0 R.HDR_PROGRESS (1 + 65536 * 0)).setReg (linkPage n) 0
    R.HDR_PROGRESS_POS v).fld (linkPage n) 0 F.LINK_LINK_STAT_STATE = v % 8
  rw [State.fld_setReg_ne _ _ (rkey_linkStat_ne n (o := R.HDR_PROGRESS_POS) (by decide)),
    State.fld_setReg_ne _ _ (rkey_linkStat_ne n (o := R.HDR_PROGRESS) (by decide))]
  exact State.fld_setFld _ _ _ _ (by decide) (by decide)

theorem State.linkSt_retrainLink (s : State) (n : Nat) : (s.retrainLink n).linkSt n = 1 :=
  (State.fld_setFld_reg_ne _ _ (rkey_linkStat_ne n (by decide))).trans (s.linkSt_setLinkSt n 1)

/-- Training begins in DETECT, with the failed attempts forgotten (R240). -/
theorem State.startTraining_spec {s : State} {n : Nat} (he : s.fld (linkPage n) 0 F.LINK_LINK_CFG_ENABLE = 1) :
    (s.startTraining n).linkSt n = 1 ∧ (s.startTraining n).hbm = s.hbm ∧ (s.startTraining n).fld (linkPage n) 0 F.LINK_LINK_STAT_FAILS = 0 ∧
      (s.startTraining n).fld (linkPage n) 0 F.LINK_LINK_STAT_DOWN_CAUSE = 0 := by
  have other : ∀ (u : State) (f g : Fld), g.off = f.off → f.lo ≤ f.hi → g.hi < 64 → g.hi < f.lo ∨ f.hi < g.lo →
      (u.setFld (linkPage n) 0 f 0).fld (linkPage n) 0 g = u.fld (linkPage n) 0 g :=
    fun u f g ho h h64 hd => State.fld_setFld_ne u _ _ 0 ho h h64 hd
  have hb := (Within.of State.startTraining_ok : Within _ s (s.startTraining n)).hbm rfl
  rw [State.startTraining, if_neg (by rw [he]; decide)] at hb ⊢
  refine ⟨?_, hb, ?_, State.fld_setFld _ _ _ _ (by decide) (by decide)⟩
  · unfold State.linkSt
    rw [other _ F.LINK_LINK_STAT_DOWN_CAUSE F.LINK_LINK_STAT_STATE rfl (by decide) (by decide) (by decide),
      other _ F.LINK_LINK_STAT_FAILS F.LINK_LINK_STAT_STATE rfl (by decide) (by decide) (by decide)]
    exact s.linkSt_retrainLink n
  · rw [other _ F.LINK_LINK_STAT_DOWN_CAUSE F.LINK_LINK_STAT_FAILS rfl (by decide) (by decide) (by decide)]
    exact State.fld_setFld _ _ _ _ (by decide) (by decide)

/-! ### Checkpoints (R344) -/

theorem State.writeReg_ckptCtrl {s : State} {p v : Nat} (ht : s.takesWord p pgSnapshot R.SNAPSHOT_CKPT_CTRL = true) :
    s.writeReg p pgSnapshot R.SNAPSHOT_CKPT_CTRL 4 v = s.acts p pgSnapshot R.SNAPSHOT_CKPT_CTRL (v % 2 ^ 32 &&& (2 ^ 32 - 1) &&& 3) :=
  State.writeReg_act ht (by decide +kernel) (by decide +kernel) (by decide +kernel) (by decide) (by decide +kernel)

theorem exec_ckptRelease {s : State} {p : Nat} (ht : s.takesWord p pgSnapshot R.SNAPSHOT_CKPT_CTRL = true) :
    exec (.ckptRelease p) s = .next (s.ckptFree p) := by
  change execCkptRelease p s = _
  rw [execCkptRelease, State.writeReg_ckptCtrl ht]
  rfl

theorem exec_ckptNow {s : State} {p : Nat} (ht : s.takesWord p pgSnapshot R.SNAPSHOT_CKPT_CTRL = true) :
    exec (.ckptNow p) s = .next (s.updJr p (fun j => { j with ckptNow := true })) := by
  change execCkptNow p s = _
  rw [execCkptNow, State.writeReg_ckptCtrl ht]
  rfl

/-- A held checkpoint is freed. -/
theorem State.ckptFree_spec {s : State} {p : Nat} (h : (s.part p).snap.held = true) :
    ((s.ckptFree p).part p).snap.held = false ∧ (s.ckptFree p).fld pgSnapshot p F.SNAPSHOT_CKPT_STATUS_STATE = 0 ∧ (s.ckptFree p).hbm = s.hbm := by
  unfold State.ckptFree
  rw [if_pos h]
  refine ⟨congrArg (·.snap.held) (State.part_setPart ..), ?_, rfl⟩
  change ((s.setFld pgSnapshot p F.SNAPSHOT_CKPT_STATUS_STATE 0).setFld pgSnapshot p F.SNAPSHOT_CKPT_STATUS_READY 0).fld pgSnapshot p
    F.SNAPSHOT_CKPT_STATUS_STATE = 0
  rw [State.fld_setFld_ne (f := F.SNAPSHOT_CKPT_STATUS_READY) (g := F.SNAPSHOT_CKPT_STATUS_STATE) _ _ _ _ rfl (by decide) (by decide) (by decide)]
  exact State.fld_setFld _ _ _ _ (by decide) (by decide)

end Sys2Proof.Machine
end

section
/-! Control writes: the command registers of links, of the time unit and of checkpoints. -/

namespace Sys2Proof.Machine

/-! ### What trace records and link messages leave of other pages' registers -/

section
variable {P B O : Nat}

theorem State.reg_bump_ne (s : State) {p b o : Nat} (n : Nat) (h : rkey P B O ≠ rkey p b o) : (s.bump p b o n).reg P B O = s.reg P B O :=
  State.reg_setReg_ne _ _ h

/-- A trace record goes to the buffer of its partition: only the METER page and the package group page count it. -/
theorem State.reg_tracePut (s : State) (h : P < pgMeter) (hB : B < 131072) (hO : O < 4096) (p : Nat) (it : Bool) (l : List Byte) :
    (s.tracePut p it l).reg P B O = s.reg P B O := by
  unfold State.tracePut
  split
  · rfl
  · refine (State.reg_bump_ne _ _ (rkey_ne_of_page_lt h hB hO)).trans
      ((State.reg_setReg_ne _ _ (rkey_ne_of_page_lt (lt_trans h (by decide)) hB hO)).trans (State.reg_congr ?_ _ _ _))
    exact (Within.of State.wrBytes_ok).regs rfl

theorem State.reg_traceTime (s : State) (h : P < pgMeter) (hB : B < 131072) (hO : O < 4096) : s.traceTime.reg P B O = s.reg P B O :=
  State.reg_foldl_ne _ (fun u p => u.reg_tracePut h hB hO p _ _) s

variable (hP : ∀ n, P ≠ linkPage n) (hB : B < 131072) (hO : O < 4096)
include hP hB hO

/-- A flit counts on its link's page alone. -/
theorem State.reg_sendFlit (s : State) (n ftype vc : Nat) (sop eop : Bool) (l : List Byte) (o : Option (Nat × Nat)) :
    (s.sendFlit n ftype vc sop eop l o).reg P B O = s.reg P B O := by
  have hk : ∀ {o}, o < 4096 → rkey P B O ≠ rkey (linkPage n) 0 o := fun h => rkey_ne_of_page_ne (hP n) hB hO (by decide) h
  unfold State.sendFlit
  dsimp only
  split
  · exact (State.reg_bump_ne _ _ (hk (by decide))).trans (State.reg_bump_ne _ _ (hk (by decide)))
  · exact State.reg_bump_ne _ _ (hk (by decide))

theorem State.reg_sendMsg (s : State) (n : Nat) (m : List Nat) : (s.sendMsg n m).reg P B O = s.reg P B O :=
  State.reg_sendFlit hP hB hO _ n 2 3 true true _ none

theorem State.reg_sendPacketOn (s : State) (n vc : Nat) (pk : Packet) (o : Option (Nat × Nat)) : (s.sendPacketOn n vc pk o).reg P B O = s.reg P B O :=
  State.reg_foldl_ne _ (fun u _ => u.reg_sendFlit hP hB hO n 1 vc _ _ _ _) s

theorem State.reg_pumpLink (n fuel : Nat) (s : State) : (s.pumpLink n fuel).reg P B O = s.reg P B O := by
  induction fuel generalizing s with
  | zero => rfl
  | succ k ih =>
    unfold State.pumpLink
    dsimp only
    split
    · rfl
    · split
      · split
        · rw [ih, State.reg_sendMsg hP hB hO]; rfl
        · rfl
      · split
        · rfl
        · rw [ih, State.reg_sendPacketOn hP hB hO]; rfl

theorem State.reg_ctrlMsg (s : State) (n : Nat) (m : List Nat) : (s.ctrlMsg n m).reg P B O = s.reg P B O :=
  State.reg_pumpLink hP hB hO n _ _

theorem State.reg_sendTree (s : State) (ns : List Nat) : (s.sendTree ns).reg P B O = s.reg P B O :=
  State.reg_foldl_ne _ (fun u n => u.reg_ctrlMsg hP hB hO n _) s

end

/-! ### The time unit (R260 to R262) -/

theorem pgTime_ne_linkPage (n : Nat) : pgTime 8 ≠ linkPage n := by
  unfold pgTime diePage linkPage pageNum; omega

/-- TIME_STATUS after an alignment: valid, the hop count, the parent and the next EPOCH (R262). -/
theorem State.reg_align_status (s : State) (off : Int) (hops parent : Nat) (root : Bool) :
    (s.align off hops parent root).reg (pgTime 8) 0 R.TIME_TIME_STATUS = (1 + (if root then 4 else 0) + 2 ^ 8 * (hops % 256) + 2 ^ 16 * (parent % 128) +
      2 ^ 24 * ((s.timeFld F.TIME_TIME_STATUS_EPOCH + 1) % 256)) % 2 ^ 64 := by
  have hk : ∀ {o}, R.TIME_TIME_STATUS ≠ o → rkey (pgTime 8) 0 R.TIME_TIME_STATUS ≠ rkey (pgTime 8) 0 o := fun h => rkey_off h
  unfold State.align
  dsimp only
  rw [State.reg_sendTree pgTime_ne_linkPage (by decide) (by decide), State.reg_traceTime _ (by decide) (by decide) (by decide)]
  refine (State.reg_setReg_ne _ _ (hk (by decide))).trans ((State.reg_setReg_ne _ _ (hk (by decide))).trans ((State.reg_setReg ..).trans ?_))
  unfold State.timeFld
  rw [State.fld_setReg_ne _ _ (hk (by decide))]

/-- The root's alignment: EPOCH counts, VALID and ROOT are set (R262). -/
theorem State.alignRoot_spec (s : State) :
    s.alignRoot.fld (pgTime 8) 0 F.TIME_TIME_STATUS_EPOCH = (s.fld (pgTime 8) 0 F.TIME_TIME_STATUS_EPOCH + 1) % 256 ∧
      s.alignRoot.fld (pgTime 8) 0 F.TIME_TIME_STATUS_VALID = 1 ∧ s.alignRoot.fld (pgTime 8) 0 F.TIME_TIME_STATUS_ROOT = 1 := by
  have h := s.reg_align_status 0 0 0 true
  have hx : (s.fld (pgTime 8) 0 F.TIME_TIME_STATUS_EPOCH + 1) % 256 < 256 := Nat.mod_lt _ (by decide)
  unfold State.timeFld at h
  generalize (s.fld (pgTime 8) 0 F.TIME_TIME_STATUS_EPOCH + 1) % 256 = e at h hx ⊢
  have hv : ∀ f : Fld, f.off = R.TIME_TIME_STATUS → s.alignRoot.fld (pgTime 8) 0 f = bitsOf (5 + 2 ^ 24 * e) f.hi f.lo := fun f hf => by
    rw [State.fld, hf, State.alignRoot, h, Nat.mod_eq_of_lt (by simp; omega)]; simp
  have hb : ∀ hi lo, bitsOf (5 + 2 ^ 24 * e) hi lo = (5 + 2 ^ 24 * e) / 2 ^ lo % 2 ^ (hi + 1 - lo) := fun hi lo => by
    simp [bitsOf, Nat.shiftRight_eq_div_pow]
  refine ⟨(hv F.TIME_TIME_STATUS_EPOCH rfl).trans ?_, (hv F.TIME_TIME_STATUS_VALID rfl).trans ?_, (hv F.TIME_TIME_STATUS_ROOT rfl).trans ?_⟩
  · rw [hb]; simp [F.TIME_TIME_STATUS_EPOCH]; omega
  · rw [hb]; simp [F.TIME_TIME_STATUS_VALID]; omega
  · rw [hb]; simp [F.TIME_TIME_STATUS_ROOT]; omega

theorem exec_remeasure {s : State} (ht : s.takesWord 0 (pgTime 8) R.TIME_TIME_CTRL = true) : exec (.remeasure 0) s = .next s.remeasureTime := by
  change execRemeasure 0 s = _
  rw [execRemeasure, State.writeReg_act (w := 1) ht (by decide +kernel) (by decide +kernel) (by decide +kernel) (by decide) (by decide +kernel)]
  rfl

/-- Settles O24: one rule per control write, each stated once above. -/
theorem controlWritesAct : Obligations.ControlWritesAct := by
  intro s
  refine ⟨fun p page hg he hp ha => State.hold_spec ha hp hg he, fun page hp hh hb => State.holdDrained_spec hp hh hb,
    fun p off v ho ht hf => State.traceBase_spec ho ht hf, fun die i v h8 hd ht hu hb hi => State.routerId_spec h8 hd ht hu hb hi,
    fun die v ht h8 hd => State.routeData_spec h8 hd ht, fun n hn ht => ⟨fun he => ?retrain, exec_linkCtrlProbe hn ht⟩,
    fun ht => ⟨exec_remeasure ht, fun hr => ?remeasure⟩, fun p ht => ⟨fun hh => ?release, ?now⟩⟩
  case retrain => exact ⟨_, exec_retrain hn ht, State.startTraining_spec he⟩
  case remeasure =>
    rw [State.remeasureTime, if_pos hr]
    exact s.alignRoot_spec
  case release => exact ⟨_, exec_ckptRelease ht, State.ckptFree_spec hh⟩
  case now =>
    exact ⟨_, exec_ckptNow ht, congrArg (·.jr.ckptNow) (State.part_setPart ..), fun x hx => State.part_setPart_ne _ _ hx, rfl, rfl⟩

end Sys2Proof.Machine
end

section
/-! Health and stage events: assays, errors of SRAM, the stage of an idle partition, zeroing, and re-runs of a layer. -/

namespace Sys2Proof.Machine

/-! ### Assays (R327) -/

/-- Without a barrier none releases. -/
theorem State.runBars_of_no_bars {s : State} (h : s.bars = []) (p : Nat) : s.runBars p = s := by
  simp [State.runBars, State.barFuel, State.settleBars, h]

/-- An assay that a core passes. -/
theorem State.assay_passed {s : State} {page : Nat} (hc : s.pageType page = .core) (hi : s.islHalted page = false)
    (hd : (s.core page).assayDue = true) (hb : s.bars = []) :
    s.assay page true = ((s.assayBusy page).updCore page (fun c => { c with assayT := s.timeNow, assayDue := false, assayFirst := false })).updCore
      page (fun c => { c with usedBy := s.partsOn page }) := by
  unfold State.assay
  rw [if_neg (by rw [hc]; decide), if_neg (by simp [hc, hi, hd])]
  dsimp only
  rw [if_pos rfl]
  exact (State.runBars_of_no_bars (by exact hb) _).trans rfl

theorem State.assayPassed_spec {s : State} {page : Nat} (hc : s.pageType page = .core) (hi : s.islHalted page = false)
    (hd : (s.core page).assayDue = true) (hb : s.bars = []) :
    ∃ t, exec (.assay page true) s = .next t ∧ (t.core page).assayDue = false ∧ (t.core page).assayT = s.timeNow ∧
      (t.core page).usedBy = s.partsOn page ∧ (∀ x, x ≠ page → t.core x = s.core x) ∧ t.hbm = s.hbm ∧ t.queues = s.queues := by
  refine ⟨_, congrArg Host.Outcome.next (State.assay_passed hc hi hd hb), ?_⟩
  simp only [State.updCore, State.core_setCore, true_and]
  refine ⟨fun x hx => ?_, rfl, rfl⟩
  rw [State.core_setCore_ne _ _ hx, State.core_setCore_ne _ _ hx]
  rfl

/-- The spare core of a cluster that passes its assay. -/
theorem State.assay_spare_passed {s : State} {page : Nat} (h : s.pageType page = .clusterCtrl) : s.assay page true = s := by
  simp [State.assay, State.assaySpare, h]

/-! ### Staged values of an idle partition (R46) -/

/-- A boundary takes the shadows that are due, and no other. -/
theorem State.shadows_applyKind (s : State) (k : Kind) (sel : Nat → Bool) :
    (s.applyKind k sel).shadows = s.shadows.filter (fun e => !(s.dueShadows k sel).any (fun d => d.1 = e.1)) := by
  have hW : Within 0x10 { s with shadows := s.shadows.filter (fun e => !(s.dueShadows k sel).any (fun d => d.1 = e.1)) } (s.applyKind k sel) :=
    .fold (fun _ _ h => State.setFld_ok (by decide) h) (.fold (fun _ _ h => State.applyEntry_ok (by decide) h)
      (.fold (fun _ _ h => State.applyKey_ok (by decide) h) (.rfl _ _)))
  exact hW.shadows rfl

theorem State.due_not_left (s : State) (k : Kind) (sel : Nat → Bool) :
    ∀ d ∈ s.dueShadows k sel, ∀ e ∈ (s.applyKind k sel).shadows, e.1 ≠ d.1 := by
  intro d hd e he heq
  rw [State.shadows_applyKind, List.mem_filter] at he
  have : (s.dueShadows k sel).any (fun d => d.1 = e.1) = true := List.any_eq_true.2 ⟨d, hd, decide_eq_true heq.symm⟩
  simp [this] at he

theorem State.idleApply_of_idle {s : State} {p : Nat} (hr : s.ready = true) (hs : (s.part p).state ≠ 0) (hi : s.partIdle p = true)
    (hp : s.pkgStopped = false) :
    s.idleApply p = ((((s.applyPart .pass p).applyPart .layer p).applyPart .step p).clustersOf p |>.foldl (fun t g => t.replaceFenced g)
      (((s.applyPart .pass p).applyPart .layer p).applyPart .step p)).tryContract p := by
  unfold State.idleApply
  rw [if_neg (by simp [hr, hs, hi, hp])]

/-! ### Zeroing (R271) -/

theorem State.zeroingDone_spec {s : State} {p : Nat} (hz : (s.part p).zeroing ≠ []) :
    ∃ t, exec (.zeroingDone p) s = .next t ∧ (t.part p).zeroing = [] ∧ (t.part p).state = 2 ∧
      t.reg pgPartition 0 R.PARTITION_BYTES_ZEROED = (s.reg pgPartition 0 R.PARTITION_BYTES_ZEROED + (svals (s.part p).zeroing).sum) % 2 ^ 64 ∧
      (∀ x, x ≠ p → t.part x = s.part x) ∧ t.hbm = s.hbm ∧ t.queues = s.queues := by
  have hk : ∀ b o, o < 4096 → o ≠ R.PARTITION_BYTES_ZEROED → rkey pgPartition 0 R.PARTITION_BYTES_ZEROED ≠ rkey pgPartition b o := by
    intro b o ho hne h
    unfold rkey at h
    simp only [R.PARTITION_BYTES_ZEROED] at h hne
    omega
  have hx : s.endZeroing p = (((s.updPart p (fun x => { x with zeroing := [] })).bump pgPartition 0 R.PARTITION_BYTES_ZEROED
      (svals (s.part p).zeroing).sum).progress pgPartition p 2 10000 (svals (s.part p).zeroing).sum).contractDone p := by
    unfold State.endZeroing
    exact if_neg (by simpa using hz)
  have hW : Within _ s (s.endZeroing p) := .of State.endZeroing_ok
  refine ⟨_, rfl, ?_, ?_, ?_, fun x hne => ?_, hW.hbm rfl, hW.queues rfl⟩ <;>
    rw [hx, State.contractDone, State.progress, State.bump, State.bump, State.setFld, State.updPart, State.updPart]
  · simp
  · simp
  · rw [State.reg_setReg_ne _ _ (hk 0 R.PARTITION_CONTRACTS_APPLIED (by decide) (by decide)),
      State.reg_setReg_ne _ _ (hk p F.HDR_STAGE_EPOCH_APPLIED.off (by decide) (by decide)), State.reg_setPart',
      State.reg_setReg_ne _ _ (hk p R.HDR_PROGRESS_POS (by decide) (by decide)),
      State.reg_setReg_ne _ _ (hk p R.HDR_PROGRESS (by decide) (by decide)), State.reg_setReg, State.reg_setPart']
  · simp [State.part_setPart_ne _ _ hne]

/-! ### Re-runs (R139) -/

theorem State.rerun_spec {s : State} {p : Nat} (hd : ∀ w ∈ (s.part p).rerunWanted, s.dieStopped (w / 8 / 16384) = false)
    (hw : (s.part p).rerunWanted ≠ []) :
    ∃ u, exec (.rerun p) s = .next ((s.layerCmds p).foldl (fun t k => t.runGemmClass k.1 k.2.slot)
        ((s.layerCmds p).foldl (fun t k => t.rerunCmd k.1 k.2) u)) ∧
      (u.part p).rerunWanted = [] ∧ u.queues = s.queues := by
  have hn : ¬ ((s.part p).rerunWanted.isEmpty || (s.part p).rerunWanted.any (fun w => s.dieStopped (w / 8 / 16384))) = true := by
    rw [Bool.or_eq_true, List.any_eq_true]
    rintro (h | ⟨w, hm, h⟩)
    · exact hw (List.isEmpty_iff.1 h)
    · rw [hd w hm] at h; cases h
  change ∃ u, execRerun p s = _ ∧ _
  unfold execRerun State.rerun
  rw [if_neg hn]
  refine ⟨_, rfl, ?_, ?_⟩
  · exact congrArg (·.rerunWanted) ((State.part_congr ((Within.of State.applyPart_ok).parts rfl) p).trans (State.part_setPart ..))
  · refine Within.queues (W := 0x21030) ?_ rfl
    refine State.applyPart_ok (by decide) (State.updPart_ok (by decide) (.fold (fun u x h => ?_)
      (.fold (fun u x h => State.dropPending_ok (by decide) h) (Within.upd_tiles (by decide) (.rfl _ _)))))
    split
    · exact State.rerunEntry_ok (by decide) h
    · exact h

/-- One command of the layer begins again (R139 item 5). -/
theorem State.rerunCmd_spec {s : State} {q : Nat} {c : Cmd} (h : s.cmd? q c.slot = some c) :
    ∃ k, (s.rerunCmd q c).cmd? q c.slot = some k ∧ k.runs = c.runs + 1 ∧ k.done = false ∧ k.pos = 0 ∧ k.desc = c.desc := by
  unfold State.rerunCmd
  dsimp only
  refine ⟨_, State.cmd?_updCmd (c := c) ?_ rfl rfl, rfl, rfl, rfl, rfl⟩
  refine (State.cmd?_congr (Within.queues (W := 0x4000000590) ?_ rfl) q c.slot).trans h
  exact State.havocAll_ok (by decide) (.fold (fun u m h => State.setFld_ok (by decide) (State.setReg_ok (by decide) h)) (.rfl _ _))

/-! ### An entry that widens (R139, R141) -/

/-- A write of one register of an entry leaves the entry's others. -/
theorem State.entReg_setEnt_ne (s : State) (x v : Nat) {o o' : Nat} (h : o' ≠ o) : (s.setEnt x o v).entReg x o' = s.entReg x o' :=
  State.reg_setReg_ne _ _ (rkey_off h)

theorem State.entReg_setEntFld_ne (s : State) (x v : Nat) {f : Fld} {o : Nat} (h : o ≠ f.off) : (s.setEntFld x f v).entReg x o = s.entReg x o :=
  State.reg_setReg_ne _ _ (rkey_off h)

/-- A shard page's own registers are no registers of its entries. -/
theorem rkey_entry_ne_shard {x : Nat} (hx : x < 65536) {o : Nat} (ho : o < 4096) (o' : Nat) : rkey pgEntry x o' ≠ rkey (shardPage x) 0 o :=
  Ne.symm (rkey_ne_of_page_lt (by unfold shardPage diePage pageNum pgEntry; omega) (by decide) ho)

theorem State.entReg_bump_shard (s : State) {x : Nat} (hx : x < 65536) {o : Nat} (ho : o < 4096) (n o' : Nat) :
    (s.bump (shardPage x) 0 o n).entReg x o' = s.entReg x o' := State.reg_setReg_ne _ _ (rkey_entry_ne_shard hx ho o')

theorem State.entReg_progress_shard (s : State) {x : Nat} (hx : x < 65536) (phase bp pos o' : Nat) :
    (s.progress (shardPage x) 0 phase bp pos).entReg x o' = s.entReg x o' :=
  (State.reg_setReg_ne _ _ (rkey_entry_ne_shard hx (by decide) o')).trans (State.reg_setReg_ne _ _ (rkey_entry_ne_shard hx (by decide) o'))

theorem State.entFld_congr {s t : State} {x : Nat} {f : Fld} (h : t.entReg x f.off = s.entReg x f.off) : t.entFld x f = s.entFld x f :=
  congrArg (bitsOf · f.hi f.lo) h

/-- Whether an output never widens is read from its ENT_CTRL (R141). -/
theorem State.stuck_congr {s t : State} {x : Nat} (h : t.entReg x R.ENT_ENT_CTRL = s.entReg x R.ENT_ENT_CTRL) (c : Cmd) :
    t.stuck c x = s.stuck c x := by
  unfold State.stuck State.entPin
  rw [h, State.entFld_congr (f := F.ENT_ENT_CTRL_PIN_FMT) h]

/-- The entry with its re-runs counted. -/
def State.rerunCounted (s : State) (x : Nat) : State :=
  let u := s.setEntFld x F.ENT_RERUN_STEP (satAdd 255 (s.entFld x F.ENT_RERUN_STEP) 1)
  u.setEntFld x F.ENT_RERUN_TOTAL (satAdd 65535 (u.entFld x F.ENT_RERUN_TOTAL) 1)

/-- The entry with the causes of its re-run noted, on itself and on its shard's page. -/
def State.causesNoted (s : State) (x : Nat) (causes : List Nat) : State :=
  ((s.setEntFld x F.ENT_WIDEN_AT_CAUSE (s.entFld x F.ENT_WIDEN_AT_CAUSE ||| causes.foldl (fun a k => a ||| 2 ^ k) 0 ||| 0)).bump
    (shardPage x) 0 R.MELT_SHARD_SHARD_RERUNS 1).progress (shardPage x) 0 2 0 x

/-- The rung above a command's format (R142). -/
def State.nextRung (s : State) (x : Nat) (c : Cmd) : Nat :=
  rungFmt (s.entReg x R.ENT_ENT_CTRL) (min (ctrlTop (s.entReg x R.ENT_ENT_CTRL)) (rungOf (s.entReg x R.ENT_ENT_CTRL) c.fmt + 1))

/-- The entry, of another role than WEIGHT, one rung wider. -/
def State.widened (s : State) (x : Nat) (c : Cmd) : State :=
  let n := s.entFld x F.ENT_WIDEN_AT_COUNT
  let u := (s.setEnt x R.ENT_WIDEN_AT (putBits (s.entReg x R.ENT_WIDEN_AT) (8 * n + 7) (8 * n) (dMb c.desc))).setEntFld x F.ENT_WIDEN_AT_COUNT
    (min 3 (n + 1))
  ((u.setEntFld x F.ENT_FMT_STATE_FMT (s.nextRung x c)).setEntFld x F.ENT_FMT_STATE_NEXT_FMT (s.nextRung x c)).bump (shardPage x) 0
    R.MELT_SHARD_SHARD_WIDENS 1

theorem State.entReg_rerunCounted (s : State) (x : Nat) {o : Nat} (h : o ≠ F.ENT_RERUN_STEP.off) : (s.rerunCounted x).entReg x o = s.entReg x o :=
  (State.entReg_setEntFld_ne (f := F.ENT_RERUN_TOTAL) _ _ _ h).trans (State.entReg_setEntFld_ne (f := F.ENT_RERUN_STEP) _ _ _ h)

theorem State.entReg_causesNoted (s : State) {x : Nat} (hx : x < 65536) (causes : List Nat) {o : Nat} (h : o ≠ R.ENT_WIDEN_AT) :
    (s.causesNoted x causes).entReg x o = s.entReg x o :=
  (State.entReg_progress_shard _ hx ..).trans ((State.entReg_bump_shard _ hx (by decide) ..).trans (State.entReg_setEntFld_ne _ _ _ h))

theorem State.entReg_widened (s : State) {x : Nat} (hx : x < 65536) (c : Cmd) {o : Nat} (h : o ≠ R.ENT_WIDEN_AT) (hf : o ≠ R.ENT_FMT_STATE) :
    (s.widened x c).entReg x o = s.entReg x o :=
  (State.entReg_bump_shard _ hx (by decide) ..).trans ((State.entReg_setEntFld_ne _ _ _ hf).trans ((State.entReg_setEntFld_ne _ _ _ hf).trans
    ((State.entReg_setEntFld_ne _ _ _ h).trans (State.entReg_setEnt_ne _ _ _ h))))

theorem State.rerunCounted_spec (s : State) (x : Nat) :
    (s.rerunCounted x).entFld x F.ENT_RERUN_STEP = satAdd 255 (s.entFld x F.ENT_RERUN_STEP) 1 ∧
      (s.rerunCounted x).entFld x F.ENT_RERUN_TOTAL = satAdd 65535 (s.entFld x F.ENT_RERUN_TOTAL) 1 := by
  unfold State.rerunCounted State.entFld State.setEntFld
  dsimp only
  rw [State.fld_setFld_ne (f := F.ENT_RERUN_STEP) (g := F.ENT_RERUN_TOTAL) _ _ _ _ rfl (by decide) (by decide) (by decide)]
  constructor
  · rw [State.fld_setFld_ne (f := F.ENT_RERUN_TOTAL) (g := F.ENT_RERUN_STEP) _ _ _ _ rfl (by decide) (by decide) (by decide)]
    exact (State.fld_setFld _ _ _ _ (by decide) (by decide)).trans (Nat.mod_eq_of_lt (lt_of_le_of_lt (min_le_left _ _) (by decide)))
  · exact (State.fld_setFld _ _ _ _ (by decide) (by decide)).trans (Nat.mod_eq_of_lt (lt_of_le_of_lt (min_le_left _ _) (by decide)))

theorem rungFmt_lt (ctrl r : Nat) : rungFmt ctrl r < 256 := by
  match r with
  | 0 => exact (by split <;> decide : (if ctrl.testBit 11 then fmtIB4 else fmtFB4) < 256)
  | 1 => exact (by split <;> decide : (if ctrl.testBit 12 then fmtFB8E5 else fmtFB8E4) < 256)
  | 2 => exact (by decide : fmtBF16 < 256)
  | _ + 3 => exact (by decide : fmtFP32 < 256)

theorem State.widened_fmt (s : State) {x : Nat} (hx : x < 65536) (c : Cmd) : (s.widened x c).entFld x F.ENT_FMT_STATE_FMT = s.nextRung x c := by
  unfold State.widened
  dsimp only
  rw [State.entFld_congr (State.entReg_bump_shard _ hx (by decide) ..)]
  unfold State.entFld State.setEntFld
  rw [State.fld_setFld_ne (f := F.ENT_FMT_STATE_NEXT_FMT) (g := F.ENT_FMT_STATE_FMT) _ _ _ _ rfl (by decide) (by decide) (by decide)]
  exact (State.fld_setFld _ _ _ _ (by decide) (by decide)).trans (Nat.mod_eq_of_lt (rungFmt_lt ..))

/-- A re-run counts itself on the entry and notes its causes; an entry that may widen moves one rung. -/
theorem State.rerunEntry_of_widens {s : State} {x : Nat} {c : Cmd} (causes : List Nat) (hx : x < 65536) (hs : s.stuck c x = false)
    (hr : s.entRole x ≠ roWEIGHT) : s.rerunEntry x c causes = ((s.rerunCounted x).causesNoted x causes).widened x c := by
  have hc : (s.rerunCounted x).stuck c x = false := (State.stuck_congr (s.entReg_rerunCounted x (by decide)) c).trans hs
  unfold State.rerunEntry
  extract_lets s1 u bits stuck off s2 s3 v ctrl n f v1 v2 v3
  have hstuck : stuck = false := hc
  have hoff : off = false := by simp only [off, hstuck, Bool.false_and]
  have hv : v = (s.rerunCounted x).causesNoted x causes := by simp only [v, s3, s2, hoff]; rfl
  have hrole : v2.entRole x = s.entRole x := by
    refine (State.entFld_congr (State.entReg_setEntFld_ne _ _ _ (by decide))).trans
      ((State.entFld_congr (State.entReg_setEnt_ne _ _ _ (by decide))).trans (State.entFld_congr ?_))
    rw [hv]
    exact (State.entReg_causesNoted _ hx _ (by decide)).trans (s.entReg_rerunCounted x (by decide))
  have h3 : v3 = (v2.setEntFld x F.ENT_FMT_STATE_FMT f).setEntFld x F.ENT_FMT_STATE_NEXT_FMT f := if_neg (by rwa [hrole])
  rw [if_neg (by rw [hstuck]; decide), h3, ← hv]
  rfl

theorem State.rerunEntry_spec {s : State} {x : Nat} {c : Cmd} (causes : List Nat) (hx : x < 65536) (hs : s.stuck c x = false)
    (hr : s.entRole x ≠ roWEIGHT) :
    (s.rerunEntry x c causes).entFld x F.ENT_RERUN_STEP = satAdd 255 (s.entFld x F.ENT_RERUN_STEP) 1 ∧
      (s.rerunEntry x c causes).entFld x F.ENT_RERUN_TOTAL = satAdd 65535 (s.entFld x F.ENT_RERUN_TOTAL) 1 ∧
      (s.rerunEntry x c causes).entFld x F.ENT_FMT_STATE_FMT = s.nextRung x c := by
  obtain ⟨hstep, htotal⟩ := s.rerunCounted_spec x
  have hv {o : Nat} (h : o ≠ R.ENT_WIDEN_AT) := State.entReg_causesNoted (s.rerunCounted x) hx causes h
  have hw {o : Nat} (h : o ≠ R.ENT_WIDEN_AT) (hf : o ≠ R.ENT_FMT_STATE) :=
    (State.entReg_widened ((s.rerunCounted x).causesNoted x causes) hx c h hf).trans (hv h)
  have hctrl : ((s.rerunCounted x).causesNoted x causes).entReg x R.ENT_ENT_CTRL = s.entReg x R.ENT_ENT_CTRL :=
    (hv (by decide)).trans (s.entReg_rerunCounted x (by decide))
  rw [State.rerunEntry_of_widens causes hx hs hr]
  refine ⟨(State.entFld_congr (hw (by decide) (by decide))).trans hstep, (State.entFld_congr (hw (by decide) (by decide))).trans htotal, ?_⟩
  rw [State.widened_fmt _ hx, State.nextRung, hctrl, State.nextRung]

/-! ### Errors of SRAM (R323) -/

/-- An uncorrected error of a core's SRAM, with its record. -/
theorem exec_sramEccError_core {s : State} {page : Nat} (h : s.pageType page = .core) (word off : Nat) (held : Bool) (hit : Option (Nat × Nat)) :
    exec (.sramEccError page word off true held hit) s =
      .next ((s.raisePage page 4).raiseErr (s.srcOf page word) caSRAM_UC off hit 0x02) := by
  refine congrArg Host.Outcome.next ?_
  unfold State.sramError
  rw [h]
  rfl

/-- An uncorrected error of a cluster's SRAM, with its record and its counter. -/
theorem exec_sramEccError_cluster {s : State} {page : Nat} (h : s.pageType page = .clusterSram) (word off : Nat) (held : Bool)
    (hit : Option (Nat × Nat)) :
    let u := s.setReg page 0 R.CLUSTER_SRAM_SRAM_LAST off
    exec (.sramEccError page word off true held hit) s =
      .next (((u.raisePage page 4).bump page 0 R.CLUSTER_SRAM_SRAM_UC 1).raiseErr (u.srcOf page word) caSRAM_UC off hit 0x02) := by
  refine congrArg Host.Outcome.next ?_
  unfold State.sramError
  rw [h]
  rfl

/-- Settles O29: each clause is the rule of its event, stated once above. -/
theorem healthAndReruns : Obligations.HealthAndReruns := by
  intro s
  refine ⟨fun page => State.assayPassed_spec, fun page h => congrArg Host.Outcome.next (State.assay_spare_passed h),
    fun page word off held hit h => exec_sramEccError_core h word off held hit,
    fun page word off held hit h => exec_sramEccError_cluster h word off held hit, fun p hr hs hi hp => ?_,
    fun p => State.zeroingDone_spec, fun p => State.rerun_spec, fun x c causes => State.rerunEntry_spec causes, fun q c => State.rerunCmd_spec⟩
  exact ⟨congrArg Host.Outcome.next (State.idleApply_of_idle hr hs hi hp), s.due_not_left .pass (fun k => s.keyPart k = p)⟩

end Sys2Proof.Machine
end

section
/-! Number formats: rounding to an integer, integer elements, floating-point elements read and written again, and column sums. -/

namespace Sys2Proof.Machine

/-! ### Rounding a magnitude (R72) -/

/-- Where the fraction is an integer every mode gives it. -/
theorem roundNat_of_dvd {m : Rnd} {neg : Bool} {num den : Nat} (h : num % den = 0) : roundNat m neg num den = num / den := if_pos h

@[simp] theorem roundNat_one (m : Rnd) (neg : Bool) (n : Nat) : roundNat m neg n 1 = n :=
  (roundNat_of_dvd (Nat.mod_one n)).trans (Nat.div_one n)

/-- Rounding to nearest goes up past the half, and at the half from an odd integer. -/
theorem roundNat_rne (neg : Bool) (num den : Nat) (h : 0 < den) :
    (roundNat .rne neg num den = num / den + 1 ∧ (den < 2 * (num % den) ∨ 2 * (num % den) = den ∧ num / den % 2 = 1)) ∨
      (roundNat .rne neg num den = num / den ∧ (2 * (num % den) < den ∨ 2 * (num % den) = den ∧ num / den % 2 = 0)) := by
  unfold roundNat
  dsimp only
  split
  · exact .inr ⟨rfl, by omega⟩
  · split
    · next hup => exact .inl ⟨rfl, by simpa using hup⟩
    · next hlo =>
      simp only [Bool.or_eq_true, Bool.and_eq_true, decide_eq_true_eq] at hlo
      exact .inr ⟨rfl, by omega⟩

/-- Settles O49: the fraction is its quotient with a remainder, and rounding goes up as `roundNat_rne` says. -/
theorem roundingIsToNearestEven : Obligations.RoundingIsToNearestEven := by
  intro neg num den h
  have hsum := Nat.div_add_mod num den
  have hlt := Nat.mod_lt num h
  have hr := roundNat_rne neg num den h
  dsimp only
  generalize roundNat .rne neg num den = r at *
  generalize num / den = q at *
  generalize num % den = k at *
  obtain ⟨rfl, hside⟩ | ⟨rfl, hside⟩ := hr
  · rw [Nat.mul_succ]; omega
  · omega

/-! ### Integer elements (R56, R61) -/

/-- An integer in the range of `n` bits is read as written. -/
theorem intOf_intBits {n : Nat} {i : Int} (hn : 0 < n) (hlo : -2 ^ (n - 1) ≤ i) (hhi : i < 2 ^ (n - 1)) : intOf n (intBits n i) = i := by
  have hpow : (2 : Int) ^ n = 2 * 2 ^ (n - 1) := by rw [← pow_succ', Nat.sub_add_cancel hn]
  have hcode : (intBits n i : Int) % 2 ^ n = i % 2 ^ n := by
    simp [intBits, Int.emod_nonneg i (show (2 : Int) ^ n ≠ 0 by positivity)]
  have hval : i % (2 : Int) ^ n = if i < 0 then i + 2 ^ n else i := by
    split
    · rw [← Int.add_emod_right, Int.emod_eq_of_lt] <;> omega
    · exact Int.emod_eq_of_lt (by omega) (by omega)
  have hcmp : 2 ^ (n - 1) ≤ intBits n i % 2 ^ n ↔ i < 0 := by
    zify
    rw [hcode, hval]
    split <;> omega
  unfold intOf
  rw [hcode, hval]
  simp only [hcmp]
  split <;> omega

/-- An integer element written is the code of an integer of the symmetric range. -/
theorem narrowInt_symmetric (n : Nat) (m : Rnd) (v : Val) :
    ∃ i : Int, i.natAbs ≤ 2 ^ (n - 1) - 1 ∧ (narrowInt n m v).1 = intBits n i := by
  have signed (neg : Bool) {k : Nat} (h : k ≤ 2 ^ (n - 1) - 1) : (if neg then -(k : Int) else k).natAbs ≤ 2 ^ (n - 1) - 1 := by
    split <;> omega
  cases v with
  | nan => exact ⟨0, by simp, by simp [narrowInt, intBits]⟩
  | inf neg => exact ⟨_, signed neg (le_refl _), rfl⟩
  | fin q =>
    simp only [narrowInt]
    split
    · exact ⟨_, signed q.neg (le_refl _), rfl⟩
    · next h => exact ⟨_, signed q.neg (Nat.le_of_not_lt h), rfl⟩

theorem intOf_narrowInt {n : Nat} (hn : 0 < n) (m : Rnd) (v : Val) :
    -(2 ^ (n - 1) - 1) ≤ intOf n (narrowInt n m v).1 ∧ intOf n (narrowInt n m v).1 ≤ 2 ^ (n - 1) - 1 := by
  obtain ⟨i, hi, hcode⟩ := narrowInt_symmetric n m v
  have hcast : ((2 ^ (n - 1) : Nat) : Int) = 2 ^ (n - 1) := by push_cast; rfl
  have hpos := Nat.two_pow_pos (n - 1)
  rw [hcode, intOf_intBits hn (by omega) (by omega)]
  omega

/-- The codes of a block are zeros or codes of the element grid (R65). -/
theorem mem_encodeBlock {c : Nat} {t : Q} {m : Nat → Rnd} {vals : List Val} {b : Nat} (h : b ∈ (encodeBlock c t m vals).codes) :
    b = 0 ∨ ∃ r q, b = (blkElem c r q).1 := by
  simp only [encodeBlock, apply_ite Blk.codes, ite_self] at h
  split at h
  · obtain ⟨_, -, rfl⟩ := List.mem_map.1 h
    exact .inl rfl
  · split at h
    · obtain ⟨_, -, rfl⟩ := List.mem_map.1 h
      exact .inl rfl
    · obtain ⟨e, he, rfl⟩ := List.mem_map.1 h
      obtain ⟨_, -, rfl⟩ := List.mem_map.1 he
      split
      · exact .inl rfl
      · exact .inr ⟨_, _, rfl⟩

theorem blkElem_IB2 (m : Rnd) (q : Q) : (blkElem fmtIB2 m q).1 = 0 ∨ (blkElem fmtIB2 m q).1 = 1 ∨ (blkElem fmtIB2 m q).1 = 3 := by
  simp only [blkElem, show ¬fmtIB2 = fmtIB1 by decide, if_false, if_true]
  split
  · exact .inl rfl
  · split <;> simp

theorem elemVal_INT8 (b : Nat) : elemVal fmtINT8 b = (.fin (Q.ofInt (intOf 8 b)), 0) := if_pos rfl

/-- Settles O52: an element written is the code of an integer of its range, and such a code reads as that integer. -/
theorem integerElementsAreSymmetric : Obligations.IntegerElementsAreSymmetric := by
  refine ⟨fun m v => ?_, fun t m vals b hb => ?_, fun i hlo hhi => ?_, by decide⟩
  · exact ⟨(intOf_narrowInt (by decide) m v).1, (intOf_narrowInt (by decide) m v).2, intOf_narrowInt (by decide) m v⟩
  · obtain rfl | ⟨r, q, rfl⟩ := mem_encodeBlock hb
    · exact .inl rfl
    · exact blkElem_IB2 r q
  · rw [elemVal_INT8, intOf_intBits (by decide) hlo (by omega)]

/-! ### Exact values compared -/

/-- The rational that an exact value stands for. -/
def Q.toRat (a : Q) : ℚ := (if a.neg then -(a.num : ℚ) else a.num) / a.den * 2 ^ a.exp

@[simp] theorem Q.toRat_dyadic (n : Nat) (e : Int) : (Q.dyadic false n e).toRat = n * 2 ^ e := by simp [Q.toRat, Q.dyadic]

/-- A numerator of `Q.align` is its value over the common denominator and exponent. -/
theorem Q.toRat_of_aligned {a : Q} {e : Int} {d : Nat} (ha : 0 < a.den) (he : e ≤ a.exp) :
    ((if a.neg then -((a.num * d * 2 ^ (a.exp - e).toNat : Nat) : Int) else (a.num * d * 2 ^ (a.exp - e).toNat : Nat) : Int) : ℚ) =
      a.toRat * (a.den * d * 2 ^ (-e)) := by
  have hden : (a.den : ℚ) ≠ 0 := by positivity
  have hexp : (2 : ℚ) ^ (a.exp - e).toNat = 2 ^ a.exp * 2 ^ (-e) := by
    rw [← zpow_natCast, Int.toNat_of_nonneg (by omega), ← zpow_add₀ two_ne_zero, sub_eq_add_neg]
  unfold Q.toRat
  cases a.neg <;> simp [hexp] <;> field_simp

theorem Q.lt_iff_toRat {a b : Q} (ha : 0 < a.den) (hb : 0 < b.den) : a.lt b = true ↔ a.toRat < b.toRat := by
  have hpos : (0 : ℚ) < a.den * b.den * 2 ^ (-min a.exp b.exp) := by positivity
  rw [Q.lt, Q.align]
  dsimp only
  rw [decide_eq_true_iff, ← Int.cast_lt (R := ℚ), Q.toRat_of_aligned ha (min_le_left ..), Q.toRat_of_aligned hb (min_le_right ..),
    mul_comm (b.den : ℚ), mul_lt_mul_iff_left₀ hpos]

/-- Dyadic magnitudes compare as their values. -/
theorem Q.lt_dyadic {n k : Nat} {e f : Int} : (Q.dyadic false n e).lt (Q.dyadic false k f) = true ↔ (n : ℚ) * 2 ^ e < k * 2 ^ f := by
  rw [Q.lt_iff_toRat one_pos one_pos, Q.toRat_dyadic, Q.toRat_dyadic]

/-- A smaller significand with a smaller exponent is a smaller magnitude. -/
theorem mul_two_zpow_mono {n k : Nat} {e f : Int} (hn : n ≤ k) (he : e ≤ f) : (n : ℚ) * 2 ^ e ≤ k * 2 ^ f := by
  gcongr
  norm_num

/-! ### Rounding a value that the grid holds -/

theorem Q.log2_dyadic {neg : Bool} {n : Nat} {e : Int} (h : n ≠ 0) : (Q.dyadic neg n e).log2 = Nat.log2 n + e := by
  simp [Q.log2, Q.dyadic, show Nat.log2 1 = 0 by decide, Nat.log2_self_le h]

/-- A dyadic value of exactly `p` significant bits is its own rounding, in every mode. -/
theorem Q.round_dyadic {neg : Bool} {n p : Nat} {e emin : Int} {m : Rnd} (h : n ≠ 0) (hp : Nat.log2 n + 1 = p) :
    (Q.dyadic neg n e).round p emin false m = { neg := neg, sig := n, unit := e, inexact := false } := by
  have hunit : (Nat.log2 n : Int) + e - ((p : Int) - 1) = e := by omega
  unfold Q.round
  rw [Q.log2_dyadic h]
  simp [hunit, Q.inUnits, Q.dyadic, exactNat, Nat.mod_one, h]

/-! ### Codes of floating-point elements (R55) -/

/-- The exponent field of a code. -/
def FFmt.expField (f : FFmt) (b : Nat) : Nat := bitsOf b (f.mb + f.eb - 1) f.mb

/-- The code of a sign, an exponent field and a significand field. -/
def FFmt.code (f : FFmt) (neg : Bool) (e m : Nat) : Nat := (if neg then 2 ^ (f.eb + f.mb) else 0) + e * 2 ^ f.mb + m

theorem FFmt.expField_eq {f : FFmt} (h : 0 < f.eb) (b : Nat) : f.expField b = b / 2 ^ f.mb % 2 ^ f.eb := by
  rw [FFmt.expField, bitsOf, Nat.shiftRight_eq_div_pow, show f.mb + f.eb - 1 + 1 - f.mb = f.eb by omega]

/-- A code is the code of its fields. -/
theorem FFmt.code_fields {f : FFmt} (h : 0 < f.eb) {b : Nat} (hb : b < 2 ^ f.bits) :
    f.code (b.testBit (f.eb + f.mb)) (f.expField b) (b % 2 ^ f.mb) = b := by
  have hsign : b / 2 ^ f.mb / 2 ^ f.eb < 2 := by
    rw [Nat.div_div_eq_div_mul, ← pow_add, Nat.div_lt_iff_lt_mul (by positivity), ← pow_succ']
    exact hb.trans_eq (congrArg _ (by rw [FFmt.bits]; ring))
  have hbit : (if b.testBit (f.eb + f.mb) then 2 ^ (f.eb + f.mb) else 0) = b / 2 ^ f.mb / 2 ^ f.eb * 2 ^ f.eb * 2 ^ f.mb := by
    rw [Nat.testBit_eq_decide_div_mod_eq, pow_add, Nat.mul_comm (2 ^ f.eb), ← Nat.div_div_eq_div_mul, Nat.mod_eq_of_lt hsign]
    obtain hs | hs : b / 2 ^ f.mb / 2 ^ f.eb = 0 ∨ b / 2 ^ f.mb / 2 ^ f.eb = 1 :=
      Nat.le_one_iff_eq_zero_or_eq_one.1 (Nat.le_of_lt_succ hsign)
    · simp [hs]
    · simp [hs, Nat.mul_comm]
  rw [FFmt.code, hbit, FFmt.expField_eq h, ← Nat.add_mul, Nat.div_add_mod', Nat.div_add_mod']

/-- The exponent field and significand field of a normal number: neither zero's nor a non-finite code's. -/
def FFmt.IsNormal (f : FFmt) (e m : Nat) : Prop :=
  1 ≤ e ∧ m < 2 ^ f.mb ∧ if f = fE4M3 then e < 15 ∨ e = 15 ∧ m < 7 else e ≤ 2 ^ f.eb - 2

/-- A format of R55 with infinities, or FP8 E4M3. -/
def FFmt.IsStandard (f : FFmt) : Prop := 0 < f.eb ∧ (f.hasInf = true ∨ f = fE4M3)

/-- What a code that is no subnormal and no NaN stands for: an infinity, a zero, or a normal number. -/
theorem FFmt.decode_cases {f : FFmt} (hf : f.IsStandard) {b : Nat} (hs : f.isSub b = false) (hn : f.decode b ≠ .nan) :
    (f.hasInf = true ∧ f.expField b = 2 ^ f.eb - 1 ∧ b % 2 ^ f.mb = 0 ∧ f.decode b = .inf (b.testBit (f.eb + f.mb))) ∨
    (f.expField b = 0 ∧ b % 2 ^ f.mb = 0 ∧ f.decode b = .fin (Q.dyadic (b.testBit (f.eb + f.mb)) 0 (f.emin - f.mb))) ∨
    (f.IsNormal (f.expField b) (b % 2 ^ f.mb) ∧ f.decode b =
      .fin (Q.dyadic (b.testBit (f.eb + f.mb)) (2 ^ f.mb + b % 2 ^ f.mb) ((f.expField b : Int) - f.bias - f.mb))) := by
  obtain ⟨heb, hkind⟩ := hf
  have he : f.expField b < 2 ^ f.eb := FFmt.expField_eq heb b ▸ Nat.mod_lt _ (by positivity)
  have hm : b % 2 ^ f.mb < 2 ^ f.mb := Nat.mod_lt _ (by positivity)
  unfold FFmt.isSub at hs
  unfold FFmt.decode at hn ⊢
  change (decide (f.expField b = 0) && _) = false at hs
  dsimp only at hn ⊢
  rw [← FFmt.expField] at hn ⊢
  split at hn
  · next htop =>
    simp only [Bool.and_eq_true, decide_eq_true_eq] at htop
    split at hn
    · next hz => exact .inl ⟨htop.2, htop.1, hz, by simp [htop, hz]⟩
    · exact absurd rfl hn
  · next htop =>
    rw [if_neg htop]
    split at hn
    · exact absurd rfl hn
    · next hnan =>
      rw [if_neg hnan]
      split
      · next hz =>
        have hsig : b % 2 ^ f.mb = 0 := by simpa [hz] using hs
        exact .inr (.inl ⟨hz, hsig, by rw [hsig]⟩)
      · next hz =>
        refine .inr (.inr ⟨⟨by omega, hm, ?_⟩, rfl⟩)
        split
        · next h4 =>
          have hlast : ¬(f.expField b = 2 ^ f.eb - 1 ∧ b % 2 ^ f.mb = 2 ^ f.mb - 1) := fun h => hnan (by simpa [h4] using h)
          subst h4
          simp only [fE4M3] at he hm hlast ⊢
          omega
        · next h4 =>
          simp [hkind.resolve_right h4] at htop
          omega

/-! ### A code's value written again (R68, R71) -/

theorem FFmt.IsNormal.log2_sig {f : FFmt} {e m : Nat} (h : f.IsNormal e m) : Nat.log2 (2 ^ f.mb + m) = f.mb := by
  obtain ⟨-, hm, -⟩ := h
  exact (Nat.log2_eq_iff (by positivity)).2 ⟨by omega, by rw [pow_succ]; omega⟩

/-- A normal number is at most EMAX. -/
theorem FFmt.IsNormal.not_above_emax {f : FFmt} {e m : Nat} (h : f.IsNormal e m) (hf : f.IsStandard) :
    f.emax.lt (Q.dyadic false (2 ^ f.mb + m) ((e : Int) - f.bias - f.mb)) = false := by
  obtain ⟨-, hm, htop⟩ := h
  split at htop
  · next h4 =>
    subst h4
    rw [FFmt.emax, if_neg (by decide), if_pos rfl, Q.ofNat, ← Bool.not_eq_true, Q.lt_dyadic, not_lt]
    simp only [fE4M3] at hm htop ⊢
    obtain ⟨hsig, hexp⟩ | ⟨hsig, hexp⟩ : (2 ^ 3 + m ≤ 15 ∧ (e : Int) - (7 : Nat) - (3 : Nat) ≤ 4) ∨
        (2 ^ 3 + m ≤ 14 ∧ (e : Int) - (7 : Nat) - (3 : Nat) ≤ 5) := by omega
    · exact (mul_two_zpow_mono hsig hexp).trans (by norm_num)
    · exact (mul_two_zpow_mono hsig hexp).trans (by norm_num)
  · next h4 =>
    have h2 : f ≠ fE2M1 := by rintro rfl; simp [FFmt.IsStandard, fE2M1, fE4M3] at hf
    rw [FFmt.emax, if_neg h2, if_neg h4, ← Bool.not_eq_true, Q.lt_dyadic, not_lt]
    have hsig : 2 ^ f.mb + m ≤ 2 ^ (f.mb + 1) - 1 := by rw [pow_succ]; omega
    exact mul_two_zpow_mono hsig (by omega)

/-- A normal number is at least the smallest one. -/
theorem FFmt.IsNormal.not_tiny {f : FFmt} {e m : Nat} (h : f.IsNormal e m) :
    (Q.dyadic false (2 ^ f.mb + m) ((e : Int) - f.bias - f.mb)).lt (Q.dyadic false 1 f.emin) = false := by
  obtain ⟨he, -, -⟩ := h
  rw [← Bool.not_eq_true, Q.lt_dyadic, not_lt]
  calc ((1 : Nat) : ℚ) * 2 ^ f.emin ≤ 2 ^ (f.mb : Int) * 2 ^ ((e : Int) - f.bias - f.mb) := by
        rw [← zpow_add₀ two_ne_zero, Nat.cast_one, one_mul]
        exact zpow_le_zpow_right₀ one_le_two (by rw [FFmt.emin]; omega)
    _ ≤ ((2 ^ f.mb + m : Nat) : ℚ) * 2 ^ ((e : Int) - f.bias - f.mb) := by
        gcongr
        push_cast
        rw [zpow_natCast]
        exact le_add_of_nonneg_right (Nat.cast_nonneg m)

theorem FFmt.IsNormal.pack {f : FFmt} {e m : Nat} (h : f.IsNormal e m) (neg x : Bool) :
    f.pack { neg := neg, sig := 2 ^ f.mb + m, unit := (e : Int) - f.bias - f.mb, inexact := x } = f.code neg e m := by
  have hlog := h.log2_sig
  obtain ⟨he, hm, -⟩ := h
  have hexp : (f.mb : Int) + ((e : Int) - f.bias - f.mb) = e - f.bias := by omega
  simp [FFmt.pack, hlog, hexp, FFmt.emin, FFmt.code, Nat.mod_eq_of_lt hm, Nat.ne_of_gt he]

/-- A zero is written as the code of its sign. -/
theorem FFmt.narrow_zero (f : FFmt) (m : Rnd) (neg : Bool) (x : Int) : (f.narrow m (.fin (Q.dyadic neg 0 x))).1 = f.code neg 0 0 := by
  simp [FFmt.narrow, Q.round, Q.dyadic, FFmt.pack, FFmt.code]

theorem FFmt.narrow_inf {f : FFmt} (m : Rnd) (neg : Bool) (h : f.hasInf = true) : (f.narrow m (.inf neg)).1 = f.code neg (2 ^ f.eb - 1) 0 := by
  simp [FFmt.narrow, h, FFmt.infBits, FFmt.code, Nat.add_comm]

/-- A normal number is written as its code: it is its own rounding, and neither above EMAX nor tiny. -/
theorem FFmt.IsNormal.narrow {f : FFmt} {e m : Nat} (h : f.IsNormal e m) (hf : f.IsStandard) (r : Rnd) (neg : Bool) :
    (f.narrow r (.fin (Q.dyadic neg (2 ^ f.mb + m) ((e : Int) - f.bias - f.mb)))).1 = f.code neg e m := by
  have hsig : 2 ^ f.mb + m ≠ 0 := by positivity
  have habs : (Rounded.mk neg (2 ^ f.mb + m) ((e : Int) - f.bias - f.mb) false).q.abs =
      Q.dyadic false (2 ^ f.mb + m) ((e : Int) - f.bias - f.mb) := rfl
  simp only [FFmt.narrow, Q.round_dyadic hsig (show _ = f.prec by rw [h.log2_sig, FFmt.prec]), hsig, habs, h.not_above_emax hf, h.not_tiny,
    h.pack, if_false, Bool.false_eq_true]

/-- A code that is no subnormal and no NaN, read and written again. -/
theorem FFmt.narrow_read {f : FFmt} (hf : f.IsStandard) (r : Rnd) {b : Nat} (hb : b < 2 ^ f.bits) (hs : f.isSub b = false)
    (hn : f.decode b ≠ .nan) : (f.narrow r (f.read b).1).1 = b := by
  have hread : (f.read b).1 = f.decode b := by rw [FFmt.read, hs]; rfl
  have hcode := FFmt.code_fields hf.1 hb
  rw [hread]
  obtain ⟨hinf, he, hm, hd⟩ | ⟨he, hm, hd⟩ | ⟨hnorm, hd⟩ := FFmt.decode_cases hf hs hn
  · rw [hd, FFmt.narrow_inf r _ hinf, ← he, ← hm, hcode]
  · rw [hd, FFmt.narrow_zero]
    rwa [he, hm] at hcode
  · rw [hd, hnorm.narrow hf, hcode]

/-- Settles O51: each of the formats is standard, and `FFmt.narrow_read` holds of every such format. -/
theorem elementsReadAndWriteBack : Obligations.ElementsReadAndWriteBack := by
  intro f hf m b hb hs hn
  have hstd : ∀ g ∈ [fFP32, fFP16, fBF16, fE4M3, fE5M2], 0 < g.eb ∧ (g.hasInf = true ∨ g = fE4M3) := by decide
  exact FFmt.narrow_read (hstd f hf) m hb hs hn

/-! ### A block encoded (R65) -/

/-- Settles O54: the model's encoder run on the rule's example. -/
theorem blockExample : Obligations.BlockExample := by
  unfold Obligations.BlockExample
  decide +kernel

/-! ### Column sums (R81, R89) -/

/-- The leading exponent is the largest of the non-zero products' exponents. -/
theorem leadExp_eq (qs : List Q) : leadExp qs = (((qs.filter (fun q => !q.isZero)).map Q.log2).max?).getD 0 := by
  unfold leadExp
  split
  · next h => rw [h]; rfl
  · next h => rw [h, List.map_cons, List.max?_cons', List.foldl_map]; rfl

/-- The maximum of a list does not depend on its order. -/
theorem max?_perm {l k : List Int} (h : l.Perm k) : l.max? = k.max? := by
  refine Option.ext fun a => ?_
  simp only [List.max?_eq_some_iff, h.mem_iff]

theorem leadExp_perm {l k : List Q} (h : l.Perm k) : leadExp l = leadExp k := by
  rw [leadExp_eq, leadExp_eq, max?_perm ((h.filter _).map _)]

theorem windowSum_perm {l k : List Prod} (h : l.Perm k) : windowSum l = windowSum k := by
  unfold windowSum
  dsimp only
  generalize hl : l.filterMap _ = a
  generalize hk : k.filterMap _ = b
  have hq : a.Perm b := hl ▸ hk ▸ h.filterMap _
  rw [hq.all_eq, hq.all_eq, hq.isEmpty_eq, leadExp_perm hq, (hq.map _).any_eq, ((hq.map _).map _).foldl_eq]

/-- Settles O55: each part of a column sum is a property of the products' multiset. -/
theorem columnSumsHaveNoOrder : Obligations.ColumnSumsHaveNoOrder := by
  intro l k h
  unfold columnSum
  simp only [h.any_eq, windowSum_perm h]

end Sys2Proof.Machine
end

section
/-! Selects: what METER_SEL, MELT_SEL_n and TRACE_RD_SEL latch when they are written. -/

namespace Sys2Proof.Machine

/-! ### The registers concerned -/

/-- Registers of different offsets are different, of whatever pages and banks. -/
theorem rkey_ne_of_off_ne {P B O P' B' O' : Nat} (h : O ≠ O') (hO : O < 4096) (hO' : O' < 4096) : rkey P B O ≠ rkey P' B' O' := by
  unfold rkey; omega

/-- No meter is METER_SEL, METER_LATCHES or METER_TIME. -/
theorem rkey_meter_ne {P B P' B' j O : Nat} (hj : j < 12) (hO : O ∈ [R.METER_METER_SEL, R.METER_METER_LATCHES, R.METER_METER_TIME]) :
    rkey P B (0x110 + 8 * j) ≠ rkey P' B' O := by
  have hO' : O < 0x110 := by revert O; decide
  exact rkey_ne_of_off_ne (by omega) (by omega) (by omega)

/-- The indices of a trace buffer are not TRACE_RD_SEL. -/
theorem rkey_regTrace_ne_sel (it : Bool) (b b' : Nat) :
    rkey pgPackage b (regTraceNext it) ≠ rkey pgPackage b' R.GRP_TRACE_RD_SEL ∧
      rkey pgPackage b (regTraceFirst it) ≠ rkey pgPackage b' R.GRP_TRACE_RD_SEL := by
  cases it <;> exact ⟨rkey_ne_of_off_ne (by decide) (by decide) (by decide), rkey_ne_of_off_ne (by decide) (by decide) (by decide)⟩

theorem assignedType_shard {die : Nat} (h : die < 4) : assignedType (diePage die 16) = .meltShard := by
  interval_cases die <;> rfl

/-- The descriptor of MELT_SEL_n at its offset: the entry's index and LIVE, both live fields (R153). -/
def meltSelDesc (off : Nat) : RegDesc := ⟨off, 32, [⟨15, 0, .rwl, 0⟩, ⟨16, 16, .rwl, 0⟩]⟩

theorem meltSelDesc_mask (off : Nat) (sel : Acc → Bool) : (meltSelDesc off).mask sel = if sel .rwl then 2 ^ 17 - 1 else 0 := by
  cases h : sel .rwl <;> simp [RegDesc.mask, meltSelDesc, h]

section
variable {die win : Nat} (hd : die < 4) (hwin : win < 8)
include hd hwin

theorem regDesc_meltSel : regDesc? (assignedType (diePage die 16)) (R.MELT_SHARD_MELT_SEL_0 + 4 * win) =
    some (meltSelDesc (R.MELT_SHARD_MELT_SEL_0 + 4 * win)) := by
  rw [assignedType_shard hd]; interval_cases win <;> rfl

theorem bitsWith_meltSel (a : Acc) : bitsWith (diePage die 16) (R.MELT_SHARD_MELT_SEL_0 + 4 * win) a = if a = .rwl then 2 ^ 17 - 1 else 0 := by
  simp [bitsWith, regDesc_meltSel hd hwin, accMask, meltSelDesc_mask, eq_comm]

theorem stagedMask_meltSel : stagedMask (diePage die 16) (R.MELT_SHARD_MELT_SEL_0 + 4 * win) = 0 := by
  rw [stagedMask_of_type (assignedType_shard hd) (by decide), ← assignedType_shard hd, regDesc_meltSel hd hwin, Option.map_some,
    Option.getD_some, meltSelDesc_mask]
  rfl

/-- MELT_SEL_n has a bank for each partition (R153). -/
theorem State.bankOf_meltSel (s : State) (p : Nat) : s.bankOf p (diePage die 16) (R.MELT_SHARD_MELT_SEL_0 + 4 * win) = p := by
  rw [State.bankOf, assignedType_shard hd]; interval_cases win <;> rfl

end

/-! ### What a write to each select register does (R153, R289, R386) -/

/-- A write of METER_SEL stores its partition field and latches the meters of that partition (R289). -/
theorem exec_meterSel {s : State} {p : Nat} {v : W32} (ht : s.takesWord p pgMeter R.METER_METER_SEL = true) :
    ∃ w, exec (.meterSel p v) s = .next ((s.setReg pgMeter p R.METER_METER_SEL w).meterLatch p (v.toNat % 256)) := by
  have hw := State.writeReg_live (s := s) (v := v.toNat) (w := 2 ^ 8 - 1) ht (by decide +kernel) (by decide +kernel) (by decide +kernel)
    (by decide +kernel) (by decide +kernel) (by decide) rfl
  generalize hn : mergeStaged _ _ _ = w at hw
  have hm : w % 256 = v.toNat % 256 := by
    rw [← hn]
    exact (mergeStaged_mod 8 _ _).trans (Nat.mod_mod_of_dvd _ (by decide : 2 ^ 8 ∣ 2 ^ 32))
  refine ⟨w, ?_⟩
  change execMeterSel p v s = _
  rw [execMeterSel, hw, ← hm]
  rfl

/-- A write of MELT_SEL_n stores its 17 bits and copies the entry they select into the window (R153). -/
theorem exec_meltSel {s : State} {p die win : Nat} {v : W32} (hwin : win < 8) (hd : die < 4)
    (ht : s.takesWord p (diePage die 16) (R.MELT_SHARD_MELT_SEL_0 + 4 * win) = true) :
    let old := s.reg (diePage die 16) p (R.MELT_SHARD_MELT_SEL_0 + 4 * win)
    let new := old - old % 2 ^ 17 + v.toNat % 2 ^ 17
    exec (.meltSel p die win v) s =
      .next ((s.setReg (diePage die 16) p (R.MELT_SHARD_MELT_SEL_0 + 4 * win) new).meltCopy p (diePage die 16) win new) := by
  intro old new
  have hty := assignedType_shard hd
  have hm : mergeStaged (2 ^ 17 - 1) old (v.toNat % 2 ^ 32) = new := by
    rw [mergeStaged, and_mask, and_mask, Nat.mod_mod_of_dvd _ (by decide : 2 ^ 17 ∣ 2 ^ 32)]
  have hw := State.writeReg_live (s := s) (v := v.toNat) (w := 2 ^ 17 - 1) ht
    (by rw [bitsWith_meltSel hd hwin]; rfl) (by rw [stagedMask_meltSel hd hwin]; rfl) (by rw [bitsWith_meltSel hd hwin]; rfl)
    (by rw [bitsWith_meltSel hd hwin]; rfl) (by rw [bitsWith_meltSel hd hwin]; rfl) (by decide) (by rw [State.rejects, hty])
  rw [State.bankOf_meltSel hd hwin, hm, State.afterWrite, hty] at hw
  change execMeltSel p die win v s = _
  rw [execMeltSel, if_pos hwin, hw]
  interval_cases win <;> rfl

/-- A write of TRACE_RD_SEL stores the word and copies the trace records it selects (R386). -/
theorem exec_traceRdSel {s : State} {p : Nat} {v : W64} (ht : s.takesWord p pgPackage R.GRP_TRACE_RD_SEL = true) :
    exec (.traceRdSel p v) s = .next ((s.setReg pgPackage p R.GRP_TRACE_RD_SEL v.toNat).traceCopy p v.toNat) := by
  have hb : s.bankOf p pgPackage R.GRP_TRACE_RD_SEL = p := rfl
  have hm : mergeStaged (2 ^ 64 - 1) (s.reg pgPackage p R.GRP_TRACE_RD_SEL) (v.toNat % 2 ^ 64) = v.toNat := by
    rw [mergeStaged_all (s.reg_lt ..), Nat.mod_mod, Nat.mod_eq_of_lt v.isLt]
  have hw := State.writeReg_liveLong (s := s) (v := v.toNat) (w := 2 ^ 64 - 1) ht (by decide +kernel) (by decide +kernel) (by decide +kernel)
    (by decide +kernel) (by decide +kernel) (by decide) (by decide) (by decide +kernel) rfl
  rw [hb, hm] at hw
  change execTraceRdSel p v s = _
  rw [execTraceRdSel, hw]
  rfl

/-! ### What the copies of the selects hold -/

/-- Each of the twelve meters of the latch is the partition's own at the write (R289). -/
theorem State.meterLatch_meter (s : State) {p t j : Nat} (hp : p < 256) (ht : t < 256) (hj : j < 12) :
    (s.meterLatch p t).reg pgMeter (latchBank p) (0x110 + 8 * j) = s.reg pgMeter t (0x110 + 8 * j) % 2 ^ 64 := by
  have hbank : ∀ i k, i < 12 → k < 12 → rkey pgMeter t (0x110 + 8 * k) ≠ rkey pgMeter (latchBank p) (0x110 + 8 * i) := fun i k hi hk =>
    rkey_ne_of_bank_ne (by unfold latchBank; omega) (by omega) (by omega) (by unfold latchBank; omega) (by omega)
  unfold State.meterLatch
  rw [State.reg_bump_ne _ _ (rkey_meter_ne hj (by decide)), State.reg_setReg_ne _ _ (rkey_meter_ne hj (by decide))]
  exact State.reg_foldl_range (off := fun j => 0x110 + 8 * j) (g := fun s j => s.reg pgMeter t (0x110 + 8 * j)) 12
    (fun s i k v hi hk => State.reg_setReg_ne _ _ (hbank i k hi hk)) (fun i k _ _ hik => rkey_off (by omega)) s hj

/-- METER_TIME of the latch is the time of the write (R289). -/
theorem State.meterLatch_time (s : State) (p t : Nat) :
    (s.meterLatch p t).reg pgMeter (latchBank p) R.METER_METER_TIME = s.timeNow % 2 ^ 64 := by
  have hfold : Within 0x10 s ((List.range 12).foldl
      (fun s j => s.setReg pgMeter (latchBank p) (0x110 + 8 * j) (s.reg pgMeter t (0x110 + 8 * j))) s) :=
    Within.fold (fun _ _ h => State.setReg_ok rfl h) (.rfl _ s)
  unfold State.meterLatch
  rw [State.reg_bump_ne _ _ (rkey_ne_of_off_ne (by decide) (by decide) (by decide)), State.reg_setReg, hfold.timeNow rfl]

/-- A trace copy holds the next index of the buffer it shows (R386). -/
theorem State.traceCopy_next (s : State) (p v : Nat) :
    (s.traceCopy p v).reg pgPackage p R.GRP_TRACE_RD_NEXT = s.reg pgPackage (v % 256) (regTraceNext (v.testBit 8)) % 2 ^ 64 := by
  unfold State.traceCopy
  rw [State.reg_setReg_ne _ _ (rkey_off (by decide)), State.reg_setReg]

/-- A trace copy holds the first index of the buffer it shows (R386). -/
theorem State.traceCopy_first (s : State) (p v : Nat) :
    (s.traceCopy p v).reg pgPackage p R.GRP_TRACE_RD_FIRST = s.reg pgPackage (v % 256) (regTraceFirst (v.testBit 8)) % 2 ^ 64 := by
  unfold State.traceCopy
  rw [State.reg_setReg]

/-- Settles O3: what `exec` does with each select, and what the latch and the trace copy then hold. -/
theorem selectsLatchWhatTheyShow : Obligations.SelectsLatchWhatTheyShow := by
  refine ⟨fun s p v hp ht => ?meterSel, fun s p die win v hwin hd ht => exec_meltSel hwin hd ht, fun s p v hp ht => ?traceRdSel⟩
  case meterSel =>
    obtain ⟨w, hx⟩ := exec_meterSel ht
    have hW : Within 0x10 _ ((s.setReg pgMeter p R.METER_METER_SEL w).meterLatch p (v.toNat % 256)) := State.meterLatch_ok rfl (.rfl _ _)
    refine ⟨_, hx, fun j hj => ?_, State.meterLatch_time .., hW.hbm rfl, hW.parts rfl⟩
    rw [State.meterLatch_meter _ hp (Nat.mod_lt _ (by decide)) hj, State.reg_setReg_ne _ _ (rkey_meter_ne hj (by decide))]
  case traceRdSel =>
    obtain ⟨hnext, hfirst⟩ := rkey_regTrace_ne_sel (v.toNat.testBit 8) (v.toNat % 256) p
    refine ⟨_, exec_traceRdSel ht, ?_, ?_⟩
    · rw [State.traceCopy_next, State.reg_setReg_ne _ _ hnext]
    · rw [State.traceCopy_first, State.reg_setReg_ne _ _ hfirst]

end Sys2Proof.Machine
end

section
/-! Collectives: how one begins, what its packets do to it, and its timer. -/

namespace Sys2Proof.Machine

/-! ### A packet that is taken (R245) -/

/-- Before a packet's effect only registers and the power state change. -/
theorem State.arrived_within (s : State) (die : Nat) (pk : Packet) : Within 0x400000010 s (s.arrived die pk) :=
  State.bump_ok rfl (State.bump_ok rfl (State.wake_ok rfl (.rfl _ s)))

/-- A packet that is taken has its effect in the state in which it arrives. -/
theorem State.deliver_taken {s : State} {die : Nat} {pk : Packet} (h : s.takesPacket die pk = true) (k : State → State) :
    s.deliver die pk k = k (s.arrived die pk) := by
  simp only [State.takesPacket, Bool.and_eq_true, decide_eq_true_eq] at h
  obtain ⟨⟨hready, hmod⟩, htag⟩ := h
  simp [State.deliver, State.arrived, hready, hmod, htag]

section
variable {s : State} {die : Nat} {pk : Packet} (h : s.takesPacket die pk = true)
include h

theorem exec_collReady_taken : exec (.collReady die pk) s = .next ((s.arrived die pk).readyIn die pk) :=
  congrArg Host.Outcome.next (State.deliver_taken h _)

theorem exec_collData_taken : exec (.collData die pk) s = .next ((s.arrived die pk).collDataIn pk) :=
  congrArg Host.Outcome.next (State.deliver_taken h _)

theorem exec_collAck_taken : exec (.collAck die pk) s = .next ((s.arrived die pk).ackIn die pk) :=
  congrArg Host.Outcome.next (State.deliver_taken h _)

theorem exec_collSeal_taken : exec (.collSeal die pk) s = .next ((s.arrived die pk).sealIn pk) :=
  congrArg Host.Outcome.next (State.deliver_taken h _)

theorem exec_collCancel_taken : exec (.collCancel die pk) s = .next ((s.arrived die pk).collCancelIn pk) :=
  congrArg Host.Outcome.next (State.deliver_taken h _)

end

/-! ### What each packet of a collective does (R253, R255 to R258) -/

section
variable {w : State} {pk : Packet} {c : CollX}

theorem State.readyIn_of_other_group (h : w.collOf pk = some c) (hg : pk.aux.toNat ≠ groupCrc c.members) (die : Nat) :
    w.readyIn die pk = (w.answer pk pkCOLL_CANCEL).collFail c 2 := by
  simp [State.readyIn, h, State.readyFor, hg, State.collRefuse]

/-- A READY of a collective that this member has not started is kept while there is room (R255). -/
theorem State.readyIn_early (h : w.collOf pk = none) (he : w.isEarly pk = true)
    (hroom : (w.earlyReady.filter (fun r => r.part = pk.destPart && r.pk.kind = pkCOLL_READY)).length < 256) (die : Nat) :
    w.readyIn die pk = { w with earlyReady := w.earlyReady ++ [{ part := pk.destPart, die := die, pk := pk }] } := by
  simp [State.readyIn, h, he, Nat.not_le.2 hroom]

theorem State.collDataIn_of_mismatch (h : w.collOf pk = some c) (hd : pk.fmt ≠ c.kind ∨ pk.len ≠ c.len) :
    w.collDataIn pk = (w.answer pk pkCOLL_CANCEL).collFail c 3 := by
  simp [State.collDataIn, h, hd, State.collRefuse]

/-- DATA that agrees with a collective of the ring enters it with the verdict it brings (R255, R257). -/
theorem State.collDataIn_ring (h : w.collOf pk = some c) (hk : pk.fmt = c.kind) (hl : pk.len = c.len) (ht : c.tree = false)
    (hch : pk.pos.toNat < c.chunks) (hs : (c.from c.sources pk.srcMod).isSome = true) (hc : w.cmd? c.q c.slot = none) :
    let r := w.ringIn { c with verdict := orVerdict c.verdict pk.verdict.toNat } pk.pos.toNat pk.data
    w.collDataIn pk = (r.1.updCmd c.q c.slot (fun k => { k with pos := min c.len (1024 * r.2.finals.length) })).collGoOn r.2 := by
  have hsome : (c.from c.sources pk.srcMod).isNone = false := by simpa using hs
  simp [State.collDataIn, h, hk, hl, Nat.not_le.2 hch, hsome, ht, hc]

theorem State.ackIn_of_closing (h : w.collOf pk = some c) (hc : c.closing = true) (die : Nat) : w.ackIn die pk = w.ackFor c pk := by
  simp [State.ackIn, h, hc]

theorem State.sealIn_of_closing (h : w.collOf pk = some c) (hc : c.closing = true) : w.sealIn pk = w.sealed c pk.verdict.toNat := by
  simp [State.sealIn, h, hc]

/-- The reason of a cancelled collective: one of five, which the answer does not carry (DESIGN CHOICE log 58). -/
theorem cancelReason_bounds (n : Nat) : 2 ≤ [2, 3, 4, 5, 6].getD (n % 5) 5 ∧ [2, 3, 4, 5, 6].getD (n % 5) 5 ≤ 6 := by
  have hn : n % 5 < 5 := Nat.mod_lt _ (by decide)
  generalize n % 5 = i at hn
  interval_cases i <;> decide

theorem State.collCancelIn_of_some (h : w.collOf pk = some c) : ∃ r, 2 ≤ r ∧ r ≤ 6 ∧ w.collCancelIn pk = w.freshen.collFail c r := by
  obtain ⟨hlo, hhi⟩ := cancelReason_bounds w.freeVal.toNat
  exact ⟨_, hlo, hhi, by rw [State.collCancelIn, h]⟩

theorem State.collCancelIn_of_none (h : w.collOf pk = none) : w.collCancelIn pk = w := by
  rw [State.collCancelIn, h]

end

/-! ### Start and timer -/

theorem State.collStart_of_abandoned {s : State} {q : Nat} {k : Cmd} (hc : dFlag k.desc flCLOSING = true) (ha : (s.part k.part).abandoned = true) :
    s.collStart q k = s.finish q k.slot 0x13 0 0 := by
  have hclosing : (s.newColl q k).closing = true := hc
  simp [State.collStart, hclosing, ha]

theorem State.begun_timeNow (s : State) (q : Nat) (c : Cmd) (t : Task) : (s.begun q c t).timeNow = s.timeNow :=
  (Within.of State.begun_ok).timeNow rfl

theorem exec_collective {s : State} {q slot : Nat} {c : Cmd} {t : Task} (h : s.starts q slot opCOLLECTIVE c t) :
    exec (.collective q slot) s = .next ((s.begun q c t).collStart q (s.begunCmd q c t)) :=
  congrArg _ (State.startCmd_eq h (by simp) rfl)

theorem exec_collectiveTimeout_of_expired {s : State} {q slot : Nat} {c : CollX} (h : s.coll? q slot = some c) (hr : c.remaining s.timeNow = 0) :
    let u := s.bump (pgColl 8) 0 R.COLLECTIVE_COLL_TIMEOUTS 1
    exec (.collectiveTimeout q slot) s = .next (if c.closing then u.closeStep c soAborted 0 else u.collFail c 4) := by
  change execCollectiveTimeout q slot s = _
  simp [execCollectiveTimeout, State.collTimeout, h, hr]

theorem exec_collectiveTimeout_of_remaining {s : State} {q slot : Nat} {c : CollX} (h : s.coll? q slot = some c) (hr : 0 < c.remaining s.timeNow) :
    exec (.collectiveTimeout q slot) s = .next s := by
  change execCollectiveTimeout q slot s = _
  simp [execCollectiveTimeout, State.collTimeout, h, hr]

/-- Settles O28: the start, the rule of each packet in the state in which it arrives, and the timer, each stated once above. The reason of a
cancelled collective is free (DESIGN CHOICE log 58), and a cancelled closing collective ends with ABORT_FAULT like any other (DEDUCED log 112). -/
theorem collectivesAct : Obligations.CollectivesAct := by
  intro s
  refine ⟨fun q slot c t h => ?start, fun die pk htake => ?packets, fun q slot c => exec_collectiveTimeout_of_expired,
    fun q slot c => exec_collectiveTimeout_of_remaining⟩
  case start =>
    obtain rfl : c.slot = slot := (findCmd_spec h.1).1
    exact ⟨exec_collective h, rfl, State.begun_timeNow .., State.collStart_of_abandoned⟩
  case packets =>
    have hW := s.arrived_within die pk
    rw [exec_collReady_taken htake, exec_collData_taken htake, exec_collAck_taken htake, exec_collSeal_taken htake, exec_collCancel_taken htake]
    refine ⟨fun c hc => ⟨fun hg => ?ready, fun hd => ?mismatch, fun hk hl ht hch hs hcmd => ?data, fun hcl => ⟨?ack, ?sealed⟩, ?cancel⟩,
      fun hn he hroom => ?early, fun hn => ?stray⟩
    case ready => rw [State.readyIn_of_other_group hc hg]
    case mismatch => rw [State.collDataIn_of_mismatch hc hd]
    case data => rw [State.collDataIn_ring hc hk hl ht hch hs hcmd]
    case ack => rw [State.ackIn_of_closing hc hcl]
    case sealed => rw [State.sealIn_of_closing hc hcl]
    case cancel =>
      obtain ⟨r, hlo, hhi, hx⟩ := State.collCancelIn_of_some hc
      exact ⟨r, hlo, hhi, by rw [hx]⟩
    case early =>
      rw [State.readyIn_early hn he hroom]
      exact ⟨_, rfl, congrArg (· ++ _) (hW.earlyReady rfl), hW.colls rfl, hW.queues rfl, hW.hbm rfl⟩
    case stray =>
      rw [State.collCancelIn_of_none hn]
      exact ⟨_, rfl, hW.colls rfl, hW.queues rfl, hW.hbm rfl⟩

end Sys2Proof.Machine
end

section
/-! Queues, commands and tasks: what runs out of time, which commands leave the queues alone, a SKIP, and the division of elements over members. -/

namespace Sys2Proof.Machine

/-! ### Commands about no queue -/

/-- Settles O48: each field that the statement names is one that a command of this class keeps. -/
theorem queuesAreSpared : Obligations.QueuesAreSpared := by
  intro c s t hc h
  obtain ⟨W, hW, hm⟩ := exec_keeps h
  obtain ⟨-, -, -, -, -, -, -, hspare⟩ := mayChange_iff.1 hm
  have kept : ∀ {i}, queueKeeps.testBit i = true → W.testBit i = false := not_testBit_of_disjoint (hspare hc)
  exact ⟨hW.queues (kept rfl), hW.bars (kept rfl), hW.tiles (kept rfl), hW.xfers (kept rfl), hW.colls (kept rfl), hW.reqs (kept rfl),
    hW.earlyReady (kept rfl), hW.adm (kept rfl)⟩

/-! ### Time limits (R201) -/

section
variable {s : State} {q slot : Nat}

theorem State.deadlineOut_of_passed {c : Cmd} (hc : s.cmd? q slot = some c) (hset : dDeadline c.desc ≠ 0) (hpast : dDeadline c.desc ≤ s.timeNow) :
    s.deadlineOut q slot = s.abortCmd q slot 0x10 0x07 := by
  simp [State.deadlineOut, hc, hset, hpast]

/-- A command for which STALL_MS runs is one of those that the timer looks at, and not one of a kind that waits long. -/
theorem State.stallOut_of_idle {t : Task} (ht : (s.queue q).tasks.head? = some t) (hset : s.qreg q R.QCTX_QLIMITS % 65536 ≠ 0)
    (hserved : t.served = true) (hab : t.aborted = false) (href : t.refused = false) (hfr : (s.queue q).frozen = false) (hst : (s.queue q).state ≠ 3)
    (hopen : ∃ c ∈ (s.queue q).cmds, c.task = t.id ∧ c.recorded = false ∧ closesTask (dOpcode c.desc) = false ∧ waitsLong (dOpcode c.desc) = false)
    (hpast : t.lastProg + 1000000 * (s.qreg q R.QCTX_QLIMITS % 65536) ≤ s.timeNow) :
    s.stallOut q = s.abortWhole q t.id 0x0A := by
  obtain ⟨c, hc, hid, hrec, hclose, hlong⟩ := hopen
  have hmem : c ∈ (s.queue q).cmds.filter (fun c => c.task = t.id && !c.recorded && !closesTask (dOpcode c.desc)) := by
    simp [hc, hid, hrec, hclose]
  have hsome : ((s.queue q).cmds.filter (fun c => c.task = t.id && !c.recorded && !closesTask (dOpcode c.desc))).isEmpty = false := by
    simpa using List.ne_nil_of_mem hmem
  have hshort : ((s.queue q).cmds.filter (fun c => c.task = t.id && !c.recorded && !closesTask (dOpcode c.desc))).all
      (fun c => waitsLong (dOpcode c.desc)) = false :=
    List.all_eq_false.2 ⟨c, hmem, by simp [hlong]⟩
  simp only [State.stallOut, ht, hsome, hshort]
  simp [hset, hserved, hab, href, hfr, hst, Nat.not_lt.2 hpast]

theorem State.eventOut_of_passed {c : Cmd} {begin_ : Nat} (hc : s.cmd? q slot = some c) (hop : dOpcode c.desc = opEVENT_WAIT)
    (hset : dField c.desc 0x60 32 ≠ 0) (hdone : c.done = false) (hlow : s.rdLE c.part (dAddr c.desc 0) 8 < dField c.desc 0x58 64)
    (hstart : c.startT = some begin_) (hpast : begin_ + 1000 * dField c.desc 0x60 32 + ((s.part c.part).heldNs - c.held0) ≤ s.timeNow) :
    s.eventOut q slot = s.abortCmd q slot 0x10 0x0B := by
  simp [State.eventOut, hc, hop, hset, hdone, hlow, hstart, hpast]

theorem State.barrierTimeout_of_passed {part id : Nat} {b : Bar} (hb : s.bar? part id = some b) (harr : b.arrivals ≠ []) :
    let page := s.barrierPage part (b.arrivals.head?.bind (fun a => (s.cmd? a.q a.slot).bind (fun c => findTask (s.queue a.q).tasks c.task)))
    b.first + 1000 * s.reg page 0 R.BARRIER_BAR_TIMEOUT ≤ s.timeNow →
    s.barrierTimeout part id = ((b.arrivals.filter (fun a => !a.aborted)).foldl (fun s a => s.abortCmd a.q a.slot 0x10 0x08)
      (((s.setBar { b with arrivals := [] }).bump page 0 R.BARRIER_BAR_TIMEOUTS 1).setReg page 0 R.BARRIER_BAR_STATE 0)).rearrive part id page
        b.later := by
  intro page hpast
  have hwaits : (b.arrivals.isEmpty || decide (s.timeNow < b.first + 1000 * s.reg page 0 R.BARRIER_BAR_TIMEOUT)) = false := by
    simp [harr, hpast]
  simp only [State.barrierTimeout, hb]
  exact if_neg (by simpa using hwaits)

end

/-- Settles O16: each limit's own rule, stated once above. -/
theorem timeLimitsAbort : Obligations.TimeLimitsAbort := by
  intro s
  refine ⟨fun q slot c hc hset hpast => congrArg _ (State.deadlineOut_of_passed hc hset hpast),
    fun q t ht hset hserved hab href hfr hst hopen hpast =>
      congrArg _ (State.stallOut_of_idle ht hset hserved hab href hfr hst hopen hpast),
    fun q slot begin_ c hc hop hset hdone hlow hstart hpast => congrArg _ (State.eventOut_of_passed hc hop hset hdone hlow hstart hpast),
    fun part id b hb harr => ?_⟩
  intro page hpast
  exact congrArg _ (State.barrierTimeout_of_passed hb harr hpast)

/-! ### The division of elements (R431) -/

theorem shareStart_zero (elems n : Nat) : shareStart elems n 0 = 0 := by simp [shareStart]

theorem shareStart_members (elems : Nat) {n : Nat} (hn : 0 < n) : shareStart elems n n = elems := by
  rw [shareStart, min_eq_right (Nat.mod_lt _ hn).le, Nat.mul_comm, Nat.div_add_mod]

theorem shareStart_succ (elems n k : Nat) :
    shareStart elems n (k + 1) = shareStart elems n k + elems / n + (if k < elems % n then 1 else 0) := by
  rw [shareStart, shareStart, Nat.mul_succ]
  split <;> omega

/-- The ranges of one element more come first and lie on a grid of ⌊E ÷ n⌋ + 1. -/
theorem shareStart_of_le_mod {elems n k : Nat} (hk : k ≤ elems % n) : shareStart elems n k = k * (elems / n + 1) := by
  rw [shareStart, min_eq_left hk]; ring

/-- The others follow them on a grid of ⌊E ÷ n⌋. -/
theorem shareStart_mod_add (elems n j : Nat) :
    shareStart elems n (elems % n + j) = elems % n * (elems / n + 1) + j * (elems / n) := by
  rw [shareStart, min_eq_right (Nat.le_add_right _ _)]; ring

/-- Element e belongs to member k where k's range holds it. -/
def holdsShare (elems n e k : Nat) : Prop := k < n ∧ shareStart elems n k ≤ e ∧ e < shareStart elems n (k + 1)

/-- An element of the longer ranges. -/
theorem shareOf_holds_of_lt {elems n e : Nat} (hn : 0 < n) (he : e < elems % n * (elems / n + 1)) :
    holdsShare elems n e (shareOf elems n e) := by
  have hk : e / (elems / n + 1) < elems % n := Nat.div_lt_of_lt_mul (by rwa [Nat.mul_comm])
  rw [shareOf, if_pos he]
  refine ⟨hk.trans (Nat.mod_lt _ hn), ?_, ?_⟩
  · rw [shareStart_of_le_mod hk.le]
    exact Nat.div_mul_le_self ..
  · rw [shareStart_of_le_mod hk, Nat.succ_mul]
    exact Nat.lt_div_mul_add (Nat.succ_pos _)

/-- An element of the shorter ranges, which are not empty where there is one. -/
theorem shareOf_holds_of_le {elems n e : Nat} (he : e < elems) (hle : elems % n * (elems / n + 1) ≤ e) :
    holdsShare elems n e (shareOf elems n e) := by
  have hsum : n * (elems / n) + elems % n = elems := Nat.div_add_mod ..
  have hq : 0 < elems / n := Nat.pos_of_ne_zero fun h0 => by rw [h0] at hsum hle; omega
  obtain ⟨d, rfl⟩ := Nat.exists_eq_add_of_le hle
  have hof : shareOf elems n (elems % n * (elems / n + 1) + d) = elems % n + d / (elems / n) := by
    rw [shareOf, if_neg (Nat.not_lt.2 hle), Nat.add_sub_cancel_left, max_eq_right hq]
  rw [hof]
  refine ⟨?_, ?_, ?_⟩
  · have hdiv := Nat.div_mul_le_self d (elems / n)
    refine Nat.lt_of_mul_lt_mul_right (a := elems / n) ?_
    rw [Nat.mul_succ] at he
    rw [Nat.add_mul]
    omega
  · rw [shareStart_mod_add]
    exact Nat.add_le_add_left (Nat.div_mul_le_self ..) _
  · rw [Nat.add_assoc, shareStart_mod_add, Nat.succ_mul]
    exact Nat.add_lt_add_left (Nat.lt_div_mul_add hq) _

/-- Settles O56: the starts of the ranges, and the two grids on which `shareOf` finds an element's range. -/
theorem sharesDivideTheElements : Obligations.SharesDivideTheElements := by
  intro elems n hn
  refine ⟨shareStart_zero .., shareStart_members _ hn, fun k _ => shareStart_succ .., fun e he => ?_⟩
  rcases lt_or_ge e (elems % n * (elems / n + 1)) with hlt | hle
  · exact shareOf_holds_of_lt hn hlt
  · exact shareOf_holds_of_le he hle

/-! ### A SKIP where the keys of the table of partitions do not rise (R210) -/

/-- The aborted task of queue 0 in `crossedPartitions`. -/
def pausedTask : Task := { newTask 7 0 3 0 false with aborted := true }

/-- A ready module with tenants 1 and 2, whose keys in the table of partitions do not rise. Queue 0 is tenant 1's and paused; queue 64, which nothing
has used yet, lies in the range of both tenants, of which tenant 2 is frozen. -/
def crossedPartitions : State :=
  { State.reset with
    boot := { BootX.init with state := 2 }
    parts := [(2, { PartX.init with state := 2, pfFrozen := true }), (1, { PartX.init with state := 2 })]
    queues := [(0, { QueueX.init with state := 3, tasks := [pausedTask] })]
    regs := [(rkey pgPartition 1 R.PARTITION_QUEUE_RANGE, 2 * 2 ^ 10), (rkey pgPartition 2 R.PARTITION_QUEUE_RANGE, 1 + 2 ^ 10),
      (rkey (queuePage 0) 0 (queueOff 0 + R.QCTX_QCFG), 1)] }

/-- Tenant 1's doorbells reach its queue 0. -/
theorem crossedPartitions_doorbell :
    crossedPartitions.ready = true ∧ (crossedPartitions.part 1).state ≠ 0 ∧ (crossedPartitions.part 1).hostFrozen = false ∧
      crossedPartitions.queueOwner 0 = 1 ∧ crossedPartitions.qEnabled 0 = true := by decide +kernel

/-- Before the SKIP queue 64 is the frozen tenant's. The SKIP enters tenant 1 a second time, in front of tenant 2, and then queue 64 is tenant 1's. -/
theorem crossedPartitions_skip : (crossedPartitions.queue 64).frozen = true ∧ ((crossedPartitions.qcmd 1 0 2).queue 64).frozen = false := by
  decide +kernel

/-- Refutes O27: the statement does not ask for a table of partitions whose keys rise. A SKIP writes its partition's entry, and where the keys do not
rise the write may enter it anew in front of another; a queue in the range of both then changes its owner, and with it whether it is frozen. -/
theorem not_queueCommandsAct : ¬ Obligations.QueueCommandsAct := by
  intro h
  obtain ⟨hready, hstate, hhost, howner, henabled⟩ := crossedPartitions_doorbell
  obtain ⟨-, -, -, hpaused, -⟩ := h crossedPartitions 1 0 hready hstate hhost howner henabled
  obtain ⟨-, hskip⟩ := hpaused pausedTask rfl rfl rfl
  obtain ⟨t, ht, -, -, -, -, hframe⟩ := hskip (fun c hc => absurd hc List.not_mem_nil) rfl
  obtain rfl : crossedPartitions.qcmd 1 0 2 = t := Host.Outcome.next.inj ht
  obtain ⟨hbefore, hafter⟩ := crossedPartitions_skip
  rw [hframe 64 (by decide), hbefore] at hafter
  exact absurd hafter (by decide)

/-! ### The same SKIP where the keys of the table of partitions rise -/

/-- Writing an entry that a table has, keys rising, moves no entry: what each says through `f` stays, where the new value says the same. -/
theorem map_sset_of_rising {α β : Type} {m : Store α} {k : Nat} {v w : α} (f : α → β) (hm : rising m = true) (hk : sget m k = some v)
    (hf : f w = f v) : (sset m k w).map (fun e => (e.1, f e.2)) = m.map (fun e => (e.1, f e.2)) := by
  induction m with
  | nil => cases hk
  | cons e r ih =>
    obtain ⟨a, u⟩ := e
    obtain ⟨habove, hr⟩ := rising_cons.1 hm
    simp only [sget] at hk
    simp only [sset]
    split at hk
    · next h => cases hk; subst h; simp [hf]
    · next h =>
      have hlt : ¬ k < a := fun hlt => by
        rw [sget_above habove hlt.le] at hk; cases hk
      rw [if_neg hlt, if_neg (Ne.symm h), List.map_cons, List.map_cons, ih hr hk]

theorem State.partNums_eq (s : State) : s.partNums = ((s.parts.map (fun e => (e.1, e.2.state))).filter (fun e => e.2 != 0)).map (·.1) := by
  rw [List.filter_map, List.map_map]; rfl

/-- With keys rising, a partition that exists keeps its place in the order of partitions when its entry is written. -/
theorem State.partNums_setPart_of_rising {s : State} {p : Nat} {x : PartX} (hr : rising s.parts = true) (hp : (s.part p).state ≠ 0)
    (hx : x.state = (s.part p).state) : (s.setPart p x).partNums = s.partNums := by
  cases hg : sget s.parts p with
  | none => exact absurd (by rw [State.part, hg]; rfl) hp
  | some y =>
    have hy : x.state = y.state := by rw [hx, State.part, hg]; rfl
    rw [State.partNums_eq, State.partNums_eq, State.setPart_parts, map_sset_of_rising PartX.state hr hg hy]

theorem State.queueOwner_congr {s t : State} (hn : t.partNums = s.partNums)
    (hrange : ∀ b, t.reg pgPartition b R.PARTITION_QUEUE_RANGE = s.reg pgPartition b R.PARTITION_QUEUE_RANGE) (x : Nat) :
    t.queueOwner x = s.queueOwner x := by
  have hfld : ∀ b (f : Fld), f.off = R.PARTITION_QUEUE_RANGE → t.fld pgPartition b f = s.fld pgPartition b f := fun b f hf => by
    rw [State.fld, State.fld, hf, hrange]
  have hranges : t.queueRange = s.queueRange := funext fun b => by
    rw [State.queueRange, State.queueRange, hfld b F.PARTITION_QUEUE_RANGE_BASE rfl, hfld b F.PARTITION_QUEUE_RANGE_COUNT rfl]
  rw [State.queueOwner, State.queueOwner, hn, hranges]

/-- What a queue is, is said by its entry; where it has none, by the partition that owns it and by a device-fatal error (R184, R313). -/
theorem State.queue_congr {s t : State} {x : Nat} (hq : sget t.queues x = sget s.queues x) (howner : t.queueOwner x = s.queueOwner x)
    (herr : t.reg pgPkgErr 0 R.ERR_ERR_STATE = s.reg pgPkgErr 0 R.ERR_ERR_STATE)
    (hfrozen : ∀ k, (t.part k).pfFrozen = (s.part k).pfFrozen) : t.queue x = s.queue x := by
  have hdf : t.dfOn = s.dfOn := by
    rw [State.dfOn, State.dfOn, State.fld, State.fld, show F.ERR_ERR_STATE_DF.off = R.ERR_ERR_STATE from rfl, herr]
  rw [State.queue, State.queue, hq, State.freshQueue, State.freshQueue, howner, hfrozen, hdf]

/-- The registers that a wake writes (R403): the power state, the count of wakes, and the progress. -/
def wakeWrites (o : Nat) : Bool :=
  o = R.POWER_POWER_STATUS || o = R.POWER_WAKES || o = R.HDR_PROGRESS || o = R.HDR_PROGRESS_POS

theorem State.reg_wake (s : State) (P B : Nat) {O : Nat} (hO : O < 4096) (h : wakeWrites O = false) : s.wake.reg P B O = s.reg P B O := by
  simp only [wakeWrites, Bool.or_eq_false_iff, decide_eq_false_iff_not] at h
  obtain ⟨⟨⟨hst, hw⟩, hp⟩, hpos⟩ := h
  unfold State.wake
  split
  · exact (State.reg_setReg_ne _ _ (rkey_ne_of_off_ne hpos hO (by decide))).trans <|
      (State.reg_setReg_ne _ _ (rkey_ne_of_off_ne hp hO (by decide))).trans <|
      (State.reg_setReg_ne _ _ (rkey_ne_of_off_ne hw hO (by decide))).trans <|
      State.reg_setFld_ne _ _ (rkey_ne_of_off_ne hst hO (by decide))
  · split <;> rfl

theorem State.wake_within (s : State) : Within 0x400000010 s s.wake := .of State.wake_ok

theorem State.queueOwner_wake (s : State) (x : Nat) : s.wake.queueOwner x = s.queueOwner x :=
  State.queueOwner_congr (by rw [State.partNums, State.partNums, s.wake_within.parts rfl]) (fun b => s.reg_wake _ _ (by decide) (by decide)) x

theorem State.queue_wake (s : State) (x : Nat) : s.wake.queue x = s.queue x :=
  State.queue_congr (by rw [s.wake_within.queues rfl]) (s.queueOwner_wake x) (s.reg_wake _ _ (by decide) (by decide))
    fun k => by rw [State.part_congr (s.wake_within.parts rfl)]

/-- What a SKIP of a task without a closing command does before the queue may ask for a turn (R210). -/
def State.givenUp (s : State) (q : Nat) (tk : Task) : State :=
  let s := s.updPart (s.queueOwner q) (fun y => { y with abandoned := true })
  let s := s.updQueue q (fun x => { x with state := 2 })
  (s.meter (s.queueOwner q) R.METER_TASKS 1).putTask q { tk with refused := true, aborted := false }

section
variable {s : State} {p q x : Nat} {tk : Task}

theorem State.skipTask_eq (htk : (s.queue q).aborted? = some tk) (hopen : ∀ c ∈ (s.queue q).cmds, closesTask (dOpcode c.desc) = false) :
    s.skipTask q = if ((s.givenUp q tk).queue q).rd ≠ ((s.givenUp q tk).queue q).tail then (s.givenUp q tk).enqueue q else s.givenUp q tk := by
  have hnone : (s.queue q).cmds.find? (fun c => c.task = tk.id && closesTask (dOpcode c.desc)) = none :=
    List.find?_eq_none.2 fun c hc => by simp [hopen c hc]
  simp only [State.skipTask, htk, hnone]
  rfl

theorem State.queue_givenUp (hr : rising s.parts = true) (hp : (s.part (s.queueOwner q)).state ≠ 0) (tk : Task) (hx : x ≠ q) :
    (s.givenUp q tk).queue x = s.queue x := by
  have hreg : ∀ {P B O : Nat}, O ≠ R.METER_TASKS → O < 4096 → (s.givenUp q tk).reg P B O = s.reg P B O := fun h hO =>
    State.reg_bump_ne _ _ (rkey_ne_of_off_ne h hO (by decide))
  have hnums : (s.givenUp q tk).partNums = s.partNums :=
    State.partNums_setPart_of_rising (x := { s.part (s.queueOwner q) with abandoned := true }) hr hp rfl
  refine State.queue_congr ((sget_sset_ne _ hx).trans (sget_sset_ne _ hx)) (State.queueOwner_congr hnums (fun b => hreg (by decide) (by decide)) x)
    (hreg (by decide) (by decide)) fun k => ?_
  change ((s.updPart (s.queueOwner q) (fun y => { y with abandoned := true })).part k).pfFrozen = (s.part k).pfFrozen
  by_cases hk : k = s.queueOwner q
  · rw [hk, State.updPart, State.part_setPart]
  · rw [State.updPart, State.part_setPart_ne _ _ hk]

/-- The clause of O27 that fails, with the hypothesis it lacks: where the keys of the table of partitions rise, as `rising_sset` keeps them, this SKIP
leaves every other queue as it was. -/
theorem exec_skip_spares_of_rising (hr : rising s.parts = true) (hready : s.ready = true) (hp : (s.part p).state ≠ 0)
    (hhost : (s.part p).hostFrozen = false) (howner : s.queueOwner q = p) (hen : s.qEnabled q = true) (hst : (s.queue q).state = 3)
    (hfr : (s.queue q).frozen = false) (htk : (s.queue q).aborted? = some tk)
    (hopen : ∀ c ∈ (s.queue q).cmds, closesTask (dOpcode c.desc) = false) :
    ∃ t, exec (.skip p q 2) s = .next t ∧ ∀ x, x ≠ q → t.queue x = s.queue x := by
  have hq := s.queue_wake q
  have hskip : s.qcmd p q 2 = s.wake.skipTask q := by
    simp [State.qcmd, State.doorbell, hready, hp, hhost, howner, hen, hq, hst, hfr, htk]
  have hpart : (s.wake.part (s.wake.queueOwner q)).state ≠ 0 := by
    rwa [s.queueOwner_wake, howner, State.part_congr (s.wake_within.parts rfl)]
  refine ⟨_, rfl, fun x hx => ?_⟩
  change (s.qcmd p q 2).queue x = _
  rw [hskip, State.skipTask_eq (by rwa [hq]) (by rwa [hq]), ← s.queue_wake x,
    ← State.queue_givenUp (by rwa [s.wake_within.parts rfl]) hpart tk hx]
  split <;> rfl

end

end Sys2Proof.Machine
end

section
/-! Tensor layout and movement (spec/09): the bytes of a described slot, and the two sides of a point-to-point transfer. -/

namespace Sys2Proof.Machine

/-! ### The declared range of a described slot (R217) -/

theorem foldl_add_eq_sum (f : Nat → Int) (l : List Nat) (c : Int) : l.foldl (fun a i => a + f i) c = c + (l.map f).sum := by
  induction l generalizing c with
  | nil => simp
  | cons x r ih => rw [List.foldl_cons, ih, List.map_cons, List.sum_cons, add_assoc]

/-- How far the last row of dimension d + 1 lies from its first. -/
def TD.reach (t : TD) (d : Nat) : Int := t.st (d + 1) * ((t.e (d + 1) : Int) - 1)

/-- How far byte b of the row with these indices lies from the base (R214). -/
def TD.rowByteOff (t : TD) (b : Nat) (j : Nat → Nat) : Int := (b : Int) + ((List.range 5).map (fun d => t.st (d + 1) * (j d : Int))).sum

/-- The indices of the row that lies lowest: last where the stride is negative. -/
def TD.lowRow (t : TD) (d : Nat) : Nat := if t.st (d + 1) < 0 then t.e (d + 1) - 1 else 0

/-- The indices of the row that lies highest: first where the stride is negative. -/
def TD.highRow (t : TD) (d : Nat) : Nat := if t.st (d + 1) < 0 then 0 else t.e (d + 1) - 1

theorem rangeOf_lo {base : Nat} {lo : Int} (hi : Int) (h : 0 ≤ ((base % 2 ^ 63 : Nat) : Int) + lo) :
    ((rangeOf base lo hi).lo : Int) = ((base % 2 ^ 63 : Nat) : Int) + lo := Int.toNat_of_nonneg h

theorem rangeOf_hi {base : Nat} {hi : Int} (lo : Int) (h : 0 ≤ ((base % 2 ^ 63 : Nat) : Int) + hi) :
    ((rangeOf base lo hi).hi : Int) = ((base % 2 ^ 63 : Nat) : Int) + hi := Int.toNat_of_nonneg h

section
variable (t : TD)

theorem TD.lowOff_eq_sum : t.lowOff = ((List.range 5).map (fun d => min 0 (t.reach d))).sum :=
  (foldl_add_eq_sum _ _ _).trans (zero_add _)

theorem TD.highOff_eq_sum : t.highOff = (t.rowBytes : Int) - 1 + ((List.range 5).map (fun d => max 0 (t.reach d))).sum :=
  foldl_add_eq_sum _ _ _

variable {t} {d j : Nat}

theorem TD.min_reach_le (hj : j < t.e (d + 1)) : min 0 (t.reach d) ≤ t.st (d + 1) * (j : Int) := by
  rcases lt_or_ge (t.st (d + 1)) 0 with hs | hs
  · exact (min_le_right _ _).trans (mul_le_mul_of_nonpos_left (by omega) hs.le)
  · exact (min_le_left _ _).trans (mul_nonneg hs (Int.natCast_nonneg j))

theorem TD.le_max_reach (hj : j < t.e (d + 1)) : t.st (d + 1) * (j : Int) ≤ max 0 (t.reach d) := by
  rcases lt_or_ge (t.st (d + 1)) 0 with hs | hs
  · exact (mul_nonpos_of_nonpos_of_nonneg hs.le (Int.natCast_nonneg j)).trans (le_max_left _ _)
  · exact (mul_le_mul_of_nonneg_left (by omega) hs).trans (le_max_right _ _)

theorem TD.lowRow_lt (he : 1 ≤ t.e (d + 1)) : t.lowRow d < t.e (d + 1) := by
  rw [TD.lowRow]; split <;> omega

theorem TD.highRow_lt (he : 1 ≤ t.e (d + 1)) : t.highRow d < t.e (d + 1) := by
  rw [TD.highRow]; split <;> omega

theorem TD.stride_lowRow (he : 1 ≤ t.e (d + 1)) : t.st (d + 1) * (t.lowRow d : Int) = min 0 (t.reach d) := by
  have hpos : (0 : Int) ≤ (t.e (d + 1) : Int) - 1 := by omega
  rw [TD.lowRow, TD.reach]
  split
  · next hs => rw [min_eq_right (mul_nonpos_of_nonpos_of_nonneg hs.le hpos), Nat.cast_sub he, Nat.cast_one]
  · next hs => rw [min_eq_left (mul_nonneg (not_lt.1 hs) hpos), Nat.cast_zero, mul_zero]

theorem TD.stride_highRow (he : 1 ≤ t.e (d + 1)) : t.st (d + 1) * (t.highRow d : Int) = max 0 (t.reach d) := by
  have hpos : (0 : Int) ≤ (t.e (d + 1) : Int) - 1 := by omega
  rw [TD.highRow, TD.reach]
  split
  · next hs => rw [max_eq_left (mul_nonpos_of_nonpos_of_nonneg hs.le hpos), Nat.cast_zero, mul_zero]
  · next hs => rw [max_eq_right (mul_nonneg (not_lt.1 hs) hpos), Nat.cast_sub he, Nat.cast_one]

end

section
variable {t : TD} {b : Nat} {j : Nat → Nat}

theorem TD.lowOff_le_rowByteOff (hj : ∀ d, d < 5 → j d < t.e (d + 1)) : t.lowOff ≤ t.rowByteOff b j := by
  rw [TD.lowOff_eq_sum]
  exact (List.sum_le_sum fun d hd => TD.min_reach_le (hj d (List.mem_range.1 hd))).trans (le_add_of_nonneg_left (Int.natCast_nonneg b))

theorem TD.rowByteOff_le_highOff (hb : b < t.rowBytes) (hj : ∀ d, d < 5 → j d < t.e (d + 1)) : t.rowByteOff b j ≤ t.highOff := by
  rw [TD.highOff_eq_sum]
  exact add_le_add (by omega) (List.sum_le_sum fun d hd => TD.le_max_reach (hj d (List.mem_range.1 hd)))

theorem TD.rowByteOff_lowRow (he : ∀ i, 1 ≤ t.e i) : t.rowByteOff 0 t.lowRow = t.lowOff := by
  rw [TD.rowByteOff, TD.lowOff_eq_sum, Nat.cast_zero, zero_add]
  simp only [TD.stride_lowRow (he _)]

theorem TD.rowByteOff_highRow (he : ∀ i, 1 ≤ t.e i) (hb : 1 ≤ t.rowBytes) : t.rowByteOff (t.rowBytes - 1) t.highRow = t.highOff := by
  rw [TD.rowByteOff, TD.highOff_eq_sum, Nat.cast_sub hb, Nat.cast_one]
  simp only [TD.stride_highRow (he _)]

end

/-- Settles O57: the two offsets are sums of the dimensions' reaches, which bound each row's own sum and are met at `TD.lowRow` and `TD.highRow`. -/
theorem declaredRangeSpansTheRows : Obligations.DeclaredRangeSpansTheRows := by
  intro t he hb
  have hlowHigh : t.lowOff ≤ t.highOff :=
    (TD.lowOff_le_rowByteOff fun d _ => TD.lowRow_lt (he (d + 1))).trans (TD.rowByteOff_le_highOff hb fun d _ => TD.lowRow_lt (he (d + 1)))
  refine ⟨t.lowOff_eq_sum, t.highOff_eq_sum, rfl, fun h => ⟨rangeOf_lo _ h, rangeOf_hi _ (by omega)⟩,
    fun b j hlt hj => ⟨TD.lowOff_le_rowByteOff hj, TD.rowByteOff_le_highOff hlt hj⟩, ?lowest, ?highest⟩
  case lowest => exact ⟨t.lowRow, fun d _ => TD.lowRow_lt (he (d + 1)), TD.rowByteOff_lowRow he⟩
  case highest => exact ⟨t.highRow, fun d _ => TD.highRow_lt (he (d + 1)), TD.rowByteOff_highRow he hb⟩

/-! ### The start of a transfer (R234, R251) -/

/-- The exchange that a LINK_SEND opens: its request goes out, and it waits for the answer. -/
def State.sendXfer (s : State) (q : Nat) (c : Cmd) : XferX :=
  { part := c.part, q := q, slot := c.slot, snap := false, send := true, handle := sendHandle c.desc, mod := memMod (sendDest c.desc),
    peerPart := memPart (sendDest c.desc), len := sendLength c.desc, got := 0, fmt := ((Form.ofCmd c q false).td 0).fmt, phase := 1,
    startT := s.timeNow, retryT := 0, src := [], base := 0 }

/-- The window that a LINK_RECV opens, as long as the stream of its tensor. -/
def State.recvWindow (s : State) (q : Nat) (c : Cmd) : XferX :=
  { part := c.part, q := q, slot := c.slot, snap := false, send := false, handle := sendHandle c.desc, mod := 0, peerPart := 0,
    len := ((Form.ofCmd c q false).td 2).streamLen, got := 0, fmt := ((Form.ofCmd c q false).td 2).fmt, phase := 1, startT := s.timeNow,
    retryT := 0, src := [], base := 0 }

section
variable {s : State} {q slot : Nat} {c : Cmd}

theorem State.sendStart_of_unreachable (h : s.reaches (memMod (sendDest c.desc)) = false) :
    s.sendStart q c = (s.linkErr (memMod (sendDest c.desc)) c.part 1).abortCmd q c.slot 0x10 0x0D := by
  simp [State.sendStart, h]

theorem State.sendStart_of_reachable (h : s.reaches (memMod (sendDest c.desc)) = true) :
    s.sendStart q c =
      ({ s with xfers := s.xfers ++ [s.sendXfer q c] }).sendPk c.part 0 (s.sendReqPacket (s.sendXfer q c)) none := by
  simp [State.sendStart, State.sendXfer, h]

theorem State.recvStart_eq (s : State) (q : Nat) (c : Cmd) :
    s.recvStart q c =
      ({ s with xfers := s.xfers ++ [s.recvWindow q c] }).matchReqs c.part (sendHandle c.desc) (s.reqs.length + 1) := rfl

theorem exec_linkSend {t : Task} (h : s.starts q slot opLINK_SEND c t) :
    exec (.linkSend q slot) s = .next ((s.begun q c t).sendStart q (s.begunCmd q c t)) :=
  congrArg _ (State.startCmd_eq h (by simp) rfl)

theorem exec_linkRecv {t : Task} (h : s.starts q slot opLINK_RECV c t) :
    exec (.linkRecv q slot) s = .next ((s.begun q c t).recvStart q (s.begunCmd q c t)) :=
  congrArg _ (State.startCmd_eq h (by simp) rfl)

/-! ### Repeated requests and the limit of a receive (R251, R252) -/

/-- A partition's requests that were turned away and whose time has come. -/
def State.dueSends (s : State) (p : Nat) : List XferX :=
  s.xfers.filter (fun x => x.part = p && x.send && x.phase = 3 && decide (x.retryT ≤ s.timeNow))

/-- A request turned away goes out again, and waits for its answer. -/
def State.repeatRequest (s : State) (p : Nat) (x : XferX) : State :=
  (s.putXfer x { x with phase := 1 }).sendPk p 0 (s.sendReqPacket x) none

/-- A partition's due requests sent again, before its READYs are. -/
def State.requestsRepeated (s : State) (p : Nat) : State := (s.dueSends p).foldl (fun s x => s.repeatRequest p x) s

theorem State.repeatRequest_colls (s : State) (p : Nat) (x : XferX) : (s.repeatRequest p x).colls = s.colls :=
  ((Within.of State.putXfer_ok).seq State.sendPk_ok).colls rfl

theorem State.requestsRepeated_of_early {p : Nat} (h : ∀ x ∈ s.xfers, x.part = p → x.send = true → x.phase = 3 → s.timeNow < x.retryT) :
    s.requestsRepeated p = s := by
  have hnone : s.dueSends p = [] := List.filter_eq_nil_iff.2 fun x hx => by simpa using h x hx
  rw [State.requestsRepeated, hnone, List.foldl_nil]

theorem State.requestsRepeated_of_single {p : Nat} {x : XferX} (h : s.xfers = [x]) (hp : x.part = p) (hs : x.send = true) (hph : x.phase = 3)
    (hdue : x.retryT ≤ s.timeNow) : s.requestsRepeated p = s.repeatRequest p x := by
  have hone : s.dueSends p = [x] := by simp [State.dueSends, h, hp, hs, hph, hdue]
  rw [State.requestsRepeated, hone, List.foldl_cons, List.foldl_nil]

/-- Where no collective has a READY to repeat, only the requests go out again. -/
theorem State.retrySends_of_no_ready {p : Nat} {u : State} (hu : s.requestsRepeated p = u)
    (h : ∀ c ∈ u.colls, c.part = p → c.retry ≠ [] → u.timeNow < c.retryT) : s.retrySends p = u := by
  subst hu
  have hnil : (s.requestsRepeated p).colls.filter (fun c => c.part = p && !c.retry.isEmpty &&
      decide (c.retryT ≤ (s.requestsRepeated p).timeNow)) = [] :=
    List.filter_eq_nil_iff.2 fun c hc => by simpa using h c hc
  unfold State.retrySends
  exact congrArg (List.foldl _ _) hnil

theorem State.recvTimeout_of_passed {t0 : Nat} {x : XferX} (hc : s.cmd? q slot = some c) (hop : dOpcode c.desc = opLINK_RECV)
    (hset : dField c.desc 0x60 32 ≠ 0) (hdone : c.done = false) (hstart : c.startT = some t0)
    (hpast : t0 + 1000 * dField c.desc 0x60 32 ≤ s.timeNow) (hx : s.xfers.find? (fun x => x.q = q && x.slot = slot) = some x) :
    s.recvTimeout q slot = (s.linkErr x.mod c.part 6).abortCmd q slot 0x10 0x0D := by
  simp [State.recvTimeout, hc, hop, hset, hdone, hstart, hpast, hx]

end

/-- Settles O35: the start of each side, the requests that are due again, and the limit of a receive, each stated once above. -/
theorem linkTransfersStart : Obligations.LinkTransfersStart := by
  intro s
  refine ⟨fun q slot c t => ⟨fun h hr => ?unreachable, fun h hr => ?reachable, fun h => ?window⟩, fun p hx hc => ?early,
    fun p x hx hp hs hph hdue hc => ?due,
    fun q slot c t0 hc hop hset hdone hstart hpast x hx => congrArg _ (State.recvTimeout_of_passed hc hop hset hdone hstart hpast hx)⟩
  case unreachable =>
    obtain rfl : c.slot = slot := (findCmd_spec h.1).1
    exact (exec_linkSend h).trans (congrArg _ (State.sendStart_of_unreachable hr))
  case reachable =>
    exact ⟨(s.begun q c t).sendXfer q (s.begunCmd q c t), rfl, (findCmd_spec h.1).1, rfl, rfl, rfl, rfl, rfl, rfl, rfl,
      (exec_linkSend h).trans (congrArg _ (State.sendStart_of_reachable hr))⟩
  case window =>
    exact ⟨(s.begun q c t).recvWindow q (s.begunCmd q c t), rfl, (findCmd_spec h.1).1, rfl, rfl, rfl, rfl, rfl,
      (exec_linkRecv h).trans (congrArg _ (State.recvStart_eq ..))⟩
  case early => exact congrArg _ (State.retrySends_of_no_ready (State.requestsRepeated_of_early hx) hc)
  case due =>
    exact congrArg _ (State.retrySends_of_no_ready (State.requestsRepeated_of_single hx hp hs hph hdue)
      (by simp [State.repeatRequest_colls, hc]))

end Sys2Proof.Machine
end

section
/-! Cridra links: their pages, training, flits in use, probes and the time tree, and the packets of a point-to-point transfer (spec/10). -/

namespace Sys2Proof.Machine

/-! ### The pages of the links (R237) -/

/-- Settles O58. -/
theorem linksHaveTheirPages : Obligations.LinksHaveTheirPages := by
  refine ⟨fun s => ?_, fun d k hk => ⟨?_, fun hd => ⟨assignedType_linkPage (by omega), linkOf_linkPage _⟩⟩⟩
  · unfold State.linkCount ioDies
    split <;> rfl
  · unfold linkPage
    congr 1 <;> omega

/-! ### Fields of LINK_STAT -/

/-- Two fields of one register that share no bit. -/
abbrev Fld.Beside (f g : Fld) : Prop := g.off = f.off ∧ f.lo ≤ f.hi ∧ g.hi < 64 ∧ (g.hi < f.lo ∨ f.hi < g.lo)

theorem State.fld_setFld_beside (s : State) (page bank v : Nat) {f g : Fld} (h : f.Beside g) :
    (s.setFld page bank f v).fld page bank g = s.fld page bank g := by
  obtain ⟨hoff, hf, hg, hd⟩ := h
  exact State.fld_setFld_ne s page bank v hoff hf hg hd

/-- A new state of the link is the only field of LINK_STAT that changes. -/
theorem State.fld_setLinkSt_beside (s : State) (n v : Nat) {g : Fld} (h : F.LINK_LINK_STAT_STATE.Beside g) :
    (s.setLinkSt n v).fld (linkPage n) 0 g = s.fld (linkPage n) 0 g := by
  have hkey : ∀ {o}, F.LINK_LINK_STAT_STATE.off ≠ o → rkey (linkPage n) 0 g.off ≠ rkey (linkPage n) 0 o := fun ho => h.1 ▸ rkey_off ho
  change (((s.setFld (linkPage n) 0 F.LINK_LINK_STAT_STATE v).setReg (linkPage n) 0 R.HDR_PROGRESS (1 + 65536 * 0)).setReg (linkPage n) 0
    R.HDR_PROGRESS_POS v).fld (linkPage n) 0 g = _
  rw [State.fld_setReg_ne _ _ (hkey (o := R.HDR_PROGRESS_POS) (by decide)), State.fld_setReg_ne _ _ (hkey (o := R.HDR_PROGRESS) (by decide)),
    State.fld_setFld_beside _ _ _ _ h]

theorem State.link_setFld (s : State) (page bank : Nat) (f : Fld) (v n : Nat) : (s.setFld page bank f v).link n = s.link n := rfl

theorem State.linkSt_emit (s : State) (k : OutKind) (a : List Nat) (d : List Byte) (n : Nat) : (s.emit k a d).linkSt n = s.linkSt n := rfl

theorem State.phaseT_setLinkSt (s : State) (n v : Nat) : ((s.setLinkSt n v).link n).phaseT = s.timeNow :=
  congrArg LinkX.phaseT (State.link_setLink ..)

/-! ### Training (R240) -/

section
variable {s : State} {n : Nat}

theorem State.partnerDetect_of_detect (hr : s.ready = true) (hn : n < s.linkCount) (h : s.linkSt n = 1) :
    s.partnerDetect n = (s.setLinkSt n 2).emit .partnerPulse [n] := by
  simp [State.partnerDetect, hr, hn, h]

/-- The counts of corrected symbols of all lanes, set to 0. -/
def State.symbolsCleared (s : State) (n : Nat) : State :=
  (List.range 4).foldl (fun s i => s.setReg (linkPage n) 0 (R.LINK_LANE_SYM_0 + 4 * i) 0) s

/-- The reach that training uses: the configured one, or the one that the loss of the lanes allows. -/
def State.reachUsed (s : State) (n : Nat) (lowLoss : Bool) : Nat :=
  if s.fld (linkPage n) 0 F.LINK_LINK_CFG_REACH = 1 then 1 else if s.fld (linkPage n) 0 F.LINK_LINK_CFG_REACH = 2 then 2
  else if lowLoss then 1 else 2

theorem State.trainConverge_full (h : s.linkSt n = 2) (low : Bool) :
    s.trainConverge n 0xF low = (((((s.setLinkSt n 3).symbolsCleared n).setFld (linkPage n) 0 F.LINK_LINK_STAT_REACH_USED (s.reachUsed n low)).setFld
      (linkPage n) 0 F.LINK_LINK_STAT_NARROWED 0).setFld (linkPage n) 0 F.LINK_LINK_STAT_WIDTH 2).setFld (linkPage n) 0 F.LINK_LINK_STAT_LANES 0xF := by
  unfold State.trainConverge
  rw [if_neg (not_not_intro h)]
  rfl

theorem State.linkSt_symbolsCleared (s : State) (n : Nat) : (s.symbolsCleared n).linkSt n = s.linkSt n := by
  unfold State.linkSt State.fld
  congr 1
  exact State.reg_foldl_ne _ (fun u i => State.reg_setReg_ne u _ (rkey_off (by simp only [F.LINK_LINK_STAT_STATE, R.LINK_LANE_SYM_0]; omega))) s

/-- After four lanes have converged the link is in ALIGN, at full width and not narrowed. -/
theorem State.trainConverge_full_spec (h : s.linkSt n = 2) (low : Bool) :
    (s.trainConverge n 0xF low).linkSt n = 3 ∧ (s.trainConverge n 0xF low).fld (linkPage n) 0 F.LINK_LINK_STAT_WIDTH = 2 ∧
      (s.trainConverge n 0xF low).fld (linkPage n) 0 F.LINK_LINK_STAT_LANES = 0xF ∧
      (s.trainConverge n 0xF low).fld (linkPage n) 0 F.LINK_LINK_STAT_NARROWED = 0 := by
  rw [State.trainConverge_full h low]
  generalize hu : (s.setLinkSt n 3).symbolsCleared n = u
  have hst : u.linkSt n = 3 := by rw [← hu, State.linkSt_symbolsCleared, State.linkSt_setLinkSt]
  refine ⟨?state, ?width, State.fld_setFld _ _ _ _ (by decide) (by decide), ?narrowed⟩
  case state =>
    unfold State.linkSt at hst ⊢
    iterate 4 rw [State.fld_setFld_beside _ _ _ _ (by decide)]
    exact hst
  case width =>
    rw [State.fld_setFld_beside _ _ _ _ (by decide)]
    exact State.fld_setFld _ _ _ _ (by decide) (by decide)
  case narrowed =>
    iterate 2 rw [State.fld_setFld_beside _ _ _ _ (by decide)]
    exact State.fld_setFld _ _ _ _ (by decide) (by decide)

theorem State.alignLock_of_align (h : s.linkSt n = 3) :
    s.alignLock n = ((s.setLinkSt n 4).ctrlMsg n [mIDENT, s.moduleId, n, s.variantCode, s.fld (linkPage n) 0 F.LINK_LINK_STAT_LANES]).startProbes n 0 :=
  if_neg (not_not_intro h)

theorem State.trainTimeout_of_passed {lim : Nat} (hl : s.trainLimit n = some lim) (hp : (s.link n).phaseT + lim ≤ s.timeNow) :
    s.trainTimeout n = s.trainFail n 1 := by
  simp [State.trainTimeout, hl, hp]

/-- A failed attempt that is not the third in a row is counted, and training begins again. -/
theorem State.trainFail_again (h : s.fld (linkPage n) 0 F.LINK_LINK_STAT_FAILS < 2) :
    s.trainFail n 1 = ((s.setFld (linkPage n) 0 F.LINK_LINK_STAT_FAILS (s.fld (linkPage n) 0 F.LINK_LINK_STAT_FAILS + 1)).setLinkSt n 1).setFld
      (linkPage n) 0 F.LINK_LINK_STAT_DOWN_CAUSE 0 := by
  have hmin : min 3 (s.fld (linkPage n) 0 F.LINK_LINK_STAT_FAILS + 1) = s.fld (linkPage n) 0 F.LINK_LINK_STAT_FAILS + 1 := by omega
  unfold State.trainFail
  dsimp only
  rw [hmin, if_neg (by omega)]
  rfl

theorem State.trainFail_again_spec (h : s.fld (linkPage n) 0 F.LINK_LINK_STAT_FAILS < 2) :
    (s.trainFail n 1).linkSt n = 1 ∧
      (s.trainFail n 1).fld (linkPage n) 0 F.LINK_LINK_STAT_FAILS = s.fld (linkPage n) 0 F.LINK_LINK_STAT_FAILS + 1 ∧
      ((s.trainFail n 1).link n).phaseT = s.timeNow := by
  rw [State.trainFail_again h]
  refine ⟨?state, ?fails, ?phase⟩
  case state =>
    unfold State.linkSt
    rw [State.fld_setFld_beside _ _ _ _ (by decide)]
    exact State.linkSt_setLinkSt ..
  case fails =>
    rw [State.fld_setFld_beside _ _ _ _ (by decide), State.fld_setLinkSt_beside _ _ _ (by decide), State.fld_setFld _ _ _ _ (by decide) (by decide)]
    exact Nat.mod_eq_of_lt (lt_of_lt_of_le (Nat.succ_lt_succ h) (by decide))
  case phase =>
    rw [State.link_setFld, State.phaseT_setLinkSt]
    rfl

end

/-- Settles O6: one rule for each state that training leaves. -/
theorem linkTrainingAdvances : Obligations.LinkTrainingAdvances := by
  intro s n
  refine ⟨fun hr hn h => ?detect, fun low h => ⟨_, rfl, State.trainConverge_full_spec h low⟩,
    fun h => congrArg Host.Outcome.next (State.alignLock_of_align h),
    fun lim hl hp hf => ⟨_, congrArg Host.Outcome.next (State.trainTimeout_of_passed hl hp), State.trainFail_again_spec hf⟩⟩
  case detect =>
    refine ⟨_, congrArg Host.Outcome.next (State.partnerDetect_of_detect hr hn h), (State.linkSt_emit ..).trans (State.linkSt_setLinkSt ..), ?_, rfl⟩
    rw [State.link_emit', State.phaseT_setLinkSt]

/-! ### A link in use (R242, R244, R321) -/

section
variable {s : State} {n : Nat}

/-- A flit that the error correction could not mend is counted and answered by a NAK. -/
theorem State.flitIn_damaged {f : Flit} (hn : n < s.linkCount) (hs : s.linkSt n = 4 ∨ s.linkSt n = 5) (hf : f.fecOk = false) :
    s.flitIn n f = ((s.countSymbols n f.symbols).bump (linkPage n) 0 R.LINK_LINK_FEC_UNCORR 1).sendNull n true := by
  unfold State.flitIn
  rw [if_neg (by rcases hs with h | h <;> simp [hn, h])]
  simp [hf]

/-- An intact flit that comes in its turn gives its credits and is delivered; then what waits goes out. -/
theorem State.flitIn_inOrder {f : Flit} (hn : n < s.linkCount) (hs : s.linkSt n = 4 ∨ s.linkSt n = 5) (hf : f.fecOk = true)
    (hcrc : f.crc.toNat = crc32c (flitBytes f)) (hack : f.ackValid = false) (hnak : f.nak = false) (ht : f.ftype = 1 ∨ f.ftype = 2)
    (hseq : f.seq = (((s.countSymbols n f.symbols).creditIn n f).link n).rxSeq) :
    s.flitIn n f = ((((s.countSymbols n f.symbols).creditIn n f).deliverFlit n f).pump n).endSends := by
  unfold State.flitIn
  rw [if_neg (by rcases hs with h | h <;> simp [hn, h])]
  simp [hf, hcrc, hack, hnak, ht, hseq]

theorem State.laneLoss_of_full {lane : Nat} (hu : s.linkUp n = true) (hl : lane < 4)
    (hb : (s.fld (linkPage n) 0 F.LINK_LINK_STAT_LANES).testBit lane = true) (hw : s.fld (linkPage n) 0 F.LINK_LINK_STAT_NARROWED ≠ 1) :
    s.laneLoss n lane = (s.ctrlMsg n [mNARROW, if lane < 2 then 1 else 0]).linkNarrow n (decide (lane < 2)) := by
  simp [State.laneLoss, State.narrowOrDown, hu, hl, hb, hw]

theorem State.narrowIn_of_full (hu : s.linkUp n = true) (hl : s.fld (linkPage n) 0 F.LINK_LINK_STAT_LANES = 0xF) (upper : Bool) :
    s.narrowIn n upper = s.linkNarrow n upper := by
  simp [State.narrowIn, hu, hl]

/-- A link's window that has run its time over enough flits, without too many retries, begins anew. -/
theorem State.windowEval_of_few_retries {page : Nat} (ht : assignedType page = .link) (hn : n = 16 * (pageDie page - 8) + pageUnit page)
    (hu : s.linkUp n = true) (htime : (s.link n).winT + s.reg pgPkgErr 0 R.ERR_ERR_WINDOW_S * 1000000000 ≤ s.timeNow)
    (hflits : 1000000000 ≤ (s.link n).winFlits)
    (hfew : (s.link n).winRetries * 1000000000000 ≤ s.reg pgPkgErr 0 R.ERR_LINK_RETRY_PPT * (s.link n).winFlits) :
    s.windowEval page = s.setLink n { s.link n with winT := s.timeNow, winFlits := 0, winRetries := 0 } := by
  subst hn
  unfold State.windowEval
  dsimp only
  rw [if_pos ht, if_neg (by simp [hu, htime, hflits]), if_neg (Nat.not_lt.2 hfew)]

end

/-- A damaged flit counts on its lanes and as uncorrectable, and changes nothing but registers and what is sent. -/
theorem State.damagedFlit_spec (s : State) (n : Nat) (l : List Nat) :
    let t := ((s.countSymbols n l).bump (linkPage n) 0 R.LINK_LINK_FEC_UNCORR 1).sendNull n true
    t.reg (linkPage n) 0 R.LINK_LINK_FEC_UNCORR = (s.reg (linkPage n) 0 R.LINK_LINK_FEC_UNCORR + 1) % 2 ^ 64 ∧
      (∀ i, i < 4 → t.reg (linkPage n) 0 (R.LINK_LANE_SYM_0 + 4 * i) =
        (s.reg (linkPage n) 0 (R.LINK_LANE_SYM_0 + 4 * i) + l.getD i 0) % 2 ^ 64) ∧
      t.reg (linkPage n) 0 R.LINK_LINK_FEC_CORR = (s.reg (linkPage n) 0 R.LINK_LINK_FEC_CORR + (l.take 4).sum) % 2 ^ 64 ∧
      t.links = s.links ∧ t.xfers = s.xfers ∧ t.hbm = s.hbm ∧ t.out = .flit n ((s.link n).mkFlit 0 0 0 false false true []) :: s.out := by
  obtain ⟨hlanes, huncorr, hcorr, hrest⟩ := s.countSymbols_spec n l
  generalize s.countSymbols n l = u at hlanes huncorr hcorr hrest ⊢
  have hkey : ∀ {o}, o ≠ R.LINK_LINK_FEC_UNCORR → (u.bump (linkPage n) 0 R.LINK_LINK_FEC_UNCORR 1).reg (linkPage n) 0 o = u.reg (linkPage n) 0 o :=
    fun h => State.reg_bump_ne u 1 (rkey_off h)
  refine ⟨huncorr ▸ State.reg_setReg .., fun i hi => (hkey ?_).trans (hlanes i hi), (hkey (by decide)).trans hcorr, ?_⟩
  · simp only [R.LINK_LANE_SYM_0, R.LINK_LINK_FEC_UNCORR]; omega
  · rw [hrest]
    exact ⟨rfl, rfl, rfl, rfl⟩

/-- Settles O7: one rule for each event of a link in use. The code of the pair that NARROW carries is DESIGN CHOICE log 50. -/
theorem linkInUse : Obligations.LinkInUse := by
  intro s n
  refine ⟨fun f hn hs hf => ⟨_, congrArg Host.Outcome.next (State.flitIn_damaged hn hs hf), s.damagedFlit_spec n f.symbols⟩,
    fun f hn hs hf hcrc hack hnak ht hseq => congrArg Host.Outcome.next (State.flitIn_inOrder hn hs hf hcrc hack hnak ht hseq),
    fun lane hu hl hb hw => congrArg Host.Outcome.next (State.laneLoss_of_full hu hl hb hw),
    fun upper hu hl => congrArg Host.Outcome.next (State.narrowIn_of_full hu hl upper),
    fun page ht hn hu htime hflits hfew => congrArg Host.Outcome.next (State.windowEval_of_few_retries ht hn hu htime hflits hfew)⟩

/-! ### Probes and the time tree (R260 to R262) -/

section
variable {s : State} {n : Nat}

theorem State.probeIn_of_carrying (hs : s.linkSt n = 4 ∨ s.linkSt n = 5) (num t1 : Nat) :
    s.probeIn n num t1 = s.linksWake.ctrlMsg n [mPROBE_RESP, num, t1, s.timeNow, s.timeNow] :=
  if_pos (by simpa using hs)

/-- The answer to probe `num` of a run, with its round trip and offset: the shortest round trip is kept with its offset (R260). -/
def LinkX.answered (l : LinkX) (num t1 now rtt : Nat) (off : Int) : LinkX :=
  let better := l.answers = 0 || decide (rtt < l.bestRtt)
  { l with
    probes := l.probes.filter (fun x => x ≠ (num, t1))
    answers := l.answers + 1
    bestRtt := if better then rtt else l.bestRtt
    bestOff := if better then off else l.bestOff
    usedT := now }

/-- An answer to a probe that waits, before the sixteenth. -/
theorem State.probeAnswer_of_waiting {num t1 : Nat} (hs : s.linkSt n = 4 ∨ s.linkSt n = 5) (hw : (num, t1) ∈ (s.link n).probes)
    (ha : (s.link n).answers < 15) (t2 t3 : Nat) :
    s.probeAnswer n num t1 t2 t3 = s.setLink n ((s.link n).answered num t1 s.timeNow ((s.timeNow - t1 : Int) - (t3 - t2)).toNat
      (((t2 - t1 : Int) + (t3 - s.timeNow)).tdiv 2)) := by
  have hwait : ((s.linkSt n ≠ 4 && s.linkSt n ≠ 5) || !(s.link n).probes.contains (num, t1)) = false := by
    rcases hs with h | h <;> simp [h, hw]
  unfold State.probeAnswer
  dsimp only
  rw [hwait, if_neg Bool.false_ne_true, if_neg (by omega)]
  rfl

theorem LinkX.not_mem_answered (l : LinkX) (num t1 now rtt : Nat) (off : Int) : (num, t1) ∉ (l.answered num t1 now rtt off).probes := by
  simp [LinkX.answered]

theorem LinkX.answered_better {l : LinkX} {rtt : Nat} (h : l.answers = 0 ∨ rtt < l.bestRtt) (num t1 now : Nat) (off : Int) :
    (l.answered num t1 now rtt off).bestRtt = rtt ∧ (l.answered num t1 now rtt off).bestOff = off := by
  simp [LinkX.answered, h]

theorem LinkX.answered_worse {l : LinkX} {rtt : Nat} (h : ¬ (l.answers = 0 ∨ rtt < l.bestRtt)) (num t1 now : Nat) (off : Int) :
    (l.answered num t1 now rtt off).bestRtt = l.bestRtt ∧ (l.answered num t1 now rtt off).bestOff = l.bestOff := by
  simp [LinkX.answered, h]

theorem State.probeTick_of_due (hs : s.linkSt n = 4 ∨ s.linkSt n = 5) (h0 : 0 < (s.link n).probeNum) (h16 : (s.link n).probeNum < 16)
    (ht : (s.link n).probeT + 10000 ≤ s.timeNow) : s.probeTick n = s.sendProbe n :=
  if_pos (by simp only [h0, h16, ht, and_self, decide_true, Bool.and_true]; simpa using hs)

/-- IDENT with all lanes from another module: the peer is recorded, and the link keeps its lanes (R240). -/
theorem State.identIn_of_peer {peer : Nat} (hs : s.linkSt n = 4) (hp : peer ≠ s.moduleId) (peerLink : Nat) :
    s.identIn n peer peerLink 0xF = (((s.setReg (linkPage n) 0 R.LINK_PEER_ID (peer % 2 ^ 14 + 2 ^ 14 * (peerLink % 128) + 2 ^ 31)).updLink n
      (fun l => { l with identDone := true })).tryUp n) := by
  simp [State.identIn, hs, hp]

theorem State.timeTree_of_root (hu : s.linkUp n = true) (hr : s.isRoot = true) (root hops : Nat) (off : Int) :
    s.timeTree n root hops off = s.updLink n (fun l => { l with tree := some (root, hops, off) }) := by
  have hroot : (s.updLink n (fun l => { l with tree := some (root, hops, off) })).isRoot = true := hr
  simp [State.timeTree, hu, hroot]

theorem State.driftProbe_of_due (hr : s.isRoot = false) (he : s.timeFld F.TIME_TIME_STATUS_EPOCH ≠ 0) (hu : s.linkUp s.timeParent = true)
    (ht : s.timeX.lastT + 1000000000 ≤ s.timeNow) : s.driftProbe = s.startProbes s.timeParent 1 :=
  if_neg (by simp [hr, he, hu, ht])

end

/-- Settles O8: one rule for each message of link time. -/
theorem linkTimeIsMeasured : Obligations.LinkTimeIsMeasured := by
  intro s n
  refine ⟨fun num t1 hs => congrArg Host.Outcome.next (State.probeIn_of_carrying hs ..), fun num t1 t2 t3 hs hw ha => ?answer,
    fun hs h0 h16 ht => congrArg Host.Outcome.next (State.probeTick_of_due hs h0 h16 ht),
    fun peer peerLink variant hs hp _ => congrArg Host.Outcome.next (State.identIn_of_peer hs hp peerLink), fun root hops off hu hr => ?tree,
    fun hr he hu ht => congrArg Host.Outcome.next (State.driftProbe_of_due hr he hu ht)⟩
  case answer =>
    refine ⟨_, congrArg Host.Outcome.next (State.probeAnswer_of_waiting hs hw ha ..), ?_⟩
    rw [State.link_setLink]
    exact ⟨rfl, LinkX.not_mem_answered _ _ _ _ _ _, fun h => LinkX.answered_better h .., fun h => LinkX.answered_worse h .., rfl⟩
  case tree =>
    exact ⟨_, congrArg Host.Outcome.next (State.timeTree_of_root hu hr ..), congrArg LinkX.tree (State.link_setLink ..), rfl⟩

/-! ### The packets of a transfer (R251, R252) -/

/-- A command that brings a packet does to the state in which the packet arrives what its kind says. -/
theorem State.deliver_acts {s u : State} {die : Nat} {pk : Packet} {k : State → State} (h : s.takesPacket die pk = true)
    (hk : k (s.arrived die pk) = u) : (.next (s.deliver die pk k) : Result) = .next u := by
  rw [State.deliver_taken h, hk]

section
variable {w : State} {pk : Packet} {x : XferX}

theorem State.matchReqs_of_no_window {p handle : Nat} (h : w.openWindows p handle = []) (fuel : Nat) : w.matchReqs p handle fuel = w := by
  cases fuel with
  | zero => rfl
  | succ k => simp [State.matchReqs, h]

/-- A request that finds room but no window waits for one. -/
theorem State.reqIn_of_no_window (hsnap : w.snapRequest pk = false) (hroom : (w.reqs.filter (fun r => r.part = pk.destPart)).length < 1024)
    (hnone : w.openWindows pk.destPart pk.key.toNat = []) (die : Nat) :
    w.reqIn die pk = { w with reqs := w.reqs ++ [{ part := pk.destPart, die := die, pk := pk }] } := by
  unfold State.reqIn
  dsimp only
  rw [hsnap, if_neg Bool.false_ne_true, if_neg (Nat.not_le.2 hroom)]
  exact State.matchReqs_of_no_window
    (w := { w with reqs := w.reqs ++ [{ part := pk.destPart, die := die, pk := pk }] }) hnone _

theorem State.clearIn_of_some (h : w.sendOf pk 1 = some x) : w.clearIn pk = w.sendData x := by
  rw [State.clearIn, h]

/-- An exchange that is listed is replaced. -/
theorem State.mem_putXfer (h : x ∈ w.xfers) (y : XferX) : y ∈ (w.putXfer x y).xfers :=
  List.mem_map.2 ⟨x, h, if_pos rfl⟩

/-- Data for a window whose command is gone is counted, and lands nowhere. -/
theorem State.dataIn_of_no_cmd (h : w.windowOf pk = some x) (hs : x.snap = false) (hc : w.cmd? x.q x.slot = none) :
    w.dataIn pk = w.putXfer x { x with got := x.got + pk.data.length } := by
  have hcmd : (w.putXfer x { x with got := x.got + pk.data.length }).cmd? x.q x.slot = none := hc
  unfold State.dataIn
  rw [h]
  dsimp only
  rw [if_neg (ne_true_of_eq_false hs), hcmd]

/-- Data that does not complete its window lands at its position. -/
theorem State.dataIn_of_open {c : Cmd} (h : w.windowOf pk = some x) (hs : x.snap = false) (hc : w.cmd? x.q x.slot = some c)
    (hlen : x.got + pk.data.length < x.len) :
    w.dataIn pk = (((((w.putXfer x { x with got := x.got + pk.data.length }).putAt x.part ((Form.ofCmd c x.q false).td 2) pk.pos.toNat pk.data).meter
      x.part R.METER_HBM_BYTES pk.data.length).updCmd x.q x.slot (fun c => { c with wrote := true, pos := x.got + pk.data.length })).progressed
        x.q c.task) := by
  have hcmd : (w.putXfer x { x with got := x.got + pk.data.length }).cmd? x.q x.slot = some c := hc
  unfold State.dataIn
  rw [h]
  dsimp only
  rw [if_neg (ne_true_of_eq_false hs), hcmd]
  exact if_neg (Nat.not_le.2 hlen)

/-- A cancel that concerns no exchange takes the sender's waiting requests away. -/
theorem State.cancelIn_of_request (hw : w.windowOf pk = none)
    (hs : ∀ x ∈ w.xfers, ¬ (x.send = true ∧ x.part = pk.destPart ∧ x.mod = pk.srcMod ∧ x.handle = pk.key.toNat)) :
    w.cancelIn pk = { w with reqs := w.reqs.filter (fun r => !(r.part = pk.destPart && r.pk.srcMod = pk.srcMod && r.pk.key = pk.key)) } := by
  have hnone : w.xfers.find? (fun x => x.send && x.part = pk.destPart && x.mod = pk.srcMod && x.handle = pk.key.toNat) = none :=
    List.find?_eq_none.2 fun x hx => by simpa [and_assoc] using hs x hx
  rw [State.cancelIn, hw]
  dsimp only
  rw [hnone]

theorem State.rejectIn_of_some
    (h : w.xfers.find? (fun x => x.send && x.part = pk.destPart && x.mod = pk.srcMod && x.handle = pk.key.toNat) = some x) :
    w.rejectIn pk = w.freshen.xferFail x (2 + w.freeVal.toNat % 3) := by
  rw [State.rejectIn, h]

theorem State.busyIn_of_some (h : w.sendOf pk 1 = some x) :
    w.busyIn pk = w.putXfer x { x with phase := 3, retryT := w.timeNow + 10000 } := by
  rw [State.busyIn, h]

end

/-- Settles O11: the rule of each packet in the state in which it arrives. The reason of a rejected LINK_SEND is free: the answer does not carry it
(DESIGN CHOICE log 58). -/
theorem transferPacketsAct : Obligations.TransferPacketsAct := by
  intro s die pk htake
  have hW := s.arrived_within die pk
  refine ⟨fun hsnap hroom hnone => ?request, fun x hx => State.deliver_acts htake (State.clearIn_of_some hx), fun x hx hs hc => ?stray,
    fun x c hx hs hc hlen => State.deliver_acts htake (State.dataIn_of_open hx hs hc hlen), fun hw hs => ?cancel,
    fun x hx => State.deliver_acts htake (State.rejectIn_of_some hx), fun x hx => ?busy⟩
  case request =>
    exact ⟨_, State.deliver_acts htake (State.reqIn_of_no_window hsnap hroom hnone die), congrArg (· ++ _) (hW.reqs rfl), hW.out rfl,
      hW.queues rfl, hW.hbm rfl⟩
  case stray =>
    exact ⟨_, State.deliver_acts htake (State.dataIn_of_no_cmd hx hs hc), State.mem_putXfer (List.mem_of_find?_eq_some hx) _, hW.hbm rfl⟩
  case cancel =>
    refine ⟨_, State.deliver_acts htake (State.cancelIn_of_request hw (hW.xfers rfl ▸ hs)), fun r hr => ?_, hW.queues rfl, hW.hbm rfl⟩
    simpa [or_assoc, imp_iff_not_or] using (List.mem_filter.1 hr).2
  case busy =>
    have ht : (s.arrived die pk).timeNow = s.timeNow := hW.timeNow rfl
    exact ⟨_, State.deliver_acts htake (State.busyIn_of_some hx), ht ▸ State.mem_putXfer (List.mem_of_find?_eq_some hx) _, hW.queues rfl⟩

end Sys2Proof.Machine
end

section
/-! Memories and meters of partitions (spec/11): which commands leave every byte alone, bytes written and read back, budget windows, and the
attribution of energy. -/

namespace Sys2Proof.Machine

/-! ### Commands that store nothing -/

/-- Settles O47: the memories are fields that a command of this class keeps. -/
theorem memoryIsSpared : Obligations.MemoryIsSpared := by
  intro c s t hc h
  obtain ⟨W, hW, hm⟩ := exec_keeps h
  obtain ⟨-, -, -, -, -, -, hspare, -⟩ := mayChange_iff.1 hm
  have kept : ∀ {i}, memoryKeeps.testBit i = true → W.testBit i = false := not_testBit_of_disjoint (hspare hc)
  exact ⟨fun a => congrArg (mget 0 · a) (hW.hbm (kept rfl)), fun a => congrArg (mget 0 · a) (hW.host (kept rfl)),
    fun a => congrArg (mget 0xFF · a) (hW.flash (kept rfl)), hW.hbmBad (kept rfl)⟩

/-! ### Runs of bytes in a memory -/

theorem mget_msetBytes_outside {d : Byte} {m : List Host.Cell} {a c : Nat} {l : List Byte} (h : c < a ∨ a + l.length ≤ c) :
    mget d (msetBytes d m a l) c = mget d m c := by
  induction l generalizing m a with
  | nil => rfl
  | cons b r ih =>
    rw [List.length_cons] at h
    rw [msetBytes, ih (by omega), mget_mset_ne b (by omega)]

theorem mgetBytes_msetBytes {d : Byte} {m : List Host.Cell} (h : Memory.wf d m = true) (a : Nat) (l : List Byte) :
    mgetBytes d (msetBytes d m a l) a l.length = l := by
  induction l generalizing m a with
  | nil => rfl
  | cons b r ih =>
    rw [msetBytes, List.length_cons, mgetBytes, ih (wf_mset h a b), mget_msetBytes_outside (.inl (Nat.lt_succ_self a)), mget_mset_self h]

/-- A run of addresses is read as a run of a memory where each address reads as a byte of it. -/
theorem State.rdBytes_eq_mgetBytes {s : State} {p a k n : Nat} {m : List Host.Cell} (h : ∀ i, i < n → s.rd1 p (a + i) = mget 0 m (k + i)) :
    s.rdBytes p a n = mgetBytes 0 m k n := by
  induction n generalizing a k with
  | zero => rfl
  | succ n ih =>
    have hhead : s.rd1 p a = mget 0 m k := h 0 n.succ_pos
    have htail : ∀ i, i < n → s.rd1 p (a + 1 + i) = mget 0 m (k + 1 + i) := fun i hi => by
      rw [Nat.add_right_comm a, Nat.add_right_comm k]; exact h (i + 1) (Nat.succ_lt_succ hi)
    rw [State.rdBytes, mgetBytes, hhead, ih htail]

/-! ### Address words of host memory (R189) -/

section
variable {s : State} {p a : Nat}

theorem isHost_of_ge (h : 2 ^ 63 ≤ a) : isHost a = true := decide_eq_true h

theorem isHost_of_lt (h : a < 2 ^ 63) : isHost a = false := decide_eq_false (Nat.not_le.2 h)

/-- Within the addresses of host memory a partition's keys run as the address words do. -/
theorem hostKey_add (p : Nat) {n : Nat} (h : 2 ^ 63 ≤ a) (hn : a + n < 2 ^ 64) : hostKey p (a + n) = hostKey p a + n := by
  unfold hostKey; omega

theorem State.rd1_host (h : 2 ^ 63 ≤ a) : s.rd1 p a = mget 0 s.host (hostKey p a) := by
  rw [State.rd1, if_pos (isHost_of_ge h)]

theorem State.wr1_host (h : 2 ^ 63 ≤ a) (b : Byte) : s.wr1 p a b = { s with host := mset 0 s.host (hostKey p a) b } := by
  rw [State.wr1, if_pos (isHost_of_ge h)]

theorem State.wrBytesRaw_host {k : Nat} {l : List Byte} (h : 2 ^ 63 ≤ a) (hk : ∀ i, i < l.length → hostKey p (a + i) = k + i) :
    s.wrBytesRaw p a l = { s with host := msetBytes 0 s.host k l } := by
  induction l generalizing s a k with
  | nil => rfl
  | cons b r ih =>
    have hhead : hostKey p a = k := hk 0 r.length.succ_pos
    rw [State.wrBytesRaw, State.wr1_host h, hhead, msetBytes]
    exact ih (Nat.le_succ_of_le h) fun i hi => by simpa [Nat.add_right_comm, ← Nat.add_assoc] using hk (i + 1) (Nat.succ_lt_succ hi)

theorem State.host_wrBytes_host {l : List Byte} (h : 2 ^ 63 ≤ a) (hl : a + l.length ≤ 2 ^ 64) :
    (s.wrBytes p a l).host = msetBytes 0 s.host (hostKey p a) l := by
  rw [State.wrBytes, State.wrBytesRaw_host h fun i hi => hostKey_add p h (by omega)]

theorem State.hbm_wrBytes_host {l : List Byte} (h : 2 ^ 63 ≤ a) (hl : a + l.length ≤ 2 ^ 64) : (s.wrBytes p a l).hbm = s.hbm := by
  rw [State.wrBytes, State.wrBytesRaw_host h fun i hi => hostKey_add p h (by omega)]

end

/-! ### Addresses of partition 0's memory (R267, R268) -/

section
variable {s : State} {a : Nat}

/-- Partition 0's addresses are physical ones. -/
theorem State.hbmPhys_zero (h : (s.hbmPhys 0 a).isSome = true) : s.hbmPhys 0 a = some a := by
  rw [State.hbmPhys, if_pos rfl] at h ⊢
  split at h
  · next hin => rw [if_pos hin]
  · cases h

theorem State.rd1_hbm (ha : a < 2 ^ 63) (h : (s.hbmPhys 0 a).isSome = true) : s.rd1 0 a = mget 0 s.hbm a := by
  rw [State.rd1, isHost_of_lt ha, State.hbmPhys_zero h]; rfl

theorem State.rd1_outside (ha : a < 2 ^ 63) (h : (s.hbmPhys 0 a).isSome = false) : s.rd1 0 a = 0 := by
  have hnone : s.hbmPhys 0 a = none := by simpa using h
  rw [State.rd1, isHost_of_lt ha, hnone]; rfl

theorem State.wr1_hbm (ha : a < 2 ^ 63) (h : (s.hbmPhys 0 a).isSome = true) (b : Byte) : s.wr1 0 a b = { s with hbm := mset 0 s.hbm a b } := by
  rw [State.wr1, isHost_of_lt ha, State.hbmPhys_zero h]; rfl

theorem State.wrBytesRaw_hbm {l : List Byte} (hl : a + l.length ≤ 2 ^ 63) (h : ∀ i, i < l.length → (s.hbmPhys 0 (a + i)).isSome = true) :
    s.wrBytesRaw 0 a l = { s with hbm := msetBytes 0 s.hbm a l } := by
  induction l generalizing s a with
  | nil => rfl
  | cons b r ih =>
    have hhead : (s.hbmPhys 0 a).isSome = true := h 0 r.length.succ_pos
    rw [List.length_cons] at hl
    rw [State.wrBytesRaw, State.wr1_hbm (by omega) hhead, msetBytes]
    refine ih (by omega) fun i hi => ?_
    change (s.hbmPhys 0 (a + 1 + i)).isSome = true
    rw [Nat.add_right_comm]
    exact h (i + 1) (Nat.succ_lt_succ hi)

theorem State.hbm_wrBytes_hbm {l : List Byte} (hl : a + l.length ≤ 2 ^ 63) (h : ∀ i, i < l.length → (s.hbmPhys 0 (a + i)).isSome = true) :
    (s.wrBytes 0 a l).hbm = msetBytes 0 s.hbm a l := by
  rw [State.wrBytes, State.wrBytesRaw_hbm hl h]

theorem State.host_wrBytes_hbm {l : List Byte} (hl : a + l.length ≤ 2 ^ 63) (h : ∀ i, i < l.length → (s.hbmPhys 0 (a + i)).isSome = true) :
    (s.wrBytes 0 a l).host = s.host := by
  rw [State.wrBytes, State.wrBytesRaw_hbm hl h]

/-- Where a partition's addresses lie depends on the variant, the registers and the table of partitions. -/
theorem State.hbmPhys_congr {t : State} (hn : t.n8 = s.n8) (hr : t.regs = s.regs) (hp : t.parts = s.parts) (p a : Nat) :
    t.hbmPhys p a = s.hbmPhys p a := by
  have hseg : t.segments = s.segments := funext fun p => by simp only [State.segments, State.reg_congr hr]
  have hpart : t.part = s.part := funext (State.part_congr hp)
  rw [State.hbmPhys, State.hbmPhys, State.reservedBy, State.reservedBy, State.partNums, State.partNums, hn, hp, hseg, hpart]

/-- A write of bytes moves no address. -/
theorem State.hbmPhys_wrBytes (p a : Nat) (l : List Byte) (q b : Nat) : (s.wrBytes p a l).hbmPhys q b = s.hbmPhys q b :=
  have hW : Within 0x580 s (s.wrBytes p a l) := .of State.wrBytes_ok
  State.hbmPhys_congr (hW.n8 rfl) (hW.regs rfl) (hW.parts rfl) q b

theorem State.rd1_congr {t : State} (hphys : t.hbmPhys 0 a = s.hbmPhys 0 a) (hhost : t.host = s.host) (hbyte : mget 0 t.hbm a = mget 0 s.hbm a) :
    t.rd1 0 a = s.rd1 0 a := by
  rcases Nat.lt_or_ge a (2 ^ 63) with ha | ha
  · cases h : (s.hbmPhys 0 a).isSome with
    | true => rw [State.rd1_hbm ha h, State.rd1_hbm ha (by rw [hphys, h]), hbyte]
    | false => rw [State.rd1_outside ha h, State.rd1_outside ha (by rw [hphys, h])]
  · rw [State.rd1_host ha, State.rd1_host ha, hhost]

end

/-- Settles O44: a run of address words of partition 0's memory, or of a partition's host memory, is written and read as a run of one memory. That
the module reads back the host's memory as it wrote it rests on DESIGN CHOICE log 4. -/
theorem writtenBytesReadBack : Obligations.WrittenBytesReadBack := by
  intro s p a l hhbm hhost
  refine ⟨fun hin hl => ?hbm, fun ha hl => ?host⟩
  case hbm =>
    have hmem := State.hbm_wrBytes_hbm hl hin
    constructor
    · have hread : ∀ i, i < l.length → (s.wrBytes 0 a l).rd1 0 (a + i) = mget 0 (msetBytes 0 s.hbm a l) (a + i) := fun i hi => by
        rw [State.rd1_hbm (by omega) (by rw [State.hbmPhys_wrBytes]; exact hin i hi), hmem]
      exact (State.rdBytes_eq_mgetBytes hread).trans (mgetBytes_msetBytes hhbm a l)
    · intro b hb
      exact State.rd1_congr (State.hbmPhys_wrBytes ..) (State.host_wrBytes_hbm hl hin) (by rw [hmem, mget_msetBytes_outside hb])
  case host =>
    have hmem := State.host_wrBytes_host (s := s) (p := p) ha hl
    refine ⟨?_, State.hbm_wrBytes_host ha hl, fun b hb hb' hout => ?_⟩
    · have hread : ∀ i, i < l.length → (s.wrBytes p a l).rd1 p (a + i) =
          mget 0 (msetBytes 0 s.host (hostKey p a) l) (hostKey p a + i) := fun i hi => by
        rw [State.rd1_host (by omega), hostKey_add p ha (by omega), hmem]
      exact (State.rdBytes_eq_mgetBytes hread).trans (mgetBytes_msetBytes hhost _ l)
    · rw [State.rd1_host hb, State.rd1_host hb, hmem]
      exact mget_msetBytes_outside (by unfold hostKey; omega)

/-! ### Budget windows (R281) -/

/-- A value of every entry of a table passed through a function. -/
theorem sget_map_snd {α β : Type} (f : α → β) (m : Store α) (k : Nat) : sget (m.map fun e => (e.1, f e.2)) k = (sget m k).map f := by
  induction m with
  | nil => rfl
  | cons e r ih =>
    simp only [List.map_cons, sget]
    split
    · rfl
    · exact ih

/-- The length of a budget window in nanoseconds. -/
def State.windowLen (s : State) : Nat := 1000000000 * max 1 (s.reg pgPartition 0 R.PARTITION_BUDGET_WINDOW_S)

/-- A partition's state with its pool use at 0. -/
def PartX.unused (x : PartX) : PartX := { x with usedNs := 0 }

/-- A new budget window before any free cluster is granted: every partition's pool use is 0, and a running pool
task's time counts from the window's start. -/
def State.windowBegun (s : State) : State :=
  { s with
    adm := { s.adm with window := s.timeNow / s.windowLen }
    parts := s.parts.map (fun e => (e.1, e.2.unused))
    queues := s.queues.map (fun e => (e.1, { e.2 with tasks := e.2.tasks.map (fun t =>
      if t.cluster.isSome then { t with poolMark := max t.poolMark (s.timeNow / s.windowLen * s.windowLen) } else t) })) }

section
variable {s : State}

theorem State.budgetWindow_of_new (hr : s.ready = true) (hw : s.timeNow / s.windowLen ≠ s.adm.window) :
    s.budgetWindow = s.windowBegun.freePool.foldl State.poolGrant s.windowBegun := by
  rw [State.windowLen] at hw
  simp only [State.budgetWindow, hr, hw, Bool.not_true, Bool.false_or, decide_false, Bool.false_eq_true, if_false]
  rfl

theorem State.usedNs_windowBegun (p : Nat) : (s.windowBegun.part p).usedNs = 0 := by
  have hget : sget s.windowBegun.parts p = (sget s.parts p).map PartX.unused := sget_map_snd PartX.unused s.parts p
  rw [State.part, hget]
  cases sget s.parts p <;> rfl

theorem State.partNums_windowBegun : s.windowBegun.partNums = s.partNums := by
  simp only [State.partNums_eq, State.windowBegun, PartX.unused, List.map_map, Function.comp_def]

/-- Which pool clusters are free is said by the registers, the clusters, their control cores and the numbers of the partitions. -/
theorem State.freePool_windowBegun : s.windowBegun.freePool = s.freePool := by
  have howner : s.windowBegun.clusterOwner = s.clusterOwner := funext fun g => by
    rw [State.clusterOwner, State.clusterOwner, State.partNums_windowBegun]; rfl
  have hpool : s.windowBegun.poolClusters = s.poolClusters := by
    rw [State.poolClusters, State.poolClusters, howner]; rfl
  rw [State.freePool, State.freePool, hpool]; rfl

theorem State.adm_poolStart (p q tid g : Nat) (kept : Bool) : (s.poolStart p q tid g kept).adm = s.adm :=
  (Within.of (s := s) State.poolStart_ok).adm rfl

/-- A grant moves the cursors of the classes, not the window. -/
theorem State.window_poolVisit (cls g fuel : Nat) : (s.poolVisit cls g fuel).adm.window = s.adm.window := by
  induction fuel generalizing s with
  | zero => rfl
  | succ fuel ih =>
    unfold State.poolVisit
    dsimp only
    split
    · rfl
    · split
      · split
        · rw [State.adm_poolStart]; rfl
        · rfl
      · rw [ih]; rfl

theorem State.window_poolGrant (g : Nat) : (s.poolGrant g).adm.window = s.adm.window := by
  unfold State.poolGrant
  split
  · exact State.window_poolVisit ..
  · rfl

theorem State.window_foldl_poolGrant (l : List Nat) : (l.foldl State.poolGrant s).adm.window = s.adm.window := by
  induction l generalizing s with
  | nil => rfl
  | cons g r ih => rw [List.foldl_cons, ih, State.window_poolGrant]

end

/-! ### Energy (R288, R390) -/

section
variable {s : State} {mj : Nat}

theorem State.attribute_of_stopped (hr : s.ready = true) (hp : s.pkgStopped = true) :
    s.attribute mj = { s.bump pgMeter 0 R.METER_ENERGY_TOTAL_MJ mj with adm := { s.adm with energyOwed := s.adm.energyOwed + mj } } := by
  have hp' : (s.bump pgMeter 0 R.METER_ENERGY_TOTAL_MJ mj).pkgStopped = true := hp
  have hr' : (s.bump pgMeter 0 R.METER_ENERGY_TOTAL_MJ mj).ready = true := hr
  simp only [State.attribute, hr', hp', Bool.not_true, Bool.false_eq_true, if_false, if_true]
  rfl

/-- Partition 0 takes all that no tenant receives, and alone it takes everything. -/
theorem State.attribute_of_alone (hr : s.ready = true) (hp : s.pkgStopped = false) (halone : s.partNums = [0]) :
    s.attribute mj = { (s.bump pgMeter 0 R.METER_ENERGY_TOTAL_MJ mj).creditEnergy 0 (1000000 * (mj + s.adm.energyOwed)) with
      fresh := s.fresh + 1, adm := { s.adm with energyT := s.timeNow, energyOwed := 0 } } := by
  have hp' : (s.bump pgMeter 0 R.METER_ENERGY_TOTAL_MJ mj).pkgStopped = false := hp
  have hr' : (s.bump pgMeter 0 R.METER_ENERGY_TOTAL_MJ mj).ready = true := hr
  have halone' : (s.bump pgMeter 0 R.METER_ENERGY_TOTAL_MJ mj).partNums = [0] := halone
  simp only [State.attribute, hr', hp', halone', Bool.not_true, Bool.false_eq_true, if_false, dynShares, List.map_cons, List.map_nil]
  rfl

theorem State.reg_creditEnergy_total (p nj : Nat) :
    (s.creditEnergy p nj).reg pgMeter 0 R.METER_ENERGY_TOTAL_MJ = s.reg pgMeter 0 R.METER_ENERGY_TOTAL_MJ :=
  State.reg_bump_ne _ _ (rkey_ne_of_off_ne (by decide) (by decide) (by decide))

theorem State.reg_creditEnergy_own (p nj : Nat) :
    (s.creditEnergy p nj).reg pgMeter p R.METER_ENERGY_MJ = (s.reg pgMeter p R.METER_ENERGY_MJ + (nj + (s.part p).energyRem) / 1000000) % 2 ^ 64 :=
  State.reg_setReg ..

theorem State.energyRem_creditEnergy (p nj : Nat) : ((s.creditEnergy p nj).part p).energyRem = (nj + (s.part p).energyRem) % 1000000 := by
  rw [State.creditEnergy, State.updPart, State.part_setPart]

end

/-- Settles O31: the state in which a window begins, and the two ways of an energy measurement. That a bandwidth interval changes nothing rests on
DEDUCED log 88. -/
theorem metersAct : Obligations.MetersAct := by
  intro s
  refine ⟨fun hr hw => ?window, fun mj hr => ⟨fun hp => ?owed, fun hp halone => ?alone⟩, rfl⟩
  case window =>
    refine ⟨_, congrArg Host.Outcome.next (State.budgetWindow_of_new hr hw), State.window_foldl_poolGrant _, fun hfree => ?_⟩
    rw [State.freePool_windowBegun, hfree]
    exact ⟨State.usedNs_windowBegun, rfl, rfl⟩
  case owed =>
    exact ⟨_, congrArg Host.Outcome.next (State.attribute_of_stopped hr hp), rfl, rfl, State.reg_setReg ..⟩
  case alone =>
    have hown : (s.bump pgMeter 0 R.METER_ENERGY_TOTAL_MJ mj).reg pgMeter 0 R.METER_ENERGY_MJ = s.reg pgMeter 0 R.METER_ENERGY_MJ :=
      State.reg_bump_ne _ _ (rkey_ne_of_off_ne (by decide) (by decide) (by decide))
    exact ⟨_, congrArg Host.Outcome.next (State.attribute_of_alone hr hp halone), rfl, rfl,
      (State.reg_creditEnergy_total ..).trans (State.reg_setReg ..), hown ▸ State.reg_creditEnergy_own ..,
      State.energyRem_creditEnergy .., rfl, rfl⟩

end Sys2Proof.Machine
end

section
/-! The host link and attestation (spec/12): CXL.mem accesses, resets of functions, and the answers of the mailbox and of SPDM. -/

namespace Sys2Proof.Machine

/-! ### Queues without a running command (R204, R305) -/

/-- No command of any queue has started without being done or recorded. -/
def State.Quiet (s : State) : Prop :=
  ∀ e ∈ s.queues, ∀ c ∈ e.2.cmds, ¬ (c.startT.isSome = true ∧ c.done = false ∧ c.recorded = false)

theorem State.Quiet.congr {s t : State} (h : s.Quiet) (hq : t.queues = s.queues) : t.Quiet := fun e he => h e (hq ▸ he)

theorem State.memRaces_of_quiet {s : State} (h : s.Quiet) (a : Nat) : s.memRaces a = false := by
  unfold State.memRaces
  dsimp only
  split
  · rfl
  · simp only [List.any_eq_false]
    intro e he hany
    obtain ⟨c, hc, hrun⟩ := List.any_eq_true.1 hany
    simp only [Bool.and_eq_true, Bool.not_eq_true'] at hrun
    obtain ⟨⟨⟨⟨⟨-, hstart⟩, hdone⟩, hrec⟩, -⟩, -⟩ := hrun
    exact h e he c hc ⟨hstart, hdone, hrec⟩

theorem State.retestWaits_of_quiet {s : State} (h : s.Quiet) : s.retestWaits = s := by
  have hnone : (s.queues.flatMap fun e => (e.2.cmds.filter fun c =>
      dOpcode c.desc = opEVENT_WAIT && c.startT.isSome && !c.done && !c.recorded).map fun c => (e.1, c.slot)) = [] := by
    refine List.flatMap_eq_nil_iff.2 fun e he => List.map_eq_nil_iff.2 (List.filter_eq_nil_iff.2 fun c hc hwait => ?_)
    simp only [Bool.and_eq_true, Bool.not_eq_true'] at hwait
    obtain ⟨⟨⟨-, hstart⟩, hdone⟩, hrec⟩ := hwait
    exact h e he c hc ⟨hstart, hdone, hrec⟩
  rw [State.retestWaits, hnone, List.foldl_nil]

/-- Bytes put into a memory one after another, each at its own address. -/
def cellsPut (m : List Host.Cell) (l : List Host.Cell) : List Host.Cell := l.foldl (fun m e => mset 0 m e.1 e.2) m

/-- Bytes of the host land in HBM one after another where no running command meets them. -/
theorem State.foldl_hostStore_of_quiet {s : State} (h : s.Quiet) (l : List Host.Cell) :
    l.foldl (fun s e => if s.memRaces e.1 then (s.hbmSet e.1 (s.freeVal.truncate 8)).freshen else s.hbmSet e.1 e.2) s =
      { s with hbm := cellsPut s.hbm l } := by
  induction l generalizing s with
  | nil => rfl
  | cons e r ih =>
    rw [List.foldl_cons, State.memRaces_of_quiet h, if_neg Bool.false_ne_true]
    exact ih (s := s.hbmSet e.1 e.2) h

/-! ### Accesses over CXL.mem (R304, R305) -/

/-- The DPAs of the bytes of an access that lie in committed decoders. -/
def State.dpas (s : State) (hpa n : Nat) : List Nat := (List.range n).filterMap (fun i => s.dpa (hpa + i))

/-- CXL.mem takes an access: the module is ready, its link carries CXL, and every byte is mapped. -/
structure State.TakesMem (s : State) (hpa n : Nat) : Prop where
  ready : s.ready = true
  linkUp : s.cxl.linkUp = true
  cxlMode : s.cxl.cxlMode = true
  mapped : (s.dpas hpa n).length = n
  pos : 0 < n

/-- HBM awake and an access counted: the meters of its bytes, a byte counter of CXL.mem, and one of the link. -/
def State.memCounted (s : State) (l : List Nat) (mem link n : Nat) : State :=
  ((s.hbmWake.countMem l).bump pgCxl 0 mem n).bump pgCxl 0 link n

theorem State.memCounted_within (s : State) (l : List Nat) (mem link n : Nat) : Within 0x400000010 s (s.memCounted l mem link n) :=
  .of fun hW h => State.bump_ok (sub_le rfl hW) (State.bump_ok (sub_le rfl hW) (State.countMem_ok (sub_le rfl hW) (State.hbmWake_ok hW h)))

/-- The bytes of a write in HBM, and the blocks written whole cleared of their uncorrected errors (R322). -/
def State.memStored (s : State) (l : List Nat) (data : List Byte) : State :=
  { s with
    hbm := cellsPut s.hbm (l.zip data)
    hbmBad := s.hbmBad.filter (fun b => !(List.range 64).all (fun i => l.contains (64 * b.1 + i))) }

section
variable {s : State} {hpa n : Nat}

theorem State.TakesMem.guard (h : s.TakesMem hpa n) :
    ¬ (!s.ready || !s.cxl.linkUp || !s.cxl.cxlMode || decide ((s.dpas hpa n).length ≠ n) || decide (n = 0)) = true := by
  simp [h.ready, h.linkUp, h.cxlMode, h.mapped, h.pos.ne']

theorem State.memRead_of_sound (h : s.TakesMem hpa n) (hgood : ∀ a ∈ s.dpas hpa n, ∀ b ∈ s.hbmBad, b.1 ≠ a / 64) :
    s.memRead hpa n =
      (s.memCounted (s.dpas hpa n) R.CXL_MEM_RD_BYTES R.CXL_CXL_TX_BYTES n).emit .memData [hpa, 0] ((s.dpas hpa n).map s.hbmByte) := by
  have hW := s.memCounted_within (s.dpas hpa n) R.CXL_MEM_RD_BYTES R.CXL_CXL_TX_BYTES n
  have hbyte : (s.memCounted (s.dpas hpa n) R.CXL_MEM_RD_BYTES R.CXL_CXL_TX_BYTES n).hbmByte = s.hbmByte :=
    funext fun a => congrArg (mget 0 · a) (hW.hbm rfl)
  have hnone : (s.dpas hpa n).findSome? (fun a =>
      (s.memCounted (s.dpas hpa n) R.CXL_MEM_RD_BYTES R.CXL_CXL_TX_BYTES n).hbmBad.find? (fun b => b.1 = a / 64)) = none := by
    refine List.findSome?_eq_none_iff.2 fun a ha => List.find?_eq_none.2 fun b hb => ?_
    simpa using hgood a ha b (hW.hbmBad rfl ▸ hb)
  rw [← hbyte]
  refine (if_neg h.guard).trans ?_
  dsimp only
  split
  case h_1 => rfl
  case h_2 b hb => exact absurd (hnone.symm.trans hb) (Option.some_ne_none b).symm

theorem State.memWrite_of_quiet {data : List Byte} (h : s.TakesMem hpa data.length) (hq : s.Quiet) :
    s.memWrite hpa data = ((s.memCounted (s.dpas hpa data.length) R.CXL_MEM_WR_BYTES R.CXL_CXL_RX_BYTES data.length).memStored
      (s.dpas hpa data.length) data).emit .memDone [hpa] := by
  have hquiet := hq.congr ((s.memCounted_within (s.dpas hpa data.length) R.CXL_MEM_WR_BYTES R.CXL_CXL_RX_BYTES data.length).queues rfl)
  refine (if_neg h.guard).trans ?_
  rw [← State.memCounted, ← State.dpas, State.foldl_hostStore_of_quiet hquiet]
  exact congrArg (State.emit · .memDone [hpa]) (State.retestWaits_of_quiet hquiet)

end

/-! ### Resets of functions (R309) -/

/-- The host configuration of a partition at zero, and the reset counted. -/
def State.hostCfgCleared (s : State) (p : Nat) : State :=
  (((s.setReg pgPackage p R.GRP_HOST_CFG 0).setReg pgPackage p R.GRP_HOST_PASID 0).bump pgCxl 0 R.CXL_FLR_COUNT 1).progress pgCxl 0 2 10000 p

/-- The FLR effects end with the partition's host configuration. -/
theorem State.flrPart_clears (s : State) (p : Nat) : ∃ u : State, s.flrPart p = u.hostCfgCleared p := ⟨_, rfl⟩

/-- A register of the package page that the count and the progress of a reset do not write. -/
theorem State.reg_hostCfgCleared (s : State) {p o : Nat} (hp : p < 131072) (ho : o < 4096) :
    (s.hostCfgCleared p).reg pgPackage p o = ((s.setReg pgPackage p R.GRP_HOST_CFG 0).setReg pgPackage p R.GRP_HOST_PASID 0).reg pgPackage p o := by
  have hne : ∀ {o'}, o' < 4096 → rkey pgPackage p o ≠ rkey pgCxl 0 o' := fun ho' => rkey_ne_of_page_ne (by decide) hp ho (by decide) ho'
  exact (State.reg_setReg_ne _ _ (hne (by decide))).trans ((State.reg_setReg_ne _ _ (hne (by decide))).trans (State.reg_bump_ne _ _ (hne (by decide))))

theorem State.hostCfg_flrPart (s : State) {p : Nat} (hp : p < 131072) :
    (s.flrPart p).reg pgPackage p R.GRP_HOST_CFG = 0 ∧ (s.flrPart p).reg pgPackage p R.GRP_HOST_PASID = 0 := by
  obtain ⟨u, hu⟩ := s.flrPart_clears p
  rw [hu, State.reg_hostCfgCleared _ hp (by decide), State.reg_hostCfgCleared _ hp (by decide)]
  exact ⟨(State.reg_setReg_ne _ _ (rkey_off (by decide))).trans (State.reg_setReg ..), State.reg_setReg ..⟩

theorem State.flr_of_enabled {s : State} {n : Nat} (hr : s.ready = true) (hv : s.cxl.vfEnable = true) (h0 : 0 < n) (hn : n < 256) :
    s.flr n = s.flrPart n := if_pos (by simp [hr, hv, hn, h0.ne'])

theorem State.pfFlr_of_ready {s : State} (hr : s.ready = true) :
    s.pfFlr = { s.flrAll with cxl := { s.flrAll.cxl with vfEnable := false, ats := [] } } := if_neg (by simp [hr])

theorem State.decoders_hotReset {s : State} (hr : s.ready = false) : s.hotReset.cxl.decoders = s.cxl.decoders :=
  congrArg (·.cxl.decoders) (if_neg (by simp [hr]) : (if s.ready then s.flrAll else s) = s)

theorem State.linkStatus_hotReset (s : State) : s.hotReset.reg pgCxl 0 R.CXL_LINK_STATUS = 0 := State.reg_setReg ..

/-- Settles O21. The DPA of a mapped byte follows DEDUCED log 76, answers are messages of `State.out` (DESIGN CHOICE log 3), and a hot reset that keeps
the committed decoders is the model's choice (DEDUCED log 105). -/
theorem hostMemoryAndFunctionResets : Obligations.HostMemoryAndFunctionResets := by
  intro s
  refine ⟨?read, ?write, fun hr => ?unready, fun _ => ?hot, fun n hr hv h0 hn => ?flr, fun hr => ?pf⟩
  case read =>
    rintro hpa n _ rfl hr hl hm hlen hn hgood
    have hW := s.memCounted_within (s.dpas hpa n) R.CXL_MEM_RD_BYTES R.CXL_CXL_TX_BYTES n
    exact ⟨_, congrArg Host.Outcome.next (State.memRead_of_sound ⟨hr, hl, hm, hlen, hn⟩ hgood), congrArg _ (hW.out rfl), hW.hbm rfl,
      hW.queues rfl⟩
  case write =>
    rintro hpa data _ rfl hr hl hm hlen hn hq
    have hW := s.memCounted_within (s.dpas hpa data.length) R.CXL_MEM_WR_BYTES R.CXL_CXL_RX_BYTES data.length
    exact ⟨_, congrArg Host.Outcome.next (State.memWrite_of_quiet ⟨hr, hl, hm, hlen, hn⟩ hq),
      congrArg (cellsPut · ((s.dpas hpa data.length).zip data)) (hW.hbm rfl), hW.queues rfl,
      fun b hb => hW.hbmBad rfl ▸ List.mem_of_mem_filter hb⟩
  case unready => exact ⟨_, rfl, rfl, rfl, rfl, s.linkStatus_hotReset, State.decoders_hotReset hr⟩
  case hot => exact ⟨_, rfl, rfl, rfl, s.linkStatus_hotReset⟩
  case flr => exact ⟨_, congrArg Host.Outcome.next (State.flr_of_enabled hr hv h0 hn), s.hostCfg_flrPart (lt_trans hn (by decide))⟩
  case pf => exact ⟨_, congrArg Host.Outcome.next (State.pfFlr_of_ready hr), rfl, rfl⟩

/-! ### Data object exchange and pushes of an image in RECOVERY (R306, R360) -/

section
variable {s : State} (hl : s.cxl.linkUp = true)
include hl

theorem State.doeDiscovery_of_listed {i : Nat} {x : Nat × Nat} (hx : s.doeProtocols[i]? = some x) :
    s.doeDiscovery i = s.emit .doe [1, x.1, x.2, if i + 1 < s.doeProtocols.length then i + 1 else 0] := by
  simp [State.doeDiscovery, hl, hx]

theorem State.cdat_of_cxl (hm : s.cxl.cxlMode = true) (h : Nat) : s.cdat h = s.emit .doe [2, h, 0, hbmBytes s.n8, 650, 600, 55] := by
  simp [State.cdat, hl, hm]

theorem State.doeUnknown_of_unlisted {vendor ptype : Nat} (h : (vendor, ptype) ∉ s.doeProtocols) :
    s.doeUnknown vendor ptype = s.emit .doe [0, vendor, ptype] := by
  simp [State.doeUnknown, State.doeError, hl, h]

theorem State.imagePush_of_expected {off : Nat} {data : List Byte} (hs : s.boot.state = 3) (hd : data ≠ []) (h4 : data.length % 4 = 0)
    (hmax : data.length ≤ 992) (hat : off = s.boot.pushAt.getD 0) (hfit : off + data.length ≤ imageMax) :
    s.imagePush off data = (s.recoverWrite off data).emit .doe [3, 0] := by
  simp [State.imagePush, hl, hs, hd, h4, Nat.not_lt.2 hmax, ← hat, Nat.not_lt.2 hfit]

end

/-- A transfer behind its first byte adds to the image in flash, and the next is expected where it ends. -/
theorem State.recoverWrite_spec (s : State) {off : Nat} (h0 : off ≠ 0) (data : List Byte) :
    (s.recoverWrite off data).boot.pushAt = some (off + data.length) ∧
      (s.recoverWrite off data).flash = (s.flashWrite (flImage + off) data).flash ∧
      (s.recoverWrite off data).hbm = s.hbm ∧ (s.recoverWrite off data).parts = s.parts := by
  have hW : Within 0x100000210 s (s.recoverWrite off data) := .of State.recoverWrite_ok
  refine ⟨rfl, ?_, hW.hbm rfl, hW.parts rfl⟩
  rw [State.recoverWrite, if_neg h0]
  rfl

/-! ### SPDM (R366 to R368) -/

theorem State.spdm_of_inputOn {s : State} (h : s.power.inputOn = true) (f : State → State) :
    s.spdm f = f (s.bump pgRot 0 R.ROOT_OF_TRUST_SPDM_MSGS 1) := if_pos h

/-- One measurement, unsigned, from the end of phase 2. -/
theorem State.measurements_single {s : State} {i : Nat} (h : s.power.inputOn = true) (hp : 3 ≤ s.boot.phase) (h1 : 1 ≤ i) (h8 : i < 8)
    (nonce : List Byte) :
    s.measurements i false nonce = (s.bump pgRot 0 R.ROOT_OF_TRUST_SPDM_MSGS 1).emit .spdm [6, i, 0]
      ((s.bump pgRot 0 R.ROOT_OF_TRUST_SPDM_MSGS 1).measurement i) := by
  have hphase : ¬ (s.bump pgRot 0 R.ROOT_OF_TRUST_SPDM_MSGS 1).boot.phase < 3 := Nat.not_lt.2 hp
  have h0 : i ≠ 0 := Nat.one_le_iff_ne_zero.1 h1
  have hall : i ≠ 0xFF := by omega
  simp [State.measurements, State.spdm_of_inputOn h, hphase, Nat.not_le.2 h8, h0, hall, b2n]

/-- Settles O22. Digests and signatures are opaque (DESIGN CHOICE log 8), answers are messages of `State.out` (DESIGN CHOICE log 3), and the byte
order within measurements 5, 6 and 7 is the model's choice (DEDUCED log 79). -/
theorem requestsAreAnswered : Obligations.RequestsAreAnswered := by
  intro s
  refine ⟨fun hl => ⟨fun i x hx => ?discovery, fun h hm => ?cdat, fun vendor ptype hx => ?unknown, fun off data hs hd h4 hmax hat h0 hfit => ?push⟩,
    fun hon => ⟨?version, ?capabilities, ?algorithms, ?digests, fun off len => ?certificate, fun nonce => ⟨_, ?challenge, rfl⟩,
      fun i nonce hp h1 h8 => ?measurement⟩⟩
  case discovery => exact congrArg Host.Outcome.next (State.doeDiscovery_of_listed hl hx)
  case cdat => exact congrArg Host.Outcome.next (State.cdat_of_cxl hl hm h)
  case unknown => exact congrArg Host.Outcome.next (State.doeUnknown_of_unlisted hl hx)
  case push =>
    obtain ⟨hpush, hflash, hhbm, hparts⟩ := s.recoverWrite_spec h0 data
    have hW : Within 0x2800000010 (s.recoverWrite off.toNat data) ((s.recoverWrite off.toNat data).emit .doe [3, 0]).sbEvents :=
      .of fun hW h => State.sbEvents_ok hW (State.emit_ok (sub_le rfl hW) h)
    exact ⟨_, congrArg (fun u : State => Host.Outcome.next u.sbEvents) (State.imagePush_of_expected hl hs hd h4 hmax hat hfit),
      (congrArg (·.pushAt) (hW.boot rfl)).trans hpush, (hW.flash rfl).trans hflash, (hW.hbm rfl).trans hhbm, (hW.parts rfl).trans hparts⟩
  case version | capabilities | algorithms | digests | certificate | challenge => exact congrArg Host.Outcome.next (State.spdm_of_inputOn hon _)
  case measurement => exact congrArg Host.Outcome.next (State.measurements_single hon hp h1 h8 nonce)

end Sys2Proof.Machine
end

section
/-! Resilience (spec/13): error records and their acknowledgement, an uncorrectable error of HBM, assays that fall due, and the snapshot engine. -/

namespace Sys2Proof.Machine

/-! ### Acknowledgements (R317, R320) -/

theorem isRingPage_iff {page : Nat} : isRingPage page = true ↔ assignedType page = .pkgErr ∨ assignedType page = .dieErr := by
  simp [isRingPage]

section
variable {s : State} {page : Nat}

/-- A write of an acknowledgement register acts with the word written. -/
theorem State.writeReg_ack {off : Nat} (ho : off = R.ERR_ERR_ACK ∨ off = R.ERR_ERR_ACK_THROUGH) (hp : isRingPage page = true)
    (ht : s.takesWord 0 page off = true) (v : W32) : s.writeReg 0 page off 4 v.toNat = s.acts 0 page off v.toNat := by
  have hword : v.toNat % 2 ^ 32 &&& (2 ^ 32 - 1) &&& (2 ^ 32 - 1) = v.toNat := by
    rw [and_mask, and_mask, Nat.mod_mod, Nat.mod_mod, Nat.mod_eq_of_lt v.isLt]
  have hbits : bitsWith page off .rw1c = 0 ∧ stagedMask page off = 0 ∧ bitsWith page off .wo = 2 ^ 32 - 1 ∧ bitsWith page off .rw = 0 := by
    rcases isRingPage_iff.1 hp with h | h
    all_goals
      simp only [bitsWith_of_type h, stagedMask_of_type h (by decide)]
      rcases ho with rfl | rfl <;> decide +kernel
  obtain ⟨hclear, hstaged, hact, hrw⟩ := hbits
  rw [State.writeReg_act ht (by rw [hclear, Nat.zero_and]) (by rw [hstaged, Nat.zero_and]) hact (by decide) (by rw [hrw, Nat.zero_and]), hword]

theorem State.acts_errAck (hp : isRingPage page = true) (v : Nat) : s.acts 0 page R.ERR_ERR_ACK v = s.errAck 0 page v := by
  rcases isRingPage_iff.1 hp with h | h <;> simp [State.acts, h]

theorem State.acts_errAckThrough (hp : isRingPage page = true) (v : Nat) :
    s.acts 0 page R.ERR_ERR_ACK_THROUGH v = s.errAckThrough 0 page v := by
  rcases isRingPage_iff.1 hp with h | h <;> simp [State.acts, h, R.ERR_ERR_ACK, R.ERR_ERR_ACK_THROUGH]

/-- Partition 0 acknowledges any record. -/
theorem mayAck_zero (e : ErrRec) : mayAck 0 e = true := rfl

theorem exec_errAck_of_open {v : W32} {e : ErrRec} (hp : isRingPage page = true) (ht : s.takesWord 0 page R.ERR_ERR_ACK = true)
    (he : (svals (s.ring page).slots).find? (fun e => e.seq % 2 ^ 32 = v.toNat && e.opened) = some e) :
    exec (.errAck 0 page v) s = .next (s.setRing page ((s.ring page).closeIf (fun x => x.seq % 2 ^ 32 = v.toNat))) := by
  change execErrAck 0 page v s = _
  rw [execErrAck, if_pos hp, State.writeReg_ack (.inl rfl) hp ht, State.acts_errAck hp, State.errAck, he]
  exact congrArg _ (if_pos (mayAck_zero e))

theorem exec_errAckThrough {v : W32} (hp : isRingPage page = true) (ht : s.takesWord 0 page R.ERR_ERR_ACK_THROUGH = true) :
    exec (.errAckThrough 0 page v) s = .next (s.setRing page ((s.ring page).closeIf (fun e => decide (e.seq ≤ v.toNat)))) := by
  change execErrAckThrough 0 page v s = _
  rw [execErrAckThrough, if_pos hp, State.writeReg_ack (.inr rfl) hp ht, State.acts_errAckThrough hp, State.errAckThrough]
  simp only [mayAck_zero, Bool.and_true]

/-- A write of PF_RELEASE releases the partition named. -/
theorem exec_pfRelease {n : Nat} (hn : n < 256) (ht : s.takesWord 0 pgPkgErr R.ERR_PF_RELEASE = true) :
    exec (.pfRelease 0 (BitVec.ofNat 32 n)) s = .next (s.pfThaw n) := by
  have hv : (BitVec.ofNat 32 n).toNat % 2 ^ 32 &&& (2 ^ 32 - 1) &&& (2 ^ 8 - 1) = n := by
    rw [and_mask, and_mask, BitVec.toNat_ofNat]
    omega
  change execPfRelease 0 _ s = _
  rw [execPfRelease, State.writeReg_act (w := 2 ^ 8 - 1) ht (by decide +kernel) (by decide +kernel) (by decide +kernel) (by decide)
    (by decide +kernel), hv]
  change Host.Outcome.next (s.pfThaw (n % 256)) = _
  rw [Nat.mod_eq_of_lt hn]

/-- Thawing the queues of a partition leaves it marked as frozen until its own mark goes. -/
theorem State.pfFrozen_pfThaw {n : Nat} (h : (s.part n).pfFrozen = true) : ((s.pfThaw n).part n).pfFrozen = false := by
  have hfold : ∀ l : List Nat, ((l.foldl (fun s q => s.thawQueue q) s).part n).pfFrozen = true := fun l => by
    have hW : Within 0x800 s (l.foldl (fun s q => s.thawQueue q) s) := .fold (fun _ _ h => State.thawQueue_ok rfl h) (.rfl _ s)
    rw [State.part_congr (hW.parts rfl), h]
  unfold State.pfThaw
  rw [if_pos (hfold _), State.updPart, State.part_setPart]

/-! ### Errors of HBM and assays that fall due (R322, R327) -/

theorem State.hbmError_uncorrectable (h : s.pageType page = .hbmCtrl) (key a : Nat) (hit : Option (Nat × Nat)) :
    let u := (s.raisePage page 4).bump page 0 R.HBM_CTRL_HBM_UC 1
    let w := { u with hbmBad := sset u.hbmBad (a / 64) (fkKey page key) }
    s.hbmError page key a true hit = w.raiseErr (w.hbmSrc page key a) caHBM_UC a hit 0x02 :=
  if_neg (not_not_intro h)

theorem State.markDue_of_passed (h : s.pageType page = .core) (ht : s.assayTime page + 9000000000 ≤ s.timeNow) :
    s.markDue page = s.updCore page (fun c => { c with assayDue := true }) :=
  if_pos (by simp [h, ht])

end

/-- Settles O5: one rule for each command, stated once above. -/
theorem errorRecordsAndMemoryErrors : Obligations.ErrorRecordsAndMemoryErrors := by
  intro s
  refine ⟨fun page v e => exec_errAck_of_open, fun page v => exec_errAckThrough, fun n hn ht hf => ?release,
    fun page a key hit h => congrArg Host.Outcome.next (State.hbmError_uncorrectable h key.toNat a hit), fun page h ht => ?due⟩
  case release => exact ⟨_, exec_pfRelease hn ht, State.pfFrozen_pfThaw hf, (Within.of State.pfThaw_ok).hbm rfl⟩
  case due =>
    refine ⟨_, congrArg Host.Outcome.next (State.markDue_of_passed h ht), ?_, fun x hx => State.core_setCore_ne _ _ hx⟩
    rw [State.updCore, State.core_setCore]

/-! ### A paused partition's addresses (R267, R271) -/

theorem mem_of_sget {α : Type} {m : Store α} {k : Nat} {v : α} (h : sget m k = some v) : (k, v) ∈ m := by
  induction m with
  | nil => cases h
  | cons e r ih =>
    obtain ⟨a, w⟩ := e
    simp only [sget] at h
    split at h
    · next ha => subst ha; cases h; exact List.mem_cons_self ..
    · exact List.mem_cons_of_mem _ (ih h)

/-- A write to a table takes away at most the value that was read at its key. -/
theorem mem_sset_or_sget {α : Type} {m : Store α} {k : Nat} {v : α} {e : Nat × α} (h : e ∈ m) :
    e ∈ sset m k v ∨ e.1 = k ∧ sget m k = some e.2 := by
  induction m with
  | nil => cases h
  | cons f r ih =>
    obtain ⟨a, w⟩ := f
    simp only [sset, sget]
    split
    · exact .inl (List.mem_cons_of_mem _ h)
    · split
      · next ha =>
        rcases List.mem_cons.1 h with rfl | h
        · exact .inr ⟨ha.symm, by rw [if_pos ha.symm]⟩
        · exact .inl (List.mem_cons_of_mem _ h)
      · next ha =>
        rw [if_neg (Ne.symm ha)]
        rcases List.mem_cons.1 h with rfl | h
        · exact .inl (List.mem_cons_self ..)
        · exact (ih h).imp_left (List.mem_cons_of_mem _)

theorem State.mem_partNums {s : State} {k : Nat} : k ∈ s.partNums ↔ ∃ y, (k, y) ∈ s.parts ∧ y.state ≠ 0 := by
  simp [State.partNums]

section
variable {s : State}

/-- A write of a partition's entry that keeps its state neither makes nor ends a partition, whatever the order of the table. -/
theorem State.mem_partNums_setPart {p : Nat} {x : PartX} (hx : x.state = (s.part p).state) (k : Nat) :
    k ∈ (s.setPart p x).partNums ↔ k ∈ s.partNums := by
  rw [State.mem_partNums, State.mem_partNums]
  constructor
  · rintro ⟨y, hy, h0⟩
    rcases mem_sset hy with heq | hm
    · obtain ⟨rfl, rfl⟩ := Prod.mk.inj heq
      cases hg : sget s.parts k with
      | none => exact absurd (by rw [hx, State.part, hg]; rfl) h0
      | some z => exact ⟨z, mem_of_sget hg, by rwa [hx, State.part, hg] at h0⟩
    · exact ⟨y, hm, h0⟩
  · rintro ⟨y, hy, h0⟩
    rcases mem_sset_or_sget (k := p) (v := x) hy with hm | ⟨hk, hg⟩
    · exact ⟨y, hm, h0⟩
    · have hkp : k = p := hk
      refine ⟨x, hkp ▸ mem_of_sget (sget_sset_self ..), ?_⟩
      rw [hx, State.part, hg]
      exact h0

theorem State.zeroing_pause (p k : Nat) : ((s.pause p).part k).zeroing = (s.part k).zeroing := by
  by_cases h : k = p
  · subst h; rw [State.pause, State.updPart, State.part_setPart]
  · rw [State.pause, State.updPart, State.part_setPart_ne _ _ h]

theorem State.reservedBy_pause (p a : Nat) : ((s.pause p).reservedBy a).isNone = (s.reservedBy a).isNone := by
  have hmem : ∀ k, k ∈ (s.pause p).partNums ↔ k ∈ s.partNums := State.mem_partNums_setPart rfl
  have hseg : (s.pause p).segments = s.segments := rfl
  rw [Bool.eq_iff_iff, Option.isNone_iff_eq_none, Option.isNone_iff_eq_none, State.reservedBy, State.reservedBy, List.find?_eq_none,
    List.find?_eq_none]
  simp only [hmem, hseg, State.zeroing_pause]

theorem State.hbmPhys_pause (p q a : Nat) : (s.pause p).hbmPhys q a = s.hbmPhys q a := by
  rw [State.hbmPhys, State.hbmPhys, State.reservedBy_pause]
  rfl

theorem State.hbmPhys_wr1 (p a : Nat) (b : Byte) (q c : Nat) : (s.wr1 p a b).hbmPhys q c = s.hbmPhys q c :=
  have hW : Within 0x480 s (s.wr1 p a b) := .of State.wr1_ok
  State.hbmPhys_congr (hW.n8 rfl) (hW.regs rfl) (hW.parts rfl) q c

/-- The bytes of HBM after a write come from the bytes before and from where the writer's addresses lie. -/
theorem State.hbm_wrBytes_congr {t : State} {p : Nat} (hphys : ∀ b, t.hbmPhys p b = s.hbmPhys p b) (hhbm : t.hbm = s.hbm) (a : Nat)
    (l : List Byte) : (t.wrBytes p a l).hbm = (s.wrBytes p a l).hbm := by
  change (t.wrBytesRaw p a l).hbm = (s.wrBytesRaw p a l).hbm
  induction l generalizing s t a with
  | nil => exact hhbm
  | cons b r ih =>
    refine ih (fun c => by rw [State.hbmPhys_wr1, State.hbmPhys_wr1, hphys]) ?_ (a + 1)
    rw [State.wr1, State.wr1, hphys]
    split
    · exact hhbm
    · split
      · simp only [hhbm]
      · exact hhbm

end

/-! ### Snapshot commands (R338, R339, R346) -/

section
variable {s : State} {q slot : Nat} {c : Cmd} {t : Task} (h : s.starts q slot opSNAPSHOT c t)
include h

theorem exec_localStage (hm : snMode c.desc = 1) (ha : s.aloneIn q c = true) (hb : s.stageBusy c.part = false) :
    exec (.localStage q slot) s = .next ((s.begun q c t).localStage q (s.begunCmd q c t)) :=
  congrArg _ (State.startCmd_eq h (by simp) (by simp [hm, ha, hb]))

theorem exec_direct (hm : snMode c.desc = 2) (ha : s.aloneIn q c = true) :
    exec (.direct q slot) s = .next ((s.begun q c t).direct q (s.begunCmd q c t)) :=
  congrArg _ (State.startCmd_eq h (by simp) (by simp [hm, ha]))

theorem exec_restore (hm : snMode c.desc = 3) (ha : s.aloneIn q c = true) :
    exec (.restore q slot) s = .next ((s.begun q c t).restore q (s.begunCmd q c t)) :=
  congrArg _ (State.startCmd_eq h (by simp) (by simp [hm, ha]))

theorem exec_pair (hm : snMode c.desc = 4) :
    exec (.pair q slot) s = .next ((s.begun q c t).pairStart q (s.begunCmd q c t)) :=
  congrArg _ (State.startCmd_eq h (by simp) (by simp [hm]))

theorem exec_fetch (hm : snMode c.desc = 5) (hb : s.stageBusy c.part = false) :
    exec (.fetch q slot) s = .next ((s.begun q c t).fetchStart q (s.begunCmd q c t)) :=
  congrArg _ (State.startCmd_eq h (by simp) (by simp [hm, hb]))

end

section
variable {s : State} {q : Nat} {c : Cmd}

/-- The record of a command whose output is the image in the stage. -/
def State.stageOut (s : State) (q : Nat) (c : Cmd) : State :=
  s.updCmd q c.slot (fun k => { k with
    outs := [rangeOf (s.snapReg c.part R.SNAPSHOT_SNAP_STAGE_BASE) 0 (Int.ofNat (s.image c.part false).length - 1)] })

/-- A LOCAL_STAGE without a partner whose image fits the stage. -/
theorem State.localStage_alone (hn : snNone c.desc = true)
    (hfit : (s.image c.part false).length ≤ s.snapReg c.part R.SNAPSHOT_SNAP_STAGE_BYTES) :
    s.localStage q c = ((((s.stageOut q c).pause c.part).fillStage c.part false (s.image c.part false)).countSnap c.part).finish q c.slot 0 0
      (s.image c.part false).length := by
  simp [State.localStage, State.stageOut, hn, Nat.not_lt.2 hfit]

theorem State.part_fillStage (p : Nat) (ckpt : Bool) (img : List Byte) :
    (s.fillStage p ckpt img).part p = { s.part p with
      snap := { (s.part p).snap with stageOk := true, stageLen := img.length, stageStep := s.resumeStep p, stageCkpt := ckpt } } := by
  have hW : Within 0x590 s ((s.wrBytes p (s.snapReg p R.SNAPSHOT_SNAP_STAGE_BASE) img).meter p R.METER_HBM_BYTES (2 * img.length)) :=
    State.meter_ok rfl (State.wrBytes_ok rfl (.rfl _ s))
  have hpart := State.part_congr (hW.parts rfl) p
  refine (State.part_setPart ..).trans ?_
  rw [hpart]

theorem State.localStage_spec (hn : snNone c.desc = true)
    (hfit : (s.image c.part false).length ≤ s.snapReg c.part R.SNAPSHOT_SNAP_STAGE_BYTES) :
    (s.localStage q c).hbm = (s.wrBytes c.part (s.snapReg c.part R.SNAPSHOT_SNAP_STAGE_BASE) (s.image c.part false)).hbm ∧
      ((s.localStage q c).part c.part).snap.stageOk = true ∧
      ((s.localStage q c).part c.part).snap.stageLen = (s.image c.part false).length ∧ ((s.localStage q c).part c.part).paused = true := by
  rw [State.localStage_alone hn hfit]
  generalize hu : (s.stageOut q c).pause c.part = u
  generalize himg : s.image c.part false = img
  have hout : Within 0x800 s (s.stageOut q c) := .of State.updCmd_ok
  have hend : Within 0x810 (u.fillStage c.part false img) (((u.fillStage c.part false img).countSnap c.part).finish q c.slot 0 0 img.length) :=
    State.finish_ok rfl (State.countSnap_ok rfl (.rfl _ _))
  have hpause : (u.part c.part).paused = true := by rw [← hu, State.pause, State.updPart, State.part_setPart]
  have hphys : ∀ b, u.hbmPhys c.part b = s.hbmPhys c.part b := fun b => by
    rw [← hu, State.hbmPhys_pause, State.hbmPhys_congr (hout.n8 rfl) (hout.regs rfl) (hout.parts rfl)]
  have hbase : u.snapReg c.part R.SNAPSHOT_SNAP_STAGE_BASE = s.snapReg c.part R.SNAPSHOT_SNAP_STAGE_BASE := by
    rw [← hu]; exact State.reg_congr (hout.regs rfl) ..
  have hhbm : u.hbm = s.hbm := by rw [← hu]; exact hout.hbm rfl
  rw [State.part_congr (hend.parts rfl), State.part_fillStage, hend.hbm rfl]
  refine ⟨?_, rfl, rfl, hpause⟩
  change (u.wrBytes c.part (u.snapReg c.part R.SNAPSHOT_SNAP_STAGE_BASE) img).hbm = _
  rw [hbase, State.hbm_wrBytes_congr hphys hhbm]

theorem State.direct_of_no_pair (h : snNone c.desc = true ∨ s.pairErr c.part (snPartner c.desc) = 1) : s.direct q c = s.snapFail q c 1 := by
  have he : (if snNone c.desc then 1 else s.pairErr c.part (snPartner c.desc)) = 1 := by
    split
    · rfl
    · next hn => exact h.resolve_left hn
  simp only [State.direct, he]
  rfl

/-- The blocks of the image that a partition's stage holds. -/
def State.stagedBlocks (s : State) (p : Nat) : List BlockX :=
  blocksOf (s.rdBytes p (s.snapReg p R.SNAPSHOT_SNAP_STAGE_BASE) (s.snapReg p R.SNAPSHOT_SNAP_STAGE_BYTES))

theorem State.restore_of_bad_image (h : imageErr ((s.pause c.part).stagedBlocks c.part) ≠ 0) :
    s.restore q c = ((s.pause c.part).snapErr c.part (imageErr ((s.pause c.part).stagedBlocks c.part))).abortCmd q c.slot 0x14 0x21 := by
  rw [State.stagedBlocks] at h ⊢
  simp only [State.restore, if_pos h]

theorem State.pairStart_of_unreachable (h : s.reaches (bitsOf (snPartner c.desc) 13 0) = false) :
    s.pairStart q c = s.abortCmd q c.slot 0x10 0x0D := by
  simp [State.pairStart, h]

/-- A FETCH asks a reachable and authorised module for its image (DESIGN CHOICE log 64). -/
theorem State.fetchStart_of_authorised (hn : snNone c.desc = false) (hr : s.reaches (bitsOf (snPartner c.desc) 13 0) = true)
    (ha : s.authorised c.part (bitsOf (snPartner c.desc) 13 0) = true) :
    s.fetchStart q c =
      (s.updSnap c.part (fun x => { x with fetch := some (q, c.slot, bitsOf (snPartner c.desc) 13 0, bitsOf (snPartner c.desc) 23 16) })).emit
        .snapFetch [bitsOf (snPartner c.desc) 13 0, bitsOf (snPartner c.desc) 23 16] := by
  simp [State.fetchStart, hn, hr, ha]

end

/-! ### The end of a stream and of a checkpoint push (R339, R344) -/

section
variable {s : State} {p : Nat}

/-- PROGRESS and PROGRESS_POS are no field of another register. -/
theorem State.fld_progress_ne (page bank phase bp pos : Nat) {P B : Nat} {f : Fld} (hf : f.off < 4096) (h : f.off ≠ R.HDR_PROGRESS)
    (hpos : f.off ≠ R.HDR_PROGRESS_POS) : (s.progress page bank phase bp pos).fld P B f = s.fld P B f :=
  (State.fld_setReg_ne _ _ (rkey_ne_of_off_ne hpos hf (by decide))).trans (State.fld_setReg_ne _ _ (rkey_ne_of_off_ne h hf (by decide)))

theorem State.streamDone_of_acknowledged {x : XferX}
    (h : s.xfers.find? (fun x => x.q = streamQ p && x.phase = 2 && !s.sendOpen x.q x.slot) = some x) :
    s.streamDone p = ((({ s with xfers := s.xfers.filter (fun y => y ≠ x) }).setSnapFld p F.SNAPSHOT_SNAP_STATUS_STATE 0).setSnapFld p
      F.SNAPSHOT_SNAP_STATUS_STREAM_OK 1).progress pgSnapshot p 2 10000 x.len := by
  rw [State.streamDone, h]

theorem State.streamDone_spec {x : XferX}
    (h : s.xfers.find? (fun x => x.q = streamQ p && x.phase = 2 && !s.sendOpen x.q x.slot) = some x) :
    (s.streamDone p).fld pgSnapshot p F.SNAPSHOT_SNAP_STATUS_STREAM_OK = 1 ∧
      (s.streamDone p).fld pgSnapshot p F.SNAPSHOT_SNAP_STATUS_STATE = 0 ∧ x ∉ (s.streamDone p).xfers ∧ (s.streamDone p).hbm = s.hbm := by
  have hleft : x ∉ s.xfers.filter (fun y => y ≠ x) := by simp
  rw [State.streamDone_of_acknowledged h, State.fld_progress_ne _ _ _ _ _ (by decide) (by decide) (by decide),
    State.fld_progress_ne _ _ _ _ _ (by decide) (by decide) (by decide), State.setSnapFld, State.setSnapFld]
  refine ⟨State.fld_setFld _ _ _ _ (by decide) (by decide), ?_, hleft, rfl⟩
  rw [State.fld_setFld_beside _ _ _ _ (by decide)]
  exact State.fld_setFld _ _ _ _ (by decide) (by decide)

/-- A checkpoint's image written into the host's buffer, and then its step. -/
def State.pushWritten (s : State) (p : Nat) : State :=
  let u := s.wrBytes p (2 ^ 63 + s.snapReg p R.SNAPSHOT_CKPT_BUF_BASE % 2 ^ 63)
    (s.rdBytes p (s.snapReg p R.SNAPSHOT_SNAP_STAGE_BASE) (s.part p).snap.stageLen)
  u.wrLE p (2 ^ 63 + u.snapReg p R.SNAPSHOT_CKPT_DONE_ADDR % 2 ^ 63) 8 (s.part p).snap.stageStep

/-- The counts of a checkpoint push of `n` bytes at a step, and its end in CKPT_STATUS. -/
def State.pushCounted (s : State) (p n step : Nat) : State :=
  let s := (s.meter p R.METER_HOST_BYTES (n + 8)).meter p R.METER_HBM_BYTES n
  let s := (s.setSnapFld p F.SNAPSHOT_CKPT_STATUS_STATE 0).setReg pgSnapshot p R.SNAPSHOT_CKPT_LAST_STEP step
  (s.bump pgSnapshot 0 R.SNAPSHOT_CHECKPOINTS 1).progress pgSnapshot p 3 10000 n

theorem State.ckptPushDone_of_pushing (h : (s.part p).snap.pushing = true) :
    s.ckptPushDone p = ((s.pushWritten p).pushCounted p (s.rdBytes p (s.snapReg p R.SNAPSHOT_SNAP_STAGE_BASE) (s.part p).snap.stageLen).length
      (s.part p).snap.stageStep).updSnap p (fun x => { x with pushing := false }) := by
  rw [State.ckptPushDone]
  exact if_neg (by simp [h])

theorem State.pushCounted_within (s : State) (p n step : Nat) : Within 0x10 s (s.pushCounted p n step) :=
  State.progress_ok rfl (State.bump_ok rfl (State.setReg_ok rfl (State.setSnapFld_ok rfl (State.meter_ok rfl (State.meter_ok rfl (.rfl _ s))))))

theorem State.ckptState_pushCounted (p n step : Nat) : (s.pushCounted p n step).fld pgSnapshot p F.SNAPSHOT_CKPT_STATUS_STATE = 0 := by
  rw [State.pushCounted, State.fld_progress_ne _ _ _ _ _ (by decide) (by decide) (by decide), State.bump,
    State.fld_setReg_ne _ _ (rkey_ne_of_off_ne (by decide) (by decide) (by decide)), State.fld_setReg_ne _ _ (rkey_off (by decide))]
  exact State.fld_setFld _ _ _ _ (by decide) (by decide)

theorem State.ckptPushDone_spec (h : (s.part p).snap.pushing = true) :
    ((s.ckptPushDone p).part p).snap.pushing = false ∧ (s.ckptPushDone p).fld pgSnapshot p F.SNAPSHOT_CKPT_STATUS_STATE = 0 ∧
      (s.ckptPushDone p).host = (s.pushWritten p).host := by
  rw [State.ckptPushDone_of_pushing h]
  generalize List.length _ = n
  have hstate := (s.pushWritten p).ckptState_pushCounted p n (s.part p).snap.stageStep
  have hW := (s.pushWritten p).pushCounted_within p n (s.part p).snap.stageStep
  generalize (s.pushWritten p).pushCounted p n (s.part p).snap.stageStep = u at *
  exact ⟨congrArg (·.snap.pushing) (State.part_setPart ..), hstate, hW.host rfl⟩

end

/-- Settles O34: the rule of each command from its start, and the ends of a stream and of a push. The form of FETCH's request is the
model's (DESIGN CHOICE log 64), when STREAM_OK is set is DEDUCED (log 115), and that a DIRECT which names no partner ends with code 1
as an unpaired one does (R338) is the model's own. -/
theorem snapshotsAct : Obligations.SnapshotsAct := by
  intro s
  refine ⟨fun q slot c t h => ?commands, fun p x hx => ⟨_, rfl, State.streamDone_spec hx⟩, fun p hp => ?push⟩
  case commands =>
    obtain rfl : c.slot = slot := (findCmd_spec h.1).1
    refine ⟨fun hm ha hb hn hfit => ?stage, fun hm ha he => ?direct, fun hm ha he => ?restore, fun hm hr => ?pair, fun hm hb hn hr ha => ?fetch⟩
    case stage => exact ⟨_, exec_localStage h hm ha hb, State.localStage_spec (c := s.begunCmd q c t) hn hfit⟩
    case direct => exact (exec_direct h hm ha).trans (congrArg _ (State.direct_of_no_pair he))
    case restore => exact (exec_restore h hm ha).trans (congrArg _ (State.restore_of_bad_image he))
    case pair => exact (exec_pair h hm).trans (congrArg _ (State.pairStart_of_unreachable hr))
    case fetch => exact (exec_fetch h hm hb).trans (congrArg _ (State.fetchStart_of_authorised hn hr ha))
  case push => exact ⟨_, rfl, State.ckptPushDone_spec hp⟩

end Sys2Proof.Machine
end

section
/-! The whole machine: a step with a command waiting, what every command keeps, and what a message keeps. -/

namespace Sys2Proof.Machine

/-- Settles O36: the front command runs by the definition of a step, the model's queue of commands being DESIGN CHOICE log 12. -/
theorem stepRunsTheFrontCommand : Obligations.StepRunsTheFrontCommand := by
  intro s c rest h
  rw [step, h]

/-- Settles O40: `exec_within` answers a next state, and the variant and the waiting commands are fields that no command may change. That no
command stops the block is DESIGN CHOICE log 1. -/
theorem everyCommandCompletes : Obligations.EveryCommandCompletes := by
  intro c s
  obtain ⟨W, t, ht, hW, hm⟩ := exec_within c s
  obtain ⟨hn8, hpending, -⟩ := mayChange_iff.1 hm
  exact ⟨t, ht, hW.pending hpending, hW.n8 hn8⟩

/-- An operation that keeps every field but the registers, the sideband, what is sent and the counter of free values gives a state that differs
in these four alone. -/
theorem eq_of_within_messageKeeps {W : Nat} {s t : State} (h : Within W s t) (hW : W &&& messageKeeps = 0) :
    t = { s with regs := t.regs, sb := t.sb, out := t.out, fresh := t.fresh } := by
  have kept : ∀ {i}, messageKeeps.testBit i = true → W.testBit i = false := not_testBit_of_disjoint hW
  rw [State.mk.injEq]
  exact ⟨h.n8 (kept rfl), h.timeNow (kept rfl), h.refPresent (kept rfl), h.holdover (kept rfl), rfl, h.shadows (kept rfl), h.latches (kept rfl),
    h.hbm (kept rfl), h.hbmBad (kept rfl), h.flash (kept rfl), h.host (kept rfl), h.queues (kept rfl), h.parts (kept rfl), h.cores (kept rfl),
    h.clusters (kept rfl), h.adm (kept rfl), h.bars (kept rfl), h.tiles (kept rfl), h.rings (kept rfl), h.faultTimes (kept rfl),
    h.retireFailed (kept rfl), h.links (kept rfl), h.xfers (kept rfl), h.reqs (kept rfl), h.colls (kept rfl), h.earlyReady (kept rfl),
    h.routed (kept rfl), h.notices (kept rfl), h.noticeSeq (kept rfl), h.noticeT (kept rfl), h.timeX (kept rfl), h.dbg (kept rfl),
    h.boot (kept rfl), h.fw (kept rfl), h.power (kept rfl), rfl, h.cxl (kept rfl), rfl, rfl, h.pending (kept rfl)⟩

/-- Settles O45: a message keeps the fields of `messageKeeps`, the counter of free values not being one of them (DESIGN CHOICE log 2). -/
theorem messagesLeaveTheRest : Obligations.MessagesLeaveTheRest := by
  intro c s t hc h
  obtain ⟨W, hW, hm⟩ := exec_keeps h
  obtain ⟨-, -, -, -, -, hmessage, -⟩ := mayChange_iff.1 hm
  exact eq_of_within_messageKeeps hW (hmessage hc)

end Sys2Proof.Machine
end

section
/-! The sideband (spec/16): addresses, monitoring requests and events, and ALERT#. -/

namespace Sys2Proof.Machine

section
variable {s : State}

/-! ### Messages (R416, R427) -/

/-- A message received and its answer, counted. -/
def State.heard (s : State) : State := (s.bump pgSideband 0 R.SIDEBAND_MCTP_RX 1).bump pgSideband 0 R.SIDEBAND_MCTP_TX 1

@[simp] theorem State.heard_fw (s : State) : s.heard.fw = s.fw := rfl
@[simp] theorem State.heard_boot (s : State) : s.heard.boot = s.boot := rfl

theorem State.pldm_of_inputOn (h : s.power.inputOn = true) (f : State → State) : s.pldm f = f s.heard := if_pos h

/-! ### Addresses (R416) -/

theorem State.takeAddress_of_smbus (hon : s.power.inputOn = true) (hi : s.sb.i3c = false) (addr : Nat) :
    s.takeAddress addr =
      ({ s with sb := { s.sb with dynAddr := addr % 128, i3c := true } } : State).emit .i3c [s.boot.cfgSerial % 2 ^ 48] :=
  if_neg (by simp [hon, hi])

theorem State.takeAddress_of_addressed (hi : s.sb.i3c = true) (addr : Nat) : s.takeAddress addr = s := if_pos (by simp [hi])

theorem State.setEid_of_range (hon : s.power.inputOn = true) {eid : Nat} (h1 : 1 ≤ eid) (h254 : eid ≤ 254) :
    s.setEid eid = ({ s.heard with sb := { s.sb with eid := eid } } : State).emit .mctp [1, 0, eid] :=
  (State.pldm_of_inputOn hon _).trans (if_pos ⟨h1, h254⟩)

/-! ### Monitoring (R417) -/

theorem State.getPdr_past_end (hon : s.power.inputOn = true) {h : Nat} (hh : 14 < h) : s.getPdr h = s.heard.say [pmPDR, 2] := by
  have h0 : h ≠ 0 := by omega
  rw [State.getPdr, State.pldm_of_inputOn hon]
  simp [h0, hh]

/-- The record of a sensor or an effecter names its handle and the next one's. -/
theorem State.getPdr_of_handle (hon : s.power.inputOn = true) {h : Nat} (h1 : 1 ≤ h) (h14 : h ≤ 14) :
    ∃ l, s.getPdr h = s.heard.say ([pmPDR, 0, h, if h = 14 then 0 else h + 1] ++ l) := by
  have h0 : h ≠ 0 := Nat.one_le_iff_ne_zero.1 h1
  rw [State.getPdr, State.pldm_of_inputOn hon]
  simp only [h0, Nat.not_lt.2 h14, if_false]
  exact ⟨_, rfl⟩

theorem State.sensorReading_of_valid (hon : s.power.inputOn = true) {id : Nat} (h1 : 1 ≤ id) (h9 : id ≤ 9) (hv : s.sensorValid id = true) :
    s.sensorReading id =
      s.heard.say [pmSENSOR, 0, id, 1, (BitVec.ofInt 64 (s.heard.sensorValue id)).toNat, s.heard.sensorLevel id] :=
  (State.pldm_of_inputOn hon _).trans ((if_pos ⟨h1, h9⟩).trans (if_pos hv))

theorem State.sensorReading_of_invalid (hon : s.power.inputOn = true) {id : Nat} (h1 : 1 ≤ id) (h9 : id ≤ 9) (hv : s.sensorValid id = false) :
    s.sensorReading id = s.heard.say [pmSENSOR, 0, id, 0] :=
  (State.pldm_of_inputOn hon _).trans ((if_pos ⟨h1, h9⟩).trans (if_neg (ne_true_of_eq_false hv)))

theorem State.stateReadings_of_valid (hon : s.power.inputOn = true) {id : Nat} (h10 : 10 ≤ id) (h12 : id ≤ 12) (hv : s.sensorValid id = true) :
    s.stateReadings id = s.heard.say [pmSTATE, 0, id, 1, s.stateSensor id] :=
  (State.pldm_of_inputOn hon _).trans ((if_pos ⟨h10, h12⟩).trans (if_pos hv))

/-! ### Events and ALERT# (R418) -/

theorem State.eventAccepted_of_cons {e : Nat × Nat} {r : List (Nat × Nat)} (h : s.sb.events = e :: r) :
    s.eventAccepted = { s with sb := { s.sb with events := r } } := by
  rw [State.eventAccepted, h]

theorem State.alertLow_iff : s.alertLow = true ↔ s.sb.events ≠ [] ∨ (s.power.state = 1 ∧ s.power.cause ≠ 0) := by
  simp [State.alertLow]

theorem State.alertResponse_eq :
    s.alertResponse = if s.power.inputOn = true ∧ s.sb.i3c = false ∧ s.alertLow = true then s.emit .i3c [0x62] else s := by
  simp [State.alertResponse, and_assoc]

end

/-- Settles O33: one rule for each request. That ENTDAA does nothing for a module with an address and that ALERT# alone lets it answer the Alert
Response Address is DEDUCED log 99, the range of endpoint IDs PRESUMED log 82, the order of PDRs and what is read DEDUCED log 81. -/
theorem sidebandIsAnswered : Obligations.SidebandIsAnswered := by
  intro s u
  refine ⟨fun addr hon hi => ?take, fun addr hi => ?kept, rfl, congrArg Host.Outcome.next State.alertResponse_eq, fun e r he => ?accepted,
    fun hon => ⟨fun eid h1 h254 => ?eid, ?info, fun h hh => ?pastEnd, fun h h1 h14 => ?record, fun id h1 h9 hv => ?valid,
      fun id h10 h12 hv => ?state, fun id h1 h9 hv => ?invalid, fun eid => ?receiver⟩⟩
  case take => exact congrArg Host.Outcome.next (State.takeAddress_of_smbus hon hi addr)
  case kept => exact congrArg Host.Outcome.next (State.takeAddress_of_addressed hi addr)
  case accepted => exact congrArg Host.Outcome.next (State.eventAccepted_of_cons he)
  case eid => exact congrArg Host.Outcome.next (State.setEid_of_range hon h1 h254)
  case info | receiver => exact congrArg Host.Outcome.next (State.pldm_of_inputOn hon _)
  case pastEnd => exact congrArg Host.Outcome.next (State.getPdr_past_end hon hh)
  case record => exact (State.getPdr_of_handle hon h1 h14).imp fun _ => congrArg Host.Outcome.next
  case valid => exact congrArg Host.Outcome.next (State.sensorReading_of_valid hon h1 h9 hv)
  case state => exact congrArg Host.Outcome.next (State.stateReadings_of_valid hon h10 h12 hv)
  case invalid => exact congrArg Host.Outcome.next (State.sensorReading_of_invalid hon h1 h9 hv)

/-- Settles O59: the two grounds of `State.alertLow`; an answer to the alert address changes neither, and an event that is left keeps the first. -/
theorem alertIsAsserted : Obligations.AlertIsAsserted := by
  intro s
  refine ⟨State.alertLow_iff, fun hon hi ha => ?answer, fun e f r he => ?accepted⟩
  case answer =>
    exact ⟨_, congrArg Host.Outcome.next (State.alertResponse_eq.trans (if_pos ⟨hon, hi, ha⟩)), rfl, ha⟩
  case accepted =>
    exact ⟨_, congrArg Host.Outcome.next (State.eventAccepted_of_cons he), State.alertLow_iff.2 (.inl (List.cons_ne_nil f r))⟩

end Sys2Proof.Machine
end

section
/-! Firmware (spec/14): an update in service and an update over PLDM. -/

namespace Sys2Proof.Machine

/-! ### Registers that a notice leaves (R314 to R320) -/

section
variable {s : State} {P B O : Nat}

theorem State.reg_progress_ne (page bank phase bp pos : Nat) (hO : O < 4096) (h : O ≠ R.HDR_PROGRESS) (hpos : O ≠ R.HDR_PROGRESS_POS) :
    (s.progress page bank phase bp pos).reg P B O = s.reg P B O :=
  (State.reg_setReg_ne _ _ (rkey_ne_of_off_ne hpos hO (by decide))).trans (State.reg_setReg_ne _ _ (rkey_ne_of_off_ne h hO (by decide)))

theorem State.reg_raisePage_ne {page : Nat} (h : rkey P B O ≠ rkey page 0 R.HDR_PAGE_ERR) (bit : Nat) :
    (s.raisePage page bit).reg P B O = s.reg P B O := by
  unfold State.raisePage State.raiseBank
  dsimp only
  split
  · exact State.reg_setReg_ne _ _ h
  · exact State.reg_setReg_ne _ _ h

theorem State.reg_bump_if {c : Prop} [Decidable c] {p b o : Nat} (h : rkey P B O ≠ rkey p b o) (n : Nat) :
    (if c then s.bump p b o n else s).reg P B O = s.reg P B O := by
  split
  · exact State.reg_bump_ne _ _ h
  · rfl

/-- An open record of the same source does not make a notice severer (R320). -/
theorem Ring.escalates_of_notice {cause : Nat} (hn : isNotice cause = true) (r : Ring) (page key : Nat) : r.escalates page key cause = false := by
  simp [Ring.escalates, hn]

theorem Ring.finalSev_of_notice {cause : Nat} (hn : isNotice cause = true) (hs : baseSev cause = sevCE) (r : Ring) (page key : Nat) (infra : Bool) :
    r.finalSev page key cause infra = sevCE := by
  simp [Ring.finalSev, Ring.escalates_of_notice hn, hs, sevCE, sevPF]

/-- A notice is written to the package ring, and counts on its page and, where its slot holds an open record, in the ring's own counter. -/
theorem State.reg_putErr_of_notice {e : ErrSrc} {cause : Nat} (hn : isNotice cause = true) (hs : baseSev cause = sevCE)
    (hring : ∀ {o}, rkey P B O ≠ rkey e.ring 0 o) (hpage : rkey P B O ≠ rkey e.page 0 R.HDR_CNT_ERR_CE) (detail : Nat) :
    (s.putErr e cause detail).reg P B O = s.reg P B O := by
  unfold State.putErr
  simp only [Ring.finalSev_of_notice hn hs, Ring.escalates_of_notice hn, Bool.false_eq_true, if_false, show sevCE ≠ sevDF by decide]
  refine (State.reg_bump_ne _ _ hpage).trans ?_
  exact State.reg_bump_if hring 1

theorem State.reg_pkgNotice {page cause : Nat} (hn : isNotice cause = true) (hs : baseSev cause = sevCE) (hc : isCounted cause = false)
    (hP : P < pgPkgErr) (hB : B < 131072) (hO : O < 4096) (hpage : rkey P B O ≠ rkey page 0 R.HDR_CNT_ERR_CE) (detail : Nat) :
    (s.pkgNotice page cause detail).reg P B O = s.reg P B O := by
  generalize he : ({ s.srcOf page 0 with pkg := true } : ErrSrc) = e
  have hring : e.ring = pgPkgErr := by simp [← he, ErrSrc.ring, ringPageOf]
  have hput : (s.putErr e cause detail).reg P B O = s.reg P B O :=
    State.reg_putErr_of_notice hn hs (fun {o} => by rw [hring]; exact rkey_ne_of_page_lt hP hB hO) (he ▸ hpage) detail
  have hrep : (s.ring e.ring).repeatOf e.page e.key cause = none := by simp [Ring.repeatOf, hc]
  have hsignal : ∀ u : State, (u.signalErr e sevCE).reg P B O = u.reg P B O := by
    intro u
    unfold State.signalErr
    rw [if_neg (by decide)]
    split
    · dsimp only
      split <;> rfl
    · rfl
  rw [State.pkgNotice, he, State.logErr, hrep, Ring.finalSev_of_notice hn hs]
  exact (hsignal _).trans hput

end

/-! ### The start and the end of an update (R369) -/

section
variable {s : State}

theorem State.writeReg_fwCtrl {v : Nat} (ht : s.takesWord 0 pgPkgMgr R.PKG_MGR_FW_CTRL = true) :
    s.writeReg 0 pgPkgMgr R.PKG_MGR_FW_CTRL 4 v = s.acts 0 pgPkgMgr R.PKG_MGR_FW_CTRL (v % 2 ^ 32 &&& (2 ^ 32 - 1) &&& 3) :=
  State.writeReg_act ht (by decide +kernel) (by decide +kernel) (by decide +kernel) (by decide) (by decide +kernel)

theorem State.acts_fwCtrl (v : Nat) : s.acts 0 pgPkgMgr R.PKG_MGR_FW_CTRL v =
    let u := if v.testBit 0 then s.fwStart false else s
    if v.testBit 1 then u.fwCancel else u := by
  rw [State.acts, show assignedType pgPkgMgr = .pkgMgr from rfl]
  exact if_pos rfl

theorem exec_fwUpdate (ht : s.takesWord 0 pgPkgMgr R.PKG_MGR_FW_CTRL = true) : exec (.fwUpdate 0) s = .next (s.fwStart false) := by
  change execFwUpdate 0 s = _
  rw [execFwUpdate, State.writeReg_fwCtrl ht, State.acts_fwCtrl]
  dsimp only
  rw [if_neg (by decide), if_pos (by decide)]

theorem exec_fwCancel (ht : s.takesWord 0 pgPkgMgr R.PKG_MGR_FW_CTRL = true) : exec (.cancel 0) s = .next s.fwCancel := by
  change execCancel 0 s = _
  rw [execCancel, State.writeReg_fwCtrl ht, State.acts_fwCtrl]
  dsimp only
  rw [if_pos (by decide), if_neg (by decide)]

/-- A write to another register of the package manager leaves FW_STATUS, which stands at 0x110. -/
theorem State.fwStatus_setReg {f : Fld} (hf : f.off = 0x110) {o : Nat} (ho : o ≠ 0x110) (v : Nat) :
    (s.setReg pgPkgMgr 0 o v).fld pgPkgMgr 0 f = s.fld pgPkgMgr 0 f :=
  State.fld_setReg_ne _ _ (rkey_off (hf ▸ ho.symm))

theorem State.fwStatus_progress {f : Fld} (hf : f.off = 0x110) (phase bp pos : Nat) :
    (s.progress pgPkgMgr 0 phase bp pos).fld pgPkgMgr 0 f = s.fld pgPkgMgr 0 f :=
  State.fld_progress_ne _ _ _ _ _ (by omega) (by rw [hf]; decide) (by rw [hf]; decide)

theorem State.fwState_setFwState (v : Nat) : (s.setFwState v).fwState = v % 8 := State.fld_setFld _ _ _ _ (by decide) (by decide)

/-- The registers of an update that begins. -/
def State.fwBegun (s : State) : State :=
  (((s.setFwState 1).setFld pgPkgMgr 0 F.PKG_MGR_FW_STATUS_ERR 0).bump pgPkgMgr 0 R.PKG_MGR_FW_UPDATES 1).progress pgPkgMgr 0 1 0 0

/-- Without an update that runs or awaits activation, a source in HBM is taken. -/
theorem State.fwStart_of_usable (h1 : s.fwState ≠ 1) (h2 : s.fwState ≠ 2) (h3 : s.fwState ≠ 3) (hp : s.reg pgPkgMgr 0 R.PKG_MGR_FW_PENDING = 0)
    (hlen : s.reg pgPkgMgr 0 R.PKG_MGR_FW_LEN ≠ 0) (hhbm : isHost (s.reg pgPkgMgr 0 R.PKG_MGR_FW_SRC) = false)
    (hres : s.inReservation 0 (s.reg pgPkgMgr 0 R.PKG_MGR_FW_SRC)
      (s.reg pgPkgMgr 0 R.PKG_MGR_FW_SRC + s.reg pgPkgMgr 0 R.PKG_MGR_FW_LEN - 1) = true) (byPldm : Bool) :
    s.fwStart byPldm = { s.fwBegun with fw := { s.fw with byPldm := byPldm, second := false } } := by
  have hidle : ¬ (1 ≤ s.fwState ∧ s.fwState ≤ 3) := by omega
  unfold State.fwStart
  dsimp only
  rw [if_neg (by simpa using hidle), if_neg (not_not_intro hp), if_neg (by simp [hlen, hhbm, hres])]
  rfl

theorem State.fwBegun_spec (s : State) :
    s.fwBegun.fwState = 1 ∧ s.fwBegun.fld pgPkgMgr 0 F.PKG_MGR_FW_STATUS_ERR = 0 ∧
      s.fwBegun.reg pgPkgMgr 0 R.PKG_MGR_FW_UPDATES = (s.reg pgPkgMgr 0 R.PKG_MGR_FW_UPDATES + 1) % 2 ^ 64 := by
  refine ⟨?_, ?_, ?_⟩
  · rw [State.fwBegun, State.fwState, State.fwStatus_progress rfl, State.bump, State.fwStatus_setReg rfl (by decide),
      State.fld_setFld_beside _ _ _ _ (by decide)]
    exact State.fwState_setFwState 1
  · rw [State.fwBegun, State.fwStatus_progress rfl, State.bump, State.fwStatus_setReg rfl (by decide)]
    exact State.fld_setFld _ _ _ _ (by decide) (by decide)
  · rw [State.fwBegun, State.reg_progress_ne _ _ _ _ _ (by decide) (by decide) (by decide), State.bump, State.reg_setReg,
      State.reg_setFld_ne _ _ (rkey_off (by decide)), State.setFwState, State.reg_setFld_ne _ _ (rkey_off (by decide))]

/-- The record of a failed update leaves FW_STATUS with the error. -/
theorem State.fwStatus_fwErr {f : Fld} (hf : f.off = 0x110) (e : Nat) :
    (s.fwErr e).fld pgPkgMgr 0 f = (s.setFld pgPkgMgr 0 F.PKG_MGR_FW_STATUS_ERR e).fld pgPkgMgr 0 f := by
  have hkey : ∀ {o}, o ≠ 0x110 → rkey pgPkgMgr 0 f.off ≠ rkey pgPkgMgr 0 o := fun ho => rkey_off (hf ▸ ho.symm)
  rw [State.fwErr, State.fld, State.reg_pkgNotice (by decide) (by decide) (by decide) (by decide) (by decide) (by omega) (hkey (by decide)),
    State.reg_raisePage_ne (hkey (by decide))]
  rfl

theorem State.fwFail_spec (s : State) (e : Nat) :
    (s.fwFail e).fwState = 0 ∧ (s.fwFail e).fld pgPkgMgr 0 F.PKG_MGR_FW_STATUS_ERR = e % 256 := by
  have hfail : ∀ {f : Fld}, f.off = 0x110 → (s.fwFail e).fld pgPkgMgr 0 f =
      ((s.setFwState 0).setFld pgPkgMgr 0 F.PKG_MGR_FW_STATUS_ERR e).fld pgPkgMgr 0 f := fun hf => State.fwStatus_fwErr hf e
  refine ⟨?_, (hfail rfl).trans (State.fld_setFld _ _ _ _ (by decide) (by decide))⟩
  rw [State.fwState, hfail rfl, State.fld_setFld_beside _ _ _ _ (by decide)]
  exact State.fwState_setFwState 0

/-! ### The check and the flash write (R370, R371) -/

theorem State.fld_flashErase (s : State) (a n page bank : Nat) (f : Fld) : (s.flashErase a n).fld page bank f = s.fld page bank f := rfl

/-- An update whose image passed: the flash is erased before it is written. -/
def State.fwErasing (s : State) : State :=
  (((s.setFwState 2).setFld pgPkgMgr 0 F.PKG_MGR_FW_STATUS_FLASH_VALID 0).flashErase flImage imageMax).progress pgPkgMgr 0 2 0 0

theorem State.fwErasing_spec (s : State) :
    s.fwErasing.fwState = 2 ∧ s.fwErasing.fld pgPkgMgr 0 F.PKG_MGR_FW_STATUS_FLASH_VALID = 0 := by
  have hfld : ∀ {f : Fld}, f.off = 0x110 → s.fwErasing.fld pgPkgMgr 0 f =
      ((s.setFwState 2).setFld pgPkgMgr 0 F.PKG_MGR_FW_STATUS_FLASH_VALID 0).fld pgPkgMgr 0 f :=
    fun hf => (State.fwStatus_progress hf ..).trans (State.fld_flashErase ..)
  refine ⟨?_, (hfld rfl).trans (State.fld_setFld _ _ _ _ (by decide) (by decide))⟩
  rw [State.fwState, hfld rfl, State.fld_setFld_beside _ _ _ _ (by decide)]
  exact State.fwState_setFwState 2

section
variable (hst : s.fwState = 1) (hrun : s.pkgStopped = false)
include hst hrun

theorem State.fwChecked_of_good (hc : imageCheck s.boot.minSvn s.boot.revoked s.fwSrc = 0) : s.fwChecked = s.fwErasing := by
  rw [State.fwChecked, if_neg (by simp [hst, hrun]), hc]
  rfl

theorem State.fwChecked_of_bad (hc : imageCheck s.boot.minSvn s.boot.revoked s.fwSrc ≠ 0) :
    s.fwChecked = s.fwFail (imageCheck s.boot.minSvn s.boot.revoked s.fwSrc) := by
  rw [State.fwChecked, if_neg (by simp [hst, hrun])]
  split
  · next h0 => exact absurd h0 hc
  · rfl

end

/-- The update's source written over the image in flash. -/
def State.fwRewritten (s : State) : State :=
  (s.flashErase flImage imageMax).flashWrite flImage (imgBytes s.fwSrc 0 (s.reg pgPkgMgr 0 R.PKG_MGR_FW_LEN))

/-- The new image in flash, and valid there. -/
def State.fwInFlash (s : State) : State :=
  ((s.fwRewritten.measured.setFld pgPkgMgr 0 F.PKG_MGR_FW_STATUS_FLASH_VALID 1).setReg pgPkgMgr 0 R.PKG_MGR_FW_FLASH
    (imgVersion s.fwRewritten.flashSrc)).setFwState 4

theorem State.fwWritten_of_good (hst : s.fwState = 2) : s.fwWritten true = if s.fw.byPldm then s.fwInFlash else s.fwInFlash.fwActivate :=
  if_neg (not_not_intro hst)

theorem State.fwRewritten_within (s : State) : Within 0x200 s s.fwRewritten := State.flashWrite_ok rfl (State.flashErase_ok rfl (.rfl _ _))

theorem State.fwInFlash_within (s : State) : Within 0x100000010 s.fwRewritten s.fwInFlash :=
  State.setFwState_ok rfl (State.setReg_ok rfl (State.setFld_ok rfl (State.measured_ok rfl (.rfl _ _))))

theorem State.fwInFlash_spec (s : State) :
    s.fwInFlash.fwState = 4 ∧ s.fwInFlash.fld pgPkgMgr 0 F.PKG_MGR_FW_STATUS_FLASH_VALID = 1 := by
  rw [State.fwInFlash]
  refine ⟨State.fwState_setFwState 4, ?_⟩
  rw [State.setFwState, State.fld_setFld_beside _ _ _ _ (by decide), State.fwStatus_setReg rfl (by decide)]
  exact State.fld_setFld _ _ _ _ (by decide) (by decide)

/-! ### Activation (R371) -/

/-- The partitions of a list await their move. -/
def State.fwAwait (s : State) (l : List Nat) : State := l.foldl (fun s p => s.updPart p (fun x => { x with fwPending := true })) s

theorem State.fwPending_fwAwait (l : List Nat) {p : Nat} (h : p ∈ l ∨ (s.part p).fwPending = true) : ((s.fwAwait l).part p).fwPending = true := by
  induction l generalizing s with
  | nil => exact h.resolve_left List.not_mem_nil
  | cons k r ih =>
    refine ih (s := s.updPart k _) ?_
    by_cases hk : p = k
    · subst hk
      exact .inr (congrArg PartX.fwPending (State.part_setPart ..))
    · rw [State.updPart, State.part_setPart_ne _ _ hk]
      exact h.imp_left fun hm => (List.mem_cons.1 hm).resolve_left hk

theorem State.fwAwait_within (s : State) (l : List Nat) : Within 0x1000 s (s.fwAwait l) := .fold (fun _ _ h => State.updPart_ok rfl h) (.rfl _ s)

theorem State.fwStatus_fwActivate {f : Fld} (hf : f.off = 0x110) : s.fwActivate.fld pgPkgMgr 0 f = s.fld pgPkgMgr 0 f :=
  (State.fld_congr ((State.fwAwait_within _ _).regs rfl) ..).trans
    ((State.fwStatus_progress hf ..).trans (State.fwStatus_setReg hf (by decide) _))

theorem State.partNums_congr {t : State} (h : t.parts = s.parts) : t.partNums = s.partNums := by
  rw [State.partNums, State.partNums, h]

theorem State.fwPending_fwActivate {p : Nat} (h : p ∈ s.partNums) : (s.fwActivate.part p).fwPending = true :=
  State.fwPending_fwAwait s.partNums (.inl h)

/-- A partition that moves to the image in flash, and the counts of its move. -/
def State.fwMoved (s : State) (p : Nat) : State :=
  ((s.updPart p (fun x => { x with fwPending := false, fwVersion := s.reg pgPkgMgr 0 R.PKG_MGR_FW_FLASH })).bump pgPkgMgr 0
    R.PKG_MGR_FW_RELOADS 1).bump pgPkgMgr 0 R.HDR_PROGRESS_POS 1

theorem State.fwMove_of_idle {p : Nat} (hs : (s.part p).state ≠ 0) (hp : (s.part p).fwPending = true) (hi : s.partIdle p = true)
    (hrun : s.pkgStopped = false) : s.fwMove p = (s.fwMoved p).fwSettle :=
  if_neg (by simp [hs, hp, hi, hrun])

theorem State.fwMove_spec (s : State) (p : Nat) :
    (((s.fwMoved p).fwSettle).part p).fwPending = false ∧
      (((s.fwMoved p).fwSettle).part p).fwVersion = s.reg pgPkgMgr 0 R.PKG_MGR_FW_FLASH ∧
      ∀ x, x ≠ p → ((s.fwMoved p).fwSettle).part x = s.part x := by
  have hW : Within 0x10 (s.fwMoved p) (s.fwMoved p).fwSettle := .of State.fwSettle_ok
  have hpart : ∀ x, (s.fwMoved p).fwSettle.part x =
      (s.updPart p (fun x => { x with fwPending := false, fwVersion := s.reg pgPkgMgr 0 R.PKG_MGR_FW_FLASH })).part x :=
    State.part_congr (hW.parts rfl)
  rw [hpart, State.updPart, State.part_setPart]
  exact ⟨rfl, rfl, fun x hx => (hpart x).trans (State.part_setPart_ne _ _ hx)⟩

end

/-- Settles O25: the start of an update, its check, its flash write and the move of a partition, each stated once above. That a partition moves in one
step is DEDUCED log 105. -/
theorem firmwareUpdateActs : Obligations.FirmwareUpdateActs := by
  intro s
  refine ⟨fun ht h1 h2 h3 hp hlen hhbm hres => ?start, fun ht hst => ?cancel, fun hst hrun => ⟨fun hc => ?good, fun hc => ?bad⟩,
    fun hst => ?written, fun p hs hp hi hrun => ?move⟩
  case start =>
    obtain ⟨hstate, herr, hcount⟩ := s.fwBegun_spec
    exact ⟨_, (exec_fwUpdate ht).trans (congrArg Host.Outcome.next (State.fwStart_of_usable h1 h2 h3 hp hlen hhbm hres false)), hstate, herr, rfl, rfl, hcount⟩
  case cancel =>
    obtain ⟨hstate, herr⟩ := s.fwFail_spec 11
    have hW : Within 0x2200040010 s (s.fwFail 11) := .of State.fwFail_ok
    exact ⟨_, (exec_fwCancel ht).trans (congrArg Host.Outcome.next (if_pos hst)), hstate, herr, hW.flash rfl, hW.hbm rfl⟩
  case good =>
    obtain ⟨hstate, hvalid⟩ := s.fwErasing_spec
    exact ⟨_, congrArg Host.Outcome.next (State.fwChecked_of_good hst hrun hc), hstate, hvalid, rfl, rfl⟩
  case bad =>
    obtain ⟨hstate, herr⟩ := s.fwFail_spec (imageCheck s.boot.minSvn s.boot.revoked s.fwSrc)
    have hW : Within 0x2200040010 s (s.fwFail (imageCheck s.boot.minSvn s.boot.revoked s.fwSrc)) := .of State.fwFail_ok
    exact ⟨_, congrArg Host.Outcome.next (State.fwChecked_of_bad hst hrun hc), hstate, hW.flash rfl, hW.hbm rfl, herr⟩
  case written =>
    obtain ⟨hstate, hvalid⟩ := s.fwInFlash_spec
    have hR := s.fwRewritten_within
    have hF := s.fwInFlash_within
    refine ⟨_, congrArg Host.Outcome.next (State.fwWritten_of_good hst), ?_⟩
    split
    · next hb => exact ⟨hstate, hvalid, (hF.hbm rfl).trans (hR.hbm rfl), hF.flash rfl, fun h => absurd hb (ne_true_of_eq_false h)⟩
    · have hW : Within 0x300001010 s.fwRewritten s.fwInFlash.fwActivate := State.fwActivate_ok rfl (hF.mono rfl)
      have hparts := State.partNums_congr ((hF.parts rfl).trans (hR.parts rfl))
      exact ⟨(State.fwStatus_fwActivate rfl).trans hstate, (State.fwStatus_fwActivate rfl).trans hvalid, (hW.hbm rfl).trans (hR.hbm rfl),
        hW.flash rfl, fun _ p hp => State.fwPending_fwActivate (by rwa [hparts])⟩
  case move =>
    obtain ⟨hpend, hversion, hothers⟩ := s.fwMove_spec p
    have hW : Within 0x10 (s.fwMoved p) (s.fwMoved p).fwSettle := .of State.fwSettle_ok
    exact ⟨_, congrArg Host.Outcome.next (State.fwMove_of_idle hs hp hi hrun), hpend, hversion, hothers, hW.queues rfl, hW.hbm rfl⟩

/-! ### An update over PLDM (R361) -/

section
variable {s : State}

/-- The counts of a message leave the registers of every other page. -/
theorem State.reg_heard {P B O : Nat} (hP : P < pgSideband) (hB : B < 131072) (hO : O < 4096) : s.heard.reg P B O = s.reg P B O :=
  (State.reg_bump_ne _ _ (rkey_ne_of_page_lt hP hB hO)).trans (State.reg_bump_ne _ _ (rkey_ne_of_page_lt hP hB hO))

theorem State.fwState_heard : s.heard.fwState = s.fwState :=
  congrArg (bitsOf · _ _) (State.reg_heard (by decide) (by decide) (by decide))

section
variable (hon : s.power.inputOn = true)
include hon

theorem State.fwParams_of_inputOn :
    s.fwParams = s.heard.say [puPARAMS, 0, s.reg pgPkgMgr 0 R.PKG_MGR_FW_RUNNING_PKG, s.reg pgPkgMgr 0 R.PKG_MGR_FW_FLASH] := by
  rw [State.fwParams, State.pldm_of_inputOn hon, State.reg_heard (by decide) (by decide) (by decide),
    State.reg_heard (by decide) (by decide) (by decide)]

theorem State.requestUpdate_of_idle (h0 : s.fw.pldmState = 0) (hfw : s.fwState = 0 ∨ 3 < s.fwState) :
    s.requestUpdate = (s.heard.setPldm 1).say [puREQUEST, 0] := by
  have hidle : ¬ (1 ≤ s.fwState ∧ s.fwState ≤ 3) := by omega
  rw [State.requestUpdate, State.pldm_of_inputOn hon, State.fwState_heard]
  exact if_neg (by simpa [h0] using hidle)

theorem State.passTable_of_known {comp : Nat} (hst : s.fw.pldmState = 1 ∨ s.fw.pldmState = 2) (h1 : 1 ≤ comp) (h3 : comp ≤ 3) :
    s.passTable comp = (s.heard.setPldm 2).say [puTABLE, 0, comp] :=
  (State.pldm_of_inputOn hon _).trans (if_pos (by rcases hst with h | h <;> simp [h, h1, h3]))

/-- A transfer that begins: the module asks for the first chunk. -/
theorem State.updateComponent_of_fitting {comp size : Nat} (hst : s.fw.pldmState = 2) (hc : s.compOk comp = true) (h0 : 0 < size)
    (hmax : size ≤ compMax comp) :
    s.updateComponent comp size =
      (({ s.heard with
          fw := { s.fw with pldmState := 3, pldmComp := comp, pldmSize := size, pldmGot := 0, pldmData := [] } } : State).say
        [puUPDATE, 0]).say [puDATA, 0, min 1024 size] := by
  have hc' : s.heard.compOk comp = true := hc
  exact (State.pldm_of_inputOn hon _).trans (if_pos (by simp [hst, hc', h0, hmax]))

/-- A chunk of a record or a chain that comes in its turn joins what has come. -/
theorem State.firmwareData_of_expected {data : List Byte} (hst : s.fw.pldmState = 3) (hcomp : s.fw.pldmComp ≠ 1)
    (hlen : data.length = min 1024 (s.fw.pldmSize - s.fw.pldmGot)) (hdata : data ≠ []) :
    s.firmwareData s.fw.pldmGot data =
      let u : State := { s.heard with
        fw := { s.fw with pldmData := s.fw.pldmData ++ data, pldmGot := s.fw.pldmGot + data.length } }
      if s.fw.pldmGot + data.length < s.fw.pldmSize then
        u.say [puDATA, s.fw.pldmGot + data.length, min 1024 (s.fw.pldmSize - (s.fw.pldmGot + data.length))]
      else u.say [puTRANSFER, 0] := by
  rw [State.firmwareData, State.pldm_of_inputOn hon]
  refine (if_neg (by simp [hst, ← hlen, hdata])).trans ?_
  have hrecord : ∀ a b : State, (if s.heard.fw.pldmComp = 1 then a else b) = b := fun _ _ => if_neg hcomp
  rw [hrecord]
  rfl

theorem State.transferComplete_of_all (hst : s.fw.pldmState = 3) (hcomp : s.fw.pldmComp ≠ 1) (hgot : s.fw.pldmGot = s.fw.pldmSize) :
    s.transferComplete = (s.heard.setPldm 4).say [puTRANSFER, 0] :=
  (State.pldm_of_inputOn hon _).trans ((if_neg (by simp [hst, hgot])).trans ((if_neg (by simp [hcomp])).trans (if_neg hcomp)))

theorem State.verifyComplete_of_record (hst : s.fw.pldmState = 4) (hcomp : s.fw.pldmComp ≠ 1) :
    s.verifyComplete = (s.heard.setPldm 5).say [puVERIFY, 0] :=
  (State.pldm_of_inputOn hon _).trans (if_pos (by simp [hst, hcomp]))

/-- A chain is applied by writing it to its region. -/
theorem State.applyComplete_of_chain (hst : s.fw.pldmState = 5) (hcomp : s.fw.pldmComp = 3) :
    s.applyComplete = (((s.heard.flashErase flCert 0x10000).flashWrite flCert s.fw.pldmData).setPldm 6).say [puAPPLY, 0] := by
  rw [State.applyComplete, State.pldm_of_inputOn hon]
  simp [hst, hcomp]

theorem State.activate_of_applied (hst : s.fw.pldmState = 6) (hby : s.fw.byPldm = false) :
    s.activate = (s.heard.setPldm 0).say [puACTIVATE, 0, 1] := by
  rw [State.activate, State.pldm_of_inputOn hon]
  simp [hst, hby]

theorem State.cancelPldm_of_transfer (hst : s.fw.pldmState ≠ 0) (hby : s.fw.byPldm = false) (cmd dest : Nat) :
    s.cancelPldm cmd dest = (({ s.heard with boot := { s.boot with pushAt := none } } : State).setPldm dest).say [cmd, 0] := by
  rw [State.cancelPldm, State.pldm_of_inputOn hon]
  simp [hst, hby]

end

end

/-- Settles O23: one rule for each command. Which commands a state of the update admits is DEDUCED log 80, answers are messages of `State.out` (DESIGN
CHOICE log 3). -/
theorem pldmUpdateSteps : Obligations.PldmUpdateSteps := by
  intro s hon u
  refine ⟨?ids, ?params, ?status, fun h0 hfw => ?request, fun comp hst h1 h3 => ?table, fun comp size hst hc h0 hmax => ?component,
    fun data hst hcomp hlen hdata => ?data, fun hst hcomp hgot => ?transfer, fun hst hcomp => ?verify, fun hst hcomp => ?apply,
    fun hst hby => ?activate, fun hst hby => ⟨?cancelComponent, ?cancel⟩⟩
  case ids | status => exact congrArg Host.Outcome.next (State.pldm_of_inputOn hon _)
  case params => exact congrArg Host.Outcome.next (State.fwParams_of_inputOn hon)
  case request => exact congrArg Host.Outcome.next (State.requestUpdate_of_idle hon h0 hfw)
  case table => exact congrArg Host.Outcome.next (State.passTable_of_known hon hst h1 h3)
  case component => exact ⟨_, congrArg Host.Outcome.next (State.updateComponent_of_fitting hon hst hc h0 hmax), rfl, rfl, rfl, rfl, rfl⟩
  case data =>
    refine ⟨_, congrArg Host.Outcome.next (State.firmwareData_of_expected hon hst hcomp hlen hdata), ?_⟩
    dsimp only
    split
    · exact ⟨rfl, rfl, hst, rfl⟩
    · exact ⟨rfl, rfl, hst, rfl⟩
  case transfer => exact congrArg (fun t : State => Host.Outcome.next t.sbEvents) (State.transferComplete_of_all hon hst hcomp hgot)
  case verify => exact congrArg Host.Outcome.next (State.verifyComplete_of_record hon hst hcomp)
  case apply =>
    generalize ht : (((s.heard.flashErase flCert 0x10000).flashWrite flCert s.fw.pldmData).setPldm 6).say [puAPPLY, 0] = t
    have hW : Within 0x2800000010 t t.sbEvents := .of State.sbEvents_ok
    refine ⟨_, congrArg (fun t : State => Host.Outcome.next t.sbEvents) ((State.applyComplete_of_chain hon hst hcomp).trans ht), ?_⟩
    rw [hW.fw rfl, hW.flash rfl, hW.hbm rfl, ← ht]
    exact ⟨rfl, rfl, rfl⟩
  case activate => exact congrArg Host.Outcome.next (State.activate_of_applied hon hst hby)
  case cancelComponent => exact ⟨_, congrArg Host.Outcome.next (State.cancelPldm_of_transfer hon hst hby ..), rfl, rfl, rfl⟩
  case cancel => exact ⟨_, congrArg Host.Outcome.next (State.cancelPldm_of_transfer hon hst hby ..), rfl, rfl, rfl⟩

end Sys2Proof.Machine
end

section
/-! Power states (spec/16): parking and the return from it, low power, AUX by command, and the cap. -/

namespace Sys2Proof.Machine

section
variable {s : State}

/-! ### POWER_CTRL (R403 to R405) -/

theorem State.sbEvents_within (s : State) : Within 0x2800000010 s s.sbEvents := .of State.sbEvents_ok

theorem State.writeReg_powerCtrl {v : Nat} (ht : s.takesWord 0 pgPower R.POWER_POWER_CTRL = true) :
    s.writeReg 0 pgPower R.POWER_POWER_CTRL 4 v = s.powerCtrl (v % 2 ^ 32 &&& (2 ^ 32 - 1) &&& 7) := by
  rw [State.writeReg_act (w := 7) ht (by decide +kernel) (by decide +kernel) (by decide +kernel) (by decide) (by decide +kernel), State.acts,
    show assignedType pgPower = .power from rfl]

theorem exec_park (ht : s.takesWord 0 pgPower R.POWER_POWER_CTRL = true) : exec (.park 0) s = .next s.park.sbEvents := by
  change execPark 0 s = _
  rw [execPark, State.writeReg_powerCtrl ht, State.powerCtrl]
  rw [if_neg (by decide), if_neg (by decide), if_pos (by decide)]

theorem exec_unpark (ht : s.takesWord 0 pgPower R.POWER_POWER_CTRL = true) : exec (.unpark 0) s = .next s.unpark.sbEvents := by
  change execUnpark 0 s = _
  rw [execUnpark, State.writeReg_powerCtrl ht, State.powerCtrl]
  rw [if_neg (by decide), if_pos (by decide), if_neg (by decide)]

theorem exec_aux (ht : s.takesWord 0 pgPower R.POWER_POWER_CTRL = true) : exec (.aux 0) s = .next (s.enterAux 7).sbEvents := by
  change execAux 0 s = _
  rw [execAux, State.writeReg_powerCtrl ht, State.powerCtrl]
  rw [if_pos (by decide), if_neg (by decide), if_neg (by decide)]

/-! ### Parking (R404) -/

theorem State.parkBegin_power (s : State) : s.parkBegin.power = { s.power with state := 6, since := s.timeNow, parkWait := false } := rfl

theorem State.park_of_ready (h3 : s.power.state = 3) (hok : s.parkOk = true) : s.park = s.parkBegin := by
  rw [State.park, if_pos h3, if_pos hok]

theorem State.autoPark_of_due (h3 : s.power.state = 3) (hauto : s.fld pgPower 0 F.POWER_POWER_CFG_AUTO_PARK = 1) (hok : s.parkOk = true)
    (hdue : s.power.idleSince + 1000000 * s.reg pgPower 0 R.POWER_AUTO_PARK_MS ≤ s.timeNow) : s.autoPark = s.parkBegin :=
  if_pos (by simp [h3, hauto, hok, hdue])

/-- A module that has parked, before its HBM sleeps: nothing has used HBM or links since. -/
def State.parked (s : State) : State :=
  let u := s.parkBegin
  (({ u with power := { u.power with state := 4, hbmUsed := none, linksUsed := none } } : State).setPower F.POWER_POWER_STATUS_STATE 4).setPower
    F.POWER_POWER_STATUS_LINKS_LP 1

theorem State.parked_power (s : State) :
    s.parked.power = { s.power with state := 4, since := s.timeNow, parkWait := false, hbmUsed := none, linksUsed := none } := rfl

theorem State.parked_within (s : State) : Within 0x400000010 s s.parked :=
  State.setPower_ok rfl (State.setPower_ok rfl (Within.upd_power rfl (State.parkBegin_ok rfl (.rfl _ s))))

/-- Beside `State.parked`, park entry changes registers alone. -/
theorem State.parkEntry_of_parking (hst : s.power.state = 6 ∨ (s.power.state = 3 ∧ s.power.parkWait = true)) (hok : s.parkOk = true) :
    Within 0x10 s.parked s.parkEntry := by
  have hparking : ((s.power.state = 6 || (s.power.state = 3 && s.power.parkWait)) && s.parkOk) = true := by
    rcases hst with h | ⟨h, hw⟩
    · simp [h, hok]
    · simp [h, hw, hok]
  rw [State.parkEntry, if_pos hparking]
  exact State.progress_ok rfl (State.bump_ok rfl (State.setHbmState_ok rfl (.rfl _ _)))

/-! ### Waking and the return to Ready (R404, R405) -/

theorem State.wake_of_parked (h4 : s.power.state = 4) :
    s.wake.power = { s.power with state := 5, since := s.timeNow, parkWait := false } := by
  rw [State.wake, if_pos (by simp [h4])]
  rfl

theorem State.unpark_of_parked (h4 : s.power.state = 4) : s.unpark = s.wake := if_pos (by simp [h4])

/-- A module that is Ready again, its HBM and links not used since. -/
def State.readyAgain (s : State) : State :=
  { s with power := { s.power with state := 3, returnT := s.timeNow, idleSince := s.timeNow, hbmUsed := none, linksUsed := none } }

/-- Where no PARK waits, the end of the return changes registers alone beside `State.readyAgain`. -/
theorem State.returnDone_of_returning (h5 : s.power.state = 5) (hw : s.power.parkWait = false) : Within 0x10 s.readyAgain s.returnDone := by
  rw [State.returnDone, if_neg (not_not_intro h5), hw]
  exact State.progress_ok rfl (State.setHbmState_ok rfl (State.setPower_ok rfl (State.setPower_ok rfl (.rfl _ _))))

/-! ### Low power 10 ms after the last use (R405) -/

section
variable {u : Nat} (h4 : s.power.state = 4) (hpast : u + 10000000 ≤ s.timeNow)
include h4 hpast

theorem State.hbmSleeps_of_unused (hu : s.power.hbmUsed = some u) :
    s.hbmSleeps = { (s.setHbmState 3) with power := { s.power with hbmUsed := none } } := by
  rw [State.hbmSleeps, hu]
  exact if_pos (by simp [h4, hpast])

theorem State.linksSleep_of_unused (hu : s.power.linksUsed = some u) :
    s.linksSleep = { (s.setPower F.POWER_POWER_STATUS_LINKS_LP 1) with power := { s.power with linksUsed := none } } := by
  rw [State.linksSleep, hu]
  exact if_pos (by simp [h4, hpast])

end

/-! ### AUX by command (R403) -/

theorem State.enterAux_of_mainOn (hm : s.mainOn = true) (cause : Nat) :
    (s.enterAux cause).power.cause = cause ∧ (s.enterAux cause).parts = [] ∧ (s.enterAux cause).queues = [] ∧ (s.enterAux cause).hbm = [] := by
  rw [State.enterAux, if_neg (by simp [hm])]
  dsimp only
  split
  · exact ⟨rfl, rfl, rfl, rfl⟩
  · exact ⟨rfl, rfl, rfl, rfl⟩

/-! ### The cap (R408) -/

/-- A write of live fields whose value its register does not simply store has the effect of `State.rejects`. -/
theorem State.writeAt_rejected {p page off mask v w : Nat} {u : State} (hp : s.pageType page ≠ .absent) (ho : ordinary page off = true)
    (hd : (regDesc? (assignedType page) off).isSome = true) (hc : bitsWith page off .rw1c &&& mask = 0) (hs : stagedMask page off &&& mask = 0)
    (hwo : bitsWith page off .wo &&& mask = 0) (hrw : bitsWith page off .rw &&& mask = 0) (hw : bitsWith page off .rwl &&& mask = w) (h0 : w ≠ 0)
    (hj : s.rejects p page (s.bankOf p page off) off (mergeStaged w (s.reg page (s.bankOf p page off) off) v) = some u) :
    s.writeAt p page off mask v = u := by
  have ht := State.pageType_eq hp
  obtain ⟨r, hr⟩ := Option.isSome_iff_exists.1 hd
  unfold State.writeAt
  unfold ordinary at ho
  simp only [bitsWith, hr] at hc hwo hrw hw
  rw [ht, hr]
  simp only [Bool.and_eq_true, decide_eq_true_eq, Bool.not_eq_true'] at ho
  obtain ⟨⟨⟨⟨⟨hctrl, hmask⟩, hstage⟩, -⟩, hjr⟩, -⟩ := ho
  simp only [hc, hs, hwo, hrw, hw, ne_eq, not_true_eq_false, if_false, hctrl, hmask, hstage, hjr, hj, h0, Nat.zero_or, decide_false,
    Bool.false_and, Bool.and_false, Bool.false_eq_true]

theorem exec_capWWrite {v : W32} (ht : s.takesWord 0 pgPower R.POWER_CAP_W = true) (hold : s.reg pgPower 0 R.POWER_CAP_W < 8192)
    (hlo : 2000 ≤ v.toNat) (hhi : v.toNat ≤ 4000) :
    exec (.capWWrite 0 v) s = .next ((s.setReg pgPower 0 R.POWER_CAP_W v.toNat).showPower) := by
  obtain ⟨ha, hp, h4, hres, hwin, ho, hd⟩ := State.takesWord_iff.1 ht
  have hnew : mergeStaged (2 ^ 13 - 1) (s.reg pgPower 0 R.POWER_CAP_W) (v.toNat % 2 ^ 32) = v.toNat := by
    rw [mergeStaged_all hold]
    omega
  have hset : s.rejects 0 pgPower 0 R.POWER_CAP_W v.toNat = some (s.setCap 0 v.toNat) := rfl
  change execCapWWrite 0 v s = _
  rw [execCapWWrite, State.writeReg_word ha hp h4 hres hwin hd, State.writeAt_rejected (w := 2 ^ 13 - 1) (State.present_of_accepts ha) ho hd
    (by decide +kernel) (by decide +kernel) (by decide +kernel) (by decide +kernel) (by decide +kernel) (by decide)
    ((congrArg (s.rejects 0 pgPower 0 R.POWER_CAP_W) hnew).trans hset), State.setCap, if_pos ⟨hlo, hhi⟩]

end

/-- Settles O18: one rule for each command, and that the events of the sideband keep what they state. -/
theorem parkingAndReturn : Obligations.ParkingAndReturn := by
  intro s
  refine ⟨fun ht => ⟨fun h3 hok => ?park, fun h4 => ?unpark, fun hm => ?aux⟩, fun hst hok => ?entry, fun h3 hauto hok hdue => ?auto,
    fun u hu h4 hpast => ?hbm, fun u hu h4 hpast => ?links, fun h5 hw => ?back, fun v ht hold hlo hhi => exec_capWWrite ht hold hlo hhi⟩
  case park =>
    have hW := s.parkBegin.sbEvents_within
    refine ⟨_, (exec_park ht).trans (congrArg (fun t : State => Host.Outcome.next t.sbEvents) (State.park_of_ready h3 hok)), ?_⟩
    rw [hW.power rfl, hW.queues rfl, State.parkBegin_power]
    exact ⟨rfl, rfl, rfl⟩
  case unpark =>
    have hW := s.wake.sbEvents_within
    have hwake : Within 0x400000010 s s.wake := .of State.wake_ok
    refine ⟨_, (exec_unpark ht).trans (congrArg (fun t : State => Host.Outcome.next t.sbEvents) (State.unpark_of_parked h4)), ?_⟩
    rw [hW.power rfl, hW.queues rfl, State.wake_of_parked h4]
    exact ⟨rfl, rfl, rfl, hwake.queues rfl⟩
  case aux =>
    have hW := (s.enterAux 7).sbEvents_within
    refine ⟨_, exec_aux ht, ?_⟩
    rw [hW.power rfl, hW.parts rfl, hW.queues rfl, hW.hbm rfl]
    exact State.enterAux_of_mainOn hm 7
  case entry =>
    have hW := (State.parkEntry_of_parking hst hok).mono (W := 0x2800000010) rfl |>.trans s.parkEntry.sbEvents_within
    refine ⟨_, rfl, ?_⟩
    rw [hW.power rfl, hW.hbm rfl, hW.parts rfl, State.parked_power]
    exact ⟨rfl, rfl, rfl, s.parked_within.hbm rfl, s.parked_within.parts rfl⟩
  case auto =>
    refine ⟨_, congrArg Host.Outcome.next (State.autoPark_of_due h3 hauto hok hdue), ?_⟩
    rw [State.parkBegin_power]
    exact ⟨rfl, rfl, rfl⟩
  case hbm =>
    have hW : Within 0x10 s (s.setHbmState 3) := .of State.setHbmState_ok
    exact ⟨_, congrArg Host.Outcome.next (State.hbmSleeps_of_unused h4 hpast hu), rfl, hW.hbm rfl⟩
  case links =>
    exact ⟨_, congrArg Host.Outcome.next (State.linksSleep_of_unused h4 hpast hu), rfl, State.fld_setFld _ _ _ _ (by decide) (by decide), rfl⟩
  case back =>
    have hW := (State.returnDone_of_returning h5 hw).mono (W := 0x2800000010) rfl |>.trans s.returnDone.sbEvents_within
    refine ⟨_, rfl, ?_⟩
    rw [hW.power rfl, hW.hbm rfl]
    exact ⟨rfl, rfl, rfl, rfl⟩

end Sys2Proof.Machine
end
